-- ==== Sys2Proof/Word.lean ====
section
/-! DEFINITION. The word types of the Gulad: bytes of memory and 32-bit register words (00_scope.md, R3, R4). -/
namespace Sys2Proof

/-- One byte of memory. -/
abbrev Byte := BitVec 8

/-- One BAR0 register word (02_register_pages.md, R32). -/
abbrev Word := BitVec 32

end Sys2Proof
end

