-- ==== Sys2Proof/Syntax.lean ====
section
/-! DEFINITION. The commands of the block: one constructor of `Instr` per row of spec/opcode_table.json, with the operands
that the rules of each step name. The table gives no operand bits (notes/assumptions/6.md). -/
namespace Sys2Proof

/-- One message of the Ranratre links (13_links.md, R307): a 16-byte header and, for ops 1, 2, 4, 5, 6 and 7, data. -/
structure Msg where
  op        : Nat
  vc        : Nat
  poison    : Bool
  skip      : Bool
  hops      : Nat
  code      : Nat
  dest      : Nat
  src       : Nat
  tag       : Nat
  addr      : Nat
  returnOld : Bool
  data      : List Byte
  /-- Bytes that a write carries where they are fewer than 256, 0 for all (notes/assumptions/19.md). -/
  short     : Nat := 0
  deriving DecidableEq, Repr

/-- What the reads of an operation met, seen at its barrier (10_scratchpad.md, R246, R248, R249): the addresses of words that
were corrected, of weight rows that were uncorrectable, and of activation words that were uncorrectable. -/
structure BarrierReads where
  corrected : List Nat
  weightBad : List Nat
  actBad    : List Nat
  deriving DecidableEq, Repr

/-- How a device read or write of LPDDR went (12_lpddr.md, R278, R290): the retries it took, and whether they ran out. -/
structure MemOutcome where
  retries     : Nat
  failed      : Bool
  corrected   : Bool
  addrCheck   : Bool
  unresponsive : Bool
  /-- The burst that this concerns, counted from the first that the access meets. -/
  burst       : Nat := 0
  /-- Command or address parity errors that the stack reported. -/
  parity      : Nat := 0
  /-- Retries of the write-back of an atomic, and whether they ran out. -/
  backRetries : Nat := 0
  backFailed  : Bool := false
  /-- Scratchpad words, by address, that have taken a correctable error before the access (R246). -/
  soft        : List Nat := []
  deriving DecidableEq, Repr

/-- Who makes an access to LPDDR (12_lpddr.md, R284, R291). -/
inductive MemAgent where
  | gather (bench : Nat)
  | gaffer (entry : Option Nat)
  | bar2
  | link (port : Nat)
  | mp
  deriving DecidableEq, Repr

/-- The payload of an Ethernet frame, as far as 14_packet_ports.md (R334) tells frames apart. -/
inductive EthBody where
  /-- A UDP datagram: IPv6 or not, addresses in the 16-byte form of R335, ports, the three checks, the payload. -/
  | udp (ipv6 : Bool) (dst src : List Byte) (dstPort srcPort : Nat) (ipOk udpOk : Bool) (zeroSum : Bool) (payload : List Byte)
  /-- An IEEE 1588 Sync whose exchange measured `offset` ns. -/
  | ptpSync (domain : Nat) (offset : Int)
  /-- Another IEEE 1588 event message, and a general message (Ethertype 0x88F7). -/
  | ptpEvent
  | ptpGeneral
  /-- An ARP request or Neighbour Solicitation for an address in the 16-byte form of R335, with its sender's address and MAC. -/
  | whoHas (ipv6 : Bool) (target sender : List Byte) (senderMac : Nat)
  /-- The answer to one: an address and its MAC. -/
  | isAt (addr : List Byte) (mac : Nat)
  /-- An ICMP or ICMPv6 echo request. -/
  | echo (ipv6 : Bool) (dst src : List Byte) (data : List Byte)
  /-- An IGMPv3 or MLDv2 query. -/
  | groupQuery (ipv6 : Bool)
  /-- Another frame of ARP, NDP, ICMP, ICMPv6, IGMPv3 or MLDv2. -/
  | control
  /-- A PAUSE frame. -/
  | pause
  | other
  deriving DecidableEq, Repr

/-- An Ethernet frame at a packet port. -/
structure EthFrame where
  dstMac : Nat
  vlan   : Option Nat
  fcsOk  : Bool
  bytes  : Nat
  body   : EthBody
  /-- The IPv4 header checksum and the UDP checksum of a body that does not carry them itself are right. -/
  sumsOk : Bool := true
  deriving DecidableEq, Repr

/-- A bench's readings in one window (16_damper.md, R385): eight sensors of °C, none for a reading that failed. -/
abbrev Reading := Option Int

/-- The damper's inputs of one window (16_damper.md, R385, R386): eight sensors of each bench, two of each I/O die, four of the
device area, and the measured energy in units of 10 pJ. -/
structure WindowIn where
  bench  : List (List Reading)
  ioDie  : List (List Reading)
  device : List Reading
  energy : Nat
  deriving DecidableEq, Repr

/-- Hello of a port's peer (13_links.md, R313). -/
structure HelloIn where
  nonce   : List Byte
  chip    : Nat
  idValid : Bool
  pub     : List Byte
  kem     : List Byte
  deriving DecidableEq, Repr

/-- How a port trained (13_links.md, R301). -/
structure TrainIn where
  ok       : Bool
  rate     : Nat
  features : Nat
  deriving DecidableEq, Repr

/-- Which rail left its range (20_package_boot.md, R461; 17_failover.md, R397). -/
inductive RailKind where
  /-- The core rail below 0.65 V for more than 5 µs. -/
  | coreLow
  /-- The core rail above 0.75 V for more than 5 µs. -/
  | coreHigh
  /-- An overcurrent of a rail. -/
  | overcurrent (rail : Nat)
  /-- A core-rail excursion that R461 leaves unspecified. -/
  | coreExcursion
  /-- Another rail out of range for longer than the limit. -/
  | other (rail : Nat)
  deriving DecidableEq, Repr

/-- One sub-channel's training of a memory site (12_lpddr.md, R277, R296). -/
structure SiteTrain where
  gen      : Nat
  rateMbps : Nat
  fail     : Nat
  margins  : List (List Nat)
  deriving DecidableEq, Repr

/-- The commands (spec/opcode_table.json). -/
inductive Instr where
  /- Register writes and the parison (02_register_pages.md). -/
  | registerWrite (addr size value : Nat)
  | shadowWrite (addr value : Nat)
  | stageRevert (page : Nat)
  | check
  | checkComplete
  | apply (whenBit : Nat)
  | abandon
  | parisonApplication
  /- BAR2 and reads with effects (18_host_resets_log.md). -/
  | bar2StreamWrite (off : Nat) (data : List Byte)
  | bar2ApertureAccess (off len : Nat) (write : Option (List Byte))
  | bar2DebugAccess (off len : Nat) (write : Option (List Byte))
  | cntNowRead (off : Nat := 0x100) (size : Nat := 4)
  | codebookWrite (word value : Nat)
  /- Barriers of operations (chapters 04 to 09 and 13). -/
  | matrix (b : BarrierReads)
  | vector (b : BarrierReads)
  | gate (b : BarrierReads)
  | expertRouting (b : BarrierReads)
  | conversion (b : BarrierReads)
  | recurrence (b : BarrierReads)
  | parallelScan (b : BarrierReads)
  | attention (b : BarrierReads)
  | kvAppend (b : BarrierReads)
  | kvStage (b : BarrierReads)
  | kvRestore (b : BarrierReads)
  | convolution (b : BarrierReads)
  | pooling (b : BarrierReads)
  | eventDecoding (b : BarrierReads)
  | allReduce (b : BarrierReads)
  | reduceScatter (b : BarrierReads)
  | allGather (b : BarrierReads)
  | broadcast (b : BarrierReads)
  | kvRingRotation (b : BarrierReads)
  | secondChancePass (b : BarrierReads)
  | attentionMergePass (b : BarrierReads)
  | weightReissue (b : BarrierReads)
  /- Sweeps and timers of streams (03_streams_and_sweeps.md). -/
  | sweepClose (image : Nat)
  | sourceTimeout (entry : Nat)
  | barrierWatchdog
  /- Damper (16_damper.md). -/
  | windowOpen (w : WindowIn)
  | benchPowerGood (bench : Nat)
  /- Gather engines (11_gather.md). -/
  | gatherTransferIssue (bench : Nat)
  | transferLand (id : Nat) (m : MemOutcome)
  | weightReloadComplete (image : Nat)
  /- Scratchpad (10_scratchpad.md). -/
  | scratchpadAtomic (bench addr code : Nat) (data : List Byte) (returnOld : Bool)
  | scratchpadPatrol (core : Nat) (corrected bad : List Nat)
  | scrubComplete (image : Nat) (region : Nat := 0)
  | scrubHold (value : Nat)
  /- External memory (12_lpddr.md). -/
  | lpddrAccess (agent : MemAgent) (addr len : Nat) (write : Option (List Byte)) (m : MemOutcome)
  | lpddrAtomic (agent : MemAgent) (addr code : Nat) (data : List Byte) (returnOld : Bool) (m : MemOutcome)
  | lpddrPatrol (site : Nat) (corrected bad : List Nat) (wrong : List Nat := [])
  | stackTempRead (site : Nat) (reading : Reading)
  | xmcEnableWrite (site value : Nat)
  | marginGo (site value : Nat)
  | marginDone (site low high : Nat) (failed : Bool)
  | lpddrDeferExpire (id : Nat)
  /- Links and collectives (13_links.md). -/
  | frameReceive (port : Nat) (lines : List (List Byte)) (spoiled : List Nat := [])
  | readRequest (port : Nat) (m : Msg) (mem : MemOutcome)
  | readResponse (port : Nat) (m : Msg)
      (mem : MemOutcome := { retries := 0, failed := false, corrected := false, addrCheck := false, unresponsive := false })
  | write (port : Nat) (m : Msg) (mem : MemOutcome)
  | writeAcknowledgement (port : Nat) (m : Msg)
  | remoteScratchpadAtomic (port : Nat) (m : Msg)
  | remoteMemoryAtomic (port : Nat) (m : Msg) (mem : MemOutcome)
  | streamSamples (port : Nat) (m : Msg)
  | collective (port : Nat) (m : Msg)
  | slowNotice (port : Nat) (m : Msg)
  | doneNotice (port : Nat) (m : Msg)
  | suspectReport (port : Nat) (m : Msg)
  | slowNoticeSend
  | roundTimeout (image collId entry chunk : Nat)
  | hello (port : Nat) (h : HelloIn)
  | keyEncapsulation (port : Nat) (cipher signature : List Byte)
  | keyHandshakeTimeout (port : Nat)
  | rekeyDue (port : Nat)
  | rekey (port : Nat)
  | retrain (port : Nat)
  | linkTrainComplete (port : Nat) (t : TrainIn)
  | laneFail (port lane : Nat)
  | stopMarkerReceive (port : Nat)
  /- Packet ports (14_packet_ports.md). -/
  | pktFrameReceive (port : Nat) (f : EthFrame)
  | packetFillTimeout (entry : Nat) (standby : Bool := false)
  | packetForm (entry : Nat)
  | ptpAnnounceTimeout
  | ptpHoldoverExpire
  /- Audio ports (15_audio_ports.md). -/
  | inputBlockLand (port : Nat) (codes : List (List Nat)) (pinTime lastEnd : Nat)
  | outputTake (entry frame pin : Nat)
  | iecBlockReceive (port : Nat) (status user : List Bool)
  | lockLoss (port : Nat) (codes : List (List Nat)) (pinTime lastEnd : Nat)
  | lockAcquire (port gap : Nat)
  | aptStart (port : Nat)
  | prerollEnd (port : Nat)
  | aptStop (port : Nat)
  | stopEnd (port : Nat)
  | steerUpdate (gen : Nat) (pins : List (Nat × Nat × Nat))
  /- System counter (16_damper.md). -/
  | syncPulse (stamp : Nat)
  | syncHoldover
  | cntSet
  | cntAlign
  /- Faults and failover (17_failover.md). -/
  | pntFailstopCmd (word : Nat)
  | mpWatchdogExpire
  | benchPowerLoss (bench : Nat)
  | clockFault (bench : Option Nat)
  | railFault (kind : RailKind)
  | controlStateError (fabric : Bool)
  | probeTimeout
  | standbyResume (word : Nat)
  /- Resets and power (18_host_resets_log.md). -/
  | powerOn
  | coldReset
  | hotReset
  | softReset (word : Nat)
  | benchReset (word : Nat)
  | jobKill (word : Nat)
  | dormantRequest (word : Nat)
  | d3hotEnter
  | d0Return
  /- Host rings, log, event counters (18_host_resets_log.md). -/
  | consWrite (ring value : Nat)
  | logMirror
  | logRdSeqWrite (value : Nat)
  | evtClear
  /- Physical presence, security block and tally (19_presence_tally.md). -/
  | presenceOpen
  | presenceExpire
  | presenceClose
  | install
  | rotate
  | debugUnlock
  | debugLock
  | attest
  | getIdentity
  | extendM7
  | secCmdComplete (flashOk : Bool)
  | sealSample (bit : Bool)
  | tallyIntervalEnd (energyUj : Nat)
  | tallyRecordCopy
  /- Start-up (20_package_boot.md). -/
  | bootFuses (ok : Bool) (detail : Nat)
  | bootFwVerify (codes : List Nat)
  | mpStart
  | bist (failed : Bool) (detail : Nat)
  | memTrain (sites : List SiteTrain)
  | linkTrain (results : List TrainIn)
  | publish
  | deviceReady
  /-- A configuration request; one that writes the function's Command register names the value of its Bus Master Enable. -/
  | configRequest (busMaster : Option Bool := none)
  | smbusReadByte (cmd : Nat)
  | jtagInstruction (ir : Nat)
  | presenceRelease
  | powerLoss
  | dormantEntered
  | activeReached
  | lnkPortEnableWrite (port word : Nat)
  | evtCntLoRead (page off : Nat) (size : Nat := 4)
  | packetPortDown (port : Nat)
  | packetPortUp (port : Nat)
  | nextblockWriteDone (ok : Bool)
  deriving DecidableEq, Repr

end Sys2Proof
end

