-- ==== Sys2Proof/Config.lean ====
section
/-! DEFINITION. What the spec leaves open: free values and uninterpreted functions. None of them has a body. -/
namespace Sys2Proof.Config

/-- A free value, named by the path of numbers that says what it stands for; the state's `freeTick` is one of them
wherever a fresh value is meant (notes/assumptions/4.md). -/
opaque free : List Nat → Nat

/-- The core that holds unit `u` of a core-level region (05_array.md, R123, R143 fix which core only as far as R24 lets
them be known). -/
opaque coreOf : Nat → Nat → Nat

/-- Where the image's layout lists its state sections (06_recurrence.md, R152 gives no place): the section table, 16 bytes a
section in the form of R150, of the image whose layout bytes are given (notes/assumptions/13.md). -/
opaque layoutSections : List Byte → List Byte

/-- Message buffers per virtual channel at a port's peer when the port comes Up (13_links.md, R306 gives no number). -/
opaque vcBuffers : Nat → Nat

/-- Ciphers, signatures and key agreement that the spec names by standard (notes/assumptions/10.md). -/
opaque gcmEncrypt (key : Nat) (iv : Nat) (aad plain : List Byte) : List Byte
opaque gcmDecrypt (key : Nat) (iv : Nat) (aad cipher : List Byte) : List Byte
opaque gcmTag (key : Nat) (iv : Nat) (aad cipher : List Byte) : List Byte
opaque mlKemPublic (secret : Nat) : List Byte
opaque mlKemEncaps (pub : List Byte) (seed : Nat) : List Byte
opaque mlKemShared (pub cipher : List Byte) : Nat
opaque mlKemDecaps (secret : Nat) (cipher : List Byte) : Nat
opaque xmssSign (key index : Nat) (msg : List Byte) : List Byte
opaque xmssPublic (key : Nat) : List Byte
opaque xmssVerify (pub msg sig : List Byte) : Bool
/-- The vendor's certificate of the identity key, and the certificate of a rotation from its new public key and the
signature of the previous generation (19_presence_tally.md, R442 gives no layout). -/
opaque vendorCert : List Byte
opaque rotationCert : List Byte → List Byte → List Byte
opaque aesDecrypt (key : Nat) (data : List Byte) : List Byte

/-- Digests that the spec does not give: 0 of the boot ROM, 1 of the tally ROM, 2 and 3 of the firmware that slots 0 and 1
held when the device was made (19_presence_tally.md, R441, R444). -/
opaque deviceDigest : Nat → List Byte
/-- The bytes that register M_k is extended with, where R444 names values and gives them no layout: k and the values. -/
opaque measured : Nat → List Nat → List Byte

/-- Filter coefficients of the audio ports (15_audio_ports.md, R352), in units of 2⁻⁴⁰: tap `k` of the first half of the filter of a
ratio (notes/assumptions/9.md). -/
opaque filterTap : Nat → Nat → Int

/-- Whether audio bank `m` is supplied at 3.3 V (15_audio_ports.md, R375): a supply outside the device. -/
opaque bank3V3 : Nat → Bool

end Sys2Proof.Config
end

