-- ==== Sys2Proof/Machine/Bits.lean ====
section
/-! DEFINITION. Bit fields, byte order, two's complement, and sparse canonical maps. -/
namespace Sys2Proof.Machine

/-- Bits [lsb + width - 1 : lsb] of `v` (R4). -/
def slice (v lsb width : Nat) : Nat := (v >>> lsb) % 2 ^ width

/-- `v` with those bits replaced by the low bits of `x`. -/
def setSlice (v lsb width x : Nat) : Nat := v - (slice v lsb width) * 2 ^ lsb + (x % 2 ^ width) * 2 ^ lsb

def bitAt (v n : Nat) : Bool := v.testBit n

def b2n (b : Bool) : Nat := if b then 1 else 0

/-- Two's-complement reading of the low `w` bits. -/
def toSigned (w v : Nat) : Int :=
  let u := v % 2 ^ w
  if u < 2 ^ (w - 1) then (u : Int) else (u : Int) - (2 ^ w : Nat)

/-- The low `w` bits of an integer. -/
def ofSigned (w : Nat) (x : Int) : Nat := (x % ((2 ^ w : Nat) : Int)).toNat

def ceilDiv (a b : Nat) : Nat := (a + b - 1) / b

def roundUp (a b : Nat) : Nat := ceilDiv a b * b

/-- Saturation of an integer into [lo, hi]. -/
def clampInt (lo hi x : Int) : Int := if x < lo then lo else if hi < x then hi else x

/-- Saturating 32-bit counters of the stream entries (R54). -/
def satInc32 (v n : Nat) : Nat := Nat.min (v + n) 0xFFFFFFFF

/-- Little-endian bytes of a number (R4). -/
def leBytes : Nat → Nat → List Byte
  | 0, _ => []
  | n + 1, v => BitVec.ofNat 8 v :: leBytes n (v / 256)

/-- The number little-endian bytes hold. -/
def ofLe : List Byte → Nat
  | [] => 0
  | b :: bs => b.toNat + 256 * ofLe bs

/-- Big-endian (network) order, where a frame format names it (R4). -/
def beBytes (n v : Nat) : List Byte := (leBytes n v).reverse
def ofBe (bs : List Byte) : Nat := ofLe bs.reverse

/-- `n` bytes from offset `o` of a byte list, zero past its end. -/
def bytesAt (bs : List Byte) (o n : Nat) : List Byte :=
  let got := (bs.drop o).take n
  got ++ List.replicate (n - got.length) 0

def leAt (bs : List Byte) (o n : Nat) : Nat := ofLe (bytesAt bs o n)
def beAt (bs : List Byte) (o n : Nat) : Nat := ofBe (bytesAt bs o n)

/-- Replace the bytes from offset `o`. -/
def putBytes (bs : List Byte) (o : Nat) (new : List Byte) : List Byte :=
  bs.take o ++ new ++ bs.drop (o + new.length)

/-! Sparse maps: addresses strictly rising, no entry equal to what an unlisted address reads as. -/

/-- What address `a` reads as; `d` gives what an unlisted address reads as. -/
def sparseGet {α : Type} (d : Nat → α) : List (Nat × α) → Nat → α
  | [], a => d a
  | (k, v) :: m, a => if k = a then v else sparseGet d m a

/-- Insert an entry in a strictly rising list, replacing one at the same address. -/
def sparsePut {α : Type} (a : Nat) (v : α) : List (Nat × α) → List (Nat × α)
  | [] => [(a, v)]
  | (k, w) :: m => if a < k then (a, v) :: (k, w) :: m else if a = k then (a, v) :: m else (k, w) :: sparsePut a v m

/-- Write `v` at `a`, keeping the canonical form: writing what an unlisted address reads as removes the entry. -/
def sparseSet {α : Type} [DecidableEq α] (d : Nat → α) (m : List (Nat × α)) (a : Nat) (v : α) : List (Nat × α) :=
  if v = d a then m.filter (fun e => e.1 != a) else sparsePut a v m

/-- The canonical form. -/
def sparseWf {α : Type} [DecidableEq α] (d : Nat → α) : List (Nat × α) → Bool
  | [] => true
  | [(k, v)] => decide (v ≠ d k)
  | (k, v) :: (k', v') :: m => decide (v ≠ d k) && decide (k < k') && sparseWf d ((k', v') :: m)

/-- Drop every entry in [a, a + n): those addresses then read as unlisted ones do. -/
def sparseClear {α : Type} (m : List (Nat × α)) (a n : Nat) : List (Nat × α) :=
  m.filter fun e => !(a ≤ e.1 && e.1 < a + n)

/-- Association by key with insertion in rising order: the tables kept per stream, image, port and so on. -/
def tabGet {α : Type} (m : List (Nat × α)) (k : Nat) : Option α := (m.find? (fun e => e.1 == k)).map (·.2)

def tabPut {α : Type} (m : List (Nat × α)) (k : Nat) (v : α) : List (Nat × α) := sparsePut k v m

def tabDel {α : Type} (m : List (Nat × α)) (k : Nat) : List (Nat × α) := m.filter fun e => e.1 != k

def tabMod {α : Type} (m : List (Nat × α)) (k : Nat) (f : α → α) : List (Nat × α) :=
  m.map fun e => if e.1 == k then (e.1, f e.2) else e

/-- Insertion sort by a comparison, stable. -/
def insertBy {α : Type} (le : α → α → Bool) (x : α) : List α → List α
  | [] => [x]
  | y :: ys => if le x y then x :: y :: ys else y :: insertBy le x ys

def sortBy {α : Type} (le : α → α → Bool) (xs : List α) : List α := xs.foldr (insertBy le) []

def maxNat (xs : List Nat) : Nat := xs.foldl Nat.max 0

def sumNat (xs : List Nat) : Nat := xs.foldl (· + ·) 0

/-- Distinct elements, first occurrences kept. -/
def dedup {α : Type} [DecidableEq α] : List α → List α
  | [] => []
  | x :: xs => x :: (dedup xs).filter (fun y => y ≠ x)

/-- The integer part of the base-2 logarithm. -/
def log2 (n : Nat) : Nat := Nat.log2 n

/-- Replace element `i` of a list. -/
def listSet {α : Type} (xs : List α) (i : Nat) (v : α) : List α := xs.set i v

/-- Apply `f` to element `i` of a list. -/
def listMod {α : Type} : List α → Nat → (α → α) → List α
  | [], _, _ => []
  | x :: xs, 0, f => f x :: xs
  | x :: xs, i + 1, f => x :: listMod xs i f

end Sys2Proof.Machine
end

