-- ==== Sys2Proof/Machine/Fp.lean ====
section
/-! DEFINITION. Floating-point values and exact rounding (04_numerics.md, R87, R102, R104 to R108). Every value is an exact
dyadic number; every operation is evaluated exactly and rounded once. -/
namespace Sys2Proof.Machine
open Sys2Proof

/-- Layout of a floating-point format: exponent and mantissa widths, bias, whether all-ones exponents hold infinity and NaN
(R87; FP8 E4M3 has no infinity). -/
structure FFmt where
  ebits : Nat
  mbits : Nat
  bias  : Nat
  ieee  : Bool := true
  deriving DecidableEq, Repr

def fp32 : FFmt := ⟨8, 23, 127, true⟩
def bf16 : FFmt := ⟨8, 7, 127, true⟩
def fp16 : FFmt := ⟨5, 10, 15, true⟩
def e5m2 : FFmt := ⟨5, 2, 15, true⟩
def e4m3 : FFmt := ⟨4, 3, 7, false⟩

/-- A floating-point datum: finite ones are (-1)^neg × m × 2^e. -/
inductive FVal where
  | nan
  | inf (neg : Bool)
  | fin (neg : Bool) (m : Nat) (e : Int)
  deriving DecidableEq, Repr

inductive Rnd where
  | even | zero | up
  deriving DecidableEq, Repr

namespace FFmt

def width (f : FFmt) : Nat := 1 + f.ebits + f.mbits

/-- Bits of +infinity. -/
def infBits (f : FFmt) : Nat := (2 ^ f.ebits - 1) * 2 ^ f.mbits

/-- Bits of the largest finite value (R87). -/
def maxBits (f : FFmt) : Nat := if f.ieee then f.infBits - 1 else 2 ^ (f.ebits + f.mbits) - 2

/-- Canonical NaN (R87, R102). -/
def nanBits (f : FFmt) : Nat :=
  if f.ieee then (if f.mbits = 2 then 0x7F else f.infBits + 2 ^ (f.mbits - 1)) else 0x7F

def signBit (f : FFmt) (neg : Bool) : Nat := if neg then 2 ^ (f.ebits + f.mbits) else 0

/-- What the bits denote (R87); subnormals are kept. -/
def decode (f : FFmt) (v : Nat) : FVal :=
  let neg := v.testBit (f.ebits + f.mbits)
  let ex := slice v f.mbits f.ebits
  let m := slice v 0 f.mbits
  if f.ieee ∧ ex = 2 ^ f.ebits - 1 then (if m = 0 then .inf neg else .nan)
  else if !f.ieee ∧ ex = 2 ^ f.ebits - 1 ∧ m = 2 ^ f.mbits - 1 then .nan
  else if ex = 0 then .fin neg m (1 - (f.bias : Int) - f.mbits)
  else .fin neg (m + 2 ^ f.mbits) ((ex : Int) - f.bias - f.mbits)

end FFmt

/-- m / 2^k, rounded. -/
def shiftRound (r : Rnd) (m k : Nat) : Nat :=
  let q := m >>> k
  let rem := m % 2 ^ k
  match r with
  | .zero => q
  | .up => if rem = 0 then q else q + 1
  | .even =>
    if 2 * rem < 2 ^ k then q
    else if 2 ^ k < 2 * rem then q + 1
    else if k = 0 then q else q + q % 2

/-- Bits of m × 2^e rounded into the format, as though its exponent range had no upper end. -/
def FFmt.rawRound (f : FFmt) (r : Rnd) (m : Nat) (e : Int) : Nat :=
  if m = 0 then 0
  else
    let top : Int := e + Nat.log2 m
    let q : Int := max (top - f.mbits) (1 - (f.bias : Int) - f.mbits)
    let mm := if q ≤ e then m * 2 ^ (e - q).toNat else shiftRound r m (q - e).toNat
    mm + (q + f.mbits + f.bias - 1).toNat * 2 ^ f.mbits

/-- IEEE rounding: beyond the largest finite gives infinity. -/
def FFmt.round (f : FFmt) (r : Rnd) (neg : Bool) (m : Nat) (e : Int) : Nat :=
  f.signBit neg + Nat.min (f.rawRound r m e) f.infBits

/-- Saturating rounding of R102: beyond the largest finite gives the largest finite. -/
def FFmt.roundSat (f : FFmt) (r : Rnd) (neg : Bool) (m : Nat) (e : Int) : Nat :=
  f.signBit neg + Nat.min (f.rawRound r m e) f.maxBits

/-- A quotient as a mantissa with a sticky low bit and its exponent, wide enough to be rounded once. -/
def quotSticky (num den : Nat) (e : Int) : Nat × Int :=
  let k := 80 + Nat.log2 den - Nat.min (Nat.log2 num) (Nat.log2 den)
  let q := num * 2 ^ k / den
  let st := if num * 2 ^ k % den = 0 then 0 else 1
  (2 * q + st, e - k - 1)

/-- Signed integer x × 2^e as sign and magnitude. -/
def ofDyadic (x : Int) (e : Int) : Bool × Nat × Int := (decide (x < 0), x.natAbs, e)

/-- The exact dyadic sum of two finite data. -/
def addDyadic (n1 : Bool) (m1 : Nat) (e1 : Int) (n2 : Bool) (m2 : Nat) (e2 : Int) : Int × Int :=
  let e := min e1 e2
  let a : Int := (m1 * 2 ^ (e1 - e).toNat : Nat)
  let b : Int := (m2 * 2 ^ (e2 - e).toNat : Nat)
  ((if n1 then -a else a) + (if n2 then -b else b), e)

def FFmt.encode (f : FFmt) : FVal → Nat
  | .nan => f.nanBits
  | .inf n => f.signBit n + f.infBits
  | .fin n m e => f.round .even n m e

/-- Addition, rounded once half to even. -/
def fvAdd (f : FFmt) : FVal → FVal → Nat
  | .nan, _ => f.nanBits
  | _, .nan => f.nanBits
  | .inf a, .inf b => if a = b then f.signBit a + f.infBits else f.nanBits
  | .inf a, .fin .. => f.signBit a + f.infBits
  | .fin .., .inf b => f.signBit b + f.infBits
  | .fin n1 m1 e1, .fin n2 m2 e2 =>
    let (x, e) := addDyadic n1 m1 e1 n2 m2 e2
    if x = 0 then (if n1 && n2 then f.signBit true else 0)
    else f.round .even (decide (x < 0)) x.natAbs e

/-- Multiplication, rounded once half to even. -/
def fvMul (f : FFmt) : FVal → FVal → Nat
  | .nan, _ => f.nanBits
  | _, .nan => f.nanBits
  | .inf a, .inf b => f.signBit (a != b) + f.infBits
  | .inf a, .fin b m _ => if m = 0 then f.nanBits else f.signBit (a != b) + f.infBits
  | .fin a m _, .inf b => if m = 0 then f.nanBits else f.signBit (a != b) + f.infBits
  | .fin a m1 e1, .fin b m2 e2 => f.round .even (a != b) (m1 * m2) (e1 + e2)

/-- The exact product of two data, for a fused multiply-add. -/
def fvProd : FVal → FVal → FVal
  | .nan, _ => .nan
  | _, .nan => .nan
  | .inf a, .inf b => .inf (a != b)
  | .inf a, .fin b m _ => if m = 0 then .nan else .inf (a != b)
  | .fin a m _, .inf b => if m = 0 then .nan else .inf (a != b)
  | .fin a m1 e1, .fin b m2 e2 => .fin (a != b) (m1 * m2) (e1 + e2)

/-- Division, rounded once half to even. -/
def fvDiv (f : FFmt) : FVal → FVal → Nat
  | .nan, _ => f.nanBits
  | _, .nan => f.nanBits
  | .inf _, .inf _ => f.nanBits
  | .inf a, .fin b _ _ => f.signBit (a != b) + f.infBits
  | .fin a _ _, .inf b => f.signBit (a != b)
  | .fin a m1 e1, .fin b m2 e2 =>
    if m2 = 0 then (if m1 = 0 then f.nanBits else f.signBit (a != b) + f.infBits)
    else if m1 = 0 then f.signBit (a != b)
    else
      let (q, e) := quotSticky m1 m2 (e1 - e2)
      f.round .even (a != b) q e

/-! FP32 on bit patterns. -/

def fadd (a b : Nat) : Nat := fvAdd fp32 (fp32.decode a) (fp32.decode b)
def fneg (a : Nat) : Nat := a ^^^ 0x80000000
def fsub (a b : Nat) : Nat := fadd a (fneg b)
def fmul (a b : Nat) : Nat := fvMul fp32 (fp32.decode a) (fp32.decode b)
def fdiv (a b : Nat) : Nat := fvDiv fp32 (fp32.decode a) (fp32.decode b)
def fma (a b c : Nat) : Nat := fvAdd fp32 (fvProd (fp32.decode a) (fp32.decode b)) (fp32.decode c)
def fabs (a : Nat) : Nat := a % 2 ^ 31
def isNan32 (a : Nat) : Bool := 0x7F800000 < a % 2 ^ 31
def isInf32 (a : Nat) : Bool := a % 2 ^ 31 == 0x7F800000
def isZero32 (a : Nat) : Bool := a % 2 ^ 31 == 0

/-- Order of FP32 patterns that are no NaN: a key that rises with the value, the two zeros apart only in sign. -/
def fkey (a : Nat) : Int := if a.testBit 31 then -((a % 2 ^ 31 : Nat) : Int) else ((a % 2 ^ 31 : Nat) : Int)

def flt (a b : Nat) : Bool := !isNan32 a && !isNan32 b && decide (fkey a < fkey b)
def fle (a b : Nat) : Bool := !isNan32 a && !isNan32 b && decide (fkey a ≤ fkey b)

/-- An integer times a power of two, rounded once to FP32. -/
def f32OfInt (x : Int) (e : Int := 0) : Nat := fp32.round .even (decide (x < 0)) x.natAbs e

def f32One : Nat := 0x3F800000

/-- FP32 to BF16, half to even, infinities and NaN kept, finite values saturating (R102). -/
def toBf16 (a : Nat) : Nat :=
  match fp32.decode a with
  | .nan => bf16.nanBits
  | .inf n => bf16.signBit n + bf16.infBits
  | .fin n m e => bf16.roundSat .even n m e

/-- BF16 pattern as FP32. -/
def ofBf16 (a : Nat) : Nat := a * 65536

/-- A datum of a narrower format, exact in FP32. -/
def FFmt.to32 (f : FFmt) (a : Nat) : Nat := fp32.encode (f.decode a)

/-- Exact rational rounding to an integer, half to even or toward zero. -/
def roundQ (r : Rnd) (n : Int) (d : Nat) : Int :=
  let q := n.natAbs / d
  let rem := n.natAbs % d
  let m : Nat := match r with
    | .zero => q
    | .up => if rem = 0 then q else q + 1
    | .even => if 2 * rem < d then q else if d < 2 * rem then q + 1 else q + q % 2
  if n < 0 then -(m : Int) else m

/-- A finite datum divided by 2^-e' … as a fraction: numerator and denominator of m × 2^e. -/
def dyFrac (neg : Bool) (m : Nat) (e : Int) : Int × Nat :=
  let a : Int := if 0 ≤ e then ((m * 2 ^ e.toNat : Nat) : Int) else (m : Int)
  (if neg then -a else a, if 0 ≤ e then 1 else 2 ^ (-e).toNat)

/-- x / s as a fraction for finite x and positive s. -/
def quotFrac (neg : Bool) (m : Nat) (e : Int) (ms : Nat) (es : Int) : Int × Nat :=
  let d := e - es
  let a : Int := if 0 ≤ d then ((m * 2 ^ d.toNat : Nat) : Int) else (m : Int)
  (if neg then -a else a, (if 0 ≤ d then 1 else 2 ^ (-d).toNat) * ms)

/-- Round an FP32 value to an integer, half to even; NaN gives none, infinities the sign's extreme. -/
def f32ToInt (a : Nat) : Option Int :=
  match fp32.decode a with
  | .nan => none
  | .inf n => some (if n then -(2 ^ 200 : Int) else 2 ^ 200)
  | .fin n m e => let (x, d) := dyFrac n m e; some (roundQ .even x d)

/-! Sums whose order the device does not define (R105, R108, R110): any binary tree over the terms. -/

/-- Remove element `i`. -/
def removeAt {α : Type} : List α → Nat → List α
  | [], _ => []
  | _ :: xs, 0 => xs
  | x :: xs, i + 1 => x :: removeAt xs i

/-- Add two of the terms, chosen freely, until one is left. -/
def sumFree : Nat → List Nat → List Nat → Nat
  | _, _, [] => 0
  | _, _, [x] => x
  | 0, _, x :: xs => xs.foldl fadd x
  | fuel + 1, path, x :: y :: rest =>
    let xs := x :: y :: rest
    let i := Config.free (0 :: fuel :: path) % xs.length
    let a := xs.getD i 0
    let ys := removeAt xs i
    let j := Config.free (1 :: fuel :: path) % ys.length
    sumFree fuel path (fadd a (ys.getD j 0) :: removeAt ys j)

/-- FP32 sum of the terms in an order that is not defined. -/
def fsum (path : List Nat) (xs : List Nat) : Nat := sumFree xs.length path xs

end Sys2Proof.Machine
end

