-- ==== Sys2Proof/Machine/Trans.lean ====
section
/-! DEFINITION. Functions whose FP32 result the device bounds and does not fix (05_array.md, R148): each is evaluated to 400
fractional bits, and its result is the free value of the operand where that lies within the bound, the nearest FP32 value
otherwise (notes/assumptions/8.md). -/
namespace Sys2Proof.Machine
open Sys2Proof

/-- Fractional bits of the fixed-point evaluation. -/
def fixBits : Nat := 420

def fixOne : Int := (2 ^ fixBits : Nat)

/-- Σ of terms t₀, t₁ = t₀ × step …, each divided by its own divisor. -/
def seriesSum (n : Nat) (first : Int) (next : Nat → Int → Int) (term : Nat → Int → Int) : Int :=
  ((List.range n).foldl (fun (a : Int × Int) i => (next i a.1, a.2 + term i a.1)) (first, 0)).2

/-- ln 2 and π in fixed point. -/
def ln2Fix : Int := 2 * seriesSum 150 (fixOne / 3) (fun _ t => t / 9) fun i t => t / (2 * i + 1)

def atanInv (q : Int) : Int :=
  seriesSum 100 (fixOne / q) (fun _ t => t / (q * q)) fun i t => (if i % 2 = 0 then t else -t) / (2 * i + 1)

def piFix : Int := 16 * atanInv 5 - 4 * atanInv 239

/-- e^r for a small fixed-point r. -/
def expSmall (r : Int) : Int := seriesSum 90 fixOne (fun i t => t * r / (fixOne * (i + 1))) fun _ t => t

/-- e^x for a fixed-point x, as a mantissa and a power of two. -/
def expDy (x : Int) : Int × Int :=
  let n := (2 * x + ln2Fix) / (2 * ln2Fix)
  (expSmall (x - n * ln2Fix), n - fixBits)

/-- A dyadic number in fixed point. -/
def toFix (m : Int) (e : Int) : Int := if 0 ≤ e + fixBits then m * 2 ^ (e + fixBits).toNat else m / 2 ^ (-(e + fixBits)).toNat

/-- A finite FP32 value in fixed point, brought within ±512 for the functions that have settled there. -/
def fixOf (neg : Bool) (m : Nat) (e : Int) : Int := toFix (if neg then -(m : Int) else m) e
def fixClamp (x : Int) : Int := clampInt (-512 * fixOne) (512 * fixOne) x

def expFix (x : Int) : Int := let d := expDy x; toFix d.1 d.2

/-- 1 / (1 + e^−x). -/
def sigmFix (x : Int) : Int :=
  let u := expFix (-(x.natAbs : Int))
  if 0 ≤ x then fixOne * fixOne / (fixOne + u) else u * fixOne / (fixOne + u)

def tanhFix (x : Int) : Int :=
  let u := expFix (-2 * (x.natAbs : Int))
  let t := (fixOne - u) * fixOne / (fixOne + u)
  if x < 0 then -t else t

/-- ln of m × 2^e, m positive. -/
def lnFix (m : Nat) (e : Int) : Int :=
  let l := Nat.log2 m
  let l := if 3 * m ≤ 4 * 2 ^ l then l else l + 1
  let z : Int := ((m : Int) - 2 ^ l) * fixOne / (m + 2 ^ l)
  2 * seriesSum 110 z (fun _ t => t * z / fixOne * z / fixOne) (fun i t => t / (2 * i + 1)) + (e + l) * ln2Fix

/-- (cos x, sin x). -/
def cosSinFix (x : Int) : Int × Int :=
  let h := piFix / 2
  let k := (2 * x + h) / (2 * h)
  let r := x - k * h
  let c := seriesSum 60 fixOne (fun (i : Nat) t => -(t * r / fixOne * r / fixOne) / ((2 * (i : Int) + 1) * (2 * i + 2))) fun _ t => t
  let s := seriesSum 60 r (fun i t => -(t * r / fixOne * r / fixOne) / ((2 * i + 2) * (2 * i + 3))) fun _ t => t
  match (k % 4).toNat with
  | 0 => (c, s)
  | 1 => (-s, c)
  | 2 => (-c, -s)
  | _ => (s, -c)

/-- The integer square root, built from the high bit down. -/
def isqrt (n : Nat) : Nat :=
  (List.range (Nat.log2 n / 2 + 2)).foldr (fun b r => if (r + 2 ^ b) * (r + 2 ^ b) ≤ n then r + 2 ^ b else r) 0

/-- √ of m × 2^e with a sticky low bit. -/
def sqrtDy (m : Nat) (e : Int) : Nat × Int :=
  let m := if e % 2 = 0 then m else 2 * m
  let e := if e % 2 = 0 then e else e - 1
  let k : Nat := 64
  let n := m * 2 ^ (2 * k)
  let q := isqrt n
  (2 * q + (if q * q = n then 0 else 1), e / 2 - k - 1)

/-- Square root, rounded once half to even. -/
def fsqrt (a : Nat) : Nat :=
  match fp32.decode a with
  | .nan => fp32.nanBits
  | .inf n => if n then fp32.nanBits else a
  | .fin n m e => if m = 0 then a else if n then fp32.nanBits else let (q, x) := sqrtDy m e; fp32.round .even false q x

/-- m × 2^x ≤ c. -/
def dyLe (m : Nat) (x : Int) (c : Nat) : Bool :=
  if 0 ≤ x then decide (m * 2 ^ x.toNat ≤ c) else decide (m ≤ c * 2 ^ (-x).toNat)

/-- The FP32 pattern `v` lies within `lim` units in the last place of x × 2^e, or within 2⁻²⁴ where `loose` holds and the
magnitude is below 2⁻²⁰. -/
def within (v : Nat) (lim : Nat) (loose : Bool) (x : Int) (e : Int) : Bool :=
  match fp32.decode v with
  | .fin n m ex =>
    let a := x.natAbs
    let u : Int := if a = 0 then -149 else max (e + Nat.log2 a - 23) (-149)
    let (y, ey) := addDyadic n m ex (decide (0 ≤ x)) a e
    dyLe y.natAbs (ey - u) lim || (loose && dyLe (2 ^ 20 * a) e 1 && dyLe (2 ^ 24 * y.natAbs) ey 1)
  | _ => false

/-- The result of function `fn` at operand `a` whose exact value is x × 2^e (R148). -/
def bounded (fn a lim : Nat) (loose : Bool) (x : Int) (e : Int) : Nat :=
  let r := fp32.round .even (decide (x < 0)) x.natAbs e
  let v := Config.free [8, fn, a] % 2 ^ 32
  if isInf32 r then r else if within v lim loose x e then v else r

/-- VecOp 0x07. -/
def fsigmoid (a : Nat) : Nat :=
  match fp32.decode a with
  | .nan => fp32.nanBits
  | .inf n => if n then 0 else f32One
  | .fin n m e => bounded 0x07 a 2 false (sigmFix (fixClamp (fixOf n m e))) (-fixBits)

/-- VecOp 0x08. -/
def ftanh (a : Nat) : Nat :=
  match fp32.decode a with
  | .nan => fp32.nanBits
  | .inf n => if n then fneg f32One else f32One
  | .fin n m e => if m = 0 then a else bounded 0x08 a 2 false (tanhFix (fixClamp (fixOf n m e))) (-fixBits)

/-- VecOp 0x09; the spec states no result at −∞. -/
def fswish (a : Nat) : Nat :=
  match fp32.decode a with
  | .nan => fp32.nanBits
  | .inf n => if n then Config.free [8, 0x09, a] % 2 ^ 32 else a
  | .fin n m e =>
    if m = 0 then a
    else
      let x := if n then -(m : Int) else m
      bounded 0x09 a 4 true (sigmFix (fixClamp (fixOf n m e)) * x) (e - fixBits)

/-- √(2/π) in fixed point. -/
def geluC : Int := isqrt (2 * 2 ^ (3 * fixBits) / piFix.toNat)

/-- VecOp 0x0A; the spec states no result at −∞. -/
def fgelu (a : Nat) : Nat :=
  match fp32.decode a with
  | .nan => fp32.nanBits
  | .inf n => if n then Config.free [8, 0x0A, a] % 2 ^ 32 else a
  | .fin n m e =>
    if m = 0 then a
    else
      let x := if n then -(m : Int) else m
      let f := fixClamp (fixOf n m e)
      let y := geluC * (f + 44715 * (f * f / fixOne * f / fixOne) / 1000000) / fixOne
      bounded 0x0A a 4 true ((fixOne + tanhFix (fixClamp y)) * x) (e - fixBits - 1)

/-- VecOp 0x0B. -/
def fexp (a : Nat) : Nat :=
  match fp32.decode a with
  | .nan => fp32.nanBits
  | .inf n => if n then 0 else a
  | .fin n m e => let d := expDy (fixClamp (fixOf n m e)); bounded 0x0B a 2 false d.1 d.2

/-- VecOp 0x0C. -/
def fln (a : Nat) : Nat :=
  match fp32.decode a with
  | .nan => fp32.nanBits
  | .inf n => if n then fp32.nanBits else a
  | .fin n m e =>
    if m = 0 then 0xFF800000 else if n then fp32.nanBits else bounded 0x0C a 2 false (lnFix m e) (-fixBits)

/-- VecOp 0x0D. -/
def frecip (a : Nat) : Nat :=
  match fp32.decode a with
  | .nan => fp32.nanBits
  | .inf n => fp32.signBit n
  | .fin n m e =>
    if m = 0 then fp32.signBit n + fp32.infBits
    else let (q, x) := quotSticky 1 m (-e); bounded 0x0D a 2 false (if n then -(q : Int) else q) x

/-- VecOp 0x0E; a negative operand has no real root, and either zero gives +∞ (notes/assumptions/100.md). -/
def frsqrt (a : Nat) : Nat :=
  match fp32.decode a with
  | .nan => fp32.nanBits
  | .inf n => if n then fp32.nanBits else 0
  | .fin n m e =>
    if m = 0 then fp32.infBits
    else if n then fp32.nanBits
    else
      let m := if e % 2 = 0 then m else 2 * m
      let e := if e % 2 = 0 then e else e - 1
      bounded 0x0E a 2 false (isqrt (2 ^ 600 / m)) (-300 - e / 2)

/-- cos and sin of an FP32 angle, each within 2 units in the last place (R159). -/
def fcosSin (a : Nat) : Nat × Nat :=
  match fp32.decode a with
  | .fin n m e =>
    let r := cosSinFix (fixOf n m e)
    (bounded 0x20 a 2 false r.1 (-fixBits), if m = 0 then a else bounded 0x21 a 2 false r.2 (-fixBits))
  | _ => (fp32.nanBits, fp32.nanBits)

end Sys2Proof.Machine
end

