-- ==== Sys2Proof/Machine/Numerics.lean ====
section
/-! DEFINITION. Number formats, weight and activation blocks, the marver pass, conversion and accumulation
(04_numerics.md, R84 to R119). -/
namespace Sys2Proof.Machine
open Sys2Proof

/-! Weight blocks (R92 to R95). -/

/-- One side-list entry: group, index within the group, BF16 value (R93). -/
structure SideEnt where
  grp : Nat
  idx : Nat
  val : Nat
  deriving DecidableEq, Repr

/-- A weight block of 4,096 elements. -/
structure WBlock where
  fmt      : Nat
  glog     : Nat
  flags    : Nat
  codebook : Nat
  blockLen : Nat
  codes    : List Byte
  scales   : List Nat
  sums     : List Int
  side     : List SideEnt
  deriving DecidableEq, Repr

/-- CRC-32 of IEEE 802.3, reflected (R95); `poly` is the reflected polynomial. -/
def crcByte (poly : Nat) (crc : Nat) (b : Byte) : Nat :=
  (List.range 8).foldl (fun c _ => if c % 2 = 1 then (c / 2) ^^^ poly else c / 2) (crc ^^^ b.toNat)

def crcReflected (poly : Nat) (bs : List Byte) : Nat := (bs.foldl (crcByte poly) 0xFFFFFFFF) ^^^ 0xFFFFFFFF

def crc32 (bs : List Byte) : Nat := crcReflected 0xEDB88320 bs

/-- CRC-32C, Castagnoli's polynomial (R303, R309; PRESUMED: the standard's parameters, notes/assumptions/15.md). -/
def crc32c (bs : List Byte) : Nat := crcReflected 0x82F63B78 bs

/-- Side-list entries in strictly ascending order of (group, index) and in range; others are ignored, and an ignored one counts for no
later entry (R93; notes/assumptions/100.md). -/
def keepSide (glog : Nat) : Option (Nat × Nat) → List SideEnt → List SideEnt
  | _, [] => []
  | last, x :: xs =>
    let ok := decide (x.idx < 2 ^ glog ∧ x.grp * 2 ^ glog < 4096) &&
      (match last with
       | none => true
       | some (g, i) => decide (g < x.grp ∨ (g = x.grp ∧ i < x.idx)))
    if ok then x :: keepSide glog (some (x.grp, x.idx)) xs else keepSide glog last xs

def parseSide (n : Nat) (bs : List Byte) : List SideEnt :=
  (List.range n).map fun i =>
    let v := leAt bs (4 * i) 4
    ⟨slice v 7 7, slice v 0 7, slice v 16 16⟩

/-- Parse the block that starts the bytes. -/
def parseWBlock (bs : List Byte) : WBlock :=
  let fmt := leAt bs 0 1
  let glog := leAt bs 1 1
  let nside := leAt bs 2 1
  let codesLen := leAt bs 6 2
  let fp := fmt == 3 || fmt == 4 || fmt == 5
  let ng := if fp then 0 else 4096 / 2 ^ glog
  let o1 := roundUp (16 + codesLen) 4
  let o2 := roundUp (o1 + 2 * ng) 4
  let o3 := roundUp (o2 + 2 * ng) 4
  ⟨fmt, glog, leAt bs 3 1, leAt bs 4 1, leAt bs 8 4, bytesAt bs 16 codesLen,
   (List.range ng).map (fun g => leAt bs (o1 + 2 * g) 2),
   (List.range ng).map (fun g => toSigned 16 (leAt bs (o2 + 2 * g) 2)),
   if fp then [] else keepSide glog none (parseSide nside (bs.drop o3))⟩

/-- The block's Crc matches its bytes, the field counting as zero (R95). -/
def wblockCrcOk (bs : List Byte) : Bool :=
  let n := leAt bs 8 4
  crc32 (putBytes (bytesAt bs 0 n) 12 [0, 0, 0, 0]) == leAt bs 12 4

/-- Raw code of packed element `i` (R86). -/
def codeAt (bits : Nat) (codes : List Byte) (i : Nat) : Nat :=
  if bits = 4 then slice (codes.getD (i / 2) 0).toNat (4 * (i % 2)) 4
  else if bits = 8 then (codes.getD i 0).toNat
  else leAt codes (2 * i) 2

/-- Bits of a format's element (R84). -/
def elemBits (fmt : Nat) : Nat :=
  match fmt with
  | 0 => 4 | 1 => 4 | 2 => 8 | 3 => 8 | 4 => 8 | 5 => 16 | 6 => 8 | 7 => 8 | 8 => 1 | 9 => 32 | 10 => 32 | 11 => 16
  | _ => 8

/-- Value of an integer weight code (R85); an escape without an entry is 0 (R93). `book` holds the codebook slot's entries. -/
def weightInt (fmt : Nat) (book : List Int) (code : Nat) : Int :=
  match fmt with
  | 0 => if code = 8 then 0 else toSigned 4 code
  | 1 => book.getD code 0
  | _ => if code = 0x80 then 0 else toSigned 8 code

/-- Floating-point value of an FP8 or BF16 code. -/
def fpCode (fmt code : Nat) : FVal :=
  if fmt = 3 then e4m3.decode code else if fmt = 4 then e5m2.decode code else bf16.decode code

/-- A weight element as the multipliers see it: an integer code in group `g`, a side-list value, or a floating-point code. -/
inductive WElem where
  | int (v : Int) (g : Nat)
  | side (v : Nat) (g : Nat)
  | fp (v : FVal)
  deriving DecidableEq, Repr

/-- Raw code of element `e` of a block; none where a sparse block does not keep the element (R133). -/
def WBlock.kept (b : WBlock) (e : Nat) : Option Nat :=
  let bits := elemBits b.fmt
  let pick (meta_ : Nat) : Option Nat :=
    if slice meta_ 0 2 = e % 4 then some 0 else if slice meta_ 2 2 = e % 4 then some 1 else none
  let sparse := bitAt b.flags 1
  if bitAt b.flags 2 then
    let bm := leAt b.codes 0 16
    let i := e / 32
    if !bitAt bm i then none
    else
      let q := ((List.range i).filter fun k => bitAt bm k).length
      if sparse then
        let part := b.codes.drop (16 + q * (4 + 2 * bits))
        (pick (codeAt 4 part (e % 32 / 4))).map fun x => codeAt bits (part.drop 4) (2 * (e % 32 / 4) + x)
      else some (codeAt bits (b.codes.drop (16 + q * (4 * bits))) (e % 32))
  else if sparse then
    (pick (codeAt 4 b.codes (e / 4))).map fun x => codeAt bits (b.codes.drop 512) (2 * (e / 4) + x)
  else some (codeAt bits b.codes e)

/-- Element `e` of a block (R85, R93, R133). -/
def WBlock.elem (b : WBlock) (book : List Int) (e : Nat) : WElem :=
  if b.fmt = 3 ∨ b.fmt = 4 ∨ b.fmt = 5 then .fp (fpCode b.fmt (codeAt (elemBits b.fmt) b.codes e))
  else
    let g := e / 2 ^ b.glog
    match b.kept e with
    | none => .int 0 g
    | some c =>
      match b.side.find? (fun x => x.grp == g && x.idx == e % 2 ^ b.glog) with
      | some x => .side x.val g
      | none => .int (weightInt b.fmt book c) g

/-! Activation blocks and scale record sets (R96). -/

/-- One group's scale record. -/
structure GScale where
  scale   : Nat
  zp      : Nat
  entries : List (Nat × Nat)
  deriving DecidableEq, Repr

/-- A data block with its scale records. -/
structure ABlock where
  tag    : Nat
  fmt    : Nat
  glog   : Nat
  elems  : Nat
  codes  : List Byte
  stag   : Nat
  e      : Nat
  groups : List GScale
  deriving DecidableEq, Repr

/-- Bytes of a data block of `n` elements (R96). -/
def dataBlockLen (fmt n : Nat) : Nat := roundUp (16 + n * elemBits fmt / 8) 16

/-- Bytes of a scale record set. -/
def scaleSetLen (e groups : Nat) : Nat := roundUp (16 + (4 + 4 * e) * groups) 16

/-- Escape entries in ascending order of index; the rest are ignored, and an ignored one counts for no later entry (R93, R96;
notes/assumptions/100.md). -/
def keepAsc : Option Nat → List (Nat × Nat) → List (Nat × Nat)
  | _, [] => []
  | none, x :: xs => x :: keepAsc (some x.1) xs
  | some i, x :: xs => if i < x.1 then x :: keepAsc (some x.1) xs else keepAsc (some i) xs

/-- Scale records of `n` groups of 2^`glog` elements; an entry beyond its group is ignored (R93). -/
def parseScales (bs : List Byte) (e n glog : Nat) : List GScale :=
  (List.range n).map fun g =>
    let r := bytesAt bs (16 + (4 + 4 * e) * g) (4 + 4 * e)
    ⟨leAt r 0 2, leAt r 2 1, keepAsc none (((List.range (Nat.min e (leAt r 3 1))).map fun i =>
      (slice (leAt r (4 + 4 * i) 4) 0 7, slice (leAt r (4 + 4 * i) 4) 16 16)).filter fun x => decide (x.1 < 2 ^ glog))⟩

/-- Read a data block and, for A8, its scale record set. -/
def parseABlock (data scales : List Byte) : ABlock :=
  let fmt := leAt data 1 1
  let n := leAt data 4 4
  let isA8 := fmt == 6 || fmt == 7
  let e := if isA8 then leAt scales 1 1 else 0
  ⟨leAt data 0 1, fmt, leAt data 2 1, n, bytesAt data 16 (n * elemBits fmt / 8),
   if isA8 then leAt scales 0 1 else leAt data 0 1, e,
   if isA8 then parseScales scales e (leAt scales 4 4) (leAt data 2 1) else []⟩

/-- The tag of chunk j and step p (R97). -/
def seqTag (j p : Nat) : Nat := 16 * (j % 16) + p % 16

/-- A mismatch of R98 against the tag of the chunk and step. -/
def ABlock.mismatch (b : ABlock) (want : Nat) : Bool :=
  let isA8 := b.fmt == 6 || b.fmt == 7
  b.tag != want || (isA8 && (b.stag != want || !([0, 1, 2, 4].contains b.e)))

/-- An activation element as the multipliers see it. -/
inductive AElem where
  | int (q : Int) (z : Int) (g : Nat)
  | side (v : Nat) (z : Int) (g : Nat)
  | fp (v : FVal)
  deriving DecidableEq, Repr

/-- Group and index within the group of element `i`: groups are counted within each row of `width` elements (R91; 0 for one
row). -/
def groupOf (glog width i : Nat) : Nat × Nat :=
  let k := if width = 0 then i else i % width
  let r := if width = 0 then 0 else i / width
  (r * ceilDiv width (2 ^ glog) + k / 2 ^ glog, k % 2 ^ glog)

/-- Element `i` of a block whose rows have `width` elements. An escape code without an entry has the value 0. -/
def ABlock.elem (b : ABlock) (width i : Nat) : AElem :=
  if b.fmt = 6 ∨ b.fmt = 7 then
    let g := groupOf b.glog width i
    let r := b.groups.getD g.1 ⟨0, 0, []⟩
    let z : Int := if b.fmt = 7 then r.zp else 0
    let c := (b.codes.getD i 0).toNat
    match r.entries.find? (fun x => x.1 == g.2) with
    | some x => .side x.2 z g.1
    | none =>
      if c = (if b.fmt = 7 then 0xFF else 0x80) then .int z z g.1
      else .int (if b.fmt = 7 then (c : Int) else toSigned 8 c) z g.1
  else .fp (fpCode b.fmt (codeAt (elemBits b.fmt) b.codes i))

/-- Scale of the group of element `i`. -/
def ABlock.scaleOf (b : ABlock) (width i : Nat) : Nat := (b.groups.getD (groupOf b.glog width i).1 ⟨0, 0, []⟩).scale

/-- A binary16 group scale is valid (R90). -/
def scaleOk (s : Nat) : Bool := !(s.testBit 15) && slice s 10 5 != 31

/-- Scale as a datum; an invalid one makes products NaN (R90). -/
def scaleVal (s : Nat) : FVal := if scaleOk s then fp16.decode s else .nan

/-- FP32 value of an A8, FP8, BF16 element, as the vector units read it. -/
def ABlock.value (b : ABlock) (width i : Nat) : Nat :=
  match b.elem width i with
  | .fp v => fp32.encode v
  | .side v _ _ => ofBf16 v
  | .int q z _ =>
    let s := scaleVal (b.scaleOf width i)
    fp32.encode (fvProd (.fin (decide (q - z < 0)) (q - z).natAbs 0) s)

/-! The marver pass (R99, R100). -/

/-- Magnitude key: NaN first, then infinities, then the magnitude. -/
def magKey (x : Nat) : Nat := if isNan32 x then 0x7F800001 else x % 2 ^ 31

/-- Indices in descending magnitude, ties by lower index (SortIndices). -/
def sortIndices (xs : List Nat) : List Nat :=
  sortBy (fun i j => magKey (xs.getD j 0) ≤ magKey (xs.getD i 0)) (List.range xs.length)

/-- Up16(v, k) for v = m × 2^e: the smallest binary16 u with k × u ≥ v, at most 65,504. -/
def up16 (m : Nat) (e : Int) (k : Nat) : Nat :=
  if m = 0 then 0
  else
    let (q, qe) := quotSticky m k e
    Nat.min (fp16.rawRound .up q qe) 0x7BFF

def up16Val (v : FVal) (k : Nat) : Nat :=
  match v with
  | .fin _ m e => up16 m e k
  | _ => 0x7BFF

/-- Round(x / s) + z in A8, R102; `sym` for the symmetric format. -/
def convertA8 (sym : Bool) (r : Rnd) (x s z : Nat) : Nat :=
  let code (v : Int) : Nat :=
    if sym then ofSigned 8 (clampInt (-127) 127 v) else (clampInt 0 254 (v + z)).toNat
  match fp32.decode x with
  | .nan => if sym then 0 else z
  | .inf n => if sym then (if n then 0x81 else 0x7F) else (if n then 0 else 254)
  | .fin n m e =>
    match fp16.decode s with
    | .fin _ ms es => if ms = 0 then (if sym then 0 else z) else
        let (a, d) := quotFrac n m e ms es
        code (roundQ r a d)
    | _ => if sym then 0 else z

/-- Round(x / s) + z before clamping, for the range test of R114. -/
def codeRaw (sym : Bool) (r : Rnd) (x s z : Nat) : Option Int :=
  match fp32.decode x, fp16.decode s with
  | .fin n m e, .fin _ ms es =>
    if ms = 0 then (if m = 0 then some (if sym then 0 else z) else none)
    else let (a, d) := quotFrac n m e ms es; some (roundQ r a d + (if sym then 0 else (z : Int)))
  | _, _ => none

/-- Outcome of converting one group to A8. -/
structure GroupOut where
  codes  : List Nat
  rec_   : GScale
  exceeds : Bool := false
  coarse : Bool := false
  /-- What the carried set holds for the group afterwards (R117). -/
  next   : Nat × Nat
  deriving DecidableEq, Repr

def exactAbsMax (xs : List Nat) : FVal :=
  fp32.decode ((xs.map (fun x => magKey x)).foldl Nat.max 0)

/-- Least and greatest of 0 and the values, as FP32 patterns. -/
def loHi (xs : List Nat) : Nat × Nat :=
  xs.foldl (fun (a : Nat × Nat) x => (if flt x a.1 then x else a.1, if flt a.2 x then x else a.2)) (0, 0)

/-- hi − lo exactly. -/
def spread (lo hi : Nat) : FVal :=
  match fp32.decode lo, fp32.decode hi with
  | .fin n1 m1 e1, .fin n2 m2 e2 => let (x, e) := addDyadic n2 m2 e2 (!n1) m1 e1; .fin (decide (x < 0)) x.natAbs e
  | _, _ => .inf false

/-- Procedure Marver. -/
def marver (xs : List Nat) (e : Nat) (sym : Bool) (r : Rnd) : GroupOut :=
  let ord := sortIndices xs
  let esc := ord.take e
  let rest := (List.range xs.length).filter (fun i => !esc.contains i)
  let sz : Nat × Nat :=
    if sym then (up16Val (fp32.decode (magKey (xs.getD (ord.getD e 0) 0))) 127, 0)
    else
      let (lo, hi) := loHi ((rest.map fun i => xs.getD i 0).filter (fun x => !isNan32 x))
      let s := up16Val (spread lo hi) 254
      if s = 0 then (0, 0)
      else
        match fp32.decode lo, fp16.decode s with
        | .fin _ m e', .fin _ ms es =>
          let (a, d) := quotFrac false m e' ms es
          (s, (clampInt 0 254 (roundQ .even a d)).toNat)
        | _, _ => (s, 254)
  let codes := (List.range xs.length).map fun i =>
    if esc.contains i then (if sym then 0x80 else 0xFF) else convertA8 sym r (xs.getD i 0) sz.1 sz.2
  let ents := (sortBy (fun a b => a ≤ b) esc).map fun i => (i, toBf16 (xs.getD i 0))
  { codes := codes, rec_ := ⟨sz.1, sz.2, ents⟩, next := sz }

/-- Conversion under a carried scale and zero point (R114, R116, R117). -/
def carriedGroup (xs : List Nat) (e : Nat) (sym : Bool) (r : Rnd) (s z : Nat) : GroupOut :=
  let outside (x : Nat) : Bool :=
    match codeRaw sym r x s z with
    | none => true
    | some v => if sym then decide (v < -127 ∨ 127 < v) else decide (v < 0 ∨ 254 < v)
  let all := (List.range xs.length).filter fun i => outside (xs.getD i 0)
  let esc := all.take e
  let codes := (List.range xs.length).map fun i =>
    if esc.contains i then (if sym then 0x80 else 0xFF) else convertA8 sym r (xs.getD i 0) s z
  let dist (i : Nat) : Nat :=
    let c := codes.getD i 0
    if sym then (toSigned 8 c).natAbs else ((c : Int) - z).natAbs
  let mags := ((List.range xs.length).filter (fun i => !esc.contains i)).map dist
  let coarse := decide (maxNat mags < 16) && xs.any (fun x => !isZero32 x)
  let next : Nat × Nat :=
    if coarse then
      (if sym then (up16Val (exactAbsMax xs) 127, 0) else (marver xs 0 false r).next)
    else (s, z)
  { codes := codes, rec_ := ⟨s, z, esc.map fun i => (i, toBf16 (xs.getD i 0))⟩,
    exceeds := decide (e < all.length), coarse := coarse, next := next }

/-! The output conversion word (R101). -/

structure ConvWord where
  outFmt : Nat
  glog   : Nat
  e      : Nat
  rnd    : Rnd
  nanZero : Bool
  carried : Bool
  redoEnergy : Nat
  outElems : Nat
  deriving DecidableEq, Repr

def parseConv (v : Nat) : ConvWord :=
  ⟨slice v 0 4, 5 + slice v 4 2, [0, 1, 2, 4].getD (slice v 6 2) 0, if bitAt v 8 then .zero else .even, bitAt v 9,
   bitAt v 10, slice v 16 16, slice v 32 32⟩

/-- One FP32 value to FP8 or BF16 (R102). -/
def convertFp (fmt : Nat) (r : Rnd) (nanZero : Bool) (x : Nat) : Nat :=
  let f := if fmt = 3 then e4m3 else if fmt = 4 then e5m2 else bf16
  match fp32.decode x with
  | .nan => if nanZero then 0 else f.nanBits
  | .inf n => f.signBit n + f.maxBits
  | .fin n m e => f.roundSat r n m e

/-- Consecutive groups of 2^glog elements. -/
def groupsOf (glog : Nat) (xs : List Nat) : List (List Nat) :=
  (List.range (ceilDiv xs.length (2 ^ glog))).map fun g => (xs.drop (g * 2 ^ glog)).take (2 ^ glog)

/-- The groups of an output whose rows have `width` elements (R91). -/
def rowGroups (glog width : Nat) (xs : List Nat) : List (List Nat) :=
  if width = 0 then groupsOf glog xs
  else (List.range (ceilDiv xs.length width)).flatMap fun r => groupsOf glog ((xs.drop (r * width)).take width)

/-- Convert every group of an output to A8: by the marver pass, or under carried scales where `sets` gives them. -/
def convertGroups (c : ConvWord) (gs : List (List Nat)) (sets : Option (List (Nat × Nat))) : List GroupOut :=
  let sym := c.outFmt == 6
  match sets with
  | none => gs.map fun g => marver g c.e sym c.rnd
  | some ss => (gs.zip ss).map fun p => carriedGroup p.1 c.e sym c.rnd p.2.1 p.2.2

/-- Magnitude rank of a code of a compressed block: escapes first (R136). -/
def codeRank (c : Nat) : Nat := if c = 0x80 then 128 else (toSigned 8 c).natAbs

/-- Compress 64 codes; whether some were dropped (R135, R136). -/
def compressBlock (cap : Nat) (cs : List Nat) : List Byte × Bool :=
  let nz := (List.range 64).filter fun i => cs.getD i 0 != 0
  let best := sortBy (fun i j => decide (codeRank (cs.getD j 0) < codeRank (cs.getD i 0)) ||
    (codeRank (cs.getD j 0) == codeRank (cs.getD i 0) && decide (i ≤ j))) nz
  let keep := best.take cap
  let kept := (List.range 64).filter fun i => keep.contains i
  (leBytes 8 (sumNat (kept.map (2 ^ ·))) ++ bytesAt (kept.map fun i => BitVec.ofNat 8 (cs.getD i 0)) 0 cap, decide (cap < nz.length))

def dataHeader (tag fmt glog n : Nat) : List Byte :=
  leBytes 1 tag ++ leBytes 1 fmt ++ leBytes 1 glog ++ leBytes 1 0 ++ leBytes 4 n ++ leBytes 8 0

def padTo16 (bs : List Byte) : List Byte := bs ++ List.replicate (roundUp bs.length 16 - bs.length) 0

/-- Data block of A8 groups. -/
def a8Data (tag : Nat) (c : ConvWord) (gs : List GroupOut) : List Byte :=
  let codes := gs.flatMap (·.codes)
  padTo16 (dataHeader tag c.outFmt c.glog codes.length ++ codes.map (BitVec.ofNat 8))

/-- The same with compressed blocks of a Cap, and the numbers of the blocks that dropped codes (R136). -/
def a8Comp (tag cap : Nat) (c : ConvWord) (gs : List GroupOut) : List Byte × List Nat :=
  let codes := gs.flatMap (·.codes)
  let bs := (List.range (codes.length / 64)).map fun i => compressBlock cap ((codes.drop (64 * i)).take 64)
  (padTo16 (dataHeader tag c.outFmt c.glog codes.length ++ bs.flatMap (·.1)),
   (bs.zipIdx.filter fun x => x.1.2).map (·.2))

/-- Scale record set of A8 groups. -/
def a8Scales (tag : Nat) (c : ConvWord) (gs : List GroupOut) : List Byte :=
  let recBytes (r : GScale) : List Byte :=
    leBytes 2 r.scale ++ leBytes 1 r.zp ++ leBytes 1 r.entries.length ++
      bytesAt (r.entries.flatMap fun x => leBytes 4 (x.1 + x.2 * 65536)) 0 (4 * c.e)
  padTo16 (leBytes 1 tag ++ leBytes 1 c.e ++ leBytes 2 0 ++ leBytes 4 gs.length ++ leBytes 8 0 ++
    gs.flatMap fun g => recBytes g.rec_)

/-- Data block of an FP8 or BF16 output. -/
def fpData (tag : Nat) (c : ConvWord) (xs : List Nat) : List Byte :=
  padTo16 (dataHeader tag c.outFmt 0 xs.length ++
    xs.flatMap fun x => leBytes (elemBits c.outFmt / 8) (convertFp c.outFmt c.rnd c.nanZero x))

/-- Plain FP32 array (R96). -/
def f32Data (xs : List Nat) : List Byte := xs.flatMap (leBytes 4)

/-! Accumulation (R104 to R108). -/

/-- Datum of an integer. -/
def intVal (x : Int) : FVal := .fin (decide (x < 0)) x.natAbs 0

/-- One product pair of a reduction: weight element, activation element, and the scales of their groups. -/
structure MacTerm where
  w  : WElem
  a  : AElem
  sw : FVal
  sa : FVal
  /-- Accumulation group. -/
  g  : Nat
  deriving DecidableEq, Repr

/-- Integer part of a term: escaped positions enter as weight 0, activation z (R104). The z × S_g of
R107 is subtracted by `macSum`. -/
def MacTerm.intPart (t : MacTerm) : Int :=
  let w : Int := match t.w with | .int v _ => v | _ => 0
  let q : Int := match t.a with | .int q _ _ => q | .side _ z _ => z | _ => 0
  w * q

/-- FP32 product of an escaped position or of a floating-point pair, if the term has one (R106, R108). -/
def MacTerm.fpPart (t : MacTerm) : Option Nat :=
  match t.w, t.a with
  | .side v _, .int q z _ => some (fp32.encode (fvProd (fvProd (bf16.decode v) (intVal (q - z))) t.sa))
  | .int w _, .side v _ _ => some (fp32.encode (fvProd (fvProd (intVal w) t.sw) (bf16.decode v)))
  | .side v _, .side v' _ _ => some (fp32.encode (fvProd (bf16.decode v) (bf16.decode v')))
  | .fp x, .fp y => some (fp32.encode (fvProd x y))
  | _, _ => none

/-- fl(P × (s_w × s_a)), R105. -/
def groupTerm (p : Int) (sw sa : FVal) : Nat := fp32.encode (fvProd (intVal p) (fvProd sw sa))

/-- Zero point of a term's activation group. -/
def MacTerm.zp (t : MacTerm) : Int := match t.a with | .int _ z _ => z | .side _ z _ => z | .fp _ => 0

def MacTerm.isInt (t : MacTerm) : Bool := match t.w with | .fp _ => false | _ => true

/-- One output of R105 to R108: terms of one reduction, with the S of each accumulation group of a zero-point reduction. -/
def macSum (path : List Nat) (ts : List MacTerm) (sums : List (Nat × Int)) : Nat :=
  let groups := dedup ((ts.filter (·.isInt)).map (·.g))
  let part (g : Nat) : List Nat :=
    match ts.filter fun t => t.g == g && t.isInt with
    | [] => []
    | t :: rest =>
      let p := ((t :: rest).map MacTerm.intPart).foldl (· + ·) 0
      let corr : Int := t.zp * ((sums.find? fun x => x.1 == g).map (·.2)).getD 0
      [groupTerm (p - corr) t.sw t.sa]
  fsum path (groups.flatMap part ++ ts.filterMap MacTerm.fpPart)

/-- The value of an A1 bit (R89): +1 or −1 in one group with scale 1. -/
def a1Elem (bit : Bool) : AElem := .int (if bit then 1 else -1) 0 0

end Sys2Proof.Machine
end

