-- ==== Sys2Proof/Machine/RegMap.lean ====
section
/-! DEFINITION. The register pages (02_register_pages.md, R32, R33) and the table of every register field of the
spec's register tables: page, offset, bits, access code (R6), reset value and retention class (R51). -/
namespace Sys2Proof.Machine

/-- The kinds of register page that BAR0 holds (R33). -/
inductive PageKind where
  | ctl | sec | log | cnt | dmp | tly | gaf | pnt | evtDev | ben | gth | evtB | cor | xmc | lnk | pkt | apt | spd
  deriving DecidableEq, Repr

/-- Access codes (00_scope.md, R6). -/
inductive Access where
  | ro | rw | rw1c | wo | st | sr
  deriving DecidableEq, Repr

/-- Retention classes (02_register_pages.md, R51). -/
inductive Cls where
  | p | c | h | s | b | l
  deriving DecidableEq, Repr

/-- One field of a register table; `count` copies lie `stride` bytes apart. -/
structure Field where
  page   : PageKind
  off    : Nat
  stride : Nat
  count  : Nat
  lsb    : Nat
  width  : Nat
  acc    : Access
  reset  : Nat
  cls    : Cls
  deriving DecidableEq, Repr

/-- PageType of each page (R33). -/
def PageKind.pageType : PageKind → Nat
  | .ctl => 0x1
  | .sec => 0x2
  | .log => 0x3
  | .cnt => 0x4
  | .dmp => 0x5
  | .tly => 0x6
  | .gaf => 0x7
  | .pnt => 0x8
  | .evtDev => 0x9
  | .ben => 0xA
  | .gth => 0xB
  | .evtB => 0x9
  | .cor => 0xC
  | .xmc => 0xE
  | .lnk => 0xF
  | .pkt => 0x10
  | .apt => 0x11
  | .spd => 0xD

/-- Where the register file holds the first page of a kind: at its BAR0 offset (R33), but for PKT. R33 and R349 give the PKT pages
the offsets that R33 and R332 give the LNK pages of ports 16 to 23, so the two need places of their own (notes/assumptions/39.md). -/
def PageKind.base : PageKind → Nat
  | .ctl => 0x0
  | .sec => 0x1000
  | .log => 0x2000
  | .cnt => 0x3000
  | .dmp => 0x4000
  | .tly => 0x5000
  | .gaf => 0x6000
  | .pnt => 0x7000
  | .evtDev => 0x8000
  | .ben => 0x10000
  | .gth => 0x20000
  | .evtB => 0x30000
  | .cor => 0x100000
  | .xmc => 0x300000
  | .lnk => 0x310000
  | .pkt => 0x1320000
  | .apt => 0x330000
  | .spd => 0x340000

/-- How many pages of a kind there are (R33). -/
def PageKind.count : PageKind → Nat
  | .ctl => 1
  | .sec => 1
  | .log => 1
  | .cnt => 1
  | .dmp => 1
  | .tly => 1
  | .gaf => 1
  | .pnt => 1
  | .evtDev => 1
  | .ben => 16
  | .gth => 16
  | .evtB => 16
  | .cor => 512
  | .xmc => 16
  | .lnk => 32
  | .pkt => 8
  | .apt => 16
  | .spd => 1

def PageKind.all : List PageKind :=
  [.ctl, .sec, .log, .cnt, .dmp, .tly, .gaf, .pnt, .evtDev, .ben, .gth, .evtB, .cor, .xmc, .lnk, .pkt, .apt, .spd]

/-- The Instance a page's PAGE_ID reports (R33). -/
def PageKind.instNo (k : PageKind) (inst : Nat) : Nat := if k = .evtDev then 16 else inst

namespace Fd

/-- R35, 02_register_pages.md. -/
def CTL_PAGE_CAP_PartCode : Field := ⟨.ctl, 0x4, 0x0, 1, 0, 16, .ro, 0x96, .p⟩
/-- R35, 02_register_pages.md. -/
def CTL_PAGE_CAP_Stepping : Field := ⟨.ctl, 0x4, 0x0, 1, 16, 8, .ro, 0xA0, .p⟩
/-- R49, 02_register_pages.md. -/
def CTL_PAGE_ERR_CommitBusy : Field := ⟨.ctl, 0x10, 0x0, 1, 16, 1, .rw1c, 0x0, .h⟩
/-- R435, 18_host_resets_log.md. -/
def CTL_PAGE_ERR_RingFull : Field := ⟨.ctl, 0x10, 0x0, 1, 17, 1, .rw1c, 0x0, .h⟩
/-- R435, 18_host_resets_log.md. -/
def CTL_PAGE_ERR_PmViolation : Field := ⟨.ctl, 0x10, 0x0, 1, 18, 1, .rw1c, 0x0, .h⟩
/-- R49, 02_register_pages.md. -/
def CTL_COMMIT_Cmd : Field := ⟨.ctl, 0x100, 0x0, 1, 0, 4, .wo, 0x0, .s⟩
/-- R49, 02_register_pages.md. -/
def CTL_COMMIT_When : Field := ⟨.ctl, 0x100, 0x0, 1, 4, 1, .wo, 0x0, .s⟩
/-- R49, 02_register_pages.md. -/
def CTL_COMMIT_STATUS_State : Field := ⟨.ctl, 0x104, 0x0, 1, 0, 2, .ro, 0x0, .s⟩
/-- R49, 02_register_pages.md. -/
def CTL_COMMIT_STATUS_Busy : Field := ⟨.ctl, 0x104, 0x0, 1, 2, 1, .ro, 0x0, .s⟩
/-- R49, 02_register_pages.md. -/
def CTL_COMMIT_STATUS_Code : Field := ⟨.ctl, 0x104, 0x0, 1, 8, 8, .ro, 0x0, .s⟩
/-- R49, 02_register_pages.md. -/
def CTL_COMMIT_WHERE_Where : Field := ⟨.ctl, 0x108, 0x0, 1, 0, 24, .ro, 0x0, .s⟩
/-- R49, 02_register_pages.md. -/
def CTL_COMMIT_WHERE_Kind : Field := ⟨.ctl, 0x108, 0x0, 1, 24, 4, .ro, 0x0, .s⟩
/-- R49, 02_register_pages.md. -/
def CTL_COMMIT_AUX_Entry : Field := ⟨.ctl, 0x10C, 0x0, 1, 0, 12, .ro, 0x0, .s⟩
/-- R49, 02_register_pages.md. -/
def CTL_COMMIT_TIME_LO : Field := ⟨.ctl, 0x110, 0x0, 1, 0, 32, .rw, 0x0, .s⟩
/-- R49, 02_register_pages.md. -/
def CTL_COMMIT_TIME_HI : Field := ⟨.ctl, 0x114, 0x0, 1, 0, 32, .rw, 0x0, .s⟩
/-- R49, 02_register_pages.md. -/
def CTL_COMMIT_DONE_LO : Field := ⟨.ctl, 0x118, 0x0, 1, 0, 32, .ro, 0x0, .s⟩
/-- R49, 02_register_pages.md. -/
def CTL_COMMIT_DONE_HI : Field := ⟨.ctl, 0x11C, 0x0, 1, 0, 32, .ro, 0x0, .s⟩
/-- R49, 02_register_pages.md. -/
def CTL_COMMIT_SEQ : Field := ⟨.ctl, 0x120, 0x0, 1, 0, 32, .ro, 0x0, .s⟩
/-- R435, 18_host_resets_log.md. -/
def CTL_RESET_Soft : Field := ⟨.ctl, 0x140, 0x0, 1, 0, 1, .wo, 0x0, .s⟩
/-- R435, 18_host_resets_log.md. -/
def CTL_RESET_Key : Field := ⟨.ctl, 0x140, 0x0, 1, 16, 16, .wo, 0x0, .s⟩
/-- R435, 18_host_resets_log.md. -/
def CTL_BENCH_RST_Mask : Field := ⟨.ctl, 0x144, 0x0, 1, 0, 16, .wo, 0x0, .s⟩
/-- R435, 18_host_resets_log.md. -/
def CTL_BENCH_RST_Key : Field := ⟨.ctl, 0x144, 0x0, 1, 16, 16, .wo, 0x0, .s⟩
/-- R435, 18_host_resets_log.md. -/
def CTL_JOBKILL_Image : Field := ⟨.ctl, 0x148, 0x0, 1, 0, 8, .wo, 0x0, .s⟩
/-- R435, 18_host_resets_log.md. -/
def CTL_JOBKILL_Go : Field := ⟨.ctl, 0x148, 0x0, 1, 31, 1, .wo, 0x0, .s⟩
/-- R435, 18_host_resets_log.md. -/
def CTL_JOBKILL_STATUS_Busy : Field := ⟨.ctl, 0x14C, 0x0, 1, 0, 1, .ro, 0x0, .s⟩
/-- R435, 18_host_resets_log.md. -/
def CTL_JOBKILL_STATUS_Image : Field := ⟨.ctl, 0x14C, 0x0, 1, 8, 8, .ro, 0x0, .s⟩
/-- R435, 18_host_resets_log.md. -/
def CTL_POWER_Req : Field := ⟨.ctl, 0x150, 0x0, 1, 0, 2, .rw, 0x0, .s⟩
/-- R435, 18_host_resets_log.md. -/
def CTL_POWER_STATUS_State : Field := ⟨.ctl, 0x154, 0x0, 1, 0, 3, .ro, 0x0, .s⟩
/-- R435, 18_host_resets_log.md. -/
def CTL_POWER_STATUS_FailStopped : Field := ⟨.ctl, 0x154, 0x0, 1, 3, 1, .ro, 0x0, .c⟩
/-- R435, 18_host_resets_log.md. -/
def CTL_RESET_CAUSE_Last : Field := ⟨.ctl, 0x158, 0x0, 1, 0, 3, .ro, 0x0, .p⟩
/-- R435, 18_host_resets_log.md. -/
def CTL_BAR2_APER_Base : Field := ⟨.ctl, 0x160, 0x0, 1, 0, 15, .rw, 0x0, .s⟩
/-- R468, 20_package_boot.md. -/
def CTL_BOOT_Phase : Field := ⟨.ctl, 0x170, 0x0, 1, 0, 4, .ro, 0x0, .c⟩
/-- R468, 20_package_boot.md. -/
def CTL_BOOT_Fail : Field := ⟨.ctl, 0x170, 0x0, 1, 8, 4, .ro, 0x0, .c⟩
/-- R468, 20_package_boot.md. -/
def CTL_BOOT_Detail : Field := ⟨.ctl, 0x170, 0x0, 1, 16, 16, .ro, 0x0, .c⟩
/-- R468, 20_package_boot.md. -/
def CTL_BOOT_TIME_LO : Field := ⟨.ctl, 0x178, 0x0, 1, 0, 32, .ro, 0x0, .c⟩
/-- R468, 20_package_boot.md. -/
def CTL_BOOT_TIME_HI : Field := ⟨.ctl, 0x17C, 0x0, 1, 0, 32, .ro, 0x0, .c⟩
/-- R435, 18_host_resets_log.md. -/
def CTL_RING_BaseLo : Field := ⟨.ctl, 0x200, 0x20, 16, 12, 20, .st, 0x0, .s⟩
/-- R435, 18_host_resets_log.md. -/
def CTL_RING_BaseHi : Field := ⟨.ctl, 0x204, 0x20, 16, 0, 15, .st, 0x0, .s⟩
/-- R435, 18_host_resets_log.md. -/
def CTL_RING_SizeLog2 : Field := ⟨.ctl, 0x208, 0x20, 16, 0, 5, .st, 0x10, .s⟩
/-- R435, 18_host_resets_log.md. -/
def CTL_RING_Enable : Field := ⟨.ctl, 0x208, 0x20, 16, 5, 1, .st, 0x0, .s⟩
/-- R435, 18_host_resets_log.md. -/
def CTL_RING_DropCnt : Field := ⟨.ctl, 0x20C, 0x20, 16, 0, 32, .ro, 0x0, .s⟩
/-- R435, 18_host_resets_log.md. -/
def CTL_RING_WbLo : Field := ⟨.ctl, 0x210, 0x20, 16, 3, 29, .st, 0x0, .s⟩
/-- R435, 18_host_resets_log.md. -/
def CTL_RING_WbHi : Field := ⟨.ctl, 0x214, 0x20, 16, 0, 15, .st, 0x0, .s⟩
/-- R435, 18_host_resets_log.md. -/
def CTL_RING_ConsLo : Field := ⟨.ctl, 0x218, 0x20, 16, 0, 32, .rw, 0x0, .s⟩
/-- R435, 18_host_resets_log.md. -/
def CTL_RING_ConsHi : Field := ⟨.ctl, 0x21C, 0x20, 16, 0, 32, .rw, 0x0, .s⟩
/-- R31, 01_architecture.md. -/
def CTL_CAP_OPSET_OpSetRev : Field := ⟨.ctl, 0x400, 0x0, 1, 0, 8, .ro, 0x3, .p⟩
/-- R31, 01_architecture.md. -/
def CTL_CAP_OPSET_OpSetOldest : Field := ⟨.ctl, 0x400, 0x0, 1, 8, 8, .ro, 0x2, .p⟩
/-- R31, 01_architecture.md. -/
def CTL_CAP_ARRAY_Benches : Field := ⟨.ctl, 0x404, 0x0, 1, 0, 8, .ro, 0x10, .p⟩
/-- R31, 01_architecture.md. -/
def CTL_CAP_ARRAY_CoresPerBench : Field := ⟨.ctl, 0x404, 0x0, 1, 8, 8, .ro, 0x20, .p⟩
/-- R31, 01_architecture.md. -/
def CTL_CAP_ARRAY_GridRows : Field := ⟨.ctl, 0x404, 0x0, 1, 16, 8, .ro, 0x20, .p⟩
/-- R31, 01_architecture.md. -/
def CTL_CAP_ARRAY_GridCols : Field := ⟨.ctl, 0x404, 0x0, 1, 24, 8, .ro, 0x40, .p⟩
/-- R31, 01_architecture.md. -/
def CTL_CAP_VECTOR_VecLanes : Field := ⟨.ctl, 0x408, 0x0, 1, 0, 8, .ro, 0x40, .p⟩
/-- R31, 01_architecture.md. -/
def CTL_CAP_VECTOR_TransUnits : Field := ⟨.ctl, 0x408, 0x0, 1, 8, 8, .ro, 0x10, .p⟩
/-- R31, 01_architecture.md. -/
def CTL_CAP_CLOCK_ArrayMHz : Field := ⟨.ctl, 0x40C, 0x0, 1, 0, 16, .ro, 0x9C4, .p⟩
/-- R31, 01_architecture.md. -/
def CTL_CAP_CLOCK_FabricMHz : Field := ⟨.ctl, 0x40C, 0x0, 1, 16, 16, .ro, 0x4E2, .p⟩
/-- R31, 01_architecture.md. -/
def CTL_CAP_FORMATS_Formats : Field := ⟨.ctl, 0x410, 0x0, 1, 0, 9, .ro, 0x1FF, .p⟩
/-- R31, 01_architecture.md. -/
def CTL_CAP_FORMATS_GroupSizes : Field := ⟨.ctl, 0x410, 0x0, 1, 16, 3, .ro, 0x7, .p⟩
/-- R31, 01_architecture.md. -/
def CTL_CAP_FORMATS_Escapes : Field := ⟨.ctl, 0x410, 0x0, 1, 20, 4, .ro, 0xF, .p⟩
/-- R31, 01_architecture.md. -/
def CTL_CAP_SPARSE_SparseOps : Field := ⟨.ctl, 0x414, 0x0, 1, 0, 6, .ro, 0x3F, .p⟩
/-- R31, 01_architecture.md. -/
def CTL_CAP_SPARSE_MaxExperts : Field := ⟨.ctl, 0x414, 0x0, 1, 8, 8, .ro, 0x40, .p⟩
/-- R31, 01_architecture.md. -/
def CTL_CAP_SPARSE_MaxTopK : Field := ⟨.ctl, 0x414, 0x0, 1, 16, 4, .ro, 0x8, .p⟩
/-- R31, 01_architecture.md. -/
def CTL_CAP_SPAD_SpadMiB : Field := ⟨.ctl, 0x418, 0x0, 1, 0, 16, .ro, 0x2000, .p⟩
/-- R31, 01_architecture.md. -/
def CTL_CAP_SPAD_SliceMiB : Field := ⟨.ctl, 0x418, 0x0, 1, 16, 8, .ro, 0x10, .p⟩
/-- R31, 01_architecture.md. -/
def CTL_CAP_SPAD_BanksPerSlice : Field := ⟨.ctl, 0x418, 0x0, 1, 24, 8, .ro, 0x40, .p⟩
/-- R31, 01_architecture.md. -/
def CTL_CAP_REGION_CoreRegions : Field := ⟨.ctl, 0x41C, 0x0, 1, 0, 8, .ro, 0x40, .p⟩
/-- R31, 01_architecture.md. -/
def CTL_CAP_REGION_DevRegions : Field := ⟨.ctl, 0x41C, 0x0, 1, 8, 12, .ro, 0x100, .p⟩
/-- R31, 01_architecture.md. -/
def CTL_CAP_REGION_SharedMaxMiB : Field := ⟨.ctl, 0x41C, 0x0, 1, 20, 12, .ro, 0x400, .p⟩
/-- R31, 01_architecture.md. -/
def CTL_CAP_GATHER_Outstanding : Field := ⟨.ctl, 0x420, 0x0, 1, 0, 10, .ro, 0x200, .p⟩
/-- R31, 01_architecture.md. -/
def CTL_CAP_GATHER_Programs : Field := ⟨.ctl, 0x420, 0x0, 1, 10, 7, .ro, 0x40, .p⟩
/-- R31, 01_architecture.md. -/
def CTL_CAP_GATHER_Instructions : Field := ⟨.ctl, 0x420, 0x0, 1, 17, 6, .ro, 0x20, .p⟩
/-- R31, 01_architecture.md. -/
def CTL_CAP_GATHER_LoopDepth : Field := ⟨.ctl, 0x420, 0x0, 1, 23, 3, .ro, 0x6, .p⟩
/-- R31, 01_architecture.md. -/
def CTL_CAP_RING_RingsPerBench : Field := ⟨.ctl, 0x424, 0x0, 1, 0, 11, .ro, 0x400, .p⟩
/-- R31, 01_architecture.md. -/
def CTL_CAP_RING_RingMinSlots : Field := ⟨.ctl, 0x424, 0x0, 1, 16, 5, .ro, 0x3, .p⟩
/-- R31, 01_architecture.md. -/
def CTL_CAP_RING_RingMaxSlots : Field := ⟨.ctl, 0x424, 0x0, 1, 24, 5, .ro, 0x10, .p⟩
/-- R31, 01_architecture.md. -/
def CTL_CAP_STREAM_MaxStreams : Field := ⟨.ctl, 0x428, 0x0, 1, 0, 16, .ro, 0x1000, .p⟩
/-- R31, 01_architecture.md. -/
def CTL_CAP_STREAM_MaxOpCycles : Field := ⟨.ctl, 0x428, 0x0, 1, 16, 16, .ro, 0xC350, .p⟩
/-- R31, 01_architecture.md. -/
def CTL_CAP_KV_KvPageSizes : Field := ⟨.ctl, 0x42C, 0x0, 1, 0, 9, .ro, 0x1FF, .p⟩
/-- R31, 01_architecture.md. -/
def CTL_CAP_KV_CulletPages : Field := ⟨.ctl, 0x42C, 0x0, 1, 9, 1, .ro, 0x1, .p⟩
/-- R31, 01_architecture.md. -/
def CTL_CAP_KV_KvRing : Field := ⟨.ctl, 0x42C, 0x0, 1, 10, 1, .ro, 0x1, .p⟩
/-- R31, 01_architecture.md. -/
def CTL_CAP_KV_ScoreFmts : Field := ⟨.ctl, 0x42C, 0x0, 1, 11, 3, .ro, 0x7, .p⟩
/-- R31, 01_architecture.md. -/
def CTL_CAP_KV_KvStoreFmts : Field := ⟨.ctl, 0x42C, 0x0, 1, 14, 2, .ro, 0x3, .p⟩
/-- R31, 01_architecture.md. -/
def CTL_CAP_RECUR_RecurOps : Field := ⟨.ctl, 0x430, 0x0, 1, 0, 8, .ro, 0xFF, .p⟩
/-- R31, 01_architecture.md. -/
def CTL_CAP_RECUR_AnnealMaxM1 : Field := ⟨.ctl, 0x430, 0x0, 1, 8, 16, .ro, 0xFFFF, .p⟩
/-- R31, 01_architecture.md. -/
def CTL_CAP_SPECTRAL_SpectralOps : Field := ⟨.ctl, 0x434, 0x0, 1, 0, 10, .ro, 0x3FF, .p⟩
/-- R31, 01_architecture.md. -/
def CTL_CAP_MEM_LpddrGiB : Field := ⟨.ctl, 0x438, 0x0, 1, 0, 16, .ro, 0x180, .c⟩
/-- R31, 01_architecture.md. -/
def CTL_CAP_MEM_Channels : Field := ⟨.ctl, 0x438, 0x0, 1, 16, 8, .ro, 0x80, .c⟩
/-- R31, 01_architecture.md. -/
def CTL_CAP_MEM_Sites : Field := ⟨.ctl, 0x438, 0x0, 1, 24, 8, .ro, 0x10, .p⟩
/-- R31, 01_architecture.md. -/
def CTL_CAP_MEMBW_LpddrGBps : Field := ⟨.ctl, 0x43C, 0x0, 1, 0, 16, .ro, 0x1324, .c⟩
/-- R31, 01_architecture.md. -/
def CTL_CAP_MEMBW_NarrowMaps : Field := ⟨.ctl, 0x43C, 0x0, 1, 16, 16, .ro, 0x1770, .c⟩
/-- R31, 01_architecture.md. -/
def CTL_CAP_PORTS_LinkPorts : Field := ⟨.ctl, 0x440, 0x0, 1, 0, 8, .ro, 0x20, .p⟩
/-- R31, 01_architecture.md. -/
def CTL_CAP_PORTS_PacketPorts : Field := ⟨.ctl, 0x440, 0x0, 1, 8, 8, .ro, 0x8, .p⟩
/-- R31, 01_architecture.md. -/
def CTL_CAP_PORTS_AudioPorts : Field := ⟨.ctl, 0x440, 0x0, 1, 16, 8, .ro, 0x10, .p⟩
/-- R31, 01_architecture.md. -/
def CTL_CAP_PORTS_LinkRates : Field := ⟨.ctl, 0x440, 0x0, 1, 24, 3, .ro, 0x7, .p⟩
/-- R31, 01_architecture.md. -/
def CTL_CAP_PLATFORM_Platform : Field := ⟨.ctl, 0x444, 0x0, 1, 0, 6, .ro, 0x3F, .p⟩
/-- R453, 19_presence_tally.md. -/
def SEC_PAGE_ERR_FlashFail : Field := ⟨.sec, 0x10, 0x0, 1, 16, 1, .rw1c, 0x0, .h⟩
/-- R453, 19_presence_tally.md. -/
def SEC_PAGE_ERR_FwReject : Field := ⟨.sec, 0x10, 0x0, 1, 17, 1, .rw1c, 0x0, .h⟩
/-- R453, 19_presence_tally.md. -/
def SEC_PAGE_ERR_PresenceDenied : Field := ⟨.sec, 0x10, 0x0, 1, 18, 1, .rw1c, 0x0, .h⟩
/-- R453, 19_presence_tally.md. -/
def SEC_PRESENCE_Open : Field := ⟨.sec, 0x100, 0x0, 1, 0, 1, .ro, 0x0, .c⟩
/-- R453, 19_presence_tally.md. -/
def SEC_PRESENCE_RemainDs : Field := ⟨.sec, 0x100, 0x0, 1, 1, 10, .ro, 0x0, .c⟩
/-- R453, 19_presence_tally.md. -/
def SEC_PRESENCE_CTL_Close : Field := ⟨.sec, 0x104, 0x0, 1, 0, 1, .wo, 0x0, .s⟩
/-- R453, 19_presence_tally.md. -/
def SEC_PRESENCE_CNT : Field := ⟨.sec, 0x108, 0x0, 1, 0, 32, .ro, 0x0, .p⟩
/-- R453, 19_presence_tally.md. -/
def SEC_CMD_Op : Field := ⟨.sec, 0x110, 0x0, 1, 0, 4, .wo, 0x0, .s⟩
/-- R453, 19_presence_tally.md. -/
def SEC_CMD_STATUS_Busy : Field := ⟨.sec, 0x114, 0x0, 1, 0, 1, .ro, 0x0, .s⟩
/-- R453, 19_presence_tally.md. -/
def SEC_CMD_STATUS_Result : Field := ⟨.sec, 0x114, 0x0, 1, 8, 8, .ro, 0x0, .s⟩
/-- R453, 19_presence_tally.md. -/
def SEC_CMD_ADDR_LO : Field := ⟨.sec, 0x118, 0x0, 1, 0, 32, .rw, 0x0, .s⟩
/-- R453, 19_presence_tally.md. -/
def SEC_CMD_ADDR_HI : Field := ⟨.sec, 0x11C, 0x0, 1, 0, 16, .rw, 0x0, .s⟩
/-- R453, 19_presence_tally.md. -/
def SEC_CMD_LEN : Field := ⟨.sec, 0x120, 0x0, 1, 0, 24, .rw, 0x0, .s⟩
/-- R453, 19_presence_tally.md. -/
def SEC_FW_ActiveSvn : Field := ⟨.sec, 0x124, 0x0, 1, 0, 6, .ro, 0x0, .c⟩
/-- R453, 19_presence_tally.md. -/
def SEC_FW_MinSvn : Field := ⟨.sec, 0x124, 0x0, 1, 8, 6, .ro, 0x0, .p⟩
/-- R453, 19_presence_tally.md. -/
def SEC_FW_ActiveSlot : Field := ⟨.sec, 0x124, 0x0, 1, 16, 1, .ro, 0x0, .c⟩
/-- R453, 19_presence_tally.md. -/
def SEC_FW_Pending : Field := ⟨.sec, 0x124, 0x0, 1, 17, 1, .ro, 0x0, .c⟩
/-- R453, 19_presence_tally.md. -/
def SEC_FW_Fallback : Field := ⟨.sec, 0x124, 0x0, 1, 18, 1, .ro, 0x0, .c⟩
/-- R453, 19_presence_tally.md. -/
def SEC_KEY_IdGen : Field := ⟨.sec, 0x128, 0x0, 1, 0, 3, .ro, 0x0, .p⟩
/-- R453, 19_presence_tally.md. -/
def SEC_KEY_KeyExhausted : Field := ⟨.sec, 0x128, 0x0, 1, 3, 1, .ro, 0x0, .p⟩
/-- R453, 19_presence_tally.md. -/
def SEC_DEBUG_Unlocked : Field := ⟨.sec, 0x12C, 0x0, 1, 0, 1, .ro, 0x0, .c⟩
/-- R453, 19_presence_tally.md. -/
def SEC_FLEET_BASE_LO : Field := ⟨.sec, 0x130, 0x0, 1, 6, 26, .st, 0x0, .s⟩
/-- R453, 19_presence_tally.md. -/
def SEC_FLEET_BASE_HI : Field := ⟨.sec, 0x134, 0x0, 1, 0, 16, .st, 0x0, .s⟩
/-- R453, 19_presence_tally.md. -/
def SEC_FLEET_CFG_Count : Field := ⟨.sec, 0x138, 0x0, 1, 0, 13, .st, 0x0, .s⟩
/-- R453, 19_presence_tally.md. -/
def SEC_FLEET_CFG_Enable : Field := ⟨.sec, 0x138, 0x0, 1, 16, 1, .st, 0x0, .s⟩
/-- R453, 19_presence_tally.md. -/
def SEC_BOOT_CNT : Field := ⟨.sec, 0x13C, 0x0, 1, 0, 32, .ro, 0x0, .p⟩
/-- R453, 19_presence_tally.md. -/
def SEC_TRING_BASE_LO : Field := ⟨.sec, 0x140, 0x0, 1, 12, 20, .st, 0x0, .s⟩
/-- R453, 19_presence_tally.md. -/
def SEC_TRING_BASE_HI : Field := ⟨.sec, 0x144, 0x0, 1, 0, 15, .st, 0x0, .s⟩
/-- R453, 19_presence_tally.md. -/
def SEC_TRING_CFG_SizeLog2 : Field := ⟨.sec, 0x148, 0x0, 1, 0, 5, .st, 0x14, .s⟩
/-- R453, 19_presence_tally.md. -/
def SEC_TRING_CFG_Enable : Field := ⟨.sec, 0x148, 0x0, 1, 5, 1, .st, 0x0, .s⟩
/-- R453, 19_presence_tally.md. -/
def SEC_TRING_WB_LO : Field := ⟨.sec, 0x150, 0x0, 1, 3, 29, .st, 0x0, .s⟩
/-- R453, 19_presence_tally.md. -/
def SEC_TRING_WB_HI : Field := ⟨.sec, 0x154, 0x0, 1, 0, 15, .st, 0x0, .s⟩
/-- R453, 19_presence_tally.md. -/
def SEC_TRING_CONS : Field := ⟨.sec, 0x158, 0x4, 2, 0, 32, .rw, 0x0, .s⟩
/-- R453, 19_presence_tally.md. -/
def SEC_M_0 : Field := ⟨.sec, 0x200, 0x4, 8, 0, 32, .ro, 0x0, .c⟩
/-- R453, 19_presence_tally.md. -/
def SEC_M_1 : Field := ⟨.sec, 0x220, 0x4, 8, 0, 32, .ro, 0x0, .c⟩
/-- R453, 19_presence_tally.md. -/
def SEC_M_2 : Field := ⟨.sec, 0x240, 0x4, 8, 0, 32, .ro, 0x0, .c⟩
/-- R453, 19_presence_tally.md. -/
def SEC_M_3 : Field := ⟨.sec, 0x260, 0x4, 8, 0, 32, .ro, 0x0, .c⟩
/-- R453, 19_presence_tally.md. -/
def SEC_M_4 : Field := ⟨.sec, 0x280, 0x4, 8, 0, 32, .ro, 0x0, .s⟩
/-- R453, 19_presence_tally.md. -/
def SEC_M_5 : Field := ⟨.sec, 0x2A0, 0x4, 8, 0, 32, .ro, 0x0, .s⟩
/-- R453, 19_presence_tally.md. -/
def SEC_M_6 : Field := ⟨.sec, 0x2C0, 0x4, 8, 0, 32, .ro, 0x0, .p⟩
/-- R453, 19_presence_tally.md. -/
def SEC_M_7 : Field := ⟨.sec, 0x2E0, 0x4, 8, 0, 32, .ro, 0x0, .s⟩
/-- R435, 18_host_resets_log.md. -/
def LOG_STATUS_Count : Field := ⟨.log, 0x100, 0x0, 1, 0, 14, .ro, 0x0, .p⟩
/-- R435, 18_host_resets_log.md. -/
def LOG_SEQ : Field := ⟨.log, 0x104, 0x0, 1, 0, 32, .ro, 0x0, .p⟩
/-- R435, 18_host_resets_log.md. -/
def LOG_LOST : Field := ⟨.log, 0x108, 0x0, 1, 0, 32, .ro, 0x0, .p⟩
/-- R435, 18_host_resets_log.md. -/
def LOG_RD_SEQ : Field := ⟨.log, 0x10C, 0x0, 1, 0, 32, .rw, 0x0, .s⟩
/-- R435, 18_host_resets_log.md. -/
def LOG_RD_DATA : Field := ⟨.log, 0x110, 0x4, 8, 0, 32, .ro, 0x0, .s⟩
/-- R435, 18_host_resets_log.md. -/
def LOG_RD_STATUS_Held : Field := ⟨.log, 0x130, 0x0, 1, 0, 1, .ro, 0x0, .s⟩
/-- R435, 18_host_resets_log.md. -/
def LOG_RING_BASE_LO : Field := ⟨.log, 0x140, 0x0, 1, 12, 20, .st, 0x0, .s⟩
/-- R435, 18_host_resets_log.md. -/
def LOG_RING_BASE_HI : Field := ⟨.log, 0x144, 0x0, 1, 0, 15, .st, 0x0, .s⟩
/-- R435, 18_host_resets_log.md. -/
def LOG_RING_CFG_SizeLog2 : Field := ⟨.log, 0x148, 0x0, 1, 0, 5, .st, 0xC, .s⟩
/-- R435, 18_host_resets_log.md. -/
def LOG_RING_CFG_Enable : Field := ⟨.log, 0x148, 0x0, 1, 5, 1, .st, 0x0, .s⟩
/-- R435, 18_host_resets_log.md. -/
def LOG_RING_WB_LO : Field := ⟨.log, 0x150, 0x0, 1, 3, 29, .st, 0x0, .s⟩
/-- R435, 18_host_resets_log.md. -/
def LOG_RING_WB_HI : Field := ⟨.log, 0x154, 0x0, 1, 0, 15, .st, 0x0, .s⟩
/-- R435, 18_host_resets_log.md. -/
def LOG_RING_CONS : Field := ⟨.log, 0x158, 0x4, 2, 0, 32, .rw, 0x0, .s⟩
/-- R395, 16_damper.md. -/
def CNT_PAGE_ERR_SyncLost : Field := ⟨.cnt, 0x10, 0x0, 1, 16, 1, .rw1c, 0x0, .h⟩
/-- R395, 16_damper.md. -/
def CNT_PAGE_ERR_SyncStep : Field := ⟨.cnt, 0x10, 0x0, 1, 17, 1, .rw1c, 0x0, .h⟩
/-- R395, 16_damper.md. -/
def CNT_NOW_LO : Field := ⟨.cnt, 0x100, 0x0, 1, 0, 32, .ro, 0x0, .c⟩
/-- R395, 16_damper.md. -/
def CNT_NOW_HI : Field := ⟨.cnt, 0x104, 0x0, 1, 0, 32, .ro, 0x0, .c⟩
/-- R395, 16_damper.md. -/
def CNT_CTL_Role : Field := ⟨.cnt, 0x108, 0x0, 1, 0, 2, .st, 0x0, .c⟩
/-- R395, 16_damper.md. -/
def CNT_CTL_SyncLog2 : Field := ⟨.cnt, 0x108, 0x0, 1, 2, 5, .st, 0x14, .c⟩
/-- R395, 16_damper.md. -/
def CNT_CTL_OutEn : Field := ⟨.cnt, 0x108, 0x0, 1, 7, 1, .st, 0x0, .c⟩
/-- R395, 16_damper.md. -/
def CNT_CABLE_CableDelay : Field := ⟨.cnt, 0x10C, 0x0, 1, 0, 16, .st, 0x0, .c⟩
/-- R395, 16_damper.md. -/
def CNT_CMD_Align : Field := ⟨.cnt, 0x110, 0x0, 1, 0, 1, .wo, 0x0, .s⟩
/-- R395, 16_damper.md. -/
def CNT_CMD_Set : Field := ⟨.cnt, 0x110, 0x0, 1, 1, 1, .wo, 0x0, .s⟩
/-- R395, 16_damper.md. -/
def CNT_STATUS_SyncState : Field := ⟨.cnt, 0x114, 0x0, 1, 0, 2, .ro, 0x0, .c⟩
/-- R395, 16_damper.md. -/
def CNT_STATUS_AlignArmed : Field := ⟨.cnt, 0x114, 0x0, 1, 2, 1, .ro, 0x0, .c⟩
/-- R395, 16_damper.md. -/
def CNT_SYNC_ERR : Field := ⟨.cnt, 0x118, 0x0, 1, 0, 32, .ro, 0x0, .c⟩
/-- R395, 16_damper.md. -/
def CNT_ADJ : Field := ⟨.cnt, 0x11C, 0x0, 1, 0, 32, .ro, 0x0, .c⟩
/-- R395, 16_damper.md. -/
def CNT_SET_LO : Field := ⟨.cnt, 0x120, 0x0, 1, 0, 32, .rw, 0x0, .c⟩
/-- R395, 16_damper.md. -/
def CNT_SET_HI : Field := ⟨.cnt, 0x124, 0x0, 1, 0, 32, .rw, 0x0, .c⟩
/-- R395, 16_damper.md. -/
def CNT_SYNC_LOST_CNT : Field := ⟨.cnt, 0x128, 0x0, 1, 0, 32, .ro, 0x0, .c⟩
/-- R394, 16_damper.md. -/
def DMP_PAGE_CTL_Enable : Field := ⟨.dmp, 0xC, 0x0, 1, 0, 1, .rw, 0x1, .s⟩
/-- R394, 16_damper.md. -/
def DMP_PAGE_ERR_Gated : Field := ⟨.dmp, 0x10, 0x0, 1, 16, 1, .rw1c, 0x0, .h⟩
/-- R394, 16_damper.md. -/
def DMP_PAGE_ERR_FloorHeld : Field := ⟨.dmp, 0x10, 0x0, 1, 17, 1, .rw1c, 0x0, .h⟩
/-- R394, 16_damper.md. -/
def DMP_PAGE_ERR_SensorFault : Field := ⟨.dmp, 0x10, 0x0, 1, 18, 1, .rw1c, 0x0, .h⟩
/-- R394, 16_damper.md. -/
def DMP_PAGE_ERR_OverBudget : Field := ⟨.dmp, 0x10, 0x0, 1, 19, 1, .rw1c, 0x0, .h⟩
/-- R394, 16_damper.md. -/
def DMP_BUDGET_PkgWatts : Field := ⟨.dmp, 0x100, 0x0, 1, 0, 11, .st, 0x5DC, .s⟩
/-- R394, 16_damper.md. -/
def DMP_BUDGET_CapWindows : Field := ⟨.dmp, 0x100, 0x0, 1, 11, 4, .st, 0x4, .s⟩
/-- R394, 16_damper.md. -/
def DMP_RESERVE_ReserveUnits : Field := ⟨.dmp, 0x104, 0x0, 1, 0, 32, .st, 0x0, .s⟩
/-- R394, 16_damper.md. -/
def DMP_THERM_A_ThrottleC : Field := ⟨.dmp, 0x108, 0x0, 1, 0, 8, .st, 0x5A, .s⟩
/-- R394, 16_damper.md. -/
def DMP_THERM_A_StretchC : Field := ⟨.dmp, 0x108, 0x0, 1, 8, 8, .st, 0x5C, .s⟩
/-- R394, 16_damper.md. -/
def DMP_THERM_A_DivC : Field := ⟨.dmp, 0x108, 0x0, 1, 16, 8, .st, 0x5F, .s⟩
/-- R394, 16_damper.md. -/
def DMP_THERM_A_GateC : Field := ⟨.dmp, 0x108, 0x0, 1, 24, 8, .st, 0x64, .s⟩
/-- R394, 16_damper.md. -/
def DMP_THERM_B_LimitC : Field := ⟨.dmp, 0x10C, 0x0, 1, 0, 8, .st, 0x69, .s⟩
/-- R394, 16_damper.md. -/
def DMP_THERM_B_StretchStep : Field := ⟨.dmp, 0x10C, 0x0, 1, 8, 4, .st, 0x2, .s⟩
/-- R394, 16_damper.md. -/
def DMP_THERM_B_MemStretch : Field := ⟨.dmp, 0x10C, 0x0, 1, 12, 3, .st, 0x2, .s⟩
/-- R394, 16_damper.md. -/
def DMP_THERM_B_StretchMax : Field := ⟨.dmp, 0x10C, 0x0, 1, 15, 3, .st, 0x5, .s⟩
/-- R394, 16_damper.md. -/
def DMP_FLOOR_SFloor : Field := ⟨.dmp, 0x110, 0x0, 1, 0, 11, .st, 0x3C0, .s⟩
/-- R394, 16_damper.md. -/
def DMP_STATUS_ActiveMask : Field := ⟨.dmp, 0x120, 0x0, 1, 0, 16, .ro, 0xFFFF, .s⟩
/-- R394, 16_damper.md. -/
def DMP_STATUS_StretchLevel : Field := ⟨.dmp, 0x120, 0x0, 1, 16, 3, .ro, 0x0, .s⟩
/-- R394, 16_damper.md. -/
def DMP_STATUS_AtFloor : Field := ⟨.dmp, 0x120, 0x0, 1, 19, 1, .ro, 0x0, .s⟩
/-- R394, 16_damper.md. -/
def DMP_STATUS_Throttling : Field := ⟨.dmp, 0x120, 0x0, 1, 20, 1, .ro, 0x0, .s⟩
/-- R394, 16_damper.md. -/
def DMP_STATUS_SNow : Field := ⟨.dmp, 0x120, 0x0, 1, 21, 11, .ro, 0x780, .s⟩
/-- R394, 16_damper.md. -/
def DMP_DIV : Field := ⟨.dmp, 0x124, 0x0, 1, 0, 32, .ro, 0x0, .s⟩
/-- R394, 16_damper.md. -/
def DMP_TEMP_MAX_Tmax : Field := ⟨.dmp, 0x128, 0x0, 1, 0, 8, .ro, 0x0, .s⟩
/-- R394, 16_damper.md. -/
def DMP_TEMP_MAX_Source : Field := ⟨.dmp, 0x128, 0x0, 1, 8, 5, .ro, 0x0, .s⟩
/-- R394, 16_damper.md. -/
def DMP_BENCH_TEMP_TempC : Field := ⟨.dmp, 0x140, 0x4, 16, 0, 8, .ro, 0x0, .s⟩
/-- R394, 16_damper.md. -/
def DMP_BENCH_TEMP_PeakC : Field := ⟨.dmp, 0x140, 0x4, 16, 8, 8, .rw, 0x80, .s⟩
/-- R394, 16_damper.md. -/
def DMP_IO_TEMP_TempC : Field := ⟨.dmp, 0x180, 0x4, 5, 0, 8, .ro, 0x0, .s⟩
/-- R394, 16_damper.md. -/
def DMP_ENERGY_LO : Field := ⟨.dmp, 0x1A0, 0x0, 1, 0, 32, .ro, 0x0, .p⟩
/-- R394, 16_damper.md. -/
def DMP_ENERGY_HI : Field := ⟨.dmp, 0x1A4, 0x0, 1, 0, 32, .ro, 0x0, .p⟩
/-- R394, 16_damper.md. -/
def DMP_GENERAL_NJ : Field := ⟨.dmp, 0x1A8, 0x0, 1, 0, 32, .ro, 0x0, .s⟩
/-- R394, 16_damper.md. -/
def DMP_RESERVE_NJ : Field := ⟨.dmp, 0x1AC, 0x0, 1, 0, 32, .ro, 0x0, .s⟩
/-- R394, 16_damper.md. -/
def DMP_BASE_NJ : Field := ⟨.dmp, 0x1B0, 0x0, 1, 0, 32, .ro, 0x0, .s⟩
/-- R394, 16_damper.md. -/
def DMP_WINDOW_CNT : Field := ⟨.dmp, 0x1B4, 0x0, 1, 0, 32, .ro, 0x0, .s⟩
/-- R394, 16_damper.md. -/
def DMP_THROTTLE_CNT : Field := ⟨.dmp, 0x1B8, 0x0, 1, 0, 32, .ro, 0x0, .s⟩
/-- R394, 16_damper.md. -/
def DMP_FLOOR_CNT : Field := ⟨.dmp, 0x1BC, 0x0, 1, 0, 32, .ro, 0x0, .s⟩
/-- R394, 16_damper.md. -/
def DMP_DIV_CNT : Field := ⟨.dmp, 0x1C0, 0x0, 1, 0, 32, .ro, 0x0, .s⟩
/-- R394, 16_damper.md. -/
def DMP_GATE_CNT : Field := ⟨.dmp, 0x1C4, 0x0, 1, 0, 32, .ro, 0x0, .s⟩
/-- R394, 16_damper.md. -/
def DMP_DOMAIN_0 : Field := ⟨.dmp, 0x1D0, 0x0, 1, 0, 32, .ro, 0xFFFFFFFF, .p⟩
/-- R394, 16_damper.md. -/
def DMP_DOMAIN_1 : Field := ⟨.dmp, 0x1D4, 0x0, 1, 0, 32, .ro, 0xFFFFFFFF, .p⟩
/-- R394, 16_damper.md. -/
def DMP_DOMAIN_2 : Field := ⟨.dmp, 0x1D8, 0x0, 1, 0, 16, .ro, 0xFFFF, .p⟩
/-- R454, 19_presence_tally.md. -/
def TLY_PAGE_ERR_SealOpened : Field := ⟨.tly, 0x10, 0x0, 1, 16, 1, .rw1c, 0x0, .h⟩
/-- R454, 19_presence_tally.md. -/
def TLY_PAGE_ERR_RecordDrop : Field := ⟨.tly, 0x10, 0x0, 1, 17, 1, .rw1c, 0x0, .h⟩
/-- R454, 19_presence_tally.md. -/
def TLY_PAGE_ERR_SignFail : Field := ⟨.tly, 0x10, 0x0, 1, 18, 1, .rw1c, 0x0, .h⟩
/-- R454, 19_presence_tally.md. -/
def TLY_STATUS_SealClosed : Field := ⟨.tly, 0x100, 0x0, 1, 0, 1, .sr, 0x0, .p⟩
/-- R454, 19_presence_tally.md. -/
def TLY_STATUS_SealExhausted : Field := ⟨.tly, 0x100, 0x0, 1, 1, 1, .sr, 0x0, .p⟩
/-- R454, 19_presence_tally.md. -/
def TLY_STATUS_Signing : Field := ⟨.tly, 0x100, 0x0, 1, 2, 1, .sr, 0x0, .p⟩
/-- R454, 19_presence_tally.md. -/
def TLY_SEAL_Opens : Field := ⟨.tly, 0x104, 0x0, 1, 0, 11, .sr, 0x0, .p⟩
/-- R454, 19_presence_tally.md. -/
def TLY_KEY_TallyGen : Field := ⟨.tly, 0x108, 0x0, 1, 0, 3, .sr, 0x0, .p⟩
/-- R454, 19_presence_tally.md. -/
def TLY_KEY_KeyExhausted : Field := ⟨.tly, 0x108, 0x0, 1, 3, 1, .sr, 0x0, .p⟩
/-- R454, 19_presence_tally.md. -/
def TLY_SEQ : Field := ⟨.tly, 0x10C, 0x0, 1, 0, 32, .sr, 0x0, .p⟩
/-- R454, 19_presence_tally.md. -/
def TLY_ENERGY : Field := ⟨.tly, 0x110, 0x4, 2, 0, 32, .sr, 0x0, .p⟩
/-- R454, 19_presence_tally.md. -/
def TLY_TOTAL : Field := ⟨.tly, 0x118, 0x4, 2, 0, 32, .sr, 0x0, .p⟩
/-- R454, 19_presence_tally.md. -/
def TLY_START : Field := ⟨.tly, 0x120, 0x4, 2, 0, 32, .sr, 0x0, .p⟩
/-- R454, 19_presence_tally.md. -/
def TLY_DROP_CNT : Field := ⟨.tly, 0x128, 0x0, 1, 0, 32, .sr, 0x0, .p⟩
/-- R454, 19_presence_tally.md. -/
def TLY_BUF_USED : Field := ⟨.tly, 0x12C, 0x0, 1, 0, 21, .sr, 0x0, .p⟩
/-- R454, 19_presence_tally.md. -/
def TLY_PARAM_IntervalSec : Field := ⟨.tly, 0x130, 0x0, 1, 0, 12, .st, 0x3C, .p⟩
/-- R454, 19_presence_tally.md. -/
def TLY_PARAM_Instrument : Field := ⟨.tly, 0x130, 0x0, 1, 12, 1, .st, 0x1, .p⟩
/-- R454, 19_presence_tally.md. -/
def TLY_PARAM_Dialogue : Field := ⟨.tly, 0x130, 0x0, 1, 13, 1, .st, 0x1, .p⟩
/-- R454, 19_presence_tally.md. -/
def TLY_PARAM_Skipped : Field := ⟨.tly, 0x130, 0x0, 1, 14, 1, .st, 0x1, .p⟩
/-- R454, 19_presence_tally.md. -/
def TLY_PARAM_Rotate : Field := ⟨.tly, 0x130, 0x0, 1, 15, 1, .st, 0x0, .p⟩
/-- R82, 03_streams_and_sweeps.md. -/
def GAF_PAGE_CTL_Enable : Field := ⟨.gaf, 0xC, 0x0, 1, 0, 1, .rw, 0x0, .s⟩
/-- R82, 03_streams_and_sweeps.md. -/
def GAF_PAGE_ERR_LiveWrite : Field := ⟨.gaf, 0x10, 0x0, 1, 16, 1, .rw1c, 0x0, .h⟩
/-- R82, 03_streams_and_sweeps.md. -/
def GAF_PAGE_ERR_DeadlineMiss : Field := ⟨.gaf, 0x10, 0x0, 1, 17, 1, .rw1c, 0x0, .h⟩
/-- R82, 03_streams_and_sweeps.md. -/
def GAF_PAGE_ERR_StreamFault : Field := ⟨.gaf, 0x10, 0x0, 1, 18, 1, .rw1c, 0x0, .h⟩
/-- R82, 03_streams_and_sweeps.md. -/
def GAF_PAGE_ERR_ShadowWrite : Field := ⟨.gaf, 0x10, 0x0, 1, 19, 1, .rw1c, 0x0, .h⟩
/-- R82, 03_streams_and_sweeps.md. -/
def GAF_STREAM_BASE_LO_BaseLo : Field := ⟨.gaf, 0x100, 0x0, 1, 21, 11, .st, 0x0, .s⟩
/-- R82, 03_streams_and_sweeps.md. -/
def GAF_STREAM_BASE_HI_BaseHi : Field := ⟨.gaf, 0x104, 0x0, 1, 0, 16, .st, 0x0, .s⟩
/-- R82, 03_streams_and_sweeps.md. -/
def GAF_IMAGE_DIR_LO_DirLo : Field := ⟨.gaf, 0x108, 0x0, 1, 12, 20, .st, 0x0, .s⟩
/-- R82, 03_streams_and_sweeps.md. -/
def GAF_IMAGE_DIR_HI_DirHi : Field := ⟨.gaf, 0x10C, 0x0, 1, 0, 16, .st, 0x0, .s⟩
/-- R82, 03_streams_and_sweeps.md. -/
def GAF_STATUS_OpenSweeps : Field := ⟨.gaf, 0x110, 0x0, 1, 0, 8, .ro, 0x0, .s⟩
/-- R82, 03_streams_and_sweeps.md. -/
def GAF_STATUS_RunKind : Field := ⟨.gaf, 0x110, 0x0, 1, 8, 8, .ro, 0x0, .s⟩
/-- R82, 03_streams_and_sweeps.md. -/
def GAF_STATUS_Running : Field := ⟨.gaf, 0x110, 0x0, 1, 16, 1, .ro, 0x0, .s⟩
/-- R82, 03_streams_and_sweeps.md. -/
def GAF_STATUS_Starved : Field := ⟨.gaf, 0x110, 0x0, 1, 17, 1, .ro, 0x0, .s⟩
/-- R82, 03_streams_and_sweeps.md. -/
def GAF_STATUS_CreditWait : Field := ⟨.gaf, 0x110, 0x0, 1, 18, 1, .ro, 0x0, .s⟩
/-- R82, 03_streams_and_sweeps.md. -/
def GAF_STREAMS_Running : Field := ⟨.gaf, 0x114, 0x0, 1, 0, 13, .ro, 0x0, .s⟩
/-- R82, 03_streams_and_sweeps.md. -/
def GAF_STREAMS_NotIdle : Field := ⟨.gaf, 0x114, 0x0, 1, 13, 13, .ro, 0x0, .s⟩
/-- R82, 03_streams_and_sweeps.md. -/
def GAF_STAGED_Count : Field := ⟨.gaf, 0x118, 0x0, 1, 0, 13, .ro, 0x0, .s⟩
/-- R82, 03_streams_and_sweeps.md. -/
def GAF_STAGED_First : Field := ⟨.gaf, 0x118, 0x0, 1, 16, 12, .ro, 0x0, .s⟩
/-- R82, 03_streams_and_sweeps.md. -/
def GAF_STORE_SlotsUsed : Field := ⟨.gaf, 0x11C, 0x0, 1, 0, 16, .ro, 0x0, .s⟩
/-- R82, 03_streams_and_sweeps.md. -/
def GAF_STORE_Images : Field := ⟨.gaf, 0x11C, 0x0, 1, 16, 9, .ro, 0x0, .s⟩
/-- R82, 03_streams_and_sweeps.md. -/
def GAF_STARVE_CNT : Field := ⟨.gaf, 0x120, 0x0, 1, 0, 32, .ro, 0x0, .s⟩
/-- R82, 03_streams_and_sweeps.md. -/
def GAF_CREDIT_WAIT_CNT : Field := ⟨.gaf, 0x124, 0x0, 1, 0, 32, .ro, 0x0, .s⟩
/-- R82, 03_streams_and_sweeps.md. -/
def GAF_LATE_CNT : Field := ⟨.gaf, 0x128, 0x0, 1, 0, 32, .ro, 0x0, .s⟩
/-- R82, 03_streams_and_sweeps.md. -/
def GAF_SWEEP_CNT : Field := ⟨.gaf, 0x12C, 0x0, 1, 0, 32, .ro, 0x0, .s⟩
/-- R189, 07_attention.md. -/
def GAF_EMPTY_QUERY_CNT : Field := ⟨.gaf, 0x130, 0x0, 1, 0, 32, .ro, 0x0, .s⟩
/-- R189, 07_attention.md. -/
def GAF_ATTN_NAN_CNT : Field := ⟨.gaf, 0x134, 0x0, 1, 0, 32, .ro, 0x0, .s⟩
/-- R189, 07_attention.md. -/
def GAF_KEY_TRUNC_CNT : Field := ⟨.gaf, 0x138, 0x0, 1, 0, 32, .ro, 0x0, .s⟩
/-- R189, 07_attention.md. -/
def GAF_MERGE_CNT : Field := ⟨.gaf, 0x13C, 0x0, 1, 0, 32, .ro, 0x0, .s⟩
/-- R82, 03_streams_and_sweeps.md. -/
def GAF_SCHED_DlQuantum : Field := ⟨.gaf, 0x140, 0x0, 1, 0, 4, .st, 0x4, .s⟩
/-- R82, 03_streams_and_sweeps.md. -/
def GAF_SCHED_HoldSlack : Field := ⟨.gaf, 0x140, 0x0, 1, 4, 12, .st, 0x64, .s⟩
/-- R209, 08_kv_pages.md. -/
def GAF_KV_SAT_CNT : Field := ⟨.gaf, 0x150, 0x0, 1, 0, 32, .ro, 0x0, .s⟩
/-- R209, 08_kv_pages.md. -/
def GAF_KV_SPILL_CNT : Field := ⟨.gaf, 0x154, 0x0, 1, 0, 32, .ro, 0x0, .s⟩
/-- R209, 08_kv_pages.md. -/
def GAF_KV_STAGE_CNT : Field := ⟨.gaf, 0x158, 0x0, 1, 0, 32, .ro, 0x0, .s⟩
/-- R209, 08_kv_pages.md. -/
def GAF_KV_CULLET_CNT : Field := ⟨.gaf, 0x15C, 0x0, 1, 0, 32, .ro, 0x0, .s⟩
/-- R230, 09_spectral.md. -/
def GAF_EVT_BAD_CNT : Field := ⟨.gaf, 0x160, 0x0, 1, 0, 32, .ro, 0x0, .s⟩
/-- R230, 09_spectral.md. -/
def GAF_EVT_OVER_CNT : Field := ⟨.gaf, 0x164, 0x0, 1, 0, 32, .ro, 0x0, .s⟩
/-- R230, 09_spectral.md. -/
def GAF_EMPTY_WIN_CNT : Field := ⟨.gaf, 0x168, 0x0, 1, 0, 32, .ro, 0x0, .s⟩
/-- R122, 04_numerics.md. -/
def GAF_CB_TABLE_Entry0 : Field := ⟨.gaf, 0x400, 0x4, 128, 0, 8, .rw, 0x0, .s⟩
/-- R122, 04_numerics.md. -/
def GAF_CB_TABLE_Entry1 : Field := ⟨.gaf, 0x400, 0x4, 128, 8, 8, .rw, 0x0, .s⟩
/-- R122, 04_numerics.md. -/
def GAF_CB_TABLE_Entry2 : Field := ⟨.gaf, 0x400, 0x4, 128, 16, 8, .rw, 0x0, .s⟩
/-- R122, 04_numerics.md. -/
def GAF_CB_TABLE_Entry3 : Field := ⟨.gaf, 0x400, 0x4, 128, 24, 8, .rw, 0x0, .s⟩
/-- R122, 04_numerics.md. -/
def GAF_CB_REF_RefA : Field := ⟨.gaf, 0x600, 0x4, 16, 0, 9, .ro, 0x0, .s⟩
/-- R122, 04_numerics.md. -/
def GAF_CB_REF_ClaimA : Field := ⟨.gaf, 0x600, 0x4, 16, 9, 1, .ro, 0x0, .s⟩
/-- R122, 04_numerics.md. -/
def GAF_CB_REF_RefB : Field := ⟨.gaf, 0x600, 0x4, 16, 16, 9, .ro, 0x0, .s⟩
/-- R122, 04_numerics.md. -/
def GAF_CB_REF_ClaimB : Field := ⟨.gaf, 0x600, 0x4, 16, 25, 1, .ro, 0x0, .s⟩
/-- R419, 17_failover.md. -/
def PNT_PAGE_CTL_Enable : Field := ⟨.pnt, 0xC, 0x0, 1, 0, 1, .rw, 0x1, .s⟩
/-- R419, 17_failover.md. -/
def PNT_PAGE_ERR_CopyMiss : Field := ⟨.pnt, 0x10, 0x0, 1, 16, 1, .rw1c, 0x0, .h⟩
/-- R419, 17_failover.md. -/
def PNT_PAGE_ERR_ResumeFail : Field := ⟨.pnt, 0x10, 0x0, 1, 17, 1, .rw1c, 0x0, .h⟩
/-- R419, 17_failover.md. -/
def PNT_PAGE_ERR_Resumed : Field := ⟨.pnt, 0x10, 0x0, 1, 18, 1, .rw1c, 0x0, .h⟩
/-- R419, 17_failover.md. -/
def PNT_FAILSTOP_Cause : Field := ⟨.pnt, 0x100, 0x0, 1, 0, 8, .ro, 0x0, .p⟩
/-- R419, 17_failover.md. -/
def PNT_FAILSTOP_Bench : Field := ⟨.pnt, 0x100, 0x0, 1, 8, 5, .ro, 0x1F, .p⟩
/-- R419, 17_failover.md. -/
def PNT_FAILSTOP_Valid : Field := ⟨.pnt, 0x100, 0x0, 1, 31, 1, .ro, 0x0, .p⟩
/-- R419, 17_failover.md. -/
def PNT_FAILSTOP_TIME_LO : Field := ⟨.pnt, 0x104, 0x0, 1, 0, 32, .ro, 0x0, .p⟩
/-- R419, 17_failover.md. -/
def PNT_FAILSTOP_TIME_HI : Field := ⟨.pnt, 0x108, 0x0, 1, 0, 32, .ro, 0x0, .p⟩
/-- R419, 17_failover.md. -/
def PNT_CMD_FailStop : Field := ⟨.pnt, 0x10C, 0x0, 1, 0, 1, .wo, 0x0, .s⟩
/-- R419, 17_failover.md. -/
def PNT_CMD_Key : Field := ⟨.pnt, 0x10C, 0x0, 1, 16, 16, .wo, 0x0, .s⟩
/-- R419, 17_failover.md. -/
def PNT_RESUME_Index : Field := ⟨.pnt, 0x110, 0x0, 1, 0, 12, .wo, 0x0, .s⟩
/-- R419, 17_failover.md. -/
def PNT_RESUME_Go : Field := ⟨.pnt, 0x110, 0x0, 1, 31, 1, .wo, 0x0, .s⟩
/-- R419, 17_failover.md. -/
def PNT_TABLE_BASE_LO : Field := ⟨.pnt, 0x114, 0x0, 1, 6, 26, .st, 0x0, .s⟩
/-- R419, 17_failover.md. -/
def PNT_TABLE_BASE_HI : Field := ⟨.pnt, 0x118, 0x0, 1, 0, 16, .st, 0x0, .s⟩
/-- R419, 17_failover.md. -/
def PNT_STANDBY_BASE_LO : Field := ⟨.pnt, 0x11C, 0x0, 1, 9, 23, .st, 0x0, .s⟩
/-- R419, 17_failover.md. -/
def PNT_STANDBY_BASE_HI : Field := ⟨.pnt, 0x120, 0x0, 1, 0, 16, .st, 0x0, .s⟩
/-- R419, 17_failover.md. -/
def PNT_CFG_ProbeUs : Field := ⟨.pnt, 0x124, 0x0, 1, 0, 16, .st, 0xC8, .s⟩
/-- R419, 17_failover.md. -/
def PNT_CFG_AutoResume : Field := ⟨.pnt, 0x124, 0x0, 1, 16, 1, .st, 0x0, .s⟩
/-- R419, 17_failover.md. -/
def PNT_TWIN_LeadUs : Field := ⟨.pnt, 0x128, 0x0, 1, 0, 20, .st, 0x7D0, .s⟩
/-- R419, 17_failover.md. -/
def PNT_STATUS_Protected : Field := ⟨.pnt, 0x12C, 0x0, 1, 0, 13, .ro, 0x0, .s⟩
/-- R419, 17_failover.md. -/
def PNT_STATUS_Standbys : Field := ⟨.pnt, 0x12C, 0x0, 1, 13, 13, .ro, 0x0, .s⟩
/-- R419, 17_failover.md. -/
def PNT_COPY_CNT : Field := ⟨.pnt, 0x130, 0x0, 1, 0, 32, .ro, 0x0, .s⟩
/-- R419, 17_failover.md. -/
def PNT_COPY_MISS_CNT : Field := ⟨.pnt, 0x134, 0x0, 1, 0, 32, .ro, 0x0, .s⟩
/-- R419, 17_failover.md. -/
def PNT_RESUME_CNT : Field := ⟨.pnt, 0x138, 0x0, 1, 0, 32, .ro, 0x0, .s⟩
/-- R419, 17_failover.md. -/
def PNT_RESUME_FAIL_CNT : Field := ⟨.pnt, 0x13C, 0x0, 1, 0, 32, .ro, 0x0, .s⟩
/-- R419, 17_failover.md. -/
def PNT_LAST_RESUME_Index : Field := ⟨.pnt, 0x140, 0x0, 1, 0, 12, .ro, 0x0, .h⟩
/-- R419, 17_failover.md. -/
def PNT_LAST_RESUME_Code : Field := ⟨.pnt, 0x140, 0x0, 1, 12, 4, .ro, 0x0, .h⟩
/-- R419, 17_failover.md. -/
def PNT_LAST_RESUME_Origin : Field := ⟨.pnt, 0x140, 0x0, 1, 16, 10, .ro, 0x0, .h⟩
/-- R435, 18_host_resets_log.md. -/
def EVT_SEL_Source_dev : Field := ⟨.evtDev, 0x100, 0x4, 32, 0, 8, .rw, 0x0, .s⟩
/-- R435, 18_host_resets_log.md. -/
def EVT_SEL_Enable_dev : Field := ⟨.evtDev, 0x100, 0x4, 32, 8, 1, .rw, 0x0, .s⟩
/-- R435, 18_host_resets_log.md. -/
def EVT_OVF_dev : Field := ⟨.evtDev, 0x180, 0x0, 1, 0, 32, .rw1c, 0x0, .s⟩
/-- R435, 18_host_resets_log.md. -/
def EVT_CNT_LO_dev : Field := ⟨.evtDev, 0x200, 0x8, 32, 0, 32, .ro, 0x0, .s⟩
/-- R435, 18_host_resets_log.md. -/
def EVT_CNT_HI_dev : Field := ⟨.evtDev, 0x204, 0x8, 32, 0, 16, .ro, 0x0, .s⟩
/-- R435, 18_host_resets_log.md. -/
def EVT_CTL_Freeze : Field := ⟨.evtDev, 0x300, 0x0, 1, 0, 1, .rw, 0x0, .s⟩
/-- R435, 18_host_resets_log.md. -/
def EVT_CTL_Clear : Field := ⟨.evtDev, 0x300, 0x0, 1, 1, 1, .wo, 0x0, .s⟩
/-- R149, 05_array.md. -/
def BEN_PAGE_CTL_Enable : Field := ⟨.ben, 0xC, 0x0, 1, 0, 1, .rw, 0x1, .s⟩
/-- R149, 05_array.md. -/
def BEN_STATUS_Division : Field := ⟨.ben, 0x100, 0x0, 1, 0, 2, .ro, 0x0, .b⟩
/-- R149, 05_array.md. -/
def BEN_STATUS_InMask : Field := ⟨.ben, 0x100, 0x0, 1, 2, 1, .ro, 0x0, .b⟩
/-- R149, 05_array.md. -/
def BEN_STATUS_Gated : Field := ⟨.ben, 0x100, 0x0, 1, 3, 1, .ro, 0x0, .b⟩
/-- R149, 05_array.md. -/
def BEN_OPS : Field := ⟨.ben, 0x104, 0x0, 1, 0, 32, .ro, 0x0, .b⟩
/-- R149, 05_array.md. -/
def BEN_BUSY_LO : Field := ⟨.ben, 0x108, 0x0, 1, 0, 32, .ro, 0x0, .b⟩
/-- R149, 05_array.md. -/
def BEN_BUSY_HI : Field := ⟨.ben, 0x10C, 0x0, 1, 0, 32, .ro, 0x0, .b⟩
/-- R149, 05_array.md. -/
def BEN_PRUNE_CNT : Field := ⟨.ben, 0x110, 0x0, 1, 0, 32, .ro, 0x0, .b⟩
/-- R149, 05_array.md. -/
def BEN_DROP_CNT : Field := ⟨.ben, 0x114, 0x0, 1, 0, 32, .ro, 0x0, .b⟩
/-- R149, 05_array.md. -/
def BEN_EMPTY_CNT : Field := ⟨.ben, 0x118, 0x0, 1, 0, 32, .ro, 0x0, .b⟩
/-- R276, 11_gather.md. -/
def GTH_PAGE_CTL_Enable : Field := ⟨.gth, 0xC, 0x0, 1, 0, 1, .rw, 0x1, .s⟩
/-- R276, 11_gather.md. -/
def GTH_PAGE_ERR_ProgFault : Field := ⟨.gth, 0x10, 0x0, 1, 16, 1, .rw1c, 0x0, .h⟩
/-- R276, 11_gather.md. -/
def GTH_PAGE_ERR_Poisoned : Field := ⟨.gth, 0x10, 0x0, 1, 17, 1, .rw1c, 0x0, .h⟩
/-- R276, 11_gather.md. -/
def GTH_STATUS_Outstanding : Field := ⟨.gth, 0x100, 0x0, 1, 0, 10, .ro, 0x0, .b⟩
/-- R276, 11_gather.md. -/
def GTH_STATUS_Programs : Field := ⟨.gth, 0x100, 0x0, 1, 10, 7, .ro, 0x0, .b⟩
/-- R276, 11_gather.md. -/
def GTH_STATUS_AtLimit : Field := ⟨.gth, 0x100, 0x0, 1, 17, 1, .ro, 0x0, .b⟩
/-- R276, 11_gather.md. -/
def GTH_RINGS_Rings : Field := ⟨.gth, 0x104, 0x0, 1, 0, 11, .ro, 0x0, .b⟩
/-- R276, 11_gather.md. -/
def GTH_LIMIT_MaxOut : Field := ⟨.gth, 0x108, 0x0, 1, 0, 10, .st, 0x200, .s⟩
/-- R276, 11_gather.md. -/
def GTH_LAT_MAX_Ns : Field := ⟨.gth, 0x10C, 0x0, 1, 0, 16, .rw, 0x0, .b⟩
/-- R276, 11_gather.md. -/
def GTH_XFER_LO : Field := ⟨.gth, 0x110, 0x0, 1, 0, 32, .ro, 0x0, .b⟩
/-- R276, 11_gather.md. -/
def GTH_XFER_HI : Field := ⟨.gth, 0x114, 0x0, 1, 0, 32, .ro, 0x0, .b⟩
/-- R276, 11_gather.md. -/
def GTH_FULL_CNT : Field := ⟨.gth, 0x118, 0x0, 1, 0, 32, .ro, 0x0, .b⟩
/-- R276, 11_gather.md. -/
def GTH_CRC_RETRY_CNT : Field := ⟨.gth, 0x11C, 0x0, 1, 0, 32, .ro, 0x0, .b⟩
/-- R276, 11_gather.md. -/
def GTH_POISON_CNT : Field := ⟨.gth, 0x120, 0x0, 1, 0, 32, .ro, 0x0, .b⟩
/-- R276, 11_gather.md. -/
def GTH_FAULT_Program : Field := ⟨.gth, 0x124, 0x0, 1, 0, 16, .ro, 0x0, .h⟩
/-- R276, 11_gather.md. -/
def GTH_FAULT_Image : Field := ⟨.gth, 0x124, 0x0, 1, 16, 8, .ro, 0x0, .h⟩
/-- R276, 11_gather.md. -/
def GTH_FAULT_Cause : Field := ⟨.gth, 0x124, 0x0, 1, 24, 4, .ro, 0x0, .h⟩
/-- R276, 11_gather.md. -/
def GTH_FAULT_STREAM_Entry : Field := ⟨.gth, 0x128, 0x0, 1, 0, 12, .ro, 0x0, .h⟩
/-- R276, 11_gather.md. -/
def GTH_FAULT_STREAM_Valid : Field := ⟨.gth, 0x128, 0x0, 1, 31, 1, .ro, 0x0, .h⟩
/-- R435, 18_host_resets_log.md. -/
def EVT_SEL_Source_ben : Field := ⟨.evtB, 0x100, 0x4, 8, 0, 8, .rw, 0x0, .b⟩
/-- R435, 18_host_resets_log.md. -/
def EVT_SEL_Enable_ben : Field := ⟨.evtB, 0x100, 0x4, 8, 8, 1, .rw, 0x0, .b⟩
/-- R435, 18_host_resets_log.md. -/
def EVT_OVF_ben : Field := ⟨.evtB, 0x180, 0x0, 1, 0, 8, .rw1c, 0x0, .b⟩
/-- R435, 18_host_resets_log.md. -/
def EVT_CNT_LO_ben : Field := ⟨.evtB, 0x200, 0x8, 8, 0, 32, .ro, 0x0, .b⟩
/-- R435, 18_host_resets_log.md. -/
def EVT_CNT_HI_ben : Field := ⟨.evtB, 0x204, 0x8, 8, 0, 16, .ro, 0x0, .b⟩
/-- R256, 10_scratchpad.md. -/
def COR_PAGE_ERR_UncorrAct : Field := ⟨.cor, 0x10, 0x0, 1, 16, 1, .rw1c, 0x0, .h⟩
/-- R256, 10_scratchpad.md. -/
def COR_PAGE_ERR_UncorrWeight : Field := ⟨.cor, 0x10, 0x0, 1, 17, 1, .rw1c, 0x0, .h⟩
/-- R256, 10_scratchpad.md. -/
def COR_CORR_CNT : Field := ⟨.cor, 0x100, 0x0, 1, 0, 32, .ro, 0x0, .s⟩
/-- R256, 10_scratchpad.md. -/
def COR_UNCORR_CNT : Field := ⟨.cor, 0x104, 0x0, 1, 0, 32, .ro, 0x0, .s⟩
/-- R256, 10_scratchpad.md. -/
def COR_ERR_ADDR_Word : Field := ⟨.cor, 0x108, 0x0, 1, 0, 31, .ro, 0x0, .h⟩
/-- R256, 10_scratchpad.md. -/
def COR_ERR_ADDR_Weight : Field := ⟨.cor, 0x108, 0x0, 1, 31, 1, .ro, 0x0, .h⟩
/-- R256, 10_scratchpad.md. -/
def COR_RGN_SEL : Field := ⟨.cor, 0x10C, 0x0, 1, 0, 6, .rw, 0x0, .s⟩
/-- R256, 10_scratchpad.md. -/
def COR_RGN_DATA : Field := ⟨.cor, 0x110, 0x4, 8, 0, 32, .ro, 0x0, .s⟩
/-- R299, 12_lpddr.md. -/
def XMC_PAGE_CTL_Enable : Field := ⟨.xmc, 0xC, 0x0, 1, 0, 1, .rw, 0x1, .s⟩
/-- R299, 12_lpddr.md. -/
def XMC_PAGE_ERR_ChannelBad : Field := ⟨.xmc, 0x10, 0x0, 1, 16, 1, .rw1c, 0x0, .h⟩
/-- R299, 12_lpddr.md. -/
def XMC_PAGE_ERR_HotStep : Field := ⟨.xmc, 0x10, 0x0, 1, 17, 1, .rw1c, 0x0, .h⟩
/-- R299, 12_lpddr.md. -/
def XMC_PAGE_ERR_SensorFault : Field := ⟨.xmc, 0x10, 0x0, 1, 18, 1, .rw1c, 0x0, .h⟩
/-- R299, 12_lpddr.md. -/
def XMC_PAGE_ERR_MarginRefused : Field := ⟨.xmc, 0x10, 0x0, 1, 19, 1, .rw1c, 0x0, .h⟩
/-- R299, 12_lpddr.md. -/
def XMC_SITE_Gen : Field := ⟨.xmc, 0x100, 0x0, 1, 0, 2, .ro, 0x2, .c⟩
/-- R299, 12_lpddr.md. -/
def XMC_SITE_InService : Field := ⟨.xmc, 0x100, 0x0, 1, 8, 8, .ro, 0xFF, .c⟩
/-- R299, 12_lpddr.md. -/
def XMC_SITE_TrainFail : Field := ⟨.xmc, 0x100, 0x0, 1, 16, 8, .ro, 0x0, .c⟩
/-- R299, 12_lpddr.md. -/
def XMC_RATE_RateMbps : Field := ⟨.xmc, 0x104, 0x0, 1, 0, 16, .ro, 0x3840, .c⟩
/-- R299, 12_lpddr.md. -/
def XMC_RATE_ChanMBps : Field := ⟨.xmc, 0x104, 0x0, 1, 16, 16, .ro, 0x9588, .c⟩
/-- R299, 12_lpddr.md. -/
def XMC_TEMP_TempC : Field := ⟨.xmc, 0x108, 0x0, 1, 0, 8, .ro, 0x0, .s⟩
/-- R299, 12_lpddr.md. -/
def XMC_TEMP_RefreshStep : Field := ⟨.xmc, 0x108, 0x0, 1, 8, 2, .ro, 0x0, .s⟩
/-- R299, 12_lpddr.md. -/
def XMC_TEMP_SensorFault : Field := ⟨.xmc, 0x108, 0x0, 1, 10, 1, .ro, 0x0, .s⟩
/-- R299, 12_lpddr.md. -/
def XMC_TEMP_PEAK_PeakC : Field := ⟨.xmc, 0x10C, 0x0, 1, 0, 8, .rw, 0x80, .s⟩
/-- R299, 12_lpddr.md. -/
def XMC_RETRY_ReadMax : Field := ⟨.xmc, 0x110, 0x0, 1, 0, 3, .st, 0x2, .s⟩
/-- R299, 12_lpddr.md. -/
def XMC_RETRY_WriteMax : Field := ⟨.xmc, 0x110, 0x0, 1, 4, 3, .st, 0x3, .s⟩
/-- R299, 12_lpddr.md. -/
def XMC_RETRY_ChanFailMax : Field := ⟨.xmc, 0x110, 0x0, 1, 8, 8, .st, 0x4, .s⟩
/-- R299, 12_lpddr.md. -/
def XMC_PATROL_PatrolHours : Field := ⟨.xmc, 0x114, 0x0, 1, 0, 8, .st, 0x18, .s⟩
/-- R299, 12_lpddr.md. -/
def XMC_MAPOUT_Recorded : Field := ⟨.xmc, 0x118, 0x0, 1, 0, 8, .ro, 0x0, .p⟩
/-- R299, 12_lpddr.md. -/
def XMC_MAPOUT_Request : Field := ⟨.xmc, 0x118, 0x0, 1, 8, 8, .st, 0x0, .s⟩
/-- R299, 12_lpddr.md. -/
def XMC_MAPOUT_Reinstate : Field := ⟨.xmc, 0x118, 0x0, 1, 16, 8, .st, 0x0, .s⟩
/-- R299, 12_lpddr.md. -/
def XMC_ERR_ADDR_LO : Field := ⟨.xmc, 0x120, 0x0, 1, 0, 32, .ro, 0x0, .h⟩
/-- R299, 12_lpddr.md. -/
def XMC_ERR_ADDR_HI : Field := ⟨.xmc, 0x124, 0x0, 1, 0, 16, .ro, 0x0, .h⟩
/-- R299, 12_lpddr.md. -/
def XMC_ERR_INFO_Channel : Field := ⟨.xmc, 0x128, 0x0, 1, 0, 3, .ro, 0x0, .h⟩
/-- R299, 12_lpddr.md. -/
def XMC_ERR_INFO_Sub : Field := ⟨.xmc, 0x128, 0x0, 1, 3, 1, .ro, 0x0, .h⟩
/-- R299, 12_lpddr.md. -/
def XMC_ERR_INFO_Kind : Field := ⟨.xmc, 0x128, 0x0, 1, 4, 4, .ro, 0x0, .h⟩
/-- R299, 12_lpddr.md. -/
def XMC_CORR_CNT : Field := ⟨.xmc, 0x130, 0x0, 1, 0, 32, .ro, 0x0, .s⟩
/-- R299, 12_lpddr.md. -/
def XMC_UNCORR_CNT : Field := ⟨.xmc, 0x134, 0x0, 1, 0, 32, .ro, 0x0, .s⟩
/-- R299, 12_lpddr.md. -/
def XMC_RETRY_CNT : Field := ⟨.xmc, 0x138, 0x0, 1, 0, 32, .ro, 0x0, .s⟩
/-- R299, 12_lpddr.md. -/
def XMC_RETRY_FAIL_CNT : Field := ⟨.xmc, 0x13C, 0x0, 1, 0, 32, .ro, 0x0, .s⟩
/-- R299, 12_lpddr.md. -/
def XMC_ADDR_CHK_CNT : Field := ⟨.xmc, 0x140, 0x0, 1, 0, 32, .ro, 0x0, .s⟩
/-- R299, 12_lpddr.md. -/
def XMC_ATOMIC_OVF_CNT : Field := ⟨.xmc, 0x144, 0x0, 1, 0, 32, .ro, 0x0, .s⟩
/-- R299, 12_lpddr.md. -/
def XMC_NARROW_CNT : Field := ⟨.xmc, 0x148, 0x0, 1, 0, 32, .ro, 0x0, .s⟩
/-- R299, 12_lpddr.md. -/
def XMC_STEP_CNT : Field := ⟨.xmc, 0x14C, 0x0, 1, 0, 32, .ro, 0x0, .s⟩
/-- R299, 12_lpddr.md. -/
def XMC_MARGIN_CTL_Channel : Field := ⟨.xmc, 0x150, 0x0, 1, 0, 3, .rw, 0x0, .s⟩
/-- R299, 12_lpddr.md. -/
def XMC_MARGIN_CTL_Sub : Field := ⟨.xmc, 0x150, 0x0, 1, 3, 1, .rw, 0x0, .s⟩
/-- R299, 12_lpddr.md. -/
def XMC_MARGIN_CTL_Lane : Field := ⟨.xmc, 0x150, 0x0, 1, 4, 4, .rw, 0x0, .s⟩
/-- R299, 12_lpddr.md. -/
def XMC_MARGIN_CTL_Axis : Field := ⟨.xmc, 0x150, 0x0, 1, 8, 3, .rw, 0x0, .s⟩
/-- R299, 12_lpddr.md. -/
def XMC_MARGIN_CTL_Go : Field := ⟨.xmc, 0x150, 0x0, 1, 16, 1, .rw, 0x0, .s⟩
/-- R299, 12_lpddr.md. -/
def XMC_MARGIN_RES_Low : Field := ⟨.xmc, 0x154, 0x0, 1, 0, 8, .ro, 0x0, .s⟩
/-- R299, 12_lpddr.md. -/
def XMC_MARGIN_RES_High : Field := ⟨.xmc, 0x154, 0x0, 1, 8, 8, .ro, 0x0, .s⟩
/-- R299, 12_lpddr.md. -/
def XMC_MARGIN_RES_Valid : Field := ⟨.xmc, 0x154, 0x0, 1, 16, 1, .ro, 0x0, .s⟩
/-- R299, 12_lpddr.md. -/
def XMC_MARGIN_RES_Failed : Field := ⟨.xmc, 0x154, 0x0, 1, 17, 1, .ro, 0x0, .s⟩
/-- R299, 12_lpddr.md. -/
def XMC_TRAIN_SEL_SubChan : Field := ⟨.xmc, 0x158, 0x0, 1, 0, 4, .rw, 0x0, .s⟩
/-- R299, 12_lpddr.md. -/
def XMC_TRAIN_MIN_TimingSteps : Field := ⟨.xmc, 0x15C, 0x0, 1, 0, 8, .ro, 0x0, .c⟩
/-- R299, 12_lpddr.md. -/
def XMC_TRAIN_MIN_VrefSteps : Field := ⟨.xmc, 0x15C, 0x0, 1, 8, 8, .ro, 0x0, .c⟩
/-- R299, 12_lpddr.md. -/
def XMC_TRAIN_MIN_TimingLane : Field := ⟨.xmc, 0x15C, 0x0, 1, 16, 4, .ro, 0x0, .c⟩
/-- R299, 12_lpddr.md. -/
def XMC_TRAIN_MIN_VrefLane : Field := ⟨.xmc, 0x15C, 0x0, 1, 20, 4, .ro, 0x0, .c⟩
/-- R332, 13_links.md. -/
def LNK_PAGE_CTL_Enable : Field := ⟨.lnk, 0xC, 0x0, 1, 0, 1, .rw, 0x1, .c⟩
/-- R332, 13_links.md. -/
def LNK_PAGE_ERR_LaneDegraded : Field := ⟨.lnk, 0x10, 0x0, 1, 16, 1, .rw1c, 0x0, .h⟩
/-- R332, 13_links.md. -/
def LNK_PAGE_ERR_PortDown : Field := ⟨.lnk, 0x10, 0x0, 1, 17, 1, .rw1c, 0x0, .h⟩
/-- R332, 13_links.md. -/
def LNK_PAGE_ERR_AuthFail : Field := ⟨.lnk, 0x10, 0x0, 1, 18, 1, .rw1c, 0x0, .h⟩
/-- R332, 13_links.md. -/
def LNK_PAGE_ERR_ExpandErr : Field := ⟨.lnk, 0x10, 0x0, 1, 19, 1, .rw1c, 0x0, .h⟩
/-- R332, 13_links.md. -/
def LNK_PAGE_ERR_HopDrop : Field := ⟨.lnk, 0x10, 0x0, 1, 20, 1, .rw1c, 0x0, .h⟩
/-- R332, 13_links.md. -/
def LNK_STATUS_State : Field := ⟨.lnk, 0x100, 0x0, 1, 0, 2, .ro, 0x0, .c⟩
/-- R332, 13_links.md. -/
def LNK_STATUS_Rate : Field := ⟨.lnk, 0x100, 0x0, 1, 2, 2, .ro, 0x0, .c⟩
/-- R332, 13_links.md. -/
def LNK_STATUS_Features : Field := ⟨.lnk, 0x100, 0x0, 1, 4, 3, .ro, 0x0, .c⟩
/-- R332, 13_links.md. -/
def LNK_STATUS_PeerChip : Field := ⟨.lnk, 0x100, 0x0, 1, 7, 10, .ro, 0x0, .c⟩
/-- R332, 13_links.md. -/
def LNK_STATUS_PeerValid : Field := ⟨.lnk, 0x100, 0x0, 1, 17, 1, .ro, 0x0, .c⟩
/-- R332, 13_links.md. -/
def LNK_CTL_MaxRate : Field := ⟨.lnk, 0x104, 0x0, 1, 0, 2, .st, 0x3, .c⟩
/-- R332, 13_links.md. -/
def LNK_CTL_Encrypt : Field := ⟨.lnk, 0x104, 0x0, 1, 2, 1, .st, 0x1, .c⟩
/-- R332, 13_links.md. -/
def LNK_CTL_Compress : Field := ⟨.lnk, 0x104, 0x0, 1, 3, 1, .st, 0x1, .c⟩
/-- R332, 13_links.md. -/
def LNK_CTL_PacketMode : Field := ⟨.lnk, 0x104, 0x0, 1, 4, 1, .st, 0x0, .c⟩
/-- R332, 13_links.md. -/
def LNK_CMD_Retrain : Field := ⟨.lnk, 0x108, 0x0, 1, 0, 1, .wo, 0x0, .s⟩
/-- R332, 13_links.md. -/
def LNK_CMD_Rekey : Field := ⟨.lnk, 0x108, 0x0, 1, 1, 1, .wo, 0x0, .s⟩
/-- R332, 13_links.md. -/
def LNK_REPLAY_ReplayMax : Field := ⟨.lnk, 0x10C, 0x0, 1, 0, 4, .st, 0x8, .c⟩
/-- R332, 13_links.md. -/
def LNK_REPLAY_LaneFailMax : Field := ⟨.lnk, 0x10C, 0x0, 1, 8, 8, .st, 0x10, .c⟩
/-- R332, 13_links.md. -/
def LNK_REPLAY_RetrainMax : Field := ⟨.lnk, 0x10C, 0x0, 1, 16, 4, .st, 0x3, .c⟩
/-- R332, 13_links.md. -/
def LNK_KEY_RekeyLog2 : Field := ⟨.lnk, 0x110, 0x0, 1, 0, 6, .st, 0x24, .c⟩
/-- R332, 13_links.md. -/
def LNK_KEY_RekeySec : Field := ⟨.lnk, 0x110, 0x0, 1, 8, 14, .st, 0xE10, .c⟩
/-- R332, 13_links.md. -/
def LNK_KEY_STATUS_Epoch : Field := ⟨.lnk, 0x114, 0x0, 1, 0, 1, .ro, 0x0, .c⟩
/-- R332, 13_links.md. -/
def LNK_KEY_STATUS_Fail : Field := ⟨.lnk, 0x114, 0x0, 1, 1, 3, .ro, 0x0, .c⟩
/-- R332, 13_links.md. -/
def LNK_KEY_STATUS_Handshakes : Field := ⟨.lnk, 0x114, 0x0, 1, 16, 16, .ro, 0x0, .c⟩
/-- R332, 13_links.md. -/
def LNK_FEC_CORR_CNT : Field := ⟨.lnk, 0x120, 0x0, 1, 0, 32, .ro, 0x0, .c⟩
/-- R332, 13_links.md. -/
def LNK_FEC_UNCORR_CNT : Field := ⟨.lnk, 0x124, 0x0, 1, 0, 32, .ro, 0x0, .c⟩
/-- R332, 13_links.md. -/
def LNK_REPLAY_CNT : Field := ⟨.lnk, 0x128, 0x0, 1, 0, 32, .ro, 0x0, .c⟩
/-- R332, 13_links.md. -/
def LNK_AUTH_FAIL_CNT : Field := ⟨.lnk, 0x12C, 0x0, 1, 0, 32, .ro, 0x0, .c⟩
/-- R332, 13_links.md. -/
def LNK_EXPAND_ERR_CNT : Field := ⟨.lnk, 0x130, 0x0, 1, 0, 32, .ro, 0x0, .c⟩
/-- R332, 13_links.md. -/
def LNK_DEGRADE_CNT : Field := ⟨.lnk, 0x134, 0x0, 1, 0, 32, .ro, 0x0, .c⟩
/-- R332, 13_links.md. -/
def LNK_HOP_DROP_CNT : Field := ⟨.lnk, 0x138, 0x0, 1, 0, 32, .ro, 0x0, .c⟩
/-- R332, 13_links.md. -/
def LNK_CHAN_DROP_CNT : Field := ⟨.lnk, 0x13C, 0x0, 1, 0, 32, .ro, 0x0, .c⟩
/-- R332, 13_links.md. -/
def LNK_RX_FRAMES_LO : Field := ⟨.lnk, 0x140, 0x0, 1, 0, 32, .ro, 0x0, .c⟩
/-- R332, 13_links.md. -/
def LNK_RX_FRAMES_HI : Field := ⟨.lnk, 0x144, 0x0, 1, 0, 32, .ro, 0x0, .c⟩
/-- R332, 13_links.md. -/
def LNK_CHIP_ChipId : Field := ⟨.lnk, 0x200, 0x0, 1, 0, 10, .st, 0x0, .c⟩
/-- R332, 13_links.md. -/
def LNK_CHIP_IdValid : Field := ⟨.lnk, 0x200, 0x0, 1, 16, 1, .st, 0x0, .c⟩
/-- R332, 13_links.md. -/
def LNK_EPOCH : Field := ⟨.lnk, 0x204, 0x0, 1, 0, 32, .st, 0x0, .c⟩
/-- R332, 13_links.md. -/
def LNK_ROUTE_SEL : Field := ⟨.lnk, 0x208, 0x0, 1, 0, 10, .rw, 0x0, .c⟩
/-- R332, 13_links.md. -/
def LNK_ROUTE_DATA_Primary : Field := ⟨.lnk, 0x20C, 0x0, 1, 0, 5, .st, 0x0, .c⟩
/-- R332, 13_links.md. -/
def LNK_ROUTE_DATA_Alternate : Field := ⟨.lnk, 0x20C, 0x0, 1, 5, 5, .st, 0x0, .c⟩
/-- R332, 13_links.md. -/
def LNK_ROUTE_DATA_Valid : Field := ⟨.lnk, 0x20C, 0x0, 1, 10, 1, .st, 0x0, .c⟩
/-- R332, 13_links.md. -/
def LNK_ROUTE_DATA_AltValid : Field := ⟨.lnk, 0x20C, 0x0, 1, 11, 1, .st, 0x0, .c⟩
/-- R332, 13_links.md. -/
def LNK_HOPS_MaxHops : Field := ⟨.lnk, 0x210, 0x0, 1, 0, 4, .st, 0x8, .c⟩
/-- R332, 13_links.md. -/
def LNK_SLOW_ExtendUs : Field := ⟨.lnk, 0x214, 0x0, 1, 0, 16, .st, 0x3E8, .c⟩
/-- R332, 13_links.md. -/
def LNK_SLOW_DeferMaxUs : Field := ⟨.lnk, 0x214, 0x0, 1, 16, 16, .st, 0xC8, .c⟩
/-- R332, 13_links.md. -/
def LNK_GROUP_BASE_LO : Field := ⟨.lnk, 0x218, 0x0, 1, 12, 20, .st, 0x0, .c⟩
/-- R332, 13_links.md. -/
def LNK_GROUP_BASE_HI : Field := ⟨.lnk, 0x21C, 0x0, 1, 0, 16, .st, 0x0, .c⟩
/-- R332, 13_links.md. -/
def LNK_APER_BaseGiB : Field := ⟨.lnk, 0x220, 0x4, 7, 0, 9, .st, 0x0, .c⟩
/-- R332, 13_links.md. -/
def LNK_APER_Enable : Field := ⟨.lnk, 0x220, 0x4, 7, 9, 1, .st, 0x0, .c⟩
/-- R332, 13_links.md. -/
def LNK_APER_WriteOk : Field := ⟨.lnk, 0x220, 0x4, 7, 10, 1, .st, 0x0, .c⟩
/-- R332, 13_links.md. -/
def LNK_APER_AtomicOk : Field := ⟨.lnk, 0x220, 0x4, 7, 11, 1, .st, 0x0, .c⟩
/-- R332, 13_links.md. -/
def LNK_APER_SrcChip : Field := ⟨.lnk, 0x220, 0x4, 7, 12, 10, .st, 0x0, .c⟩
/-- R332, 13_links.md. -/
def LNK_APER_AnySrc : Field := ⟨.lnk, 0x220, 0x4, 7, 22, 1, .st, 0x0, .c⟩
/-- R332, 13_links.md. -/
def LNK_REPORT_CNT : Field := ⟨.lnk, 0x240, 0x0, 1, 0, 32, .ro, 0x0, .c⟩
/-- R332, 13_links.md. -/
def LNK_QUENCH_CNT : Field := ⟨.lnk, 0x244, 0x0, 1, 0, 32, .ro, 0x0, .c⟩
/-- R332, 13_links.md. -/
def LNK_TIMEOUT_CNT : Field := ⟨.lnk, 0x248, 0x0, 1, 0, 32, .ro, 0x0, .c⟩
/-- R332, 13_links.md. -/
def LNK_SLOW_CNT : Field := ⟨.lnk, 0x24C, 0x0, 1, 0, 32, .ro, 0x0, .c⟩
/-- R332, 13_links.md. -/
def LNK_LAST_SUSPECT_Suspect : Field := ⟨.lnk, 0x250, 0x0, 1, 0, 10, .ro, 0x0, .c⟩
/-- R332, 13_links.md. -/
def LNK_LAST_SUSPECT_Kind : Field := ⟨.lnk, 0x250, 0x0, 1, 10, 2, .ro, 0x0, .c⟩
/-- R349, 14_packet_ports.md. -/
def PKT_PAGE_CTL_Enable : Field := ⟨.pkt, 0xC, 0x0, 1, 0, 1, .rw, 0x1, .c⟩
/-- R349, 14_packet_ports.md. -/
def PKT_PAGE_ERR_LiveWrite : Field := ⟨.pkt, 0x10, 0x0, 1, 16, 1, .rw1c, 0x0, .h⟩
/-- R349, 14_packet_ports.md. -/
def PKT_PAGE_ERR_Underrun : Field := ⟨.pkt, 0x10, 0x0, 1, 17, 1, .rw1c, 0x0, .h⟩
/-- R349, 14_packet_ports.md. -/
def PKT_PAGE_ERR_PtpUnlocked : Field := ⟨.pkt, 0x10, 0x0, 1, 18, 1, .rw1c, 0x0, .h⟩
/-- R349, 14_packet_ports.md. -/
def PKT_STATUS_State : Field := ⟨.pkt, 0x100, 0x0, 1, 0, 2, .ro, 0x0, .c⟩
/-- R349, 14_packet_ports.md. -/
def PKT_STATUS_Sessions : Field := ⟨.pkt, 0x100, 0x0, 1, 2, 13, .ro, 0x0, .c⟩
/-- R349, 14_packet_ports.md. -/
def PKT_CFG_Hops : Field := ⟨.pkt, 0x104, 0x0, 1, 0, 8, .st, 0x40, .c⟩
/-- R349, 14_packet_ports.md. -/
def PKT_MAC_LO : Field := ⟨.pkt, 0x108, 0x0, 1, 0, 32, .st, 0x0, .c⟩
/-- R349, 14_packet_ports.md. -/
def PKT_MAC_HI : Field := ⟨.pkt, 0x10C, 0x0, 1, 0, 16, .st, 0x0, .c⟩
/-- R349, 14_packet_ports.md. -/
def PKT_IPV4 : Field := ⟨.pkt, 0x110, 0x0, 1, 0, 32, .st, 0x0, .c⟩
/-- R349, 14_packet_ports.md. -/
def PKT_IPV6 : Field := ⟨.pkt, 0x114, 0x4, 4, 0, 32, .st, 0x0, .c⟩
/-- R349, 14_packet_ports.md. -/
def PKT_SESSION_BASE_LO : Field := ⟨.pkt, 0x124, 0x0, 1, 12, 20, .st, 0x0, .c⟩
/-- R349, 14_packet_ports.md. -/
def PKT_SESSION_BASE_HI : Field := ⟨.pkt, 0x128, 0x0, 1, 0, 16, .st, 0x0, .c⟩
/-- R349, 14_packet_ports.md. -/
def PKT_RX_DROP_CNT : Field := ⟨.pkt, 0x130, 0x0, 1, 0, 32, .ro, 0x0, .c⟩
/-- R349, 14_packet_ports.md. -/
def PKT_RX_BAD_CNT : Field := ⟨.pkt, 0x134, 0x0, 1, 0, 32, .ro, 0x0, .c⟩
/-- R349, 14_packet_ports.md. -/
def PKT_RX_LATE_CNT : Field := ⟨.pkt, 0x138, 0x0, 1, 0, 32, .ro, 0x0, .c⟩
/-- R349, 14_packet_ports.md. -/
def PKT_RX_DUP_CNT : Field := ⟨.pkt, 0x13C, 0x0, 1, 0, 32, .ro, 0x0, .c⟩
/-- R349, 14_packet_ports.md. -/
def PKT_FILL_CNT : Field := ⟨.pkt, 0x140, 0x0, 1, 0, 32, .ro, 0x0, .c⟩
/-- R349, 14_packet_ports.md. -/
def PKT_UNDERRUN_CNT : Field := ⟨.pkt, 0x144, 0x0, 1, 0, 32, .ro, 0x0, .c⟩
/-- R349, 14_packet_ports.md. -/
def PKT_TX_LO : Field := ⟨.pkt, 0x148, 0x0, 1, 0, 32, .ro, 0x0, .c⟩
/-- R349, 14_packet_ports.md. -/
def PKT_TX_HI : Field := ⟨.pkt, 0x14C, 0x0, 1, 0, 32, .ro, 0x0, .c⟩
/-- R349, 14_packet_ports.md. -/
def PKT_PTP_STATE_State : Field := ⟨.pkt, 0x200, 0x0, 1, 0, 2, .ro, 0x0, .c⟩
/-- R349, 14_packet_ports.md. -/
def PKT_PTP_CTL_Enable : Field := ⟨.pkt, 0x204, 0x0, 1, 0, 1, .st, 0x0, .c⟩
/-- R349, 14_packet_ports.md. -/
def PKT_PTP_CTL_Port : Field := ⟨.pkt, 0x204, 0x0, 1, 1, 3, .st, 0x0, .c⟩
/-- R349, 14_packet_ports.md. -/
def PKT_PTP_CTL_Domain : Field := ⟨.pkt, 0x204, 0x0, 1, 4, 8, .st, 0x0, .c⟩
/-- R349, 14_packet_ports.md. -/
def PKT_PTP_CTL_HoldoverSec : Field := ⟨.pkt, 0x204, 0x0, 1, 12, 16, .st, 0x3C, .c⟩
/-- R349, 14_packet_ports.md. -/
def PKT_PTP_OFFSET : Field := ⟨.pkt, 0x208, 0x0, 1, 0, 32, .ro, 0x0, .c⟩
/-- R349, 14_packet_ports.md. -/
def PKT_PTP_RATIO : Field := ⟨.pkt, 0x20C, 0x0, 1, 0, 32, .ro, 0x0, .c⟩
/-- R349, 14_packet_ports.md. -/
def PKT_PTP_BASE : Field := ⟨.pkt, 0x210, 0x4, 2, 0, 32, .ro, 0x0, .c⟩
/-- R349, 14_packet_ports.md. -/
def PKT_PTP_CNT : Field := ⟨.pkt, 0x218, 0x4, 2, 0, 32, .ro, 0x0, .c⟩
/-- R376, 15_audio_ports.md. -/
def APT_PAGE_CTL_Enable : Field := ⟨.apt, 0xC, 0x0, 1, 0, 1, .rw, 0x0, .s⟩
/-- R376, 15_audio_ports.md. -/
def APT_PAGE_ERR_Underrun : Field := ⟨.apt, 0x10, 0x0, 1, 16, 1, .rw1c, 0x0, .h⟩
/-- R376, 15_audio_ports.md. -/
def APT_PAGE_ERR_Overrun : Field := ⟨.apt, 0x10, 0x0, 1, 17, 1, .rw1c, 0x0, .h⟩
/-- R376, 15_audio_ports.md. -/
def APT_PAGE_ERR_Interrupted : Field := ⟨.apt, 0x10, 0x0, 1, 18, 1, .rw1c, 0x0, .h⟩
/-- R376, 15_audio_ports.md. -/
def APT_PAGE_ERR_IecCrc : Field := ⟨.apt, 0x10, 0x0, 1, 19, 1, .rw1c, 0x0, .h⟩
/-- R376, 15_audio_ports.md. -/
def APT_MODE_Mode : Field := ⟨.apt, 0x100, 0x0, 1, 0, 3, .st, 0x0, .s⟩
/-- R376, 15_audio_ports.md. -/
def APT_MODE_Target : Field := ⟨.apt, 0x100, 0x0, 1, 3, 1, .st, 0x0, .s⟩
/-- R376, 15_audio_ports.md. -/
def APT_MODE_InEn : Field := ⟨.apt, 0x100, 0x0, 1, 4, 1, .st, 0x0, .s⟩
/-- R376, 15_audio_ports.md. -/
def APT_MODE_OutEn : Field := ⟨.apt, 0x100, 0x0, 1, 5, 1, .st, 0x0, .s⟩
/-- R376, 15_audio_ports.md. -/
def APT_MODE_FsCode : Field := ⟨.apt, 0x100, 0x0, 1, 8, 4, .st, 0x4, .s⟩
/-- R376, 15_audio_ports.md. -/
def APT_MODE_RateDiv : Field := ⟨.apt, 0x100, 0x0, 1, 12, 2, .st, 0x0, .s⟩
/-- R376, 15_audio_ports.md. -/
def APT_MODE_GenSel : Field := ⟨.apt, 0x100, 0x0, 1, 14, 2, .st, 0x0, .s⟩
/-- R376, 15_audio_ports.md. -/
def APT_FRAME_Slots : Field := ⟨.apt, 0x104, 0x0, 1, 0, 4, .st, 0x1, .s⟩
/-- R376, 15_audio_ports.md. -/
def APT_FRAME_SlotBits : Field := ⟨.apt, 0x104, 0x0, 1, 4, 2, .st, 0x2, .s⟩
/-- R376, 15_audio_ports.md. -/
def APT_FRAME_SampleBits : Field := ⟨.apt, 0x104, 0x0, 1, 6, 2, .st, 0x1, .s⟩
/-- R376, 15_audio_ports.md. -/
def APT_FRAME_Delay : Field := ⟨.apt, 0x104, 0x0, 1, 8, 1, .st, 0x1, .s⟩
/-- R376, 15_audio_ports.md. -/
def APT_FRAME_FsPulse : Field := ⟨.apt, 0x104, 0x0, 1, 9, 1, .st, 0x0, .s⟩
/-- R376, 15_audio_ports.md. -/
def APT_FRAME_FsInv : Field := ⟨.apt, 0x104, 0x0, 1, 10, 1, .st, 0x1, .s⟩
/-- R376, 15_audio_ports.md. -/
def APT_FRAME_BclkInv : Field := ⟨.apt, 0x104, 0x0, 1, 11, 1, .st, 0x0, .s⟩
/-- R376, 15_audio_ports.md. -/
def APT_CLK_BclkDiv : Field := ⟨.apt, 0x108, 0x0, 1, 0, 8, .st, 0x2, .s⟩
/-- R376, 15_audio_ports.md. -/
def APT_CLK_MclkDiv : Field := ⟨.apt, 0x108, 0x0, 1, 8, 8, .st, 0x0, .s⟩
/-- R376, 15_audio_ports.md. -/
def APT_PDM_Mics : Field := ⟨.apt, 0x10C, 0x0, 1, 0, 2, .st, 0x0, .s⟩
/-- R376, 15_audio_ports.md. -/
def APT_PDM_Raw : Field := ⟨.apt, 0x10C, 0x0, 1, 2, 1, .st, 0x0, .s⟩
/-- R376, 15_audio_ports.md. -/
def APT_PDM_Ratio : Field := ⟨.apt, 0x10C, 0x0, 1, 3, 3, .st, 0x3, .s⟩
/-- R376, 15_audio_ports.md. -/
def APT_PDM_HistWords : Field := ⟨.apt, 0x10C, 0x0, 1, 6, 7, .st, 0x0, .s⟩
/-- R376, 15_audio_ports.md. -/
def APT_IEC_CrcAuto : Field := ⟨.apt, 0x110, 0x0, 1, 0, 1, .st, 0x1, .s⟩
/-- R376, 15_audio_ports.md. -/
def APT_IEC_VPolicy : Field := ⟨.apt, 0x110, 0x0, 1, 1, 1, .st, 0x0, .s⟩
/-- R376, 15_audio_ports.md. -/
def APT_IEC_UserSrc : Field := ⟨.apt, 0x110, 0x0, 1, 2, 1, .st, 0x0, .s⟩
/-- R376, 15_audio_ports.md. -/
def APT_START_PrerollFrames : Field := ⟨.apt, 0x114, 0x0, 1, 0, 16, .st, 0x40, .s⟩
/-- R376, 15_audio_ports.md. -/
def APT_STOP_RampFrames : Field := ⟨.apt, 0x118, 0x0, 1, 0, 12, .st, 0x40, .s⟩
/-- R376, 15_audio_ports.md. -/
def APT_STOP_HoldFrames : Field := ⟨.apt, 0x118, 0x0, 1, 16, 12, .st, 0x40, .s⟩
/-- R376, 15_audio_ports.md. -/
def APT_BLOCK_BlockLog2 : Field := ⟨.apt, 0x120, 0x0, 1, 0, 3, .st, 0x3, .s⟩
/-- R376, 15_audio_ports.md. -/
def APT_IEC_CSTX : Field := ⟨.apt, 0x124, 0x4, 6, 0, 32, .st, 0x0, .s⟩
/-- R376, 15_audio_ports.md. -/
def APT_STATUS_State : Field := ⟨.apt, 0x140, 0x0, 1, 0, 2, .ro, 0x0, .s⟩
/-- R376, 15_audio_ports.md. -/
def APT_STATUS_Locked : Field := ⟨.apt, 0x140, 0x0, 1, 2, 1, .ro, 0x0, .s⟩
/-- R376, 15_audio_ports.md. -/
def APT_STATUS_Bank3V3 : Field := ⟨.apt, 0x140, 0x0, 1, 3, 1, .ro, 0x0, .s⟩
/-- R376, 15_audio_ports.md. -/
def APT_FRAMES_LO : Field := ⟨.apt, 0x144, 0x0, 1, 0, 32, .ro, 0x0, .s⟩
/-- R376, 15_audio_ports.md. -/
def APT_FRAMES_HI : Field := ⟨.apt, 0x148, 0x0, 1, 0, 32, .ro, 0x0, .s⟩
/-- R376, 15_audio_ports.md. -/
def APT_STAMP_LO : Field := ⟨.apt, 0x150, 0x0, 1, 0, 32, .ro, 0x0, .s⟩
/-- R376, 15_audio_ports.md. -/
def APT_STAMP_HI : Field := ⟨.apt, 0x154, 0x0, 1, 0, 32, .ro, 0x0, .s⟩
/-- R376, 15_audio_ports.md. -/
def APT_STAMP_FRAME : Field := ⟨.apt, 0x158, 0x0, 1, 0, 32, .ro, 0x0, .s⟩
/-- R376, 15_audio_ports.md. -/
def APT_URUN_CNT : Field := ⟨.apt, 0x160, 0x0, 1, 0, 32, .ro, 0x0, .s⟩
/-- R376, 15_audio_ports.md. -/
def APT_ORUN_CNT : Field := ⟨.apt, 0x164, 0x0, 1, 0, 32, .ro, 0x0, .s⟩
/-- R376, 15_audio_ports.md. -/
def APT_URUN_TIME : Field := ⟨.apt, 0x168, 0x4, 2, 0, 32, .ro, 0x0, .s⟩
/-- R376, 15_audio_ports.md. -/
def APT_ORUN_TIME : Field := ⟨.apt, 0x170, 0x4, 2, 0, 32, .ro, 0x0, .s⟩
/-- R376, 15_audio_ports.md. -/
def APT_IEC_PAR_CNT : Field := ⟨.apt, 0x178, 0x0, 1, 0, 32, .ro, 0x0, .s⟩
/-- R376, 15_audio_ports.md. -/
def APT_IEC_INVALID_CNT : Field := ⟨.apt, 0x17C, 0x0, 1, 0, 32, .ro, 0x0, .s⟩
/-- R376, 15_audio_ports.md. -/
def APT_IEC_CRC_CNT : Field := ⟨.apt, 0x180, 0x0, 1, 0, 32, .ro, 0x0, .s⟩
/-- R376, 15_audio_ports.md. -/
def APT_UNLOCK_CNT : Field := ⟨.apt, 0x184, 0x0, 1, 0, 32, .ro, 0x0, .s⟩
/-- R376, 15_audio_ports.md. -/
def APT_IEC_CSRX_A : Field := ⟨.apt, 0x188, 0x4, 6, 0, 32, .ro, 0x0, .s⟩
/-- R376, 15_audio_ports.md. -/
def APT_IEC_CSRX_B : Field := ⟨.apt, 0x1A0, 0x4, 6, 0, 32, .ro, 0x0, .s⟩
/-- R376, 15_audio_ports.md. -/
def APT_IEC_URX : Field := ⟨.apt, 0x1C0, 0x4, 12, 0, 32, .ro, 0x0, .s⟩
/-- R376, 15_audio_ports.md. -/
def APT_IEC_UTX : Field := ⟨.apt, 0x200, 0x4, 12, 0, 32, .st, 0x0, .s⟩
/-- R376, 15_audio_ports.md. -/
def APT_GEN_DIV_LO : Field := ⟨.apt, 0x300, 0x20, 4, 0, 32, .st, 0xE6AAAAAB, .s⟩
/-- R376, 15_audio_ports.md. -/
def APT_GEN_DIV_HI_Int : Field := ⟨.apt, 0x304, 0x20, 4, 0, 11, .st, 0x196, .s⟩
/-- R376, 15_audio_ports.md. -/
def APT_GEN_DIV_HI_Enable : Field := ⟨.apt, 0x304, 0x20, 4, 11, 1, .st, 0x0, .s⟩
/-- R376, 15_audio_ports.md. -/
def APT_GEN_REF_RefKind : Field := ⟨.apt, 0x308, 0x20, 4, 0, 2, .st, 0x0, .s⟩
/-- R376, 15_audio_ports.md. -/
def APT_GEN_REF_RefStream : Field := ⟨.apt, 0x308, 0x20, 4, 2, 12, .st, 0x0, .s⟩
/-- R376, 15_audio_ports.md. -/
def APT_GEN_REF_RefPort : Field := ⟨.apt, 0x308, 0x20, 4, 14, 4, .st, 0x0, .s⟩
/-- R376, 15_audio_ports.md. -/
def APT_GEN_LOOP_UpdateLog2 : Field := ⟨.apt, 0x30C, 0x20, 4, 0, 4, .st, 0x8, .s⟩
/-- R376, 15_audio_ports.md. -/
def APT_GEN_LOOP_KpLog2 : Field := ⟨.apt, 0x30C, 0x20, 4, 4, 6, .st, 0x10, .s⟩
/-- R376, 15_audio_ports.md. -/
def APT_GEN_LOOP_KiLog2 : Field := ⟨.apt, 0x30C, 0x20, 4, 10, 6, .st, 0x1A, .s⟩
/-- R376, 15_audio_ports.md. -/
def APT_GEN_LOOP_TrimMaxPpm : Field := ⟨.apt, 0x30C, 0x20, 4, 16, 10, .st, 0x64, .s⟩
/-- R376, 15_audio_ports.md. -/
def APT_GEN_SETFILL : Field := ⟨.apt, 0x310, 0x20, 4, 0, 24, .st, 0x0, .s⟩
/-- R376, 15_audio_ports.md. -/
def APT_GEN_TRIM : Field := ⟨.apt, 0x314, 0x20, 4, 0, 32, .ro, 0x0, .s⟩
/-- R376, 15_audio_ports.md. -/
def APT_GEN_FILL : Field := ⟨.apt, 0x318, 0x20, 4, 0, 32, .ro, 0x0, .s⟩
/-- R376, 15_audio_ports.md. -/
def APT_GEN_STATUS_Target : Field := ⟨.apt, 0x31C, 0x20, 4, 0, 24, .ro, 0x0, .s⟩
/-- R376, 15_audio_ports.md. -/
def APT_GEN_STATUS_Locked : Field := ⟨.apt, 0x31C, 0x20, 4, 24, 1, .ro, 0x0, .s⟩
/-- R376, 15_audio_ports.md. -/
def APT_GEN_STATUS_Holding : Field := ⟨.apt, 0x31C, 0x20, 4, 25, 1, .ro, 0x0, .s⟩
/-- R376, 15_audio_ports.md. -/
def APT_GEN_STATUS_Clamped : Field := ⟨.apt, 0x31C, 0x20, 4, 26, 1, .ro, 0x0, .s⟩
/-- R256, 10_scratchpad.md. -/
def SPD_PAGE_ERR_WeightCrc : Field := ⟨.spd, 0x10, 0x0, 1, 16, 1, .rw1c, 0x0, .h⟩
/-- R256, 10_scratchpad.md. -/
def SPD_PAGE_ERR_AtomicMisuse : Field := ⟨.spd, 0x10, 0x0, 1, 17, 1, .rw1c, 0x0, .h⟩
/-- R256, 10_scratchpad.md. -/
def SPD_PAGE_ERR_SealedAccess : Field := ⟨.spd, 0x10, 0x0, 1, 18, 1, .rw1c, 0x0, .h⟩
/-- R256, 10_scratchpad.md. -/
def SPD_PAGE_ERR_PartViolation : Field := ⟨.spd, 0x10, 0x0, 1, 19, 1, .rw1c, 0x0, .h⟩
/-- R256, 10_scratchpad.md. -/
def SPD_PAGE_ERR_DebugClosed : Field := ⟨.spd, 0x10, 0x0, 1, 20, 1, .rw1c, 0x0, .h⟩
/-- R256, 10_scratchpad.md. -/
def SPD_STATUS_A_FreeRows : Field := ⟨.spd, 0x100, 0x0, 1, 0, 17, .ro, 0x10000, .s⟩
/-- R256, 10_scratchpad.md. -/
def SPD_STATUS_B_SealedRows : Field := ⟨.spd, 0x104, 0x0, 1, 0, 17, .ro, 0x0, .s⟩
/-- R256, 10_scratchpad.md. -/
def SPD_STATUS_B_Partitioned : Field := ⟨.spd, 0x104, 0x0, 1, 17, 1, .ro, 0x1, .s⟩
/-- R256, 10_scratchpad.md. -/
def SPD_MODE_Partitioned : Field := ⟨.spd, 0x108, 0x0, 1, 0, 1, .st, 0x1, .s⟩
/-- R256, 10_scratchpad.md. -/
def SPD_PART_MASK_LO : Field := ⟨.spd, 0x10C, 0x0, 1, 0, 32, .st, 0x0, .s⟩
/-- R256, 10_scratchpad.md. -/
def SPD_PART_MASK_HI : Field := ⟨.spd, 0x110, 0x0, 1, 0, 32, .st, 0xFFFFFFFF, .s⟩
/-- R256, 10_scratchpad.md. -/
def SPD_PATROL_PatrolLog2 : Field := ⟨.spd, 0x114, 0x0, 1, 0, 4, .st, 0xA, .s⟩
/-- R256, 10_scratchpad.md. -/
def SPD_PATROL_PatrolOff : Field := ⟨.spd, 0x114, 0x0, 1, 4, 1, .st, 0x0, .s⟩
/-- R256, 10_scratchpad.md. -/
def SPD_SCRUB_Hold : Field := ⟨.spd, 0x118, 0x0, 1, 0, 1, .rw, 0x0, .s⟩
/-- R256, 10_scratchpad.md. -/
def SPD_SCRUB_Busy : Field := ⟨.spd, 0x118, 0x0, 1, 1, 1, .ro, 0x0, .s⟩
/-- R256, 10_scratchpad.md. -/
def SPD_SCRUB_LEFT : Field := ⟨.spd, 0x11C, 0x0, 1, 0, 26, .ro, 0x0, .s⟩
/-- R256, 10_scratchpad.md. -/
def SPD_DBG_BASE_LO : Field := ⟨.spd, 0x120, 0x0, 1, 0, 32, .rw, 0x0, .s⟩
/-- R256, 10_scratchpad.md. -/
def SPD_DBG_BASE_HI : Field := ⟨.spd, 0x124, 0x0, 1, 0, 1, .rw, 0x0, .s⟩
/-- R256, 10_scratchpad.md. -/
def SPD_RGN_SEL : Field := ⟨.spd, 0x128, 0x0, 1, 0, 8, .rw, 0x0, .s⟩
/-- R256, 10_scratchpad.md. -/
def SPD_RGN_DATA : Field := ⟨.spd, 0x130, 0x4, 8, 0, 32, .ro, 0x0, .s⟩
/-- R256, 10_scratchpad.md. -/
def SPD_WREPLAY_CNT : Field := ⟨.spd, 0x150, 0x0, 1, 0, 32, .ro, 0x0, .s⟩
/-- R256, 10_scratchpad.md. -/
def SPD_CRC_FAIL_CNT : Field := ⟨.spd, 0x154, 0x0, 1, 0, 32, .ro, 0x0, .s⟩
/-- R256, 10_scratchpad.md. -/
def SPD_ATOMIC_OVF_CNT : Field := ⟨.spd, 0x158, 0x0, 1, 0, 32, .ro, 0x0, .s⟩
/-- R256, 10_scratchpad.md. -/
def SPD_PATROL_UNCORR_CNT : Field := ⟨.spd, 0x15C, 0x0, 1, 0, 32, .ro, 0x0, .s⟩

/-! The common registers at 0x000 to 0x018 of every page (02_register_pages.md). -/
/-- Every field of the TLY page but PAGE_ERR and TLY_PARAM is SR (R454). -/
def common (k : PageKind) (a : Access) : Access := if k = .tly then .sr else a

def PAGE_ID_PageType (k : PageKind) : Field := ⟨k, 0x0, 0, 1, 0, 8, common k .ro, k.pageType, .p⟩
def PAGE_ID_Instance (k : PageKind) : Field := ⟨k, 0x0, 0, 1, 8, 10, common k .ro, 0, .p⟩
def PAGE_ID_LayoutRev (k : PageKind) : Field := ⟨k, 0x0, 0, 1, 18, 4, common k .ro, 1, .p⟩
def PAGE_STATUS_Ready (k : PageKind) : Field := ⟨k, 0x8, 0, 1, 0, 1, common k .ro, 0, .s⟩
def PAGE_STATUS_PowerOff (k : PageKind) : Field := ⟨k, 0x8, 0, 1, 1, 1, common k .ro, 0, .p⟩
def PAGE_STATUS_Sealed (k : PageKind) : Field := ⟨k, 0x8, 0, 1, 2, 1, common k .ro, 0, .s⟩
def PAGE_STATUS_Staged (k : PageKind) : Field := ⟨k, 0x8, 0, 1, 3, 1, common k .ro, 0, .s⟩
def PAGE_STATUS_Owner (k : PageKind) : Field := ⟨k, 0x8, 0, 1, 16, 16, common k .ro, 0, .s⟩
def PAGE_CTL_StageRevert (k : PageKind) : Field := ⟨k, 0xC, 0, 1, 1, 1, common k .wo, 0, .s⟩
def PAGE_ERR_Unmapped (k : PageKind) : Field := ⟨k, 0x10, 0, 1, 0, 1, .rw1c, 0, .h⟩
def PAGE_ERR_BadWrite (k : PageKind) : Field := ⟨k, 0x10, 0, 1, 1, 1, .rw1c, 0, .h⟩
def PAGE_ERR_Corrected (k : PageKind) : Field := ⟨k, 0x10, 0, 1, 2, 1, .rw1c, 0, .h⟩
def PAGE_ERR_Uncorrectable (k : PageKind) : Field := ⟨k, 0x10, 0, 1, 3, 1, .rw1c, 0, .h⟩
def PAGE_ERR_MASK_Mask (k : PageKind) : Field := ⟨k, 0x14, 0, 1, 0, 32, common k .rw, 0, .s⟩
def PAGE_EVT_ErrEvt (k : PageKind) : Field := ⟨k, 0x18, 0, 1, 0, 1, common k .ro, 0, .h⟩
def PAGE_EVT_Owner (k : PageKind) : Field := ⟨k, 0x18, 0, 1, 16, 16, common k .ro, 0, .h⟩

end Fd

/-- The common fields of a page, PAGE_CTL.Enable apart (R472; notes/assumptions/87.md). -/
def commonFields (k : PageKind) : List Field :=
  [Fd.PAGE_ID_PageType k, Fd.PAGE_ID_Instance k, Fd.PAGE_ID_LayoutRev k, Fd.PAGE_STATUS_Ready k,
   Fd.PAGE_STATUS_PowerOff k, Fd.PAGE_STATUS_Sealed k, Fd.PAGE_STATUS_Staged k, Fd.PAGE_STATUS_Owner k,
   Fd.PAGE_CTL_StageRevert k, Fd.PAGE_ERR_Unmapped k, Fd.PAGE_ERR_BadWrite k, Fd.PAGE_ERR_Corrected k,
   Fd.PAGE_ERR_Uncorrectable k, Fd.PAGE_ERR_MASK_Mask k, Fd.PAGE_EVT_ErrEvt k, Fd.PAGE_EVT_Owner k]

def fields_ctl0 : List Field :=
  [Fd.CTL_PAGE_CAP_PartCode, Fd.CTL_PAGE_CAP_Stepping, Fd.CTL_PAGE_ERR_CommitBusy, Fd.CTL_PAGE_ERR_RingFull, Fd.CTL_PAGE_ERR_PmViolation, Fd.CTL_COMMIT_Cmd, Fd.CTL_COMMIT_When, Fd.CTL_COMMIT_STATUS_State, Fd.CTL_COMMIT_STATUS_Busy, Fd.CTL_COMMIT_STATUS_Code, Fd.CTL_COMMIT_WHERE_Where, Fd.CTL_COMMIT_WHERE_Kind, Fd.CTL_COMMIT_AUX_Entry, Fd.CTL_COMMIT_TIME_LO, Fd.CTL_COMMIT_TIME_HI, Fd.CTL_COMMIT_DONE_LO]
def fields_ctl1 : List Field :=
  [Fd.CTL_COMMIT_DONE_HI, Fd.CTL_COMMIT_SEQ, Fd.CTL_RESET_Soft, Fd.CTL_RESET_Key, Fd.CTL_BENCH_RST_Mask, Fd.CTL_BENCH_RST_Key, Fd.CTL_JOBKILL_Image, Fd.CTL_JOBKILL_Go, Fd.CTL_JOBKILL_STATUS_Busy, Fd.CTL_JOBKILL_STATUS_Image, Fd.CTL_POWER_Req, Fd.CTL_POWER_STATUS_State, Fd.CTL_POWER_STATUS_FailStopped, Fd.CTL_RESET_CAUSE_Last, Fd.CTL_BAR2_APER_Base, Fd.CTL_BOOT_Phase]
def fields_ctl2 : List Field :=
  [Fd.CTL_BOOT_Fail, Fd.CTL_BOOT_Detail, Fd.CTL_BOOT_TIME_LO, Fd.CTL_BOOT_TIME_HI, Fd.CTL_RING_BaseLo, Fd.CTL_RING_BaseHi, Fd.CTL_RING_SizeLog2, Fd.CTL_RING_Enable, Fd.CTL_RING_DropCnt, Fd.CTL_RING_WbLo, Fd.CTL_RING_WbHi, Fd.CTL_RING_ConsLo, Fd.CTL_RING_ConsHi, Fd.CTL_CAP_OPSET_OpSetRev, Fd.CTL_CAP_OPSET_OpSetOldest, Fd.CTL_CAP_ARRAY_Benches]
def fields_ctl3 : List Field :=
  [Fd.CTL_CAP_ARRAY_CoresPerBench, Fd.CTL_CAP_ARRAY_GridRows, Fd.CTL_CAP_ARRAY_GridCols, Fd.CTL_CAP_VECTOR_VecLanes, Fd.CTL_CAP_VECTOR_TransUnits, Fd.CTL_CAP_CLOCK_ArrayMHz, Fd.CTL_CAP_CLOCK_FabricMHz, Fd.CTL_CAP_FORMATS_Formats, Fd.CTL_CAP_FORMATS_GroupSizes, Fd.CTL_CAP_FORMATS_Escapes, Fd.CTL_CAP_SPARSE_SparseOps, Fd.CTL_CAP_SPARSE_MaxExperts, Fd.CTL_CAP_SPARSE_MaxTopK, Fd.CTL_CAP_SPAD_SpadMiB, Fd.CTL_CAP_SPAD_SliceMiB, Fd.CTL_CAP_SPAD_BanksPerSlice]
def fields_ctl4 : List Field :=
  [Fd.CTL_CAP_REGION_CoreRegions, Fd.CTL_CAP_REGION_DevRegions, Fd.CTL_CAP_REGION_SharedMaxMiB, Fd.CTL_CAP_GATHER_Outstanding, Fd.CTL_CAP_GATHER_Programs, Fd.CTL_CAP_GATHER_Instructions, Fd.CTL_CAP_GATHER_LoopDepth, Fd.CTL_CAP_RING_RingsPerBench, Fd.CTL_CAP_RING_RingMinSlots, Fd.CTL_CAP_RING_RingMaxSlots, Fd.CTL_CAP_STREAM_MaxStreams, Fd.CTL_CAP_STREAM_MaxOpCycles, Fd.CTL_CAP_KV_KvPageSizes, Fd.CTL_CAP_KV_CulletPages, Fd.CTL_CAP_KV_KvRing, Fd.CTL_CAP_KV_ScoreFmts]
def fields_ctl5 : List Field :=
  [Fd.CTL_CAP_KV_KvStoreFmts, Fd.CTL_CAP_RECUR_RecurOps, Fd.CTL_CAP_RECUR_AnnealMaxM1, Fd.CTL_CAP_SPECTRAL_SpectralOps, Fd.CTL_CAP_MEM_LpddrGiB, Fd.CTL_CAP_MEM_Channels, Fd.CTL_CAP_MEM_Sites, Fd.CTL_CAP_MEMBW_LpddrGBps, Fd.CTL_CAP_MEMBW_NarrowMaps, Fd.CTL_CAP_PORTS_LinkPorts, Fd.CTL_CAP_PORTS_PacketPorts, Fd.CTL_CAP_PORTS_AudioPorts, Fd.CTL_CAP_PORTS_LinkRates, Fd.CTL_CAP_PLATFORM_Platform]
/-- The owner's fields of the page. -/
def fields_ctl : List Field := fields_ctl0 ++ fields_ctl1 ++ fields_ctl2 ++ fields_ctl3 ++ fields_ctl4 ++ fields_ctl5

def fields_sec0 : List Field :=
  [Fd.SEC_PAGE_ERR_FlashFail, Fd.SEC_PAGE_ERR_FwReject, Fd.SEC_PAGE_ERR_PresenceDenied, Fd.SEC_PRESENCE_Open, Fd.SEC_PRESENCE_RemainDs, Fd.SEC_PRESENCE_CTL_Close, Fd.SEC_PRESENCE_CNT, Fd.SEC_CMD_Op, Fd.SEC_CMD_STATUS_Busy, Fd.SEC_CMD_STATUS_Result, Fd.SEC_CMD_ADDR_LO, Fd.SEC_CMD_ADDR_HI, Fd.SEC_CMD_LEN, Fd.SEC_FW_ActiveSvn, Fd.SEC_FW_MinSvn, Fd.SEC_FW_ActiveSlot]
def fields_sec1 : List Field :=
  [Fd.SEC_FW_Pending, Fd.SEC_FW_Fallback, Fd.SEC_KEY_IdGen, Fd.SEC_KEY_KeyExhausted, Fd.SEC_DEBUG_Unlocked, Fd.SEC_FLEET_BASE_LO, Fd.SEC_FLEET_BASE_HI, Fd.SEC_FLEET_CFG_Count, Fd.SEC_FLEET_CFG_Enable, Fd.SEC_BOOT_CNT, Fd.SEC_TRING_BASE_LO, Fd.SEC_TRING_BASE_HI, Fd.SEC_TRING_CFG_SizeLog2, Fd.SEC_TRING_CFG_Enable, Fd.SEC_TRING_WB_LO, Fd.SEC_TRING_WB_HI]
def fields_sec2 : List Field :=
  [Fd.SEC_TRING_CONS, Fd.SEC_M_0, Fd.SEC_M_1, Fd.SEC_M_2, Fd.SEC_M_3, Fd.SEC_M_4, Fd.SEC_M_5, Fd.SEC_M_6, Fd.SEC_M_7]
/-- The owner's fields of the page. -/
def fields_sec : List Field := fields_sec0 ++ fields_sec1 ++ fields_sec2

def fields_log0 : List Field :=
  [Fd.LOG_STATUS_Count, Fd.LOG_SEQ, Fd.LOG_LOST, Fd.LOG_RD_SEQ, Fd.LOG_RD_DATA, Fd.LOG_RD_STATUS_Held, Fd.LOG_RING_BASE_LO, Fd.LOG_RING_BASE_HI, Fd.LOG_RING_CFG_SizeLog2, Fd.LOG_RING_CFG_Enable, Fd.LOG_RING_WB_LO, Fd.LOG_RING_WB_HI, Fd.LOG_RING_CONS]
/-- The owner's fields of the page. -/
def fields_log : List Field := fields_log0

def fields_cnt0 : List Field :=
  [Fd.CNT_PAGE_ERR_SyncLost, Fd.CNT_PAGE_ERR_SyncStep, Fd.CNT_NOW_LO, Fd.CNT_NOW_HI, Fd.CNT_CTL_Role, Fd.CNT_CTL_SyncLog2, Fd.CNT_CTL_OutEn, Fd.CNT_CABLE_CableDelay, Fd.CNT_CMD_Align, Fd.CNT_CMD_Set, Fd.CNT_STATUS_SyncState, Fd.CNT_STATUS_AlignArmed, Fd.CNT_SYNC_ERR, Fd.CNT_ADJ, Fd.CNT_SET_LO, Fd.CNT_SET_HI]
def fields_cnt1 : List Field :=
  [Fd.CNT_SYNC_LOST_CNT]
/-- The owner's fields of the page. -/
def fields_cnt : List Field := fields_cnt0 ++ fields_cnt1

def fields_dmp0 : List Field :=
  [Fd.DMP_PAGE_CTL_Enable, Fd.DMP_PAGE_ERR_Gated, Fd.DMP_PAGE_ERR_FloorHeld, Fd.DMP_PAGE_ERR_SensorFault, Fd.DMP_PAGE_ERR_OverBudget, Fd.DMP_BUDGET_PkgWatts, Fd.DMP_BUDGET_CapWindows, Fd.DMP_RESERVE_ReserveUnits, Fd.DMP_THERM_A_ThrottleC, Fd.DMP_THERM_A_StretchC, Fd.DMP_THERM_A_DivC, Fd.DMP_THERM_A_GateC, Fd.DMP_THERM_B_LimitC, Fd.DMP_THERM_B_StretchStep, Fd.DMP_THERM_B_MemStretch, Fd.DMP_THERM_B_StretchMax]
def fields_dmp1 : List Field :=
  [Fd.DMP_FLOOR_SFloor, Fd.DMP_STATUS_ActiveMask, Fd.DMP_STATUS_StretchLevel, Fd.DMP_STATUS_AtFloor, Fd.DMP_STATUS_Throttling, Fd.DMP_STATUS_SNow, Fd.DMP_DIV, Fd.DMP_TEMP_MAX_Tmax, Fd.DMP_TEMP_MAX_Source, Fd.DMP_BENCH_TEMP_TempC, Fd.DMP_BENCH_TEMP_PeakC, Fd.DMP_IO_TEMP_TempC, Fd.DMP_ENERGY_LO, Fd.DMP_ENERGY_HI, Fd.DMP_GENERAL_NJ, Fd.DMP_RESERVE_NJ]
def fields_dmp2 : List Field :=
  [Fd.DMP_BASE_NJ, Fd.DMP_WINDOW_CNT, Fd.DMP_THROTTLE_CNT, Fd.DMP_FLOOR_CNT, Fd.DMP_DIV_CNT, Fd.DMP_GATE_CNT, Fd.DMP_DOMAIN_0, Fd.DMP_DOMAIN_1, Fd.DMP_DOMAIN_2]
/-- The owner's fields of the page. -/
def fields_dmp : List Field := fields_dmp0 ++ fields_dmp1 ++ fields_dmp2

def fields_tly0 : List Field :=
  [Fd.TLY_PAGE_ERR_SealOpened, Fd.TLY_PAGE_ERR_RecordDrop, Fd.TLY_PAGE_ERR_SignFail, Fd.TLY_STATUS_SealClosed, Fd.TLY_STATUS_SealExhausted, Fd.TLY_STATUS_Signing, Fd.TLY_SEAL_Opens, Fd.TLY_KEY_TallyGen, Fd.TLY_KEY_KeyExhausted, Fd.TLY_SEQ, Fd.TLY_ENERGY, Fd.TLY_TOTAL, Fd.TLY_START, Fd.TLY_DROP_CNT, Fd.TLY_BUF_USED, Fd.TLY_PARAM_IntervalSec]
def fields_tly1 : List Field :=
  [Fd.TLY_PARAM_Instrument, Fd.TLY_PARAM_Dialogue, Fd.TLY_PARAM_Skipped, Fd.TLY_PARAM_Rotate]
/-- The owner's fields of the page. -/
def fields_tly : List Field := fields_tly0 ++ fields_tly1

def fields_gaf0 : List Field :=
  [Fd.GAF_PAGE_CTL_Enable, Fd.GAF_PAGE_ERR_LiveWrite, Fd.GAF_PAGE_ERR_DeadlineMiss, Fd.GAF_PAGE_ERR_StreamFault, Fd.GAF_PAGE_ERR_ShadowWrite, Fd.GAF_STREAM_BASE_LO_BaseLo, Fd.GAF_STREAM_BASE_HI_BaseHi, Fd.GAF_IMAGE_DIR_LO_DirLo, Fd.GAF_IMAGE_DIR_HI_DirHi, Fd.GAF_STATUS_OpenSweeps, Fd.GAF_STATUS_RunKind, Fd.GAF_STATUS_Running, Fd.GAF_STATUS_Starved, Fd.GAF_STATUS_CreditWait, Fd.GAF_STREAMS_Running, Fd.GAF_STREAMS_NotIdle]
def fields_gaf1 : List Field :=
  [Fd.GAF_STAGED_Count, Fd.GAF_STAGED_First, Fd.GAF_STORE_SlotsUsed, Fd.GAF_STORE_Images, Fd.GAF_STARVE_CNT, Fd.GAF_CREDIT_WAIT_CNT, Fd.GAF_LATE_CNT, Fd.GAF_SWEEP_CNT, Fd.GAF_EMPTY_QUERY_CNT, Fd.GAF_ATTN_NAN_CNT, Fd.GAF_KEY_TRUNC_CNT, Fd.GAF_MERGE_CNT, Fd.GAF_SCHED_DlQuantum, Fd.GAF_SCHED_HoldSlack, Fd.GAF_KV_SAT_CNT, Fd.GAF_KV_SPILL_CNT]
def fields_gaf2 : List Field :=
  [Fd.GAF_KV_STAGE_CNT, Fd.GAF_KV_CULLET_CNT, Fd.GAF_EVT_BAD_CNT, Fd.GAF_EVT_OVER_CNT, Fd.GAF_EMPTY_WIN_CNT, Fd.GAF_CB_TABLE_Entry0, Fd.GAF_CB_TABLE_Entry1, Fd.GAF_CB_TABLE_Entry2, Fd.GAF_CB_TABLE_Entry3, Fd.GAF_CB_REF_RefA, Fd.GAF_CB_REF_ClaimA, Fd.GAF_CB_REF_RefB, Fd.GAF_CB_REF_ClaimB]
/-- The owner's fields of the page. -/
def fields_gaf : List Field := fields_gaf0 ++ fields_gaf1 ++ fields_gaf2

def fields_pnt0 : List Field :=
  [Fd.PNT_PAGE_CTL_Enable, Fd.PNT_PAGE_ERR_CopyMiss, Fd.PNT_PAGE_ERR_ResumeFail, Fd.PNT_PAGE_ERR_Resumed, Fd.PNT_FAILSTOP_Cause, Fd.PNT_FAILSTOP_Bench, Fd.PNT_FAILSTOP_Valid, Fd.PNT_FAILSTOP_TIME_LO, Fd.PNT_FAILSTOP_TIME_HI, Fd.PNT_CMD_FailStop, Fd.PNT_CMD_Key, Fd.PNT_RESUME_Index, Fd.PNT_RESUME_Go, Fd.PNT_TABLE_BASE_LO, Fd.PNT_TABLE_BASE_HI, Fd.PNT_STANDBY_BASE_LO]
def fields_pnt1 : List Field :=
  [Fd.PNT_STANDBY_BASE_HI, Fd.PNT_CFG_ProbeUs, Fd.PNT_CFG_AutoResume, Fd.PNT_TWIN_LeadUs, Fd.PNT_STATUS_Protected, Fd.PNT_STATUS_Standbys, Fd.PNT_COPY_CNT, Fd.PNT_COPY_MISS_CNT, Fd.PNT_RESUME_CNT, Fd.PNT_RESUME_FAIL_CNT, Fd.PNT_LAST_RESUME_Index, Fd.PNT_LAST_RESUME_Code, Fd.PNT_LAST_RESUME_Origin]
/-- The owner's fields of the page. -/
def fields_pnt : List Field := fields_pnt0 ++ fields_pnt1

def fields_evtDev0 : List Field :=
  [Fd.EVT_SEL_Source_dev, Fd.EVT_SEL_Enable_dev, Fd.EVT_OVF_dev, Fd.EVT_CNT_LO_dev, Fd.EVT_CNT_HI_dev, Fd.EVT_CTL_Freeze, Fd.EVT_CTL_Clear]
/-- The owner's fields of the page. -/
def fields_evtDev : List Field := fields_evtDev0

def fields_ben0 : List Field :=
  [Fd.BEN_PAGE_CTL_Enable, Fd.BEN_STATUS_Division, Fd.BEN_STATUS_InMask, Fd.BEN_STATUS_Gated, Fd.BEN_OPS, Fd.BEN_BUSY_LO, Fd.BEN_BUSY_HI, Fd.BEN_PRUNE_CNT, Fd.BEN_DROP_CNT, Fd.BEN_EMPTY_CNT]
/-- The owner's fields of the page. -/
def fields_ben : List Field := fields_ben0

def fields_gth0 : List Field :=
  [Fd.GTH_PAGE_CTL_Enable, Fd.GTH_PAGE_ERR_ProgFault, Fd.GTH_PAGE_ERR_Poisoned, Fd.GTH_STATUS_Outstanding, Fd.GTH_STATUS_Programs, Fd.GTH_STATUS_AtLimit, Fd.GTH_RINGS_Rings, Fd.GTH_LIMIT_MaxOut, Fd.GTH_LAT_MAX_Ns, Fd.GTH_XFER_LO, Fd.GTH_XFER_HI, Fd.GTH_FULL_CNT, Fd.GTH_CRC_RETRY_CNT, Fd.GTH_POISON_CNT, Fd.GTH_FAULT_Program, Fd.GTH_FAULT_Image]
def fields_gth1 : List Field :=
  [Fd.GTH_FAULT_Cause, Fd.GTH_FAULT_STREAM_Entry, Fd.GTH_FAULT_STREAM_Valid]
/-- The owner's fields of the page. -/
def fields_gth : List Field := fields_gth0 ++ fields_gth1

def fields_evtB0 : List Field :=
  [Fd.EVT_SEL_Source_ben, Fd.EVT_SEL_Enable_ben, Fd.EVT_OVF_ben, Fd.EVT_CNT_LO_ben, Fd.EVT_CNT_HI_ben]
/-- The owner's fields of the page. -/
def fields_evtB : List Field := fields_evtB0

def fields_cor0 : List Field :=
  [Fd.COR_PAGE_ERR_UncorrAct, Fd.COR_PAGE_ERR_UncorrWeight, Fd.COR_CORR_CNT, Fd.COR_UNCORR_CNT, Fd.COR_ERR_ADDR_Word, Fd.COR_ERR_ADDR_Weight, Fd.COR_RGN_SEL, Fd.COR_RGN_DATA]
/-- The owner's fields of the page. -/
def fields_cor : List Field := fields_cor0

def fields_xmc0 : List Field :=
  [Fd.XMC_PAGE_CTL_Enable, Fd.XMC_PAGE_ERR_ChannelBad, Fd.XMC_PAGE_ERR_HotStep, Fd.XMC_PAGE_ERR_SensorFault, Fd.XMC_PAGE_ERR_MarginRefused, Fd.XMC_SITE_Gen, Fd.XMC_SITE_InService, Fd.XMC_SITE_TrainFail, Fd.XMC_RATE_RateMbps, Fd.XMC_RATE_ChanMBps, Fd.XMC_TEMP_TempC, Fd.XMC_TEMP_RefreshStep, Fd.XMC_TEMP_SensorFault, Fd.XMC_TEMP_PEAK_PeakC, Fd.XMC_RETRY_ReadMax, Fd.XMC_RETRY_WriteMax]
def fields_xmc1 : List Field :=
  [Fd.XMC_RETRY_ChanFailMax, Fd.XMC_PATROL_PatrolHours, Fd.XMC_MAPOUT_Recorded, Fd.XMC_MAPOUT_Request, Fd.XMC_MAPOUT_Reinstate, Fd.XMC_ERR_ADDR_LO, Fd.XMC_ERR_ADDR_HI, Fd.XMC_ERR_INFO_Channel, Fd.XMC_ERR_INFO_Sub, Fd.XMC_ERR_INFO_Kind, Fd.XMC_CORR_CNT, Fd.XMC_UNCORR_CNT, Fd.XMC_RETRY_CNT, Fd.XMC_RETRY_FAIL_CNT, Fd.XMC_ADDR_CHK_CNT, Fd.XMC_ATOMIC_OVF_CNT]
def fields_xmc2 : List Field :=
  [Fd.XMC_NARROW_CNT, Fd.XMC_STEP_CNT, Fd.XMC_MARGIN_CTL_Channel, Fd.XMC_MARGIN_CTL_Sub, Fd.XMC_MARGIN_CTL_Lane, Fd.XMC_MARGIN_CTL_Axis, Fd.XMC_MARGIN_CTL_Go, Fd.XMC_MARGIN_RES_Low, Fd.XMC_MARGIN_RES_High, Fd.XMC_MARGIN_RES_Valid, Fd.XMC_MARGIN_RES_Failed, Fd.XMC_TRAIN_SEL_SubChan, Fd.XMC_TRAIN_MIN_TimingSteps, Fd.XMC_TRAIN_MIN_VrefSteps, Fd.XMC_TRAIN_MIN_TimingLane, Fd.XMC_TRAIN_MIN_VrefLane]
/-- The owner's fields of the page. -/
def fields_xmc : List Field := fields_xmc0 ++ fields_xmc1 ++ fields_xmc2

def fields_lnk0 : List Field :=
  [Fd.LNK_PAGE_CTL_Enable, Fd.LNK_PAGE_ERR_LaneDegraded, Fd.LNK_PAGE_ERR_PortDown, Fd.LNK_PAGE_ERR_AuthFail, Fd.LNK_PAGE_ERR_ExpandErr, Fd.LNK_PAGE_ERR_HopDrop, Fd.LNK_STATUS_State, Fd.LNK_STATUS_Rate, Fd.LNK_STATUS_Features, Fd.LNK_STATUS_PeerChip, Fd.LNK_STATUS_PeerValid, Fd.LNK_CTL_MaxRate, Fd.LNK_CTL_Encrypt, Fd.LNK_CTL_Compress, Fd.LNK_CTL_PacketMode, Fd.LNK_CMD_Retrain]
def fields_lnk1 : List Field :=
  [Fd.LNK_CMD_Rekey, Fd.LNK_REPLAY_ReplayMax, Fd.LNK_REPLAY_LaneFailMax, Fd.LNK_REPLAY_RetrainMax, Fd.LNK_KEY_RekeyLog2, Fd.LNK_KEY_RekeySec, Fd.LNK_KEY_STATUS_Epoch, Fd.LNK_KEY_STATUS_Fail, Fd.LNK_KEY_STATUS_Handshakes, Fd.LNK_FEC_CORR_CNT, Fd.LNK_FEC_UNCORR_CNT, Fd.LNK_REPLAY_CNT, Fd.LNK_AUTH_FAIL_CNT, Fd.LNK_EXPAND_ERR_CNT, Fd.LNK_DEGRADE_CNT, Fd.LNK_HOP_DROP_CNT]
def fields_lnk2 : List Field :=
  [Fd.LNK_CHAN_DROP_CNT, Fd.LNK_RX_FRAMES_LO, Fd.LNK_RX_FRAMES_HI, Fd.LNK_CHIP_ChipId, Fd.LNK_CHIP_IdValid, Fd.LNK_EPOCH, Fd.LNK_ROUTE_SEL, Fd.LNK_ROUTE_DATA_Primary, Fd.LNK_ROUTE_DATA_Alternate, Fd.LNK_ROUTE_DATA_Valid, Fd.LNK_ROUTE_DATA_AltValid, Fd.LNK_HOPS_MaxHops, Fd.LNK_SLOW_ExtendUs, Fd.LNK_SLOW_DeferMaxUs, Fd.LNK_GROUP_BASE_LO, Fd.LNK_GROUP_BASE_HI]
def fields_lnk3 : List Field :=
  [Fd.LNK_APER_BaseGiB, Fd.LNK_APER_Enable, Fd.LNK_APER_WriteOk, Fd.LNK_APER_AtomicOk, Fd.LNK_APER_SrcChip, Fd.LNK_APER_AnySrc, Fd.LNK_REPORT_CNT, Fd.LNK_QUENCH_CNT, Fd.LNK_TIMEOUT_CNT, Fd.LNK_SLOW_CNT, Fd.LNK_LAST_SUSPECT_Suspect, Fd.LNK_LAST_SUSPECT_Kind]
/-- The owner's fields of the page. -/
def fields_lnk : List Field := fields_lnk0 ++ fields_lnk1 ++ fields_lnk2 ++ fields_lnk3

def fields_pkt0 : List Field :=
  [Fd.PKT_PAGE_CTL_Enable, Fd.PKT_PAGE_ERR_LiveWrite, Fd.PKT_PAGE_ERR_Underrun, Fd.PKT_PAGE_ERR_PtpUnlocked, Fd.PKT_STATUS_State, Fd.PKT_STATUS_Sessions, Fd.PKT_CFG_Hops, Fd.PKT_MAC_LO, Fd.PKT_MAC_HI, Fd.PKT_IPV4, Fd.PKT_IPV6, Fd.PKT_SESSION_BASE_LO, Fd.PKT_SESSION_BASE_HI, Fd.PKT_RX_DROP_CNT, Fd.PKT_RX_BAD_CNT, Fd.PKT_RX_LATE_CNT]
def fields_pkt1 : List Field :=
  [Fd.PKT_RX_DUP_CNT, Fd.PKT_FILL_CNT, Fd.PKT_UNDERRUN_CNT, Fd.PKT_TX_LO, Fd.PKT_TX_HI, Fd.PKT_PTP_STATE_State, Fd.PKT_PTP_CTL_Enable, Fd.PKT_PTP_CTL_Port, Fd.PKT_PTP_CTL_Domain, Fd.PKT_PTP_CTL_HoldoverSec, Fd.PKT_PTP_OFFSET, Fd.PKT_PTP_RATIO, Fd.PKT_PTP_BASE, Fd.PKT_PTP_CNT]
/-- The owner's fields of the page. -/
def fields_pkt : List Field := fields_pkt0 ++ fields_pkt1

def fields_apt0 : List Field :=
  [Fd.APT_PAGE_CTL_Enable, Fd.APT_PAGE_ERR_Underrun, Fd.APT_PAGE_ERR_Overrun, Fd.APT_PAGE_ERR_Interrupted, Fd.APT_PAGE_ERR_IecCrc, Fd.APT_MODE_Mode, Fd.APT_MODE_Target, Fd.APT_MODE_InEn, Fd.APT_MODE_OutEn, Fd.APT_MODE_FsCode, Fd.APT_MODE_RateDiv, Fd.APT_MODE_GenSel, Fd.APT_FRAME_Slots, Fd.APT_FRAME_SlotBits, Fd.APT_FRAME_SampleBits, Fd.APT_FRAME_Delay]
def fields_apt1 : List Field :=
  [Fd.APT_FRAME_FsPulse, Fd.APT_FRAME_FsInv, Fd.APT_FRAME_BclkInv, Fd.APT_CLK_BclkDiv, Fd.APT_CLK_MclkDiv, Fd.APT_PDM_Mics, Fd.APT_PDM_Raw, Fd.APT_PDM_Ratio, Fd.APT_PDM_HistWords, Fd.APT_IEC_CrcAuto, Fd.APT_IEC_VPolicy, Fd.APT_IEC_UserSrc, Fd.APT_START_PrerollFrames, Fd.APT_STOP_RampFrames, Fd.APT_STOP_HoldFrames, Fd.APT_BLOCK_BlockLog2]
def fields_apt2 : List Field :=
  [Fd.APT_IEC_CSTX, Fd.APT_STATUS_State, Fd.APT_STATUS_Locked, Fd.APT_STATUS_Bank3V3, Fd.APT_FRAMES_LO, Fd.APT_FRAMES_HI, Fd.APT_STAMP_LO, Fd.APT_STAMP_HI, Fd.APT_STAMP_FRAME, Fd.APT_URUN_CNT, Fd.APT_ORUN_CNT, Fd.APT_URUN_TIME, Fd.APT_ORUN_TIME, Fd.APT_IEC_PAR_CNT, Fd.APT_IEC_INVALID_CNT, Fd.APT_IEC_CRC_CNT]
def fields_apt3 : List Field :=
  [Fd.APT_UNLOCK_CNT, Fd.APT_IEC_CSRX_A, Fd.APT_IEC_CSRX_B, Fd.APT_IEC_URX, Fd.APT_IEC_UTX, Fd.APT_GEN_DIV_LO, Fd.APT_GEN_DIV_HI_Int, Fd.APT_GEN_DIV_HI_Enable, Fd.APT_GEN_REF_RefKind, Fd.APT_GEN_REF_RefStream, Fd.APT_GEN_REF_RefPort, Fd.APT_GEN_LOOP_UpdateLog2, Fd.APT_GEN_LOOP_KpLog2, Fd.APT_GEN_LOOP_KiLog2, Fd.APT_GEN_LOOP_TrimMaxPpm, Fd.APT_GEN_SETFILL]
def fields_apt4 : List Field :=
  [Fd.APT_GEN_TRIM, Fd.APT_GEN_FILL, Fd.APT_GEN_STATUS_Target, Fd.APT_GEN_STATUS_Locked, Fd.APT_GEN_STATUS_Holding, Fd.APT_GEN_STATUS_Clamped]
/-- The owner's fields of the page. -/
def fields_apt : List Field := fields_apt0 ++ fields_apt1 ++ fields_apt2 ++ fields_apt3 ++ fields_apt4

def fields_spd0 : List Field :=
  [Fd.SPD_PAGE_ERR_WeightCrc, Fd.SPD_PAGE_ERR_AtomicMisuse, Fd.SPD_PAGE_ERR_SealedAccess, Fd.SPD_PAGE_ERR_PartViolation, Fd.SPD_PAGE_ERR_DebugClosed, Fd.SPD_STATUS_A_FreeRows, Fd.SPD_STATUS_B_SealedRows, Fd.SPD_STATUS_B_Partitioned, Fd.SPD_MODE_Partitioned, Fd.SPD_PART_MASK_LO, Fd.SPD_PART_MASK_HI, Fd.SPD_PATROL_PatrolLog2, Fd.SPD_PATROL_PatrolOff, Fd.SPD_SCRUB_Hold, Fd.SPD_SCRUB_Busy, Fd.SPD_SCRUB_LEFT]
def fields_spd1 : List Field :=
  [Fd.SPD_DBG_BASE_LO, Fd.SPD_DBG_BASE_HI, Fd.SPD_RGN_SEL, Fd.SPD_RGN_DATA, Fd.SPD_WREPLAY_CNT, Fd.SPD_CRC_FAIL_CNT, Fd.SPD_ATOMIC_OVF_CNT, Fd.SPD_PATROL_UNCORR_CNT]
/-- The owner's fields of the page. -/
def fields_spd : List Field := fields_spd0 ++ fields_spd1

/-- Every field of a page of the kind. -/
def PageKind.fields (k : PageKind) : List Field :=
  commonFields k ++
  match k with
  | .ctl => fields_ctl
  | .sec => fields_sec
  | .log => fields_log
  | .cnt => fields_cnt
  | .dmp => fields_dmp
  | .tly => fields_tly
  | .gaf => fields_gaf
  | .pnt => fields_pnt
  | .evtDev => fields_evtDev
  | .ben => fields_ben
  | .gth => fields_gth
  | .evtB => fields_evtB
  | .cor => fields_cor
  | .xmc => fields_xmc
  | .lnk => fields_lnk
  | .pkt => fields_pkt
  | .apt => fields_apt
  | .spd => fields_spd

/-- The words that do not reset to zero, per page kind: offset, stride, count, reset word. The table restates the Reset
column of `PageKind.fields` (the law `resetWord_fields` of Sys2Proof/Laws/RegMap.lean says so). -/
def PageKind.resetRows : PageKind → List (Nat × Nat × Nat × Nat)
  | .ctl => [(0x4, 0x0, 1, 0xA00096), (0x208, 0x20, 16, 0x10), (0x400, 0x0, 1, 0x203), (0x404, 0x0, 1, 0x40202010), (0x408, 0x0, 1, 0x1040), (0x40C, 0x0, 1, 0x4E209C4), (0x410, 0x0, 1, 0xF701FF), (0x414, 0x0, 1, 0x8403F), (0x418, 0x0, 1, 0x40102000), (0x41C, 0x0, 1, 0x40010040), (0x420, 0x0, 1, 0x3410200), (0x424, 0x0, 1, 0x10030400), (0x428, 0x0, 1, 0xC3501000), (0x42C, 0x0, 1, 0xFFFF), (0x430, 0x0, 1, 0xFFFFFF), (0x434, 0x0, 1, 0x3FF), (0x438, 0x0, 1, 0x10800180), (0x43C, 0x0, 1, 0x17701324), (0x440, 0x0, 1, 0x7100820), (0x444, 0x0, 1, 0x3F)]
  | .sec => [(0x148, 0x0, 1, 0x14)]
  | .log => [(0x148, 0x0, 1, 0xC)]
  | .cnt => [(0x108, 0x0, 1, 0x50)]
  | .dmp => [(0xC, 0x0, 1, 0x1), (0x100, 0x0, 1, 0x25DC), (0x108, 0x0, 1, 0x645F5C5A), (0x10C, 0x0, 1, 0x2A269), (0x110, 0x0, 1, 0x3C0), (0x120, 0x0, 1, 0xF000FFFF), (0x140, 0x4, 16, 0x8000), (0x1D0, 0x0, 1, 0xFFFFFFFF), (0x1D4, 0x0, 1, 0xFFFFFFFF), (0x1D8, 0x0, 1, 0xFFFF)]
  | .tly => [(0x130, 0x0, 1, 0x703C)]
  | .gaf => [(0x140, 0x0, 1, 0x644)]
  | .pnt => [(0xC, 0x0, 1, 0x1), (0x100, 0x0, 1, 0x1F00), (0x124, 0x0, 1, 0xC8), (0x128, 0x0, 1, 0x7D0)]
  | .evtDev => []
  | .ben => [(0xC, 0x0, 1, 0x1)]
  | .gth => [(0xC, 0x0, 1, 0x1), (0x108, 0x0, 1, 0x200)]
  | .evtB => []
  | .cor => []
  | .xmc => [(0xC, 0x0, 1, 0x1), (0x100, 0x0, 1, 0xFF02), (0x104, 0x0, 1, 0x95883840), (0x10C, 0x0, 1, 0x80), (0x110, 0x0, 1, 0x432), (0x114, 0x0, 1, 0x18)]
  | .lnk => [(0xC, 0x0, 1, 0x1), (0x104, 0x0, 1, 0xF), (0x10C, 0x0, 1, 0x31008), (0x110, 0x0, 1, 0xE1024), (0x210, 0x0, 1, 0x8), (0x214, 0x0, 1, 0xC803E8)]
  | .pkt => [(0xC, 0x0, 1, 0x1), (0x104, 0x0, 1, 0x40), (0x204, 0x0, 1, 0x3C000)]
  | .apt => [(0x100, 0x0, 1, 0x400), (0x104, 0x0, 1, 0x561), (0x108, 0x0, 1, 0x2), (0x10C, 0x0, 1, 0x18), (0x110, 0x0, 1, 0x1), (0x114, 0x0, 1, 0x40), (0x118, 0x0, 1, 0x400040), (0x120, 0x0, 1, 0x3), (0x300, 0x20, 4, 0xE6AAAAAB), (0x304, 0x20, 4, 0x196), (0x30C, 0x20, 4, 0x646908)]
  | .spd => [(0x100, 0x0, 1, 0x10000), (0x104, 0x0, 1, 0x20000), (0x108, 0x0, 1, 0x1), (0x110, 0x0, 1, 0xFFFFFFFF), (0x114, 0x0, 1, 0xA)]

/-- The page kind and instance of a place in the register file. -/
def pageOf (a : Nat) : Option (PageKind × Nat) :=
  PageKind.all.findSome? fun k =>
    if k.base ≤ a ∧ a < k.base + 0x1000 * k.count then some (k, (a - k.base) / 0x1000) else none

/-- The page kind and instance of a BAR0 offset, if R33 maps it. An offset that R33 gives to a PKT page and to an LNK page reaches the
PKT page (DESIGN CHOICE, notes/assumptions/39.md). -/
def bar0Page (a : Nat) : Option (PageKind × Nat) :=
  if 0x320000 ≤ a ∧ a < 0x328000 then some (.pkt, (a - 0x320000) / 0x1000) else if a < 0x1000000 then pageOf a else none

/-- The BAR0 offset of a place in the register file. -/
def bar0Of (a : Nat) : Nat := if 0x1000000 ≤ a then a - 0x1000000 else a

/-- Past every place in the register file. -/
def regEnd : Nat := 0x2000000

/-- Where the register file holds copy `ix` of a field's word in page instance `inst`. -/
def Field.addr (f : Field) (inst ix : Nat) : Nat := f.page.base + 0x1000 * inst + f.off + f.stride * ix

/-- Where it holds the shadow of a field's word (R38). -/
def Field.shadowAddr (f : Field) (inst ix : Nat) : Nat := f.addr inst ix + 0x700

/-- Whether copy `ix` of the field lies in the word at page offset `off`. -/
def Field.atOff (f : Field) (off : Nat) : Option Nat :=
  if f.off ≤ off ∧ (if f.stride = 0 then off = f.off else (off - f.off) % f.stride = 0 ∧ (off - f.off) / f.stride < f.count)
  then some (if f.stride = 0 then 0 else (off - f.off) / f.stride) else none

/-- Registers that exist only in the page of port 0: LNK and PKT from 0x200 (13_links.md, 14_packet_ports.md), the APT
generators from 0x300 (R376). -/
def PageKind.onlyFirst : PageKind → Nat → Bool
  | .lnk, off => 0x200 ≤ off
  | .pkt, off => 0x200 ≤ off
  | .apt, off => 0x300 ≤ off
  | _, _ => false

/-- The fields of the word at page offset `off` of page instance `inst`. -/
def PageKind.wordFields (k : PageKind) (inst off : Nat) : List Field :=
  if k.onlyFirst off && inst != 0 then []
  else k.fields.filter fun f =>
    (f.atOff off).isSome && !(k == .pkt && inst != 0 && f == Fd.PKT_PAGE_ERR_PtpUnlocked)

/-- Reset value of the live word at page offset `off` (R51's Reset column). PAGE_ID reads as R33 states. -/
def resetLive (k : PageKind) (inst off : Nat) : Nat :=
  if k.onlyFirst off && inst != 0 then 0
  else if off = 0 then k.pageType + 256 * k.instNo inst + 2 ^ 18
  else
    match k.resetRows.find? fun r =>
      r.1 ≤ off && (if r.2.1 = 0 then off == r.1 else (off - r.1) % r.2.1 == 0 && (off - r.1) / r.2.1 < r.2.2.1) with
    | some r => r.2.2.2
    | none => 0

/-- Reset value of any register word: a shadow resets with its live copy (R39), everything unlisted reads 0. -/
def resetWord (a : Nat) : BitVec 32 :=
  match pageOf a with
  | none => 0
  | some (k, inst) =>
    let off := a % 0x1000
    if off < 0x800 then BitVec.ofNat 32 (resetLive k inst off)
    else if off < 0xF00 ∧ 0x100 ≤ off - 0x700 then BitVec.ofNat 32 (resetLive k inst (off - 0x700))
    else 0

end Sys2Proof.Machine
end

