-- ==== Sys2Proof/Machine/State.lean ====
section
/-! DEFINITION. The state of the Gulad as plain data, its faults and refusals, and the state after power-on. -/
namespace Sys2Proof.Machine
open Sys2Proof

/-- A frame that the MP sends at a packet port (14_packet_ports.md, R334, R347); addresses have the 16-byte form of R335. -/
inductive MpFrame where
  /-- The answer to an ARP request or Neighbour Solicitation: the address, the port's MAC, and the asker's MAC. -/
  | isAt (ipv6 : Bool) (addr : List Byte) (mac toMac : Nat)
  /-- An ARP request or Neighbour Solicitation for a next hop. -/
  | whoHas (ipv6 : Bool) (addr : List Byte)
  /-- An echo reply. -/
  | echoReply (ipv6 : Bool) (dst src : List Byte) (data : List Byte)
  /-- An IGMPv3 or MLDv2 report of groups. -/
  | report (ipv6 : Bool) (groups : List (List Byte))
  /-- An IEEE 1588 delay request in a domain. -/
  | delayReq (domain : Nat)
  deriving DecidableEq, Repr

/-- What the latest command put out at the host bus, the pins and the ports (the model's own field,
notes/assumptions/3.md). -/
inductive Out where
  /-- Data of a BAR0 read. -/
  | bar0 (value : Nat)
  /-- Data of a BAR2 read, and whether it completes with EP set (R291). -/
  | bar2 (data : List Byte) (ep : Bool)
  /-- Data returned to the agent that issued a read or an atomic, and whether it is poisoned. -/
  | data (bytes : List Byte) (poisoned : Bool)
  /-- A Ranratre frame on the wire of a port (R303). -/
  | frame (port : Nat) (wire : List Byte)
  /-- What a lane of the port carries of that frame: scrambled, with the alignment marker where one is due (R304). -/
  | lane (port lane : Nat) (line : List Byte)
  /-- The stop sequence on every lane of a port (R400). -/
  | stopMarker (port : Nat)
  /-- Training of a port's lanes started at a rate limit (R301). -/
  | training (port : Nat)
  /-- An Ethernet packet of an egress session: port, destination MAC, VID word when tagged, IPv6, source and destination address,
  ports, DSCP, hops, DF and identification of IPv4, UDP checksum, payload (R334, R342, R343). -/
  | packet (port mac : Nat) (vlan : Option Nat) (ipv6 : Bool) (src dst : List Byte) (dstPort srcPort dscp hops : Nat)
      (df : Bool) (ident checksum : Nat) (payload : List Byte)
  /-- A frame the port passes to the MP, with the stamp of an IEEE 1588 event message in system-counter ns (R334, R346). -/
  | toMp (port : Nat) (stamp : Option Nat)
  /-- A frame that the MP sends at the port (R334, R347). -/
  | fromMp (port : Nat) (frame : MpFrame)
  /-- The egress stamp of an event message that the port has sent, returned to the MP (R346). -/
  | txStamp (port stamp : Nat)
  /-- What a stream's chunk drives at an audio port from a port frame on: first slot, then per frame one slot word of SlotBits
  bits per slot (R353), or the 64 unit intervals of an IEC 60958 subframe (R360). -/
  | audio (port frame slot : Nat) (words : List (List Nat))
  /-- From a port frame on (none: from the start of pre-roll), every slot of an audio port that no `audio` words cover sends zeros: the
  slots, and of an IEC 60958 port the channel status and user bits sent with its zero samples (R353, R361, R366, R367). -/
  | audioIdle (port : Nat) (from_ : Option Nat) (slots : Nat) (status user : List Byte)
  /-- The clocks that an audio port drives, in Hz as fractions, (0, 1) where the pin is low or an input: MCLK, BCLK or PDM clock, FS;
  the BCLK cycles for which FS is active; FsInv (R350, R351, R353). -/
  | audioClocks (port : Nat) (mclk bclk fs : Nat × Nat) (fsActive : Nat) (fsInv : Bool)
  /-- Every output of an audio port is driven low and its clocks stop (R368, R398). -/
  | audioLow (port : Nat)
  /-- The PCIe configuration and power answers of R467. -/
  | config (success : Bool)
  /-- The byte an SMBus read returns (R469). -/
  | smbus (data : List Byte)
  /-- The value shifted out by a JTAG instruction (R470). -/
  | jtag (bits value : Nat)
  /-- A hello or key message of the key handshake (R313). -/
  | hello (port : Nat) (hello : HelloIn)
  | keyMsg (port : Nat) (cipher signature : List Byte)
  /-- A sync pulse (R380). -/
  | syncOut
  deriving DecidableEq, Repr

/-- One log entry (18_host_resets_log.md, R432). -/
structure LogEntry where
  time     : Nat
  seq      : Nat
  pageType : Nat
  kind     : Nat
  inst     : Nat
  code     : Nat
  rep      : Nat
  d0       : Nat
  d1       : Nat
  d2       : Nat
  deriving DecidableEq, Repr

/-- The log in always-on SRAM: entries oldest first, the next Seq, the next Seq to mirror (R432 to R434). -/
structure LogState where
  entries : List LogEntry := []
  nextSeq : Nat := 0
  mirror  : Nat := 0
  deriving DecidableEq, Repr

/-- Counts of a host-memory ring (R423, R425): Prod, and whether a record was dropped since the last one written. -/
structure RingCount where
  prod : Nat := 0
  cons : Nat := 0
  gap  : Bool := false
  deriving DecidableEq, Repr

/-- The system counter and its follower loop (16_damper.md, R379 to R382). -/
structure Clock where
  /-- Counter, ns. -/
  now      : Nat := 0
  /-- 32 fractional bits. -/
  frac     : Nat := 0
  /-- Freq of the loop, in units of 1 / (160 × 2²⁶), in which every e / (16 × Period) is whole. -/
  freq     : Int := 0
  /-- Successive pulses with |e| ≤ 2 ns. -/
  good     : Nat := 0
  deriving DecidableEq, Repr

/-- What a job of a gather engine moves (11_gather.md, R257, R264): one transfer. -/
structure Xfer where
  src    : Nat
  dst    : Nat
  xform  : Nat := 0
  arg    : Nat := 0
  /-- Bytes at the far end: 256, 64 or 32. -/
  far    : Nat := 256
  /-- Bytes to move where a built-in transfer moves fewer than the far end's. -/
  bytes  : Nat := 256
  entry  : Option Nat := none
  /-- The slot of a ring is overrun by the address, so the transfer is unmapped (R267). -/
  bad    : Bool := false
  /-- Data the device composes (R257, R424), in place of a source. -/
  comp   : Option (List Byte) := none
  /-- Waits until every earlier transfer of its item is no longer outstanding (R404, R423). -/
  fence  : Bool := false
  /-- The source and the destination were named through this chip's own window (R21). -/
  srcOwn : Bool := false
  dstOwn : Bool := false
  deriving DecidableEq, Repr

/-- What a built-in transfer is for (R272). -/
inductive BKind where
  | weightLoad (region : Nat)
  | weightReload
  | restore (chunk : Nat)
  | stateLoad (chunk : Nat)
  | initialLoad
  | initCopy
  | kvStage (layer frame : Nat)
  | ringRotation (layer : Nat)
  | stateWrite
  | kvWrite
  | hostRing (ring : Nat)
  | punty (chunk : Nat)
  | retire
  | replay
  deriving DecidableEq, Repr

/-- A built-in transfer: what it is for, its image and stream, the bench that issues composed data, transfers still to
issue, deadline for its need time where a rule names one. -/
structure BuiltIn where
  id     : Nat
  kind   : BKind
  image  : Nat
  entry  : Option Nat
  bench  : Nat := 0
  todo   : List Xfer
  dl     : Option Nat := none
  bad    : Bool := false
  tries  : Nat := 0
  deriving DecidableEq, Repr

/-- Who owns an outstanding transfer. -/
inductive Owner where
  | program (image index : Nat)
  | builtIn (id : Nat)
  deriving DecidableEq, Repr

/-- An outstanding transfer (R258). `deferred` holds one that waits under R328, until the given time. -/
structure Flight where
  id       : Nat
  bench    : Nat
  owner    : Owner
  /-- The image that it serves (R276). -/
  image    : Nat := 0
  x        : Xfer
  issued   : Nat
  deferred : Option Nat := none
  remote   : Bool := false
  deriving DecidableEq, Repr

/-- The walk of a gather program (R260 to R267): instruction index, open counters as (level, value, limit, body), base,
strides and modulo of the two generators, transfers of the segment not yet issued. -/
structure Walk where
  pc      : Nat := 0
  open_   : List (Nat × Nat × Nat × Nat) := []
  base    : List (Nat × Nat × Int) := [(0, 0, 0), (0, 0, 0)]
  strides : List (List Int) := [[0, 0, 0, 0, 0, 0], [0, 0, 0, 0, 0, 0]]
  modulo  : List Int := [0, 0]
  queue   : List Xfer := []
  /-- What ends the segment: 0 nothing started, 1 SLOT, 2 FENCE, 3 END. -/
  stop    : Nat := 0
  stopped : Bool := false
  skip    : List Nat := []
  /-- Destination and source of each transfer landed since the last SLOT, for a weight-class ring (R273). -/
  fill    : List (Nat × Nat) := []
  tries   : Nat := 0
  /-- The entries that the STREAMS counter goes through: the batch as it was when the counter opened (R261). -/
  batch   : List Nat := []
  deriving DecidableEq, Repr

/-- A region in the device's tables (10_scratchpad.md, R237 to R244). -/
structure Region where
  image     : Nat
  entry     : Nat
  level     : Nat
  cls       : Nat
  circular  : Bool
  versioned : Bool
  perStream : Bool
  /-- Units field of the region entry. -/
  units     : Nat
  slotBytes : Nat
  sparse    : Nat
  srcOff    : Nat
  srcLen    : Nat
  /-- First stripe row and number of rows taken. -/
  row       : Nat
  rows      : Nat
  /-- Length in units: Units, or Units × StreamSlots (R239). -/
  len       : Nat
  /-- Descriptor index in its table. -/
  desc      : Nat
  head      : Nat := 0
  tail      : Nat := 0
  /-- Sealed for scrub. -/
  shut      : Bool := false
  valid     : Bool := true
  /-- Weight contents loaded; a load that failed (R247). -/
  loaded    : Bool := true
  failed    : Bool := false
  deriving DecidableEq, Repr

/-- Parison beside its registers (02_register_pages.md, R41 to R49). -/
structure Parison where
  /-- When of the armed APPLY. -/
  whenBit  : Nat := 0
  /-- T of the armed APPLY. -/
  time     : Nat := 0
  /-- Whether the instant of an APPLY with When = 1 has come (R45). -/
  due      : Bool := false
  /-- The moment t + 1 µs of R45, when one was set; once the instant has come, its counter value (R47). -/
  dueAt    : Option Nat := none
  /-- Whether the running operation's barrier is the instant (R45). -/
  dueAtBarrier : Bool := false
  /-- Stream entries staged (R53). -/
  staged   : List Nat := []
  /-- Images a passed CHECK will load, with the entry that names each first, in the order of the CHECK (R65). -/
  loads    : List Nat := []
  /-- The regions as that CHECK placed them, for the application to use (R239). -/
  plan     : List Region := []
  /-- Codebook slots that the blocks of each image to load name, as that CHECK found them (R121). -/
  books    : List (Nat × List (Nat × Nat)) := []
  deriving DecidableEq, Repr

/-- A ring of an image (R265). -/
structure Ring where
  region  : Nat
  slots   : Nat
  egress  : Bool
  program : Nat
  minFill : Nat
  /-- Destination and source of each transfer of each ready weight slot, oldest slot first (R273). -/
  sources : List (List (Nat × Nat)) := []
  deriving DecidableEq, Repr

/-- An operation descriptor (03_streams_and_sweeps.md, R66). -/
structure Desc where
  kind     : Nat
  format   : Nat
  lag      : Nat
  lagUnit  : Nat
  flags    : Nat
  cycFixed : Nat
  granule  : Nat
  workPerStream : Nat
  energyFixed : Nat
  energyPerStream : Nat
  /-- Eight region references (R240). -/
  regions  : List Nat
  /-- Four ring references. -/
  rings    : List Nat
  /-- The 48 bytes of the Body. -/
  body     : List Byte
  deriving DecidableEq, Repr

/-- A member of a batch: stream entry, the deadline it carries, whether it takes part without a new chunk (R60, R70). -/
structure Member where
  entry   : Nat
  dl      : Nat
  drain   : Bool := false
  deriving DecidableEq, Repr

/-- A sweep that is open (R69). -/
structure Sweep where
  batch   : List Member
  /-- Index of the next descriptor. -/
  next    : Nat := 0
  deriving DecidableEq, Repr

/-- A KV page as a stream's working record has it (08_kv_pages.md, R194, R195, R206): sequence number, whether this chip
owns it, pool page, position of its first token, position and chunk of each token, tokens committed, scale exponents per head,
whether it is a cullet page, whether its hot frame still holds it, whether its spill write has been made. -/
structure KvPage where
  q        : Nat
  own      : Bool := true
  pool     : Option Nat := none
  base     : Nat
  toks     : List (Nat × Nat) := []
  done     : Nat := 0
  scales   : List (Int × Int) := []
  cullet   : Bool := false
  framed   : Bool := true
  spilled  : Bool := false
  deriving DecidableEq, Repr

/-- A layer's working record (R195): Floor, listed pages oldest first, q of the next page, list index of the oldest. -/
structure KvLay where
  floor    : Nat := 0
  pages    : List KvPage := []
  nextSeq  : Nat := 0
  head     : Nat := 0
  deriving DecidableEq, Repr

/-- A copy of a page in a stage set (R198, R204): entry, layer, q, frame, tokens; for a cullet page's reserved frame the tokens
are those a Restore has put there. -/
structure StageCopy where
  entry    : Nat
  layer    : Nat
  q        : Nat
  frame    : Nat
  tokens   : Nat
  cullet   : Bool := false
  deriving DecidableEq, Repr

/-- A stage set (R198): the layer it was started for, the entries that took part in its order of frames, its copies, the sends
of a ring image still under way. -/
structure StageSet where
  layer    : Nat := 0
  entries  : List Nat := []
  copies   : List StageCopy := []
  /-- Entries whose copies RingNext still pulls: no Done notice has come (R325). -/
  pulled   : List Nat := []
  /-- CollId of the KV ring rotation that pulls them. -/
  coll     : Nat := 0
  deriving DecidableEq, Repr

/-- A loaded image (R65). -/
structure Image where
  id       : Nat
  addr     : Nat
  len      : Nat
  header   : List Byte
  layout   : List Byte
  descs    : List Desc
  programs : List (List Byte)
  progRing : List Nat
  walks    : List Walk
  rings    : List Ring
  streamSlots : Nat
  maxBatch : Nat
  target   : Nat
  cls      : Nat
  maxLag   : Nat
  /-- KV layout record (08_kv_pages.md, R191). -/
  kv       : Option (List Byte) := none
  /-- KV page tables of the entries armed on the image (R255). -/
  tables   : List Nat := []
  sweep    : Option Sweep := none
  /-- The entries of the waiting operation whose one starve event has been counted (R73). -/
  starved  : List Nat := []
  /-- Per descriptor of an Expert routing operation, the kept choices per expert of its last barrier (R143). -/
  routes   : List (Nat × List Nat) := []
  /-- Stage sets 0 and 1, and the one most recently started (R198, R207). -/
  stage    : List StageSet := [{}, {}]
  stageNow : Nat := 0
  /-- Codebook slots that the image's weight blocks name, as (q, slot) (R121). -/
  codebook : List (Nat × Nat) := []
  /-- A job kill has named it (R428). -/
  killed   : Bool := false
  /-- Copies of the group entries that the image's Collective descriptors name (R320). -/
  groups   : List (Nat × List Byte) := []
  deriving DecidableEq, Repr

/-- A collective round (13_links.md, R322, R323): image, descriptor, CollId, entry, chunk, when it opened or was extended to,
member ranks that have contributed units so far, whether complete. -/
structure Round where
  image   : Nat
  desc    : Nat
  collId  : Nat
  entry   : Nat
  chunk   : Nat
  limit   : Nat
  /-- Units received per rank. -/
  got     : List (Nat × Nat)
  complete : Bool := false
  deriving DecidableEq, Repr

/-- A chunk of a stream (R59): number, first sample, samples, stretch, ready time; its deadline when an admission or a replay
has fixed one; whether it is being replayed (R98); whether its samples are still to be brought from the replay buffer, after a
resumption (R412). -/
structure Chunk where
  j     : Nat
  first : Nat
  len   : Nat
  k     : Nat
  tr    : Nat
  dl    : Option Nat := none
  replayed : Bool := false
  mirror : Bool := false
  /-- The reset mark that the chunk held before a rollback (R77). -/
  mark   : Option Nat := none
  deriving DecidableEq, Repr

/-- A chunk in the pipeline: admitted and not committed. `age` counts the sweeps its stream has taken part in since (R70). -/
structure Live where
  c        : Chunk
  dl       : Nat
  age      : Nat := 0
  /-- A gate or exit has left the stream out of the chunk (R140). -/
  skip     : Bool := false
  /-- Mask slots 0 to 7 of R138: the gate bit of each, absent when not written (take). -/
  masks    : List (Nat × Bool) := []
  /-- The reset mark that lies in the chunk (R77, R78). -/
  mark     : Option Nat := none
  /-- Carried scales: the chunk uses present-tensor scales (R113). -/
  fresh    : Bool := false
  /-- State sections and raw sections already carried into this chunk's version (R153). -/
  carriedIn : Bool := false
  /-- Sections that an operation on the chunk has touched, and whether the reset mark has taken effect in each (R153, R167). -/
  secsIn   : List (Nat × Bool) := []
  /-- Bytes of the output slot that Egress operations have written, as (offset, length) (R141). -/
  written  : List (Nat × Nat) := []
  deriving DecidableEq, Repr

/-- Punty copy state of a stream (17_failover.md, R402 to R406): copies sent, the chunk and set of the copy in progress, the chunk
and first next sample of a copy that waits for the state and KV writes, whether the copy in progress counts as missed already,
latest complete copy, complete and missed copies, Protected, whether the next copy sends every page, tokens already sent per
layer and page, pool pages freed and waiting for a copy (page, copy number). -/
structure Punty where
  sent     : Nat := 0
  current  : Option Nat := none
  waiting  : Option (Nat × Nat) := none
  late     : Bool := false
  last     : Option Nat := none
  copies   : Nat := 0
  misses   : Nat := 0
  safe_    : Bool := false
  full     : Bool := true
  mirrored : List (Nat × Nat × Nat) := []
  freed    : List (Nat × Nat) := []
  deriving DecidableEq, Repr

/-- What the device knows of a stream entry that is not IDLE (03, 06, 08, 14, 15, 17). -/
structure Stream where
  entry     : Nat
  /-- The 256 bytes in force: host fields as sampled, device fields as they are. -/
  raw       : List Byte
  state     : Nat
  image     : Nat
  slot      : Nat
  /-- Hot-frame block of the KV page region (R193). -/
  hot       : Nat := 0
  /-- Requests of an applied parison that take effect later (R56). -/
  pauseReq  : Bool := false
  idleReq   : Bool := false
  /-- Number and first sample of the chunk being filled, its stretch, how many of its samples have landed (R59, R61). -/
  nextJ     : Nat := 0
  nextFirst : Nat := 0
  curK      : Nat := 0
  filled    : Nat := 0
  /-- What has landed out of order: units of the chunk being filled (R319), or sample indices (R341). -/
  landed    : List Nat := []
  /-- Samples discarded by an overrun, to be filled by repetition: runs of frames with the stamps of their blocks (R369). -/
  missing   : List (Nat × Nat) := []
  /-- Last accepted sample of each channel since the stream entered RUNNING, and the last bytes of a raw PDM source (R359,
  R369). -/
  lastIn    : List Nat := []
  pdmTail   : List Nat := []
  /-- Chunks ready and not admitted. -/
  ready     : List Chunk := []
  /-- Chunks admitted and not committed, oldest first. -/
  live      : List Live := []
  /-- Chunks that a Commit operation has committed and that later operations of the sweep still work on. -/
  past      : List Live := []
  /-- Samples are discarded in whole chunks (R62). -/
  discard   : Bool := false
  /-- A request for RUNNING has applied: discarding ends at the next chunk boundary. -/
  resume    : Bool := false
  /-- The copy of R56 has completed, the load of R154 has been made. -/
  copied    : Bool := true
  loaded    : Bool := true
  /-- The initial copy of R168, and whether its load has been made. -/
  initCopy  : List Byte := []
  initReady : Bool := true
  /-- A mark applied and not yet compared with an admitted chunk (R78). -/
  markNew   : Bool := false
  /-- The admitted, uncommitted chunk that holds the present mark (R77). -/
  markHeld  : Option Nat := none
  /-- The next admitted chunk is the first after ARMED or PAUSED (R113). -/
  fresh     : Bool := true
  /-- Chunk of the committed state version plus 1; 0 for the version of chunk −1 (R155). -/
  committed : Nat := 0
  /-- Output slots that hold a committed chunk for the sink, with the sink in force at its commit (R57, R76). -/
  outputs   : List (Nat × Nat) := []
  /-- t_r of the last chunk that became ready, sweeps as a drain member since (R60). -/
  lastTr    : Nat := 0
  drains    : Nat := 0
  /-- When samples last landed (R58). -/
  lastLand  : Nat := 0
  punty     : Punty := {}
  /-- Packet ingress (R341): X₀, t_r of chunk 0, chunks ahead whose samples have all landed, with the time of the last. -/
  x0        : Option Nat := none
  arrive    : Option Nat := none
  early     : List (Nat × Nat) := []
  /-- Samples that have landed by index while their place in the input or the replay buffer still holds others (R341). -/
  held      : List (Nat × List Nat) := []
  /-- Session entries as the device has read them, by endpoint (R335). -/
  sess      : List (Nat × List Byte) := []
  /-- Packet egress (R342): the deadline of chunk 0, E₀ with the sink that it was derived for, next sample to send, last samples sent,
  sequence. -/
  d0        : Option Nat := none
  e0        : Option (Nat × Nat) := none
  sent      : Nat := 0
  lastOut   : List Nat := []
  txSeq     : Nat := 0
  /-- Audio sink (R366): F₀, the next chunk to take, stream samples taken, and the samples of chunks not yet taken, as (chunk,
  samples). -/
  f0        : Option Nat := none
  /-- When the stream left ARMED for RUNNING, and the number of the source port's stream sample that is sample index 0 (R365, R366,
  R370). -/
  runAt     : Nat := 0
  src0      : Nat := 0
  taken     : Nat := 0
  outAt     : Nat := 0
  spans     : List (Nat × Nat) := []
  /-- Working KV records, one per layer (R195). -/
  kvw       : List KvLay := []
  deriving DecidableEq, Repr

/-- A stream of an operation's batch as sampled at issue: entry, chunk, whether a gate leaves it out (R140), and its place in that batch:
base chunks of the streams before it, those that take part and all of them (R123, R182). -/
structure Part where
  entry  : Nat
  j      : Nat
  left   : Bool
  before : Nat := 0
  place  : Nat := 0
  deriving DecidableEq, Repr

/-- A pass that the gaffer owes (R75): kind 1 second chance, 2 merge, 3 weight reissue; image and descriptor; the streams it
covers. `ready` is false while a reissue waits for its reload; `count` and `rows` are the reissues so far and the rows that
met errors (R248). -/
structure Pass where
  kind   : Nat
  image  : Nat
  desc   : Nat
  parts  : List Part
  info   : List Nat := []
  ready  : Bool := true
  count  : Nat := 0
  rows   : List Nat := []
  deriving DecidableEq, Repr

/-- The running operation (R71, R123): `pass` is 0 for an operation, else `Pass.kind`. -/
structure Running where
  image  : Nat
  desc   : Nat
  pass   : Nat := 0
  parts  : List Part
  work   : Nat
  issued : Nat
  info   : List Nat := []
  count  : Nat := 0
  rows   : List Nat := []
  /-- Shares as (core, first granule, granules), in core order. -/
  shares : List (Nat × Nat × Nat) := []
  /-- Cycles of each bench from issue to its last completion (BEN_BUSY). -/
  busy   : List (Nat × Nat) := []
  mask   : Nat
  deriving DecidableEq, Repr

/-- Gaffer (03_streams_and_sweeps.md). -/
structure Gaffer where
  images  : List Image := []
  streams : List (Nat × Stream) := []
  running : Option Running := none
  passes  : List Pass := []
  /-- A base is in force (R83). -/
  table   : Bool := false
  rounds  : List Round := []
  /-- Contributions waiting in VC 2 buffers: port and message (R323). -/
  held    : List (Nat × Msg) := []
  deriving DecidableEq, Repr

/-- The damper's own state (16_damper.md). Energies in units of 10 pJ. Sensors are numbered 8b + i in bench b, 128 + n on I/O
die n, 132 in the device area. -/
structure Damper where
  general  : Int := 0
  reserve  : Int := 0
  base     : Int := 0
  eOps     : Nat := 0
  kd       : Nat := 0
  /-- Windows for which the target has been below k_d. -/
  fall     : Nat := 0
  /-- Division code of each bench (0 ÷4, 1 ÷5, 2 ÷6, 3 ÷8). -/
  divs     : List Nat := List.replicate 16 0
  gated    : List Nat := []
  ungating : List Nat := []
  /-- Windows since the last step of each bench. -/
  steps    : List Nat := List.replicate 16 1000
  overRun  : Nat := 0
  /-- Successive failures of a sensor; three leave it out. -/
  failures : List (Nat × Nat) := []
  /-- Sensors whose last reading was at or above 115 °C. -/
  hot      : List Nat := []
  /-- Measured energy below 1 µJ. -/
  rest     : Nat := 0
  deriving DecidableEq, Repr

/-- One site's window counts (12_lpddr.md, R292, R294, R295). -/
structure Site where
  events  : List (Nat × Nat) := []
  lowRun  : Nat := 0
  hotRun  : Nat := 0
  badRun  : Nat := 0
  goodRun : Nat := 0
  /-- Per sub-channel 2c + sub: timing steps, reference steps, their lanes (R296). -/
  margins : List (List Nat) := []
  /-- Channels that have become bad since the cold boot (R292). -/
  badChans : List Nat := []
  deriving DecidableEq, Repr

/-- Keys of one direction pair (R313, R314). -/
structure PortKeys where
  txKey  : Nat := 0
  txSalt : Nat := 0
  rxKey  : Nat := 0
  rxSalt : Nat := 0
  deriving DecidableEq, Repr

/-- The coding of one lane in one direction (R304): the last 58 bits on the line, the newest lowest, and codewords since the last
alignment marker. -/
structure LaneCode where
  line  : Nat := 0
  words : Nat := 0
  deriving DecidableEq, Repr

/-- One link port (13_links.md). -/
structure LinkPort where
  /-- Lanes in service. -/
  lanes    : List Nat := [0, 1]
  txSeq    : Nat := 0
  rxSeq    : Nat := 0
  txCount  : Nat := 0
  rxCount  : Nat := 0
  nak      : Bool := false
  /-- Seq of the latest frame discarded since the gap that Nak reported (R305). -/
  nakAt    : Option Nat := none
  /-- Unacknowledged frames: Seq, messages with their arrival ports, bytes of a Key frame. -/
  unacked  : List (Nat × List (Option Nat × Msg) × List Byte) := []
  /-- Key frames that wait for room among the unacknowledged, and messages at the front of the queue that a replay sends raw (R305). -/
  keyQueue : List (List Byte) := []
  rawLeft  : Nat := 0
  txLanes  : List LaneCode := [{}, {}]
  rxLanes  : List LaneCode := [{}, {}]
  /-- Uncorrectable codewords of the last second: lane and time (R330). -/
  laneErrs : List (Nat × Nat) := []
  /-- The training in progress is that of a lane degrade, at the rate of before (R330). -/
  keepRate : Bool := false
  replays  : Nat := 0
  retrains : Nat := 0
  /-- Credits held per VC, and credits to return. -/
  credits  : List Nat := [0, 0, 0, 0]
  owed     : List Nat := [0, 0, 0, 0]
  /-- Messages that wait to leave, each with its arrival port where this chip forwards it (R315). -/
  queue    : List (Option Nat × Msg) := []
  /-- Messages delivered in the port's receive buffers (R306). -/
  inbox    : List Msg := []
  /-- Headers received whose data has not all come. -/
  partials : List Msg := []
  keys     : Option PortKeys := none
  next     : Option PortKeys := none
  txEpoch  : Nat := 0
  rxEpoch  : Nat := 0
  /-- Handshake: 0 none, 1 Hello sent, 2 both Hellos known. -/
  stage    : Nat := 0
  secret   : Nat := 0
  /-- The generation of the identity key that this handshake's Hello named (R442). -/
  gen      : Nat := 0
  mine     : Option HelloIn := none
  peer     : Option HelloIn := none
  cipherOut : List Byte := []
  sharedOut : Nat := 0
  /-- Start of the latest handshake: KEY_HANDSHAKE_TIMEOUT and REKEY_DUE count from it (R313, R314). -/
  started  : Nat := 0
  /-- Frames since the keys were agreed, either way (R314). -/
  txFrames : Nat := 0
  rxFrames : Nat := 0
  rekeyAfter : Bool := false
  deriving DecidableEq, Repr

/-- Links beside their registers: 1,024 route entries in force, entries whose staged copy differs, report keys seen (R315,
R329). -/
structure Links where
  ports    : List LinkPort := List.replicate 32 {}
  routes   : List (Nat × Nat) := []
  staged   : List (Nat × Nat) := []
  /-- Suspect, epoch, reporter, kind, time. -/
  seen     : List (Nat × Nat × Nat × Nat × Nat) := []
  /-- Reports originated: suspect, kind, time. -/
  origin   : List (Nat × Nat × Nat) := []
  /-- Suspects of link-down reports that wait for the next millisecond (R329). -/
  owedDown : List Nat := []
  /-- By suspect, one more than the newest epoch of a report sent or received (R329). -/
  reported : List (Nat × Nat) := []
  /-- When SLOW_NOTICE_SEND is due again (R328). -/
  slowDue  : Nat := 0
  deriving DecidableEq, Repr

/-- What the MP keeps for the packet ports: the network-time servo and the next hops (14_packet_ports.md, R334, R347). -/
structure Servo where
  good      : Nat := 0
  holdUntil : Nat := 0
  /-- Next-hop MAC addresses that the MP has resolved, by port and address (R334). -/
  macs      : List (Nat × Nat) := []
  deriving DecidableEq, Repr

/-- A chunk that an audio sink has taken (R366): stream entry, first port frame and its pin time, first slot, whether R369 repeats
it, each slot's stream samples with the filter history before them. -/
structure Ahead where
  entry : Nat
  frame : Nat
  pin   : Nat
  slot  : Nat
  rep   : Bool
  cols  : List (List Nat × List Nat)
  deriving DecidableEq, Repr

/-- One audio port (15_audio_ports.md). -/
structure AudioPort where
  /-- A data frame whose pin time is known, that pin time, and the least count of data frames that a read may show (R364). -/
  frame    : Nat := 0
  pin      : Nat := 0
  shown    : Nat := 0
  /-- Last valid code of each slot (R361). -/
  lastIn   : List Int := []
  /-- Input codes of each slot that the filter of R352 still needs, latest first; a microphone's bits as ±1. -/
  hist     : List (List Int) := []
  /-- Stream samples of each output slot that the interpolator still needs, latest first. -/
  histOut  : List (List Nat) := []
  /-- RampFrames and HoldFrames as the last start took them (R373), and when a stop began (R368). -/
  ramp     : Nat := 0
  hold     : Nat := 0
  stopTime : Nat := 0
  /-- PrerollFrames as the last start took it, and whether data frame 0 has started; before it, `frame` and `pin` are those of the
  pre-roll (R367). -/
  pre      : Nat := 0
  data     : Bool := false
  /-- The frame that follows the frames of zeros of a stop, and its pin time (R368). -/
  stopFrame : Nat := 0
  stopEnd   : Nat := 0
  /-- The chunks that its sinks took last, up to two of each entry. -/
  ahead    : List Ahead := []
  /-- Lock was lost while the port was Running, and has not come back (R362). -/
  lost     : Bool := false
  /-- End of the latest input before a loss. -/
  lastEnd  : Nat := 0
  /-- Number of the next stream sample of the input, and the BlockLog2 in force (R364, R365). -/
  sampleNo : Nat := 0
  blk      : Nat := 0
  /-- BlockLog2 before its last change, and when that applied (R365). -/
  blkWas   : Nat × Nat := (0, 0)
  /-- Channel status and user bits that the transmitter sends from a block on, ascending by block (R361). -/
  txSets   : List (Nat × List Byte × List Byte) := []
  deriving DecidableEq, Repr

/-- A clock generator (15_audio_ports.md, R370, R371): at `t1`, the loop's first update, PTP × 2⁴⁰ and OutCount; frames of the counted
output at the last update. -/
structure Gen where
  t1     : Option (Int × Nat) := none
  last   : Option Nat := none
  acc    : Int := 0
  first  : Bool := true
  target : Int := 0
  lock   : Nat := 0
  deriving DecidableEq, Repr

/-- Failover (17_failover.md, R397, R409 to R412): probes in progress as (origin chip, tag of the read, end),
THERMTRIP_N, the ingress records of Valid standby entries with a packet source, keyed by standby index. -/
structure Failover where
  probes  : List (Nat × Nat × Nat) := []
  thermTrip : Bool := false
  standby : List (Nat × Stream) := []
  deriving DecidableEq, Repr

/-- A firmware slot in flash (19_presence_tally.md, R440, R441). -/
structure FwSlot where
  valid : Bool := false
  svn   : Nat := 0
  body  : List Byte := []
  deriving DecidableEq, Repr

/-- Security block and physical presence (19_presence_tally.md, R436 to R446). -/
structure Security where
  armed    : Bool := true
  openEnd  : Nat := 0
  cmd      : Nat := 0
  slots    : List FwSlot := [{}, {}]
  pending  : Option Nat := none
  active   : Nat := 0
  /-- No DEVICE_READY since the active slot changed; the next start-up boots the other slot (R441). -/
  changed  : Bool := false
  fallBack : Bool := false
  minSvn   : Nat := 0
  idGen    : Nat := 0
  /-- NextBlock in flash and next index of the identity and tally keys (R443). -/
  nextBlock : List Nat := List.replicate 16 0
  nextIndex : List Nat := List.replicate 16 0
  exhausted : List Bool := List.replicate 16 false
  blockWait : Option Nat := none
  /-- A security command that waits for the flash write; ports whose key message waits for it. -/
  cmdWaits  : Bool := false
  hsWait    : List Nat := []
  measures : List (List Byte) := List.replicate 8 []
  fleet    : List (List Byte) := []
  bootCount : Nat := 0
  vendorKey : List Byte := []
  /-- Rotation certificates, oldest generation first (R442). -/
  certs    : List (List Byte) := []
  deriving DecidableEq, Repr

/-- A segment of the tally's interval (R449, R450); `cur` while its arming lasts. -/
structure Segment where
  entry : Nat
  cls   : Nat
  tag   : Nat
  opened : Bool
  closed : Bool := false
  delta : Nat := 0
  total : Nat := 0
  first : Nat
  last  : Nat := 0
  cur   : Bool := true
  deriving DecidableEq, Repr

/-- What the gaffer and the streams tell the tally: a commit of a chunk (R447: entry, class, tag, rate in Hz, first sample,
samples, whether a gate or exit left the stream out), an entry that arms, one that leaves service. -/
inductive TallyEvent where
  | commit (entry cls tag hz first n : Nat) (left : Bool)
  | arm (entry : Nat)
  | leave (entry : Nat)
  deriving DecidableEq, Repr

/-- The tally unit and its seal loop (19_presence_tally.md, R438, R439, R447 to R452). -/
structure Tally where
  closed  : Bool := false
  matchRun : Nat := 0
  missRun : Nat := 0
  lfsr    : Nat := 1
  /-- The loop has been judged since power-on (R438). -/
  judged  : Bool := false
  /-- Fuses of the seal bank that are blown (R439). -/
  opens   : Nat := 0
  /-- Total[n] in ns and Resid[n] (R448). -/
  totals  : List (Nat × Nat) := []
  resid   : List (Nat × Nat) := []
  segments : List Segment := []
  /-- Entries armed in the open interval (R450, SFlags). -/
  armed   : List Nat := []
  start   : Nat := 0
  /-- TLY_PARAM in force at Start, and the tally key's generation. -/
  param   : Nat := 0x703C
  gen     : Nat := 0
  /-- EnergyTotalUj (R450). -/
  energy  : Nat := 0
  /-- Signed records not yet copied, oldest first, and closed records that wait for a signature (R443, R451). -/
  queue   : List (List Byte) := []
  waiting : List (List Byte) := []
  seq     : Nat := 0
  /-- TFlags of the open interval. -/
  flags   : Nat := 0
  /-- Events at the tick `mark` and since, and totals, residues, segments and armed entries before them: what a close of the
  interval at that tick leaves to the next (R449, R452). -/
  mark    : Nat := 0
  events  : List TallyEvent := []
  was     : List (Nat × Nat) × List (Nat × Nat) × List Segment × List Nat := ([], [], [], [])
  /-- Events that a close has left to the interval that it opens. -/
  carry   : List TallyEvent := []
  deriving DecidableEq, Repr

/-- Power and start-up (18, 20): `perst` asserted, row of R465 that runs next, stopped. -/
structure Power where
  perst     : Bool := true
  powered   : Bool := true
  row       : Nat := 1
  stopped   : Bool := false
  /-- Power state of R429: 0 Active, 1 Entering, 2 Dormant, 3 Waking, 4 D3hot. -/
  domains   : List Nat := List.range 80
  /-- Bus Master Enable of the function's configuration space (R420). -/
  busMaster : Bool := false
  /-- A reset that waits for the running operation's barrier (R427): 2 hot, 3 soft. -/
  resetWait : Nat := 0
  /-- D3hot follows the reset that waits (R429). -/
  d3Wait    : Bool := false
  /-- Ticks until the soft or hot reset that runs ends with Ready = 1 (R426); 0 while none runs. -/
  readyIn   : Nat := 0
  presenceN : Bool := true
  deriving DecidableEq, Repr

/-- The state of the block. -/
structure State where
  /-- Commands that wait, first in, first out (the block form). -/
  pending  : List Instr := []
  /-- What the latest command put out. -/
  out      : List Out := []
  /-- The free value a command takes next (the model's own field, notes/assumptions/4.md). -/
  freeTick : Nat := 0
  /-- Every register word that differs from its reset value, at its place in the register file (R32, R33; notes/assumptions/39.md). -/
  regs     : List (Nat × Word) := []
  /-- True counts of the event counters, key 32 × page + n, page 16 the device's (R435). -/
  evt      : List (Nat × Nat) := []
  log      : LogState := {}
  clk      : Clock := {}
  par      : Parison := {}
  gaf      : Gaffer := {}
  dmp      : Damper := {}
  /-- Scratchpad bytes (R231) and the 8-byte words that read as uncorrectable (R275). -/
  spad     : List Host.Cell := []
  spadBad  : List Nat := []
  /-- 8-byte words of the scratchpad that hold a correctable error (R246). -/
  spadSoft : List Nat := []
  regions  : List Region := []
  /-- Pool pages that the scrub of an unloaded image zero-fills: image, then (LPDDR address, bytes) (R255). -/
  scrubs   : List (Nat × List (Nat × Nat)) := []
  /-- LPDDR bytes by offset (R280), bursts uncorrectable, bursts holding a correctable error. -/
  lpddr    : List Host.Cell := []
  lpBad    : List (Nat × Bool) := []
  sites    : List Site := List.replicate 16 {}
  /-- Host memory that the device wrote, by host address (R19). -/
  host     : List Host.Cell := []
  builtIns : List BuiltIn := []
  flights  : List Flight := []
  nextId   : Nat := 0
  lnk      : Links := {}
  servo    : Servo := {}
  apt      : List AudioPort := List.replicate 16 {}
  gens     : List Gen := List.replicate 4 {}
  fo       : Failover := {}
  rings    : List RingCount := List.replicate 16 {}
  logRing  : RingCount := {}
  tallyRing : RingCount := {}
  sec      : Security := {}
  tly      : Tally := {}
  pow      : Power := {}
  deriving DecidableEq, Repr

/-- Why the model stops. -/
inductive Fault where
  /-- Raised by RAIL_FAULT for the core-rail excursion whose consequence R461 leaves unspecified. Safe: the model stops where
  the hardware may do anything. -/
  | railUnspecified
  deriving DecidableEq, Repr

/-- Why the model refuses a command. -/
inductive Refusal where
  /-- Raised by Machine/Dispatch.lean for a row that has no meaning yet. Safe. -/
  | notModelled (mnemonic : String)
  deriving DecidableEq, Repr

/-- The device right after its supplies have risen, PERST_N asserted, before the first start-up row (18 R426, 20 R465;
notes/assumptions/1.md). -/
def State.reset : State := {}

end Sys2Proof.Machine
end

