-- ==== Sys2Proof/Machine/Ops.lean ====
section
/-! DEFINITION. The named operations over registers, errors, the log, event counters and the address space. -/
namespace Sys2Proof.Machine
open Sys2Proof

namespace State

/-- The present system-counter value (R379). -/
def now (s : State) : Nat := s.clk.now

/-- A fresh free value, and the state that has taken it (notes/assumptions/4.md). -/
def fresh (s : State) (path : List Nat) : Nat := Config.free (s.freeTick :: path)
def tick (s : State) : State := { s with freeTick := s.freeTick + 1 }

/-- The state a command starts from: nothing put out yet. -/
def begin_ (s : State) : State := { s with out := [], freeTick := s.freeTick + 1 }

def put (s : State) (o : Out) : State := { s with out := s.out ++ [o] }

/-! Register words and fields. -/

/-- What the register file holds at a place (R33; notes/assumptions/39.md). -/
def word (s : State) (a : Nat) : Word := sparseGet resetWord s.regs a

def setWord (s : State) (a : Nat) (w : Word) : State := { s with regs := sparseSet resetWord s.regs a w }

/-- A field of page instance `inst`, copy `ix`. -/
def rdAt (s : State) (f : Field) (inst ix : Nat) : Nat := slice (s.word (f.addr inst ix)).toNat f.lsb f.width

def wrAt (s : State) (f : Field) (inst ix v : Nat) : State :=
  s.setWord (f.addr inst ix) (BitVec.ofNat 32 (setSlice (s.word (f.addr inst ix)).toNat f.lsb f.width v))

def rd (s : State) (f : Field) (inst : Nat := 0) : Nat := s.rdAt f inst 0
def wr (s : State) (f : Field) (v : Nat) (inst : Nat := 0) : State := s.wrAt f inst 0 v

/-- The staged copy of an ST field (R38). -/
def rdSh (s : State) (f : Field) (inst : Nat := 0) (ix : Nat := 0) : Nat :=
  slice (s.word (f.shadowAddr inst ix)).toNat f.lsb f.width

def wrSh (s : State) (f : Field) (v : Nat) (inst : Nat := 0) (ix : Nat := 0) : State :=
  s.setWord (f.shadowAddr inst ix)
    (BitVec.ofNat 32 (setSlice (s.word (f.shadowAddr inst ix)).toNat f.lsb f.width v))

/-- Wrapping counters. -/
def count (s : State) (f : Field) (inst : Nat := 0) (n : Nat := 1) : State := s.wr f (s.rd f inst + n) inst

/-- A 64-bit counter in two words. -/
def count64 (s : State) (lo hi : Field) (inst : Nat := 0) (n : Nat := 1) : State :=
  let v := s.rd lo inst + 2 ^ 32 * s.rd hi inst + n
  (s.wr lo v inst).wr hi (v / 2 ^ 32) inst

/-- A 64-bit value in a pair of words. -/
def wr64 (s : State) (f : Field) (v : Nat) (inst : Nat := 0) : State := (s.wrAt f inst 0 v).wrAt f inst 1 (v / 2 ^ 32)
def rd64 (s : State) (f : Field) (inst : Nat := 0) : Nat := s.rdAt f inst 0 + 2 ^ 32 * s.rdAt f inst 1

/-- An address held in a _LO field that starts at bit `lo.lsb` and a _HI field. -/
def base (s : State) (lo hi : Field) (inst : Nat := 0) (ix : Nat := 0) : Nat :=
  s.rdAt lo inst ix * 2 ^ lo.lsb + s.rdAt hi inst ix * 2 ^ 32

def baseSh (s : State) (lo hi : Field) (inst : Nat := 0) (ix : Nat := 0) : Nat :=
  s.rdSh lo inst ix * 2 ^ lo.lsb + s.rdSh hi inst ix * 2 ^ 32

/-! The log (18_host_resets_log.md). -/

/-- Add an entry, or repeat the newest (R432, R433). -/
def logAdd (s : State) (pageType kind inst code d0 d1 d2 : Nat) : State :=
  let fresh : State :=
    let e : LogEntry := ⟨s.now, s.log.nextSeq, pageType, kind, inst, code, 0, d0, d1, d2⟩
    let kept := if s.log.entries.length < 8192 then s.log.entries else s.log.entries.drop 1
    let s := if s.log.entries.length < 8192 ∨ (s.log.entries.headD e).seq < s.log.mirror then s
      else (s.count Fd.LOG_LOST)
    let mirror := if s.log.entries.length < 8192 then s.log.mirror
      else Nat.max s.log.mirror ((s.log.entries.headD e).seq + 1)
    { s with log := ⟨kept ++ [e], s.log.nextSeq + 1, mirror⟩ }
  match s.log.entries.getLast? with
  | none => fresh
  | some l =>
    if l.pageType = pageType ∧ l.inst = inst ∧ l.kind = kind ∧ l.code = code ∧ l.d1 = d1
        ∧ s.now ≤ l.time + 1000000 ∧ l.time ≤ s.now + 1000000 ∧ s.log.mirror ≤ l.seq then
      { s with log := { s.log with entries := s.log.entries.dropLast ++ [{ l with rep := Nat.min 255 (l.rep + 1) }] } }
    else fresh

/-! Error bits (02_register_pages.md). -/

def errAddr (k : PageKind) (inst : Nat) : Nat := k.base + 0x1000 * inst + 0x10
def maskAddr (k : PageKind) (inst : Nat) : Nat := k.base + 0x1000 * inst + 0x14

def pageErr (s : State) (k : PageKind) (inst : Nat) : Nat := (s.word (errAddr k inst)).toNat
def pageMask (s : State) (k : PageKind) (inst : Nat) : Nat := (s.word (maskAddr k inst)).toNat

/-- PAGE_EVT.ErrEvt: some PAGE_ERR bit is set whose mask bit is 0. -/
def errEvt (s : State) (k : PageKind) (inst : Nat) : Bool :=
  (s.word (errAddr k inst) &&& ~~~(s.word (maskAddr k inst))) != 0

/-- Run a change of a page's PAGE_ERR or PAGE_ERR_MASK; a 0-to-1 transition of ErrEvt writes a log entry (R37). -/
def watchErr (s : State) (k : PageKind) (inst : Nat) (f : State → State) : State :=
  let t := f s
  if !s.errEvt k inst && t.errEvt k inst then
    t.logAdd k.pageType 1 (k.instNo inst) 0 (t.pageErr k inst) (t.pageMask k inst) 0
  else t

/-- Set a PAGE_ERR bit, whatever the mask (R37). -/
def setErr (s : State) (f : Field) (inst : Nat := 0) : State :=
  s.watchErr f.page inst fun s => s.wr f 1 inst

/-- Set a PAGE_ERR bit and write the event's own log entry of Kind 2, whose Code is the bit's number (R432). -/
def setErrLog (s : State) (f : Field) (inst d1 d2 : Nat) : State :=
  let s := s.setErr f inst
  s.logAdd f.page.pageType 2 (f.page.instNo inst) f.lsb (s.pageErr f.page inst) d1 d2

def badWrite (s : State) (k : PageKind) (inst : Nat) : State := s.setErr (Fd.PAGE_ERR_BadWrite k) inst
def unmappedErr (s : State) (k : PageKind) (inst : Nat) : State := s.setErr (Fd.PAGE_ERR_Unmapped k) inst

/-- D1 of an event that concerns no stream (R432). -/
def noEntry : Nat := 0xFFFFFFFF

/-! Event counters (R435). -/

/-- Source allowed in a bench page or in the device page. -/
def evtAllowed (device : Bool) (src : Nat) : Bool :=
  if device then src == 0x03 || (0x20 ≤ src && src ≤ 0x2C) else 0x01 ≤ src && src ≤ 0x0B

/-- Add `n` to counter `c` of page `pg` (16 the device's); a wrap of the 48 bits sets its EVT_OVF bit. -/
def evtBump (s : State) (pg c n : Nat) : State :=
  let old := (tabGet s.evt (32 * pg + c)).getD 0
  let new := old + n
  let s := { s with evt := tabPut s.evt (32 * pg + c) (new % 2 ^ 48) }
  if new < 2 ^ 48 then s
  else if pg = 16 then s.wr Fd.EVT_OVF_dev (s.rd Fd.EVT_OVF_dev ||| 2 ^ c)
  else s.wr Fd.EVT_OVF_ben (s.rd Fd.EVT_OVF_ben pg ||| 2 ^ c) pg

/-- Count `n` events of a source in a page: every counter that selects it, while Enable is 1 and Freeze is 0. -/
def evtCount (s : State) (pg src : Nat) (n : Nat := 1) : State :=
  if s.rd Fd.EVT_CTL_Freeze = 1 then s
  else (List.range (if pg = 16 then 32 else 8)).foldl (fun s c =>
    let sel := if pg = 16 then Fd.EVT_SEL_Source_dev else Fd.EVT_SEL_Source_ben
    let en := if pg = 16 then Fd.EVT_SEL_Enable_dev else Fd.EVT_SEL_Enable_ben
    let inst := if pg = 16 then 0 else pg
    if s.rdAt sel inst c = src ∧ s.rdAt en inst c = 1 then s.evtBump pg c n else s) s

/-- Count in the device page. -/
def evtDev (s : State) (src : Nat) (n : Nat := 1) : State := s.evtCount 16 src n

/-! The address space (01_architecture.md, R19, R20). -/

def lpBase : Nat := 0x010000000000
def hostBase : Nat := 0x800000000000
def remoteBase : Nat := 0x400000000000
def spadSize : Nat := 2 ^ 33

/-- L, the present LPDDR capacity in bytes. -/
def lpSize (s : State) : Nat := s.rd Fd.CTL_CAP_MEM_LpddrGiB * 2 ^ 30

end State

/-- What a device address range reaches (R19). -/
inductive Target where
  | spad (a : Nat)
  | lpddr (o : Nat)
  | remote (chip off : Nat)
  | host (a : Nat)
  | unmapped
  deriving DecidableEq, Repr

namespace State

/-- The one range of R19 that holds all `n` bytes at `a`, unmapped otherwise (R20). -/
def target (s : State) (a n : Nat) : Target :=
  if a + n ≤ spadSize then .spad a
  else if lpBase ≤ a ∧ a + n ≤ lpBase + s.lpSize then .lpddr (a - lpBase)
  else if remoteBase ≤ a ∧ a + n ≤ remoteBase + 2 ^ 46 then
    let o := a - remoteBase
    if o / 2 ^ 36 = (o + n - 1) / 2 ^ 36 then .remote (o / 2 ^ 36) (o % 2 ^ 36) else .unmapped
  else if hostBase ≤ a ∧ a + n ≤ 2 ^ 48 then .host (a - hostBase)
  else .unmapped

/-- Whether `n` bytes at device address `a` lie in LPDDR. -/
def inLpddr (s : State) (a n : Nat) : Bool := decide (lpBase ≤ a ∧ a + n ≤ lpBase + s.lpSize)

/-! Bytes. An unlisted byte reads 0 (DESIGN CHOICE, notes/assumptions/5.md). -/

def zeroByte (_ : Nat) : Byte := 0

end State

/-- The canonical form of a memory: addresses strictly rising, no byte listed that an unlisted address reads as. -/
def Memory.wf (m : List Host.Cell) : Bool := sparseWf State.zeroByte m

namespace State

def getBytes (m : List Host.Cell) (a n : Nat) : List Byte := (List.range n).map fun i => sparseGet zeroByte m (a + i)

def putBytesAt (m : List Host.Cell) (a : Nat) : List Byte → List Host.Cell
  | [] => m
  | b :: bs => putBytesAt (sparseSet zeroByte m a b) (a + 1) bs

def spadBytes (s : State) (a n : Nat) : List Byte := getBytes s.spad a n
def lpBytes (s : State) (o n : Nat) : List Byte := getBytes s.lpddr o n

/-- A write of the scratchpad: words written whole become correctable again, and new check bits end a correctable error. -/
def spadPut (s : State) (a : Nat) (bs : List Byte) : State :=
  { s with
    spad := putBytesAt s.spad a bs
    spadBad := s.spadBad.filter fun w => !(a ≤ w && w + 8 ≤ a + bs.length)
    spadSoft := s.spadSoft.filter fun w => !(w < a + bs.length && a < w + 8) }

/-- A write of LPDDR: bursts written whole become correctable again. -/
def lpPut (s : State) (o : Nat) (bs : List Byte) : State :=
  { s with
    lpddr := putBytesAt s.lpddr o bs
    lpBad := s.lpBad.filter fun w => !(o ≤ w.1 && w.1 + 32 ≤ o + bs.length) }

def hostPut (s : State) (a : Nat) (bs : List Byte) : State := { s with host := putBytesAt s.host a bs }

/-- The 8-byte words of a range that read as uncorrectable. -/
def spadBadIn (s : State) (a n : Nat) : List Nat := s.spadBad.filter fun w => w < a + n && a < w + 8

/-- The bursts of a range that read as uncorrectable, each with whether its address check is wrong. -/
def lpBadIn (s : State) (o n : Nat) : List (Nat × Bool) := s.lpBad.filter fun w => w.1 < o + n && o < w.1 + 32

/-- Bursts become uncorrectable; `wrong` says that their address check is. -/
def spoilLp (s : State) (bursts : List Nat) (wrong : Bool) : State :=
  { s with lpBad := (s.lpBad.filter fun w => !bursts.contains w.1) ++ bursts.map fun b => (b, wrong) }

def zeroSpad (s : State) (a n : Nat) : State :=
  { s with spad := sparseClear s.spad a n, spadBad := s.spadBad.filter (fun w => !(a ≤ w && w < a + n))
           spadSoft := s.spadSoft.filter fun w => !(a ≤ w && w < a + n) }


/-! Interleave (12_lpddr.md, R280). -/

/-- Channels in service in ascending order of 16c + s, as (site, channel). -/
def serviceList (s : State) : List (Nat × Nat) :=
  (List.range 128).filterMap fun i =>
    let site := i % 16
    let c := i / 16
    if bitAt (s.rd Fd.XMC_SITE_InService site) c then some (site, c) else none

/-- Site, channel, sub-channel, bank, row, column block and burst of an LPDDR offset. -/
def interleave (s : State) (o : Nat) : Nat × Nat × Nat × Nat × Nat × Nat × Nat :=
  let sl := s.serviceList
  let u := o / 256
  let nc := Nat.max sl.length 1
  let sc := sl.getD (u % nc) (0, 0)
  let v := u / nc
  let sub := v % 2
  let w := v / 2
  let colblk := w % 8
  let burst := (o % 256) / 32
  if s.rd Fd.XMC_SITE_Gen sc.1 = 2 then
    let row := w / 128
    (sc.1, sc.2, sub, ((w / 8) % 16) ^^^ (row % 16), row, colblk, burst)
  else
    let row := w / 64
    (sc.1, sc.2, sub, (((w / 8) % 8) ^^^ (row % 8)) + 8 * sub, row, colblk, burst)

def siteOf (s : State) (o : Nat) : Nat := (s.interleave o).1

/-- The site of an address is disabled for margining (R297): accesses are handled as unmapped. -/
def siteOff (s : State) (o : Nat) : Bool := s.rd Fd.XMC_PAGE_CTL_Enable (s.siteOf o) == 0

/-- Some site is disabled for margining. -/
def anyDark (s : State) : Bool := (List.range 16).any fun i => s.rd Fd.XMC_PAGE_CTL_Enable i == 0

/-- The units of 256 bytes that a range meets: start and length of each part. -/
def unitPieces (o n : Nat) : List (Nat × Nat) :=
  (List.range ((o + n - 1) / 256 - o / 256 + 1)).map fun i =>
    let a := Nat.max o ((o / 256 + i) * 256)
    (a, Nat.min (o + n) ((o / 256 + i + 1) * 256) - a)

/-- Zero-fill: what lies at a disabled site stays (R297); a burst written whole is good again. -/
def zeroLp (s : State) (o n : Nat) : State :=
  { s with
    lpddr := if s.anyDark then s.lpddr.filter fun e => !(decide (o ≤ e.1) && decide (e.1 < o + n)) || s.siteOff e.1
             else sparseClear s.lpddr o n
    lpBad := s.lpBad.filter fun w => !(decide (o ≤ w.1) && decide (w.1 + 32 ≤ o + n)) || s.siteOff w.1 }

/-- Device address in LPDDR read by the device itself (table entries, descriptors, session entries); a disabled site reads zero
(R297). -/
def devBytes (s : State) (a n : Nat) : List Byte :=
  if !s.inLpddr a n then List.replicate n 0
  else if s.anyDark then (List.range n).map fun i => if s.siteOff (a - lpBase + i) then 0 else sparseGet zeroByte s.lpddr (a - lpBase + i)
  else s.lpBytes (a - lpBase) n

def devLe (s : State) (a n : Nat) : Nat := ofLe (s.devBytes a n)

/-- Some byte of the range is at a site whose controller is off. -/
def anyOff (s : State) (o n : Nat) : Bool := (unitPieces o n).any fun x => s.siteOff x.1

/-- Some byte of an access lies outside LPDDR or at a site disabled for margining: it is handled as unmapped (R20, R297). -/
def lpDark (s : State) (a n : Nat) : Bool :=
  !s.inLpddr a n || (s.anyDark && s.anyOff (a - lpBase) n)

def devPut (s : State) (a : Nat) (bs : List Byte) : State :=
  if !s.inLpddr a bs.length then s
  else if s.anyDark then
    (unitPieces (a - lpBase) bs.length).foldl (fun s x =>
      if s.siteOff x.1 then s else s.lpPut x.1 (bytesAt (bs.drop (x.1 - (a - lpBase))) 0 x.2)) s
  else s.lpPut (a - lpBase) bs

/-- A narrow access of the device counts at its site, burst by burst (R284). -/
def narrow (s : State) (o n : Nat) : State :=
  (List.range ((o + n - 1) / 32 - o / 32 + 1)).foldl
    (fun s i => s.count Fd.XMC_NARROW_CNT (s.siteOf ((o / 32 + i) * 32))) s

/-- Transfers that a gather engine has outstanding, and its registers that follow them (R258). -/
def outstanding (s : State) (bench : Nat) : Nat := (s.flights.filter fun f => f.bench == bench).length

def syncGth (s : State) (bench : Nat) : State :=
  let n := s.outstanding bench
  (s.wr Fd.GTH_STATUS_Outstanding n bench).wr Fd.GTH_STATUS_AtLimit (b2n (n == s.rd Fd.GTH_LIMIT_MaxOut bench)) bench

/-! Small access to lists of sub-states. -/

def port (s : State) (p : Nat) : LinkPort := s.lnk.ports.getD p {}
def setPort (s : State) (p : Nat) (f : LinkPort → LinkPort) : State :=
  { s with lnk := { s.lnk with ports := listMod s.lnk.ports p f } }
def aport (s : State) (p : Nat) : AudioPort := s.apt.getD p {}
def setAport (s : State) (p : Nat) (f : AudioPort → AudioPort) : State := { s with apt := listMod s.apt p f }
def setGen (s : State) (i : Nat) (f : Gen → Gen) : State := { s with gens := listMod s.gens i f }
def setSite (s : State) (i : Nat) (f : Site → Site) : State := { s with sites := listMod s.sites i f }

def stream (s : State) (e : Nat) : Option Stream := tabGet s.gaf.streams e
def setStream (s : State) (e : Nat) (f : Stream → Stream) : State :=
  { s with gaf := { s.gaf with streams := tabMod s.gaf.streams e f } }
def putStream (s : State) (st : Stream) : State :=
  { s with gaf := { s.gaf with streams := tabPut s.gaf.streams st.entry st } }
def delStream (s : State) (e : Nat) : State :=
  { s with gaf := { s.gaf with streams := tabDel s.gaf.streams e } }

def image (s : State) (i : Nat) : Option Image := s.gaf.images.find? fun m => m.id == i
def setImage (s : State) (i : Nat) (f : Image → Image) : State :=
  { s with gaf := { s.gaf with images := s.gaf.images.map fun m => if m.id == i then f m else m } }

/-- Streams, in ascending entry number. -/
def streams (s : State) : List Stream := s.gaf.streams.map (·.2)

def failStopped (s : State) : Bool := s.rd Fd.CTL_POWER_STATUS_FailStopped == 1

/-- ALERT_N is driven low (18 R431): while ErrEvt of some page is 1, and throughout fail-stop. Without V1P8 it is high-impedance (20
R458). -/
def alertLow (s : State) : Bool :=
  s.pow.powered && (s.failStopped || PageKind.all.any fun k => (List.range k.count).any fun i => s.errEvt k i)

/-- The device has power and PERST_N is deasserted. -/
def started (s : State) : Bool := s.pow.powered && !s.pow.perst

/-- Started, and not in fail-stop: benches, gaffer, memory sites and ports work. -/
def working (s : State) : Bool := s.started && !s.failStopped

/-- The domains that are on; BEN_STATUS.Gated follows the array domains (R51). -/
def setDomains (s : State) (on : List Nat) : State :=
  (List.range 16).foldl (fun s b =>
    let g := b2n (!on.contains (4 * b))
    if s.rd Fd.BEN_STATUS_Gated b = g then s else s.wr Fd.BEN_STATUS_Gated g b) { s with pow := { s.pow with domains := on } }

/-- With NoFirmware the ROM serves BAR0 reads of the CTL page, and zero elsewhere (R466). -/
def romServes (s : State) : Bool := s.pow.stopped && s.rd Fd.CTL_BOOT_Fail == 2

/-- The PCIe function answers BAR0 and BAR2: start-up row 3 has ended (R465, R467), the device is not in D3hot (R429). -/
def hostUp (s : State) : Bool :=
  s.pow.powered && !s.pow.perst && decide (4 ≤ s.pow.row) && s.rd Fd.CTL_POWER_STATUS_State != 4

/-- BAR0 writes are dropped: fail-stop (R399), or a start-up that has stopped (R466). -/
def writesShut (s : State) : Bool := s.failStopped || s.pow.stopped

/-- The common gate of BAR0 writes: none lands before the function answers, none while writes are shut (R399, R466). -/
def gated (s : State) (k : PageKind) (inst : Nat) (f : State → State) : State :=
  if !s.hostUp then s else if s.writesShut then s.badWrite k inst else f s

/-- PAGE_STATUS.Ready of the pages of sites in service, and of all other pages, whose copy the CTL page keeps (R465). -/
def setReady (s : State) : State :=
  ((List.range 16).foldl (fun s i => s.wr (Fd.PAGE_STATUS_Ready .xmc) (b2n (s.rd Fd.XMC_SITE_InService i != 0)) i) s).wr
    (Fd.PAGE_STATUS_Ready .ctl) 1

/-- Every entry is IDLE: the device keeps a record of each entry that is not. -/
def allIdle (s : State) : Bool := s.gaf.streams.isEmpty

end State

/-- The outcome type of every meaning. -/
abbrev Result := Host.Outcome State Fault Refusal

end Sys2Proof.Machine
end

