-- ==== Sys2Proof/Machine/Spad.lean ====
section
/-! DEFINITION. The scratchpad: slices and banks, regions, narrow access, protection, atomics, release and scrub
(10_scratchpad.md, R231 to R256). -/
namespace Sys2Proof.Machine
open Sys2Proof

/-- Slice (core) of a scratchpad byte (R231). -/
def sliceOf (a : Nat) : Nat := slice a 8 9

/-- Bank of a scratchpad byte (R231). -/
def bankOf (a : Nat) : Nat := slice a 17 3 * 8 + slice a 5 3

def stripeRow (a : Nat) : Nat := slice a 17 16

/-- Bench of a scratchpad byte, the gather engine that serves it (R257). -/
def benchOf (a : Nat) : Nat := slice a 13 4

namespace Region

/-- First byte of a device-level region. -/
def start (r : Region) : Nat := r.row * 2 ^ 17

/-- Base of R244: units for a device-level region, first unit of the slice for a core-level one. -/
def base (r : Region) : Nat := if r.level = 1 then r.row * 512 else r.row

/-- Bytes of the region seen by one reader: per core at level 0. -/
def size (r : Region) : Nat := r.len * 256

/-- Byte `o` of the region (R241), reached by core `core` at level 0. -/
def addr (r : Region) (core o : Nat) : Nat :=
  if r.level = 1 then r.start + o
  else (r.row + o / 256) * 2 ^ 17 + 256 * core + o % 256

/-- The array's access wraps at the region's end (R241). -/
def arrAddr (r : Region) (core o : Nat) : Nat := r.addr core (if r.size = 0 then 0 else o % r.size)

/-- Whether `n` bytes at scratchpad address `a` lie in the region. -/
def holds (r : Region) (a n : Nat) : Bool :=
  if r.level = 1 then decide (r.start ≤ a ∧ a + n ≤ r.start + r.size)
  else decide (r.start ≤ a ∧ a + n ≤ r.start + r.len * 2 ^ 17)

/-- Slots of a circular region. -/
def slots (r : Region) : Nat := if r.slotBytes = 0 then 0 else r.units * 256 / r.slotBytes

/-- The pointer after one slot (R242). -/
def step (r : Region) (p : Nat) : Nat := if r.units = 0 then 0 else (p + r.slotBytes / 256) % r.units

/-- Slots full, from Head to Tail. -/
def full (r : Region) : Nat :=
  if r.slotBytes = 0 ∨ r.units = 0 then 0 else (r.tail + r.units - r.head) % r.units / (r.slotBytes / 256)

end Region

namespace State

def regionAt (s : State) (a n : Nat) : Option Region := s.regions.find? fun r => r.valid && r.holds a n

def regionOf (s : State) (image entry : Nat) : Option Region :=
  s.regions.find? fun r => r.image == image && r.entry == entry && r.valid && !r.shut

def setRegion (s : State) (image entry : Nat) (f : Region → Region) : State :=
  { s with regions := s.regions.map fun r => if r.image == image && r.entry == entry && !r.shut then f r else r }

/-- An access of the narrow or array side to a bank of the other side (R235). -/
def wrongSide (s : State) (narrow : Bool) (a : Nat) : Bool :=
  s.rd Fd.SPD_MODE_Partitioned == 1 &&
    (let b := bankOf a
     let mask := s.rd Fd.SPD_PART_MASK_LO + 2 ^ 32 * s.rd Fd.SPD_PART_MASK_HI
     bitAt mask b != narrow)

/-- The parts of a range that lie in one bank row each: address and bytes. -/
def bankParts (a n : Nat) : List (Nat × Nat) :=
  (List.range (n / 32 + 2)).filterMap fun k =>
    let lo := Nat.max a ((a / 32 + k) * 32)
    let hi := Nat.min (a + n) ((a / 32 + k + 1) * 32)
    if lo < hi then some (lo, hi - lo) else none

/-- Whether any byte of a range lies in a bank of the other side. -/
def partViolates (s : State) (narrow : Bool) (a n : Nat) : Bool :=
  s.rd Fd.SPD_MODE_Partitioned == 1 && (bankParts a n).any fun x => s.wrongSide narrow x.1

/-- An uncorrectable word met at address `a` (R246, R248 to R250). -/
def uncorrWord (s : State) (a : Nat) (weight : Bool) : State :=
  let core := sliceOf a
  let s := s.count Fd.COR_UNCORR_CNT core
  let s := s.wr Fd.COR_ERR_ADDR_Word (a / 4) core
  let s := s.wr Fd.COR_ERR_ADDR_Weight (b2n weight) core
  let s := s.setErr (Fd.PAGE_ERR_Uncorrectable .cor) core
  s.setErr (if weight then Fd.COR_PAGE_ERR_UncorrWeight else Fd.COR_PAGE_ERR_UncorrAct) core

/-- A corrected read at address `a` (R246). -/
def corrWord (s : State) (a : Nat) : State :=
  let core := sliceOf a
  let s := s.count Fd.COR_CORR_CNT core
  let s := s.setErr (Fd.PAGE_ERR_Corrected .cor) core
  s.evtCount (core / 32) 0x09

def isWeight (s : State) (a : Nat) : Bool :=
  match s.regionAt a 1 with
  | some r => r.cls == 1
  | none => false

/-- The protected word that holds an 8-byte word: a 256-bit row of a weight region, the word itself otherwise (R245). -/
def codeWord (s : State) (w : Nat) : Nat := if s.isWeight w then w / 32 * 32 else w / 8 * 8

def codeBytes (s : State) (w : Nat) : Nat := if s.isWeight w then 32 else 8

/-- The protected words of a range that read as corrected (R246). -/
def softIn (s : State) (a n : Nat) : List Nat :=
  dedup ((s.spadSoft.filter fun w => w < a + n && a < w + 8 && !s.spadBad.contains w).map s.codeWord)

/-- Words have taken a correctable error (R246). -/
def noteSoft (s : State) (ws : List Nat) : State :=
  { s with spadSoft := dedup (s.spadSoft ++ (ws.filter fun w => decide (w < spadSize)).map fun w => w / 8 * 8) }

/-- The bytes of a narrow access, in 8-byte words, in each bench that serves some of them (R234, R435). -/
def narrowCount (s : State) (a n : Nat) : State :=
  (List.range ((a + n + 8191) / 8192 - a / 8192)).foldl (fun s i =>
    let lo := Nat.max a ((a / 8192 + i) * 8192)
    s.evtCount (benchOf lo) 0x07 (ceilDiv (Nat.min (a + n) ((a / 8192 + i + 1) * 8192) - lo) 8)) s

/-- A narrow agent's read: each uncorrectable 8-byte word reads zero and is counted, once per protected word (R250); a correctable one
reads right and is counted (R246); what lies in a bank of the array's side reads zero (R235). -/
def narrowRead (s : State) (a n : Nat) : List Byte × State :=
  let off := s.partViolates true a n
  let bad := (s.spadBadIn a n).filter fun w => !off || !s.wrongSide true w
  let s' := (dedup (bad.map s.codeWord)).foldl (fun s w => s.uncorrWord w (s.isWeight w)) s
  let s' := ((s.softIn a n).filter fun w => !off || !s.wrongSide true w).foldl (fun s w => s.corrWord w) s'
  let s' := s'.narrowCount a n
  ((List.range n).map (fun i =>
    if bad.any (fun w => w ≤ a + i && a + i < w + 8) || (off && s.wrongSide true (a + i)) then 0 else sparseGet zeroByte s.spad (a + i)),
   if off then s'.setErr Fd.SPD_PAGE_ERR_PartViolation else s')

/-- A write to the narrow side's own banks. A write of part of a protected word reads the word first: a correctable one counts (R246), and
of an uncorrectable one the unwritten bytes are taken as zero (R232, R245). -/
def narrowStore (s : State) (a : Nat) (bs : List Byte) : State :=
  let partly (w : Nat) : Bool := !(a ≤ w && w + s.codeBytes w ≤ a + bs.length)
  let part := (dedup ((s.spadBadIn a bs.length).map s.codeWord)).filter partly
  let s := ((s.softIn a bs.length).filter partly).foldl (fun s w => s.corrWord w) s
  let s := part.foldl (fun s w => (s.count Fd.COR_UNCORR_CNT (sliceOf w)).zeroSpad w (s.codeBytes w)) s
  s.spadPut a bs

/-- A narrow agent's write; what lies in a bank of the array's side is dropped (R235). -/
def narrowWrite (s : State) (a : Nat) (bs : List Byte) : State :=
  let s := s.narrowCount a bs.length
  if s.partViolates true a bs.length then
    ((bankParts a bs.length).filter fun x => !s.wrongSide true x.1).foldl (fun s x => s.narrowStore x.1 (bytesAt bs (x.1 - a) x.2))
      (s.setErr Fd.SPD_PAGE_ERR_PartViolation)
  else s.narrowStore a bs

/-- Data whose words a reader must see as uncorrectable (R275), whole rows of a weight region (R245). -/
def poisonSpad (s : State) (a n : Nat) : State :=
  let words := (List.range (ceilDiv n 8)).flatMap fun i =>
    let w := a / 8 * 8 + 8 * i
    (List.range (s.codeBytes w / 8)).map fun k => s.codeWord w + 8 * k
  { s with spadBad := words.foldl (fun l w => if l.contains w then l else l ++ [w]) s.spadBad }

end State

/-- What a non-array agent's access to the scratchpad meets (R243). -/
inductive SpadCheck where
  | ok | unmapped | sealed | forbidden | released
  deriving DecidableEq, Repr

namespace State

/-- R243 for `n` bytes at `a`; `load` marks the weight load and reload of R247 and R248; `old` names the image of a
transfer that was outstanding when its image went (R276). -/
def spadCheck (s : State) (a n : Nat) (write load : Bool) (old : Option Nat := none) : SpadCheck :=
  match s.regionAt a n with
  | none => .unmapped
  | some r =>
    if r.shut then (if write && old == some r.image then .released else .sealed)
    else if write && r.cls == 1 && !load then .forbidden
    else .ok

/-- The device records an access to a sealed region (R243). -/
def sealedErr (s : State) : State := s.setErr Fd.SPD_PAGE_ERR_SealedAccess

/-! Atomics of the shared region (R253, R254). -/

end State

/-- Sum or extreme of two 32-bit words under a code of R253, and whether an ADD_I32 wrapped. -/
def atomicWord (code old new : Nat) : Nat × Bool :=
  match code with
  | 0 =>
    let x := toSigned 32 old + toSigned 32 new
    (ofSigned 32 x, decide (x < -(2 ^ 31 : Int) ∨ (2 ^ 31 : Int) ≤ x))
  | 1 => (fadd old new, false)
  | 2 =>
    let lane (i : Nat) : Nat := fvAdd bf16 (bf16.decode (slice old (16 * i) 16)) (bf16.decode (slice new (16 * i) 16))
    (lane 0 + lane 1 * 65536, false)
  | 3 => (if toSigned 32 old ≤ toSigned 32 new then old else new, false)
  | _ => (if toSigned 32 old ≤ toSigned 32 new then new else old, false)

namespace State

/-- One aligned 4-byte operand of an atomic at `a`: the old value and the state. An uncorrectable word counts as zero, and a bank
of the array's side is left alone (R235). -/
def atomicStep (s : State) (a code new : Nat) : Nat × State :=
  if s.wrongSide true a then (0, s)
  else
  let s1 := (s.softIn a 4).foldl (fun s w => s.corrWord w) s
  let s1 := (s.spadBadIn a 4).foldl (fun s w => (s.count Fd.COR_UNCORR_CNT (sliceOf w)).zeroSpad w 8) s1
  let old := ofLe (s1.spadBytes a 4)
  let (v, wrap) := atomicWord code old new
  let s2 := s1.spadPut a (leBytes 4 v)
  (old, if wrap then s2.count Fd.SPD_ATOMIC_OVF_CNT else s2)

/-- Atomics on every 32-bit word of the data from `a` on: old words and the state. -/
def atomicWords (s : State) (a code : Nat) : List Nat → List Nat × State
  | [] => ([], s)
  | w :: ws =>
    let (old, s) := s.atomicStep a code w
    let (olds, s) := s.atomicWords (a + 4) code ws
    (old :: olds, s)

def wordsOf (bs : List Byte) : List Nat := (List.range (bs.length / 4)).map fun i => leAt bs (4 * i) 4

/-- An atomic of an adder set: old values (zeros where it is misused, or lies in no region) and the state (R243, R253). `old` names the
image of a transfer that was outstanding when its image went (R276). -/
def spadAtomic (s : State) (a code : Nat) (bs : List Byte) (old : Option Nat := none) : List Byte × State :=
  let misuse := (List.replicate bs.length (0 : Byte), s.setErr Fd.SPD_PAGE_ERR_AtomicMisuse)
  match s.regionAt a bs.length with
  | none => (List.replicate bs.length (0 : Byte), s)
  | some r =>
    if r.shut then (List.replicate bs.length 0, if old == some r.image then s else s.sealedErr)
    else if r.cls ≠ 3 ∨ 5 ≤ code ∨ a % 8 ≠ 0 then misuse
    else
      let s := if s.partViolates true a bs.length then s.setErr Fd.SPD_PAGE_ERR_PartViolation else s
      let (olds, s) := s.atomicWords a code (wordsOf bs)
      (olds.flatMap (leBytes 4), s.narrowCount a bs.length)

/-! Allocation (R239), release and scrub (R255). -/

/-- Stripe rows of sealed regions. -/
def sealedRows (s : State) : Nat := sumNat ((s.regions.filter (·.shut)).map (·.rows))

def usedRows (s : State) : Nat := sumNat (s.regions.map (·.rows))

/-- Units still to zero (SPD_SCRUB_LEFT). -/
def scrubLeft (s : State) : Nat := sumNat ((s.regions.filter (·.shut)).map fun r => r.rows * 512)

/-- Keep the rows and scrub registers in step with the regions. -/
def syncSpad (s : State) : State :=
  let s := s.wr Fd.SPD_STATUS_A_FreeRows (65536 - s.usedRows)
  let s := s.wr Fd.SPD_STATUS_B_SealedRows s.sealedRows
  let s := s.wr Fd.SPD_SCRUB_LEFT s.scrubLeft
  s.wr Fd.SPD_SCRUB_Busy (b2n (decide (s.scrubLeft ≠ 0)))

/-- Seal every region of an image (R255 step 1). -/
def sealImage (s : State) (image : Nat) : State :=
  ({ s with regions := s.regions.map fun (r : Region) => if r.image == image then { r with shut := true } else r }).syncSpad

/-- The scrub of an image's regions ends: contents zero, rows and descriptors free (R255 step 2). -/
def releaseImage (s : State) (image : Nat) : State :=
  let gone := s.regions.filter fun r => r.image == image && r.shut
  let s := gone.foldl (fun s r => s.zeroSpad r.start (r.rows * 2 ^ 17)) s
  ({ s with regions := s.regions.filter fun r => !(r.image == image && r.shut) }).syncSpad

/-- One sealed region of an image is zero: its rows and its descriptor are free (R255 step 2). The scrub engine wrote a sixteenth of it in
each bench (R234, R435). -/
def releaseRegion (s : State) (image entry : Nat) : State :=
  match s.regions.find? fun r => r.image == image && r.entry == entry && r.shut with
  | none => s
  | some r =>
    let s := ({ s.zeroSpad r.start (r.rows * 2 ^ 17) with regions := s.regions.erase r }).syncSpad
    (List.range 16).foldl (fun s b => s.evtCount b 0x07 (r.rows * 1024)) s

/-- The eight words of a region descriptor (R244). -/
def descWords (r : Region) : List Nat :=
  [r.base, r.len, r.head, r.tail,
   r.image + r.cls * 2 ^ 8 + b2n r.circular * 2 ^ 11 + b2n r.versioned * 2 ^ 12 + b2n r.shut * 2 ^ 13
     + b2n r.valid * 2 ^ 14 + r.entry * 2 ^ 16,
   r.slotBytes, 0, 0]

end State

/-- Gaps between taken runs, for allocation: a faster search over the region list. -/
def runFree (runs : List (Nat × Nat)) (u n : Nat) : Bool :=
  u + n ≤ 65536 && runs.all fun r => decide (u + n ≤ r.1 ∨ r.1 + r.2 ≤ u)

/-- First fit upward over a list of taken runs: the candidates are row 0 and the ends of runs. -/
def fitUp (runs : List (Nat × Nat)) (n : Nat) : Option Nat :=
  let cands := sortBy (fun a b => a ≤ b) (0 :: runs.map fun r => r.1 + r.2)
  cands.find? fun u => runFree runs u n

/-- First fit downward: the candidates are the top and the starts of runs, less `n`. -/
def fitDown (runs : List (Nat × Nat)) (n : Nat) : Option Nat :=
  let tops := sortBy (fun a b => b ≤ a) (65536 :: runs.map (·.1))
  (tops.find? fun t => n ≤ t && runFree runs (t - n) n).map fun t => t - n

namespace State

/-- Where a region entry goes (R239): its row, or the failure code. -/
def allocRow (s : State) (level rows : Nat) : Except Nat Nat :=
  let runs := s.regions.map fun r => (r.row, r.rows)
  let fit := if level = 1 then fitUp runs rows else fitDown runs rows
  match fit with
  | some u => .ok u
  | none =>
    let kept := (s.regions.filter fun r => !r.shut).map fun r => (r.row, r.rows)
    match (if level = 1 then fitUp kept rows else fitDown kept rows) with
    | some _ => .error 0x25
    | none => .error 0x24

/-- Lowest descriptor index free in its table: 64 per core, 256 device-level. -/
def allocDesc (s : State) (level : Nat) : Option Nat :=
  (List.range (if level = 0 then 64 else 256)).find? fun d =>
    !(s.regions.any fun r => r.level == level && r.desc == d)

/-- Allocate one region; the entry's fields come in `r`, whose row and descriptor are filled in. -/
def allocRegion (s : State) (r : Region) : Except Nat State :=
  match s.allocDesc r.level with
  | none => .error 0x23
  | some d =>
    match s.allocRow r.level r.rows with
    | .error c => .error c
    | .ok u => .ok { s with regions := s.regions ++ [{ r with row := u, desc := d }] }

end State

/-! The steps of the scratchpad that have rows of their own. -/

/-- SCRATCHPAD_ATOMIC (R253, R254): an atomic of the gather engine of a bench arrives at the adders; outside every region it is an
unmapped access of that engine (R243). -/
def execScratchpadAtomic (bench addr code : Nat) (data : List Byte) (returnOld : Bool) (s : State) : Result :=
  let s := s.begin_
  if !s.working then .next s
  else
    let (old, s) := s.spadAtomic addr code data
    let s := if (s.regionAt addr data.length).isNone then s.unmappedErr .gth bench else s
    .next (if returnOld then s.put (.data old false) else s)

/-- SCRATCHPAD_PATROL (R251): the patrol reads the slice of a core; it rewrites corrected rows, reloads uncorrectable weight
rows, counts and logs uncorrectable activation words. `reload` is the start of a block reload (Machine/Gather.lean). It reads the 256
bytes of each row of every allocated region that is not sealed, and writes each corrected word (R234, R435). -/
def patrolSlice (s : State) (core : Nat) (corrected bad : List Nat) (reload : State → Nat → State) : State :=
  if s.rd Fd.SPD_PATROL_PatrolOff = 1 then s
  else
    let inUse (a : Nat) : Bool := match s.regionAt a 1 with | some r => !r.shut | none => false
    let rows := sumNat ((s.regions.filter fun (r : Region) => !r.shut).map (·.rows))
    let s := s.evtCount (core / 32) 0x07 (32 * rows + sumNat ((corrected.filter inUse).map fun a => s.codeBytes a / 8))
    let s := (corrected.filter inUse).foldl (fun s a => s.corrWord a) s
    let s := { s with spadSoft := s.spadSoft.filter fun w => !(corrected.any fun a => s.codeWord a == s.codeWord w) }
    (bad.filter inUse).foldl (fun s a =>
      let s := s.count Fd.SPD_PATROL_UNCORR_CNT
      if s.isWeight a then reload (s.uncorrWord a true) a
      else
        let s := s.uncorrWord a false
        let s := s.poisonSpad a 8
        s.logAdd PageKind.spd.pageType 2 0 0xFF (a % 2 ^ 32) (a / 2 ^ 32) State.noEntry) s

end Sys2Proof.Machine
end

