-- ==== Sys2Proof/Machine/Lpddr.lean ====
section
/-! DEFINITION. External memory: service, adders, errors and retry, patrol, margining (12_lpddr.md, R277 to R299). -/
namespace Sys2Proof.Machine
open Sys2Proof

namespace State

/-- XMC_ERR_ADDR and XMC_ERR_INFO of an uncorrectable event at LPDDR offset `o` (R291). -/
def loadErrInfo (s : State) (o kind : Nat) : State :=
  let (site, c, sub, _) := s.interleave o
  let a := lpBase + o
  let s := s.wr Fd.XMC_ERR_ADDR_LO (a % 2 ^ 32) site
  let s := s.wr Fd.XMC_ERR_ADDR_HI (a / 2 ^ 32) site
  let s := s.wr Fd.XMC_ERR_INFO_Channel c site
  let s := s.wr Fd.XMC_ERR_INFO_Sub sub site
  s.wr Fd.XMC_ERR_INFO_Kind kind site

def errInfo (s : State) (site : Nat) : Nat := (s.word (Fd.XMC_ERR_INFO_Kind.addr site 0)).toNat

/-- A channel becomes bad (R292): flagged, logged and added to the flash record. -/
def channelBad (s : State) (site c : Nat) : State :=
  let s := s.setErrLog Fd.XMC_PAGE_ERR_ChannelBad site noEntry (s.errInfo site)
  let s := s.setSite site fun t => { t with badChans := t.badChans ++ [c] }
  s.wr Fd.XMC_MAPOUT_Recorded (s.rd Fd.XMC_MAPOUT_Recorded site ||| 2 ^ c) site

/-- Count an uncorrectable event towards R292: more than ChanFailMax of one channel within one second. -/
def channelEvent (s : State) (site c : Nat) (unresponsive : Bool) : State :=
  let st := s.sites.getD site {}
  let recent := (st.events.filter fun e => s.now ≤ e.2 + 1000000000) ++ [(c, s.now)]
  let s := s.setSite site fun t => { t with events := recent }
  let n := (recent.filter fun e => e.1 == c).length
  if st.badChans.contains c then s
  else if unresponsive ∨ s.rd Fd.XMC_RETRY_ChanFailMax site < n then s.channelBad site c else s

/-- Every uncorrectable event of R288, R291 and R293: counted, recorded, flagged and logged. `entry` is D1 of the log entry, `wrong` says
that an address check did not match (R278). -/
def uncorrEvent (s : State) (o kind : Nat) (entry : Nat) (unresponsive : Bool := false) (wrong : Bool := false) : State :=
  let (site, c, _) := s.interleave o
  let s := if wrong then s.count Fd.XMC_ADDR_CHK_CNT site
    else if kind = 1 ∨ kind = 2 then s.count Fd.XMC_RETRY_FAIL_CNT site else s
  let s := s.count Fd.XMC_UNCORR_CNT site
  let s := s.loadErrInfo o kind
  let s := s.setErrLog (Fd.PAGE_ERR_Uncorrectable .xmc) site entry (s.errInfo site)
  s.channelEvent site c unresponsive

/-- A corrected read (R289). -/
def lpCorrected (s : State) (o : Nat) : State :=
  let site := s.siteOf o
  (s.count Fd.XMC_CORR_CNT site).setErr (Fd.PAGE_ERR_Corrected .xmc) site

/-- Retries of an access at a site, of reads and of writes, each up to its limit; a parity error counts once as a write retry (R290). -/
def countRetries (s : State) (site reads writes parity : Nat) : State :=
  s.count Fd.XMC_RETRY_CNT site
    (Nat.min reads (s.rd Fd.XMC_RETRY_ReadMax site) + Nat.min writes (s.rd Fd.XMC_RETRY_WriteMax site) + parity)

end State

/-- What no retry and no error marks: the outcome of an access that goes well. -/
def goodMem : MemOutcome := { retries := 0, failed := false, corrected := false, addrCheck := false, unresponsive := false }

/-- The part of an outcome that a piece of `n` bytes at `x` of an access at `o` meets, with its burst counted from the piece's first. -/
def outcomeOn (m : MemOutcome) (o x n : Nat) : MemOutcome :=
  let b := (o / 32 + m.burst) * 32
  if x < b + 32 ∧ b < x + n then { m with burst := b / 32 - x / 32 } else goodMem

namespace State

/-- A read of `n` bytes within one unit at LPDDR offset `o`: data, whether uncorrectable, and the state (R289 to R291). The
retries and their end come from outside; a burst that holds a wrong code exhausts them. -/
def memRead (s : State) (o n : Nat) (m : MemOutcome) (entry : Nat) : List Byte × Bool × State :=
  let site := s.siteOf o
  let bad := s.lpBadIn o n
  let hard := m.failed || bad.any fun w => !w.2
  let wrong := m.addrCheck || bad.any fun w => w.2
  let s := s.countRetries site (if hard then 255 else m.retries) 0 m.parity
  if hard ∨ wrong then
    let s := s.uncorrEvent (match bad with | w :: _ => w.1 | [] => o / 32 * 32 + 32 * m.burst) (if wrong then 3 else 1) entry m.unresponsive wrong
    (s.lpBytes o n, true, s)
  else
    let s := if m.corrected then s.lpCorrected o else s
    (s.lpBytes o n, false, s)

/-- A write of bytes within one unit; a write whose retries run out leaves its burst with a wrong address check (R291). -/
def memWrite (s : State) (o : Nat) (bs : List Byte) (m : MemOutcome) (entry : Nat) : State :=
  let s := s.countRetries (s.siteOf o) 0 (if m.failed then 255 else m.retries) m.parity
  let s := s.lpPut o bs
  if m.failed then
    (s.uncorrEvent ((o / 32 + m.burst) * 32) 2 entry m.unresponsive).spoilLp [(o / 32 + m.burst) * 32] true
  else s

/-- A read or a write that meets several units is one at each, with an event of its own. -/
def memReads (s : State) (o n : Nat) (m : MemOutcome) (entry : Nat) : List Byte × Bool × State :=
  (unitPieces o n).foldl (fun acc x =>
    let (d, bad, s) := acc.2.2.memRead x.1 x.2 (outcomeOn m o x.1 x.2) entry
    (acc.1 ++ d, acc.2.1 || bad, s.evtDev 0x27)) ([], false, s)

def memWrites (s : State) (o : Nat) (bs : List Byte) (m : MemOutcome) (entry : Nat) : State :=
  (unitPieces o bs.length).foldl (fun s x =>
    (s.memWrite x.1 (bytesAt (bs.drop (x.1 - o)) 0 x.2) (outcomeOn m o x.1 x.2) entry).evtDev 0x28) s

/-- The units that an access meets, counted by the direction (R435). -/
def evtUnits (s : State) (src o n : Nat) : State := if n = 0 then s else s.evtDev src ((o + n - 1) / 256 - o / 256 + 1)

/-- The device's own narrow write of table fields, state words and the like, by the block behind a page: one access per burst that it
touches; what it cannot reach is dropped and recorded in that page (R20, R284, R297). -/
def lpNarrowPut (s : State) (a : Nat) (bs : List Byte) (k : PageKind := .gaf) : State :=
  if s.lpDark a bs.length then s.unmappedErr k 0 else ((s.narrow (a - lpBase) bs.length).evtUnits 0x28 (a - lpBase) bs.length).lpPut (a - lpBase) bs

/-- The device's own narrow read of a table, an entry or a record, by the block behind a page: its bursts count, what it cannot reach is
recorded in that page, and uncorrectable bursts are events; whether there were any, and the state (R20, R284, R291, R297). The data are
those of devBytes. -/
def devRead (s : State) (k : PageKind) (i a n : Nat) (entry : Nat := noEntry) : Bool × State :=
  if n = 0 then (false, s)
  else if s.lpDark a n then (false, s.unmappedErr k i)
  else
    let s := (s.narrow (a - lpBase) n).evtUnits 0x27 (a - lpBase) n
    let bad := s.lpBadIn (a - lpBase) n
    (!bad.isEmpty, bad.foldl (fun s w => (s.memRead w.1 32 goodMem entry).2.2) s)

/-- The device's own read of `n` bytes in units, of an image or of pool pages, by the block behind a page: it is not narrow; units count,
what it cannot reach is recorded in that page, and uncorrectable bursts are events (R20, R291, R297). The data are those of devBytes. -/
def bulkRead (s : State) (k : PageKind) (i a n : Nat) (entry : Nat := noEntry) : State :=
  if n = 0 then s
  else if s.lpDark a n then s.unmappedErr k i
  else
    ((s.lpBadIn (a - lpBase) n).foldl (fun s w => (s.memRead w.1 32 goodMem entry).2.2) s).evtUnits 0x27 (a - lpBase) n

end State

/-- Where an offset of the chip's window leads (R316). -/
inductive Window where
  | spad (a : Nat)
  | lpddr (o : Nat)
  | refused
  deriving DecidableEq, Repr

/-- The access of chip `src` to `n` bytes at offset `off` of this chip's window: `write` and `atomic` say what it would do (R316). -/
def State.windowAt (s : State) (off src : Nat) (write atomic : Bool) (n : Nat := 256) : Window :=
  if off + n ≤ 2 ^ 33 then .spad off
  else if off < 2 ^ 33 ∨ 2 ^ 36 < off + n then .refused
  else
    let i := off / 2 ^ 33 - 1
    let o := s.rdAt Fd.LNK_APER_BaseGiB 0 i * 2 ^ 30 + off % 2 ^ 33
    let admitted := s.rdAt Fd.LNK_APER_Enable 0 i == 1 &&
      (s.rdAt Fd.LNK_APER_AnySrc 0 i == 1 || s.rdAt Fd.LNK_APER_SrcChip 0 i == src) &&
      (!write || s.rdAt Fd.LNK_APER_WriteOk 0 i == 1) && (!atomic || s.rdAt Fd.LNK_APER_AtomicOk 0 i == 1)
    if admitted && decide (off % 2 ^ 33 + n ≤ 2 ^ 33 ∧ o + n ≤ s.lpSize) && !s.anyOff o n then .lpddr o else .refused

/-! Memory-side adders (R287, R288). -/

/-- Width in bytes of an element of a memory-side atomic. -/
def memElem (code : Nat) : Nat := if code = 1 then 8 else 4

/-- One element of a memory-side atomic, and whether an integer wrapped. -/
def memAdd (code old new : Nat) : Nat × Bool :=
  match code with
  | 1 =>
    let x := toSigned 64 old + toSigned 64 new
    (ofSigned 64 x, decide (x < -(2 ^ 63 : Int) ∨ (2 ^ 63 : Int) ≤ x))
  | 0 => atomicWord 0 old new
  | 2 => atomicWord 1 old new
  | _ => atomicWord 2 old new

namespace State

/-- One burst atomic at LPDDR offset `o` (R287, R288; its read and its write-back are retried under R290): old bytes, whether they were uncorrectable, the state. -/
def burstAtomic (s : State) (o code : Nat) (bs : List Byte) (m : MemOutcome) (entry : Nat) : List Byte × Bool × State :=
  let site := s.siteOf o
  let was := s.lpBadIn o 32
  let hard := m.failed || was.any fun w => !w.2
  let wrong := m.addrCheck || was.any fun w => w.2
  let bad := hard || wrong
  let old := if bad then List.replicate 32 (0 : Byte) else s.lpBytes o 32
  let w := memElem code
  let outs := (List.range (32 / w)).map fun i => memAdd code (leAt old (w * i) w) (leAt bs (w * i) w)
  let s := s.countRetries site (if hard then 255 else m.retries) (if m.backFailed then 255 else m.backRetries) m.parity
  let s := s.lpPut o (outs.flatMap fun p => leBytes w p.1)
  let s := s.count Fd.XMC_ATOMIC_OVF_CNT site (outs.filter (·.2)).length
  let s := if bad then s.uncorrEvent o 4 entry m.unresponsive wrong else (if m.corrected then s.lpCorrected o else s)
  let s := if m.backFailed then (s.uncorrEvent o 2 entry m.unresponsive).spoilLp [o] true else s
  (old, bad, s)

/-- A 256-byte reduction as eight burst atomics (R287): old bytes, poison, state. -/
def unitAtomic (s : State) (o code : Nat) (bs : List Byte) (m : MemOutcome) (entry : Nat) : List Byte × Bool × State :=
  (List.range 8).foldl (fun acc i =>
    let (old, bad, s) := acc.2.2.burstAtomic (o + 32 * i) code (bytesAt bs (32 * i) 32) (outcomeOn m o (o + 32 * i) 32) entry
    (acc.1 ++ old, acc.2.1 || bad, s)) ([], false, (s.evtDev 0x27).evtDev 0x28)

end State

/-- Refresh step of a reading: rises at once, falls after two readings at or below the limit (R294). -/
def refreshStep (old : Nat) (t : Int) (lowRun : Nat) : Nat :=
  let up := if 95 < t then 2 else if 85 < t then 1 else 0
  if old < up then up
  else if old = 2 ∧ t ≤ 92 ∧ 1 ≤ lowRun then 1
  else if old = 1 ∧ t ≤ 82 ∧ 1 ≤ lowRun then 0
  else old

namespace State

/-- A rise of the refresh step: counted; to step 2 flagged and logged (R294). -/
def stepTo (s : State) (site new : Nat) : State :=
  let old := s.rd Fd.XMC_TEMP_RefreshStep site
  let s := s.wr Fd.XMC_TEMP_RefreshStep new site
  if old < new then
    let s := s.count Fd.XMC_STEP_CNT site
    if new = 2 then s.setErrLog Fd.XMC_PAGE_ERR_HotStep site noEntry (s.errInfo site) else s
  else s

/-- One temperature poll of a site (R294, R295); the fail-stop of two hot readings is the caller's. -/
def pollTemp (s : State) (site : Nat) (reading : Option Int) : State :=
  let st := s.sites.getD site {}
  match reading with
  | none =>
    let run := st.badRun + 1
    let s := s.setSite site fun t => { t with badRun := run, goodRun := 0, lowRun := 0, hotRun := 0 }
    if 3 ≤ run ∧ s.rd Fd.XMC_TEMP_SensorFault site = 0 then
      let s := s.wr Fd.XMC_TEMP_SensorFault 1 site
      let s := s.setErrLog Fd.XMC_PAGE_ERR_SensorFault site noEntry (s.errInfo site)
      s.stepTo site 2
    else s
  | some t =>
    let fault := s.rd Fd.XMC_TEMP_SensorFault site == 1
    let good := st.goodRun + 1
    if fault && decide (good < 3) then
      s.setSite site fun x => { x with goodRun := good, badRun := 0 }
    else
      let s := if fault then s.wr Fd.XMC_TEMP_SensorFault 0 site else s
      let old := s.rd Fd.XMC_TEMP_RefreshStep site
      let low := decide ((old = 2 ∧ t ≤ 92) ∨ (old = 1 ∧ t ≤ 82))
      let new := refreshStep old t st.lowRun
      let s := s.wr Fd.XMC_TEMP_TempC (ofSigned 8 t) site
      let s := if toSigned 8 (s.rd Fd.XMC_TEMP_PEAK_PeakC site) < t then s.wr Fd.XMC_TEMP_PEAK_PeakC (ofSigned 8 t) site else s
      let s := s.setSite site fun x =>
        { x with goodRun := good, badRun := 0,
                 lowRun := if new = old then (if low then x.lowRun + 1 else 0) else 0,
                 hotRun := if 105 ≤ t then x.hotRun + 1 else 0 }
      s.stepTo site new

/-- The patrol reads a site's bursts (R293): corrected ones are rewritten, uncorrectable ones, and those whose address check does not
match (R278), are counted, recorded with kind 5 and logged; a read that fails its code was read again (R290). -/
def patrolSite (s : State) (site : Nat) (corrected bad wrong : List Nat) : State :=
  if s.rd Fd.XMC_PATROL_PatrolHours site = 0 then s
  else
    let s := corrected.foldl (fun s o => s.lpCorrected o) s
    let found (chk : Bool) (s : State) (o : Nat) : State :=
      let was := s.lpBadIn (o / 32 * 32) 32
      let s := if was.isEmpty then s.spoilLp [o / 32 * 32] chk else s
      let s := if chk then s else s.countRetries site 255 0 0
      s.uncorrEvent o 5 noEntry false (chk || was.any fun w => w.2)
    wrong.foldl (found true) (bad.foldl (found false) s)

end State

/-- LPDDR_PATROL (R293). -/
def execLpddrPatrol (site : Nat) (corrected bad : List Nat) (s : State) (wrong : List Nat := []) : Result :=
  let s := s.begin_
  .next (if s.working && decide (site < 16) then s.patrolSite site corrected bad wrong else s)

/-- A write of XMC_MARGIN_CTL (R297). -/
def State.marginWrite (s : State) (site value : Nat) : State :=
  if value / 2 ^ 17 ≠ 0 ∨ slice value 11 5 ≠ 0 ∨ 6 ≤ slice value 8 3 then s.badWrite .xmc site
  else if bitAt value 16 && s.rd Fd.XMC_PAGE_CTL_Enable site == 1 then s.setErr Fd.XMC_PAGE_ERR_MarginRefused site
  else
    let s := s.wr Fd.XMC_MARGIN_CTL_Channel (slice value 0 3) site
    let s := s.wr Fd.XMC_MARGIN_CTL_Sub (slice value 3 1) site
    let s := s.wr Fd.XMC_MARGIN_CTL_Lane (slice value 4 4) site
    let s := s.wr Fd.XMC_MARGIN_CTL_Axis (slice value 8 3) site
    if bitAt value 16 then
      let s := s.wr Fd.XMC_MARGIN_CTL_Go 1 site
      s.wr Fd.XMC_MARGIN_RES_Valid 0 site
    else s

/-- MARGIN_GO (R297). -/
def execMarginGo (site value : Nat) (s : State) : Result :=
  .next (s.begin_.gated .xmc (site % 16) fun s => s.marginWrite (site % 16) value)

/-- MARGIN_DONE (R297): the sweep that Go started ends with its result; Go clears. -/
def execMarginDone (site low high : Nat) (failed : Bool) (s : State) : Result :=
  let s := s.begin_
  let site := site % 16
  .next (
    if s.rd Fd.XMC_MARGIN_CTL_Go site = 0 ∨ !s.working then s
    else
      let s := s.wr Fd.XMC_MARGIN_CTL_Go 0 site
      let s := s.wr Fd.XMC_MARGIN_RES_Low (Nat.min low 63) site
      let s := s.wr Fd.XMC_MARGIN_RES_High (Nat.min high 63) site
      let s := s.wr Fd.XMC_MARGIN_RES_Failed (b2n failed) site
      s.wr Fd.XMC_MARGIN_RES_Valid 1 site)

end Sys2Proof.Machine
end

