-- ==== Sys2Proof/Machine/Hash.lean ====
section
/-! DEFINITION. SHAKE256 (FIPS 202), which 03 R64, 13 R313, 19 R440 to R450 name; PRESUMED: the standard's permutation and
padding (notes/assumptions/15.md). -/
namespace Sys2Proof.Machine

abbrev Lane := BitVec 64

/-- Round constants of Keccak-f[1600]. -/
def keccakRc : List Nat :=
  [0x0000000000000001, 0x0000000000008082, 0x800000000000808A, 0x8000000080008000, 0x000000000000808B, 0x0000000080000001,
   0x8000000080008081, 0x8000000000008009, 0x000000000000008A, 0x0000000000000088, 0x0000000080008009, 0x000000008000000A] ++
  [0x000000008000808B, 0x800000000000008B, 0x8000000000008089, 0x8000000000008003, 0x8000000000008002, 0x8000000000000080,
   0x000000000000800A, 0x800000008000000A, 0x8000000080008081, 0x8000000000008080, 0x0000000080000001, 0x8000000080008008]

/-- Rotation of lane x + 5y. -/
def keccakRot : List Nat :=
  [0, 1, 62, 28, 27, 36, 44, 6, 55, 20, 3, 10, 43, 25, 39, 41, 45, 15, 21, 8, 18, 2, 61, 56, 14]

def keccakRound (a : List Lane) (rc : Nat) : List Lane :=
  let c := (List.range 5).map fun x => (List.range 5).foldl (fun v y => v ^^^ a.getD (x + 5 * y) 0) (0 : Lane)
  let d := (List.range 5).map fun x => c.getD ((x + 4) % 5) 0 ^^^ (c.getD ((x + 1) % 5) 0).rotateLeft 1
  let t := (List.range 25).map fun i => a.getD i 0 ^^^ d.getD (i % 5) 0
  let b := (List.range 25).map fun i =>
    let x := i % 5; let y := i / 5
    let src := (x + 3 * y) % 5 + 5 * x
    (t.getD src 0).rotateLeft (keccakRot.getD src 0)
  (List.range 25).map fun i =>
    let x := i % 5; let y := i / 5
    let v := b.getD i 0 ^^^ (~~~ (b.getD ((x + 1) % 5 + 5 * y) 0) &&& b.getD ((x + 2) % 5 + 5 * y) 0)
    if i = 0 then v ^^^ BitVec.ofNat 64 rc else v

def keccakF (a : List Lane) : List Lane := keccakRc.foldl keccakRound a

/-- Absorb one 136-byte block. -/
def absorb (a : List Lane) (blk : List Byte) : List Lane :=
  keccakF ((List.range 25).map fun i => if i < 17 then a.getD i 0 ^^^ BitVec.ofNat 64 (leAt blk (8 * i) 8) else a.getD i 0)

/-- Message with the padding of SHAKE. -/
def shakePad (m : List Byte) : List Byte :=
  let n := 136 - m.length % 136
  if n = 1 then m ++ [0x9F] else m ++ [0x1F] ++ List.replicate (n - 2) 0 ++ [0x80]

/-- SHAKE256 with an output of `n` lanes of 64 bits, at most 17. -/
def shakeLanes (n : Nat) (m : List Byte) : List Byte :=
  let p := shakePad m
  let a := (List.range (p.length / 136)).foldl (fun a i => absorb a ((p.drop (136 * i)).take 136)) (List.replicate 25 (0 : Lane))
  (List.range n).flatMap fun i => leBytes 8 (a.getD i 0).toNat

/-- SHAKE256 with 256 bits of output. -/
def shake256 (m : List Byte) : List Byte := shakeLanes 4 m

end Sys2Proof.Machine
end

