-- ==== Sys2Proof/Machine/Tally.lean ====
section
/-! DEFINITION. Signature indices, measurements, and the tally unit's intervals and records (19_presence_tally.md, R442 to
R452). -/
namespace Sys2Proof.Machine
open Sys2Proof

/-- Length of an XMSS^MT-SHAKE256_40/4_256 signature (R445, R450). -/
def sigLen : Nat := 9893

namespace State

/-! Signature indices (R443). Key g is the identity key of generation g, key 8 + g the tally key of generation g: each has its own. -/

def keyIndex (s : State) (k : Nat) : Nat := s.sec.nextIndex.getD k 0

/-- A key refuses indices from 2⁴⁰ − 256 onward. -/
def keyOut (s : State) (k : Nat) : Bool := decide (2 ^ 40 - 256 ≤ s.keyIndex k)

def noteExhausted (s : State) (k : Nat) : State :=
  let s := { s with sec := { s.sec with exhausted := listMod s.sec.exhausted k fun _ => true } }
  if k < 8 then s.wr Fd.SEC_KEY_KeyExhausted 1 else s.wr Fd.TLY_KEY_KeyExhausted 1

/-- NextBlock in flash already covers the next index. -/
def blockReady (s : State) (k : Nat) : Bool :=
  decide (s.keyIndex k % 256 ≠ 0) || s.sec.nextBlock.getD k 0 == s.keyIndex k / 256 + 1

/-- Ask for the write of NextBlock = i / 256 + 1; one write runs at a time. -/
def askBlock (s : State) (k : Nat) : State :=
  match s.sec.blockWait with
  | some _ => s
  | none => { s with sec := { s.sec with blockWait := some k } }

/-- Sign a digest with a key: the signature, and the state whose index has moved on. -/
def signWith (s : State) (k : Nat) (msg : List Byte) : List Byte × State :=
  let i := s.keyIndex k
  (bytesAt (Config.xmssSign k i msg) 0 sigLen,
   { s with sec := { s.sec with nextIndex := listMod s.sec.nextIndex k (· + 1) } })

/-! Measurements (R444). -/

def measure (s : State) (k : Nat) : List Byte := bytesAt (s.sec.measures.getD k []) 0 32

def extendM (s : State) (k : Nat) (x : List Byte) : State :=
  { s with sec := { s.sec with measures := listMod s.sec.measures k fun _ => shake256 (s.measure k ++ x) } }

def clearM (s : State) (k : Nat) : State :=
  { s with sec := { s.sec with measures := listMod s.sec.measures k fun _ => [] } }

/-! The tally's registers, which follow its state (R454). -/

/-- Bytes queued: a record that waits for its signature takes its RecordLen (R451). -/
def tallyUsed (s : State) : Nat := sumNat (s.tly.queue.map (·.length)) + sumNat (s.tly.waiting.map fun r => leAt r 12 4)

def syncTally (s : State) : State :=
  let total := sumNat (s.tly.totals.map (·.2))
  let s := s.wr Fd.TLY_STATUS_Signing (b2n (!s.tly.waiting.isEmpty))
  let s := s.wr Fd.TLY_SEAL_Opens s.tly.opens
  let s := s.wr Fd.TLY_KEY_TallyGen s.tly.gen
  let s := s.wr64 Fd.TLY_ENERGY s.tly.energy
  let s := s.wr64 Fd.TLY_TOTAL total
  let s := s.wr64 Fd.TLY_START s.tly.start
  s.wr Fd.TLY_BUF_USED s.tallyUsed

/-! Records (R450, R451). -/

def tallyParamWord (s : State) : Nat := (s.word (Fd.TLY_PARAM_IntervalSec.addr 0 0)).toNat

def segmentBytes (g : Segment) : List Byte :=
  leBytes 2 g.entry ++ leBytes 1 g.cls ++ leBytes 1 (b2n g.opened + 2 * b2n g.closed) ++ leBytes 4 g.tag ++
    leBytes 8 g.delta ++ leBytes 8 g.total ++ leBytes 8 g.first ++ leBytes 8 g.last

/-- Record bytes but for the signature. -/
def recordHead (s : State) (reason close energy : Nat) : List Byte :=
  let segs := sortBy (fun (a b : Segment) => a.entry ≤ b.entry) s.tly.segments
  let len := roundUp (128 + 40 * segs.length + sigLen) 64
  leBytes 4 0x52594C54 ++ leBytes 1 1 ++ leBytes 1 reason ++ leBytes 1 s.tly.gen ++ leBytes 1 0 ++
    leBytes 4 segs.length ++ leBytes 4 len ++ leBytes 4 s.sec.bootCount ++ leBytes 4 s.tly.seq ++
    leBytes 8 s.tly.start ++ leBytes 8 close ++ leBytes 8 energy ++ leBytes 8 (s.tly.energy + energy) ++
    leBytes 2 s.tly.opens ++ leBytes 1 s.tly.flags ++ leBytes 5 0 ++
    shake256 (leBytes 4 s.tly.param) ++ shake256 (Config.xmssPublic (8 + s.tly.gen)) ++
    segs.flatMap segmentBytes

/-- A queued record was dropped: it counts, and Gap goes into the next record (R451). -/
def recordLost (s : State) : State :=
  (({ s with tly := { s.tly with flags := s.tly.flags ||| 4 } }.count Fd.TLY_DROP_CNT).setErr Fd.TLY_PAGE_ERR_RecordDrop)

/-- Drop the oldest records not yet copied, signed or not, until `n` bytes more fit in the 1 MiB buffer (R451). -/
def makeRoom (s : State) (n : Nat) : Nat → State
  | 0 => s
  | fuel + 1 =>
    if s.tallyUsed + n ≤ 2 ^ 20 then s
    else
      let gone : Option Tally := match s.tly.queue, s.tly.waiting with
        | _ :: rest, _ => some { s.tly with queue := rest }
        | [], _ :: rest => some { s.tly with waiting := rest }
        | [], [] => none
      match gone with
      | none => s
      | some t => ({ s with tly := t }.recordLost).makeRoom n fuel

/-- Sign every closed record whose index may be used now (R443). -/
def signTally (s : State) : Nat → State
  | 0 => s
  | fuel + 1 =>
    match s.tly.waiting with
    | [] => s
    | r :: rest =>
      let k := 8 + leAt r 6 1
      if s.keyOut k then (s.noteExhausted k).setErr Fd.TLY_PAGE_ERR_SignFail
      else if !s.blockReady k then s.askBlock k
      else
        let (sig, s) := s.signWith k (shake256 r)
        let whole := bytesAt (r ++ sig) 0 (leAt r 12 4)
        ({ s with tly := { s.tly with queue := s.tly.queue ++ [whole], waiting := rest } }).signTally fuel

/-- The events at or after the closing tick belong to the next interval (R449, R452). -/
def tallyPart (s : State) (close : Nat) : State :=
  let t := s.tly
  if t.events.isEmpty ∨ t.mark < close then s
  else
    { s with tly := { t with
      totals := t.was.1, resid := t.was.2.1, segments := t.was.2.2.1, armed := t.was.2.2.2, carry := t.carry ++ t.events, events := [] } }

/-- Close the open interval and sign its record; the next one starts at `close` (R449, R450). At its end, and at a change of the
parameters, what falls on the closing tick is left to the next. -/
def closeInterval (s : State) (reason close energy : Nat) : State :=
  let s := if reason = 0 ∨ reason = 3 then s.tallyPart close else s
  let s := s.makeRoom (roundUp (128 + 40 * s.tly.segments.length + sigLen) 64) 8192
  let head := s.recordHead reason close energy
  let s := s.wr Fd.TLY_SEQ s.tly.seq
  let s := { s with tly := { s.tly with
    waiting := s.tly.waiting ++ [head], segments := [], armed := [], start := close, param := s.tallyParamWord,
    energy := s.tly.energy + energy, seq := s.tly.seq + 1, flags := 0, events := [] } }
  (s.signTally (s.tly.waiting.length)).syncTally

/-- What the rail monitor measured since Start where no command says it (R447): a free value. -/
def tallyEnergy (s : State) : Nat := s.fresh [20]

/-- An interval that the device itself ends early. -/
def closeEarly (s : State) (reason : Nat) : State := s.closeInterval reason s.now s.tallyEnergy

/-- End of the open interval (R449). -/
def tallyEnd (s : State) : Nat :=
  let i := Nat.max 1 (s.rd Fd.TLY_PARAM_IntervalSec) * 1000000000
  (s.tly.start / i + 1) * i

/-- The tick of the application: T, or the counter value at the instant that R45 chose (R46, R47). -/
def applyTick (s : State) : Nat := if s.par.whenBit = 0 then s.par.time else s.par.dueAt.getD s.now

/-! Commits (R447, R448). -/

/-- Events from this tick on may belong to the next interval: the open one's End, or the tick at which a checked parison applies (R449,
R452). -/
def tallyLimit (s : State) : Nat :=
  if s.rd Fd.CTL_COMMIT_STATUS_State = 3 then Nat.min s.tallyEnd s.applyTick else s.tallyEnd

/-- Keep an event with those of its tick, or of the time since the interval's end. -/
def tallyNote (s : State) (e : TallyEvent) : State :=
  let t := s.tly
  if !t.events.isEmpty ∧ (t.mark = s.now ∨ s.tallyLimit ≤ t.mark) then { s with tly := { t with events := t.events ++ [e] } }
  else { s with tly := { t with mark := s.now, events := [e], was := (t.totals, t.resid, t.segments, t.armed) } }

def noteArm (s : State) (entry : Nat) : State :=
  { s with tly := { s.tly with
    resid := tabDel s.tly.resid entry
    segments := s.tly.segments.map fun g => if g.entry == entry then { g with cur := false } else g
    armed := if s.tly.armed.contains entry then s.tly.armed else s.tly.armed ++ [entry] } }

def noteLeave (s : State) (entry : Nat) : State :=
  { s with tly := { s.tly with
    armed := s.tly.armed.filter (· != entry)
    segments := s.tly.segments.map fun (g : Segment) => if g.entry == entry && g.cur then { g with closed := true, cur := false } else g } }

/-- Count a commit: class, tag, rate in Hz, first sample, samples, and whether a gate or exit left the stream out. -/
def countCommit (s : State) (entry cls tag hz first n : Nat) (left : Bool) : State :=
  let admits := s.rd (if cls = 0 then Fd.TLY_PARAM_Instrument else Fd.TLY_PARAM_Dialogue) == 1 &&
    (!left || s.rd Fd.TLY_PARAM_Skipped == 1)
  if !admits then s
  else
    let x := (tabGet s.tly.resid entry).getD 0 + n * 1000000000
    let ns := x / hz
    let total := ((tabGet s.tly.totals entry).getD 0 + ns) % 2 ^ 64
    let has := s.tly.segments.any fun (g : Segment) => g.entry == entry && g.cur
    let s := if !has ∧ s.tly.segments.length = 8192 then s.closeEarly 1 else s
    let fresh := !(s.tly.segments.any fun (g : Segment) => g.entry == entry && g.cur)
    let s := if fresh then
        { s with tly := { s.tly with segments := s.tly.segments ++
          [⟨entry, cls, tag, s.tly.armed.contains entry, false, 0, 0, first, 0, true⟩] } }
      else s
    let s := { s with tly := { s.tly with
      totals := tabPut s.tly.totals entry total
      resid := tabPut s.tly.resid entry (x % hz)
      segments := s.tly.segments.map fun (g : Segment) =>
        if g.entry == entry && g.cur then { g with delta := g.delta + ns, total := total, last := first + n } else g } }
    s.syncTally

/-- An entry enters ARMED, leaves service, or commits a chunk. -/
def tallyArm (s : State) (entry : Nat) : State := (s.tallyNote (.arm entry)).noteArm entry
def tallyLeave (s : State) (entry : Nat) : State := (s.tallyNote (.leave entry)).noteLeave entry
def tallyCommit (s : State) (entry cls tag hz first n : Nat) (left : Bool) : State :=
  (s.tallyNote (.commit entry cls tag hz first n left)).countCommit entry cls tag hz first n left

def tallyEvent (s : State) (e : TallyEvent) : State :=
  match e with
  | .commit entry cls tag hz first n left => s.tallyCommit entry cls tag hz first n left
  | .arm entry => s.tallyArm entry
  | .leave entry => s.tallyLeave entry

/-- The events that a close has left over count in the interval now open, under the parameters now in force (R452). -/
def tallyCarry (s : State) : State :=
  s.tly.carry.foldl (fun s e => s.tallyEvent e) { s with tly := { s.tly with carry := [] } }

end State

/-- TALLY_INTERVAL_END (R449): the interval reaches End; the rail monitor has measured `energyUj`. -/
def execTallyIntervalEnd (energyUj : Nat) (s : State) : Result :=
  let s := s.begin_
  .next (if !s.pow.powered then s else (s.closeInterval 0 s.tallyEnd energyUj).tallyCarry)

end Sys2Proof.Machine
end

