-- ==== Sys2Proof/Machine/Rings.lean ====
section
/-! DEFINITION. Built-in transfers and the rings in host memory (11 R272, 18 R423 to R425, R434, 19 R451). -/
namespace Sys2Proof.Machine
open Sys2Proof

/-- Bytes of the next transfer of a move: its scratchpad end lies in one unit (R257). -/
def pieceLen (src dst n : Nat) : Nat := Nat.min n (256 - (if dst < State.spadSize then dst else src) % 256)

/-- Lengths of the transfers that move `n` bytes from `src` to `dst`. -/
def pieces : Nat → Nat → Nat → Nat → List (Nat × Nat)
  | 0, _, _, _ => []
  | fuel + 1, src, dst, n =>
    if n = 0 then []
    else
      let m := pieceLen src dst n
      (m, n - m) :: pieces fuel (src + m) (dst + m) (n - m)

/-- Transfers that copy `n` bytes from `src` to `dst`. -/
def copyXfers (src dst n : Nat) : List Xfer :=
  (pieces n src dst n).map fun p => { src := src + (n - p.1 - p.2), dst := dst + (n - p.1 - p.2), bytes := p.1 }

/-- Transfers that write bytes that the device composes at `dst`: they have no source address. -/
def compXfers (dst : Nat) (bs : List Byte) : List Xfer :=
  let n := bs.length
  (pieces n dst dst n).map fun p =>
    { src := 2 ^ 56, dst := dst + (n - p.1 - p.2), bytes := p.1, comp := some ((bs.drop (n - p.1 - p.2)).take p.1) }

namespace State

/-- Start a built-in transfer; one with nothing to move is none. -/
def addBuiltIn (s : State) (kind : BKind) (image : Nat) (entry : Option Nat) (bench : Nat) (todo : List Xfer)
    (dl : Option Nat := none) : State :=
  if todo.isEmpty then s
  else { s with
    builtIns := s.builtIns ++ [{ id := s.nextId, kind := kind, image := image, entry := entry, bench := bench, todo := todo, dl := dl }]
    nextId := s.nextId + 1 }

/-- Whether some built-in transfer of a kind is still outstanding or waiting. -/
def hasBuiltIn (s : State) (p : BuiltIn → Bool) : Bool := s.builtIns.any p

end State

/-- Room of a ring of `size` bytes (R425). -/
def RingCount.room (c : RingCount) (size : Nat) : Nat :=
  if c.prod < c.cons ∨ size < c.prod - c.cons then 0 else size - (c.prod - c.cons)

/-- Pad before a record of `len` bytes: records never wrap (R423). -/
def RingCount.padFor (c : RingCount) (size len : Nat) : Nat :=
  if size < c.prod % size + len then size - c.prod % size else 0

namespace State

def ringCount (s : State) (r : Nat) : RingCount := s.rings.getD r {}
def setRing (s : State) (r : Nat) (f : RingCount → RingCount) : State := { s with rings := listMod s.rings r f }

/-- A record of a ring was dropped (R420, R425). -/
def ringDrop (s : State) (r : Nat) : State :=
  let s := s.wrAt Fd.CTL_RING_DropCnt 0 r (s.rdAt Fd.CTL_RING_DropCnt 0 r + 1)
  let s := s.setErr Fd.CTL_PAGE_ERR_RingFull
  (s.setRing r fun c => { c with gap := true }).evtDev 0x2B

/-- The result record of a commit (R424, R425): header fields as given, payload moved from the slot at `spadAddr`, `bytes` long. -/
def resultRecord (s : State) (r image entry tag : Nat) (late : Bool) (j first tr commit spadAddr bytes dl : Nat) : State :=
  let size := 2 ^ s.rdAt Fd.CTL_RING_SizeLog2 0 r
  let c := s.ringCount r
  let len := roundUp (64 + bytes) 64
  let pad := c.padFor size len
  if s.rdAt Fd.CTL_RING_Enable 0 r = 0 ∨ !s.pow.busMaster ∨ c.room size < pad + len then s.ringDrop r
  else
    let base := State.hostBase + s.base Fd.CTL_RING_BaseLo Fd.CTL_RING_BaseHi 0 r
    let wb := State.hostBase + s.base Fd.CTL_RING_WbLo Fd.CTL_RING_WbHi 0 r
    let at_ := (c.prod + pad) % size
    let prod := c.prod + pad + len
    let head := leBytes 1 1 ++ leBytes 1 (b2n late + 2 * b2n c.gap) ++ leBytes 2 entry ++ leBytes 4 len ++ leBytes 4 tag ++
      leBytes 4 bytes ++ leBytes 8 j ++ leBytes 8 first ++ leBytes 8 tr ++ leBytes 8 commit ++ leBytes 16 0
    let padX := if pad = 0 then [] else compXfers (base + c.prod % size) (leBytes 1 2 ++ leBytes 3 0 ++ leBytes 4 pad)
    let body := copyXfers spadAddr (base + at_ + 64) bytes
    let fill := compXfers (base + at_ + 64 + bytes) (List.replicate (len - 64 - bytes) 0)
    let wbX := (compXfers wb (leBytes 8 prod)).map fun x => { x with fence := true }
    let s := s.setRing r fun _ => { c with prod := prod, gap := false }
    (s.addBuiltIn (.hostRing r) image (some entry) (benchOf spadAddr)
      (padX ++ compXfers (base + at_) head ++ body ++ fill ++ wbX) (some dl)).evtDev 0x2A

/-! The log ring (R434). -/

/-- The 32 bytes of a log entry (R432). -/
def logBytes (e : LogEntry) : List Byte :=
  leBytes 8 e.time ++ leBytes 4 e.seq ++ leBytes 1 e.pageType ++ leBytes 1 e.kind ++ leBytes 2 (e.inst % 1024) ++ leBytes 1 e.code ++
    leBytes 1 e.rep ++ leBytes 2 0 ++ leBytes 4 e.d0 ++ leBytes 4 e.d1 ++ leBytes 4 e.d2

/-- Mirror one entry if the ring has room for it; with Bus Master Enable 0 its write is dropped: the entry is skipped and counted
(R420, R434, notes/assumptions/57.md). -/
def mirrorOne (s : State) (e : LogEntry) : Option State :=
  let size := 2 ^ s.rd Fd.LOG_RING_CFG_SizeLog2
  let c := s.logRing
  if c.room size < 32 then none
  else if !s.pow.busMaster then
    some (({ s with log := { s.log with mirror := e.seq + 1 } }.count Fd.LOG_LOST).evtDev 0x2B)
  else
    let s := s.hostPut (s.base Fd.LOG_RING_BASE_LO Fd.LOG_RING_BASE_HI + c.prod % size) (logBytes e)
    some { s with logRing := { c with prod := c.prod + 32 }, log := { s.log with mirror := e.seq + 1 } }

def mirrorAll (s : State) : List LogEntry → State
  | [] => s
  | e :: es =>
    if e.seq < s.log.mirror then s.mirrorAll es
    else match s.mirrorOne e with
      | none => s
      | some t => t.mirrorAll es

/-- Mirror what fits, in Seq order, then write Prod. -/
def logMirror (s : State) : State :=
  if s.rd Fd.LOG_RING_CFG_Enable = 0 ∨ s.failStopped ∨ !s.hostUp then s
  else
    let t := s.mirrorAll s.log.entries
    if t.logRing.prod = s.logRing.prod then s
    else t.hostPut (t.base Fd.LOG_RING_WB_LO Fd.LOG_RING_WB_HI) (leBytes 8 t.logRing.prod)

/-! The tally ring (R451). -/

/-- Copy the oldest queued record if it fits; with Bus Master Enable 0 it is dropped (R420, notes/assumptions/57.md). -/
def tallyCopy (s : State) : State :=
  match s.tly.queue with
  | [] => s
  | r :: rest =>
    let size := 2 ^ s.rd Fd.SEC_TRING_CFG_SizeLog2
    let c := s.tallyRing
    let pad := c.padFor size r.length
    if s.rd Fd.SEC_TRING_CFG_Enable = 0 ∨ s.failStopped ∨ !s.hostUp ∨ c.room size < pad + r.length then s
    else if !s.pow.busMaster then (({ s with tly := { s.tly with queue := rest } }.recordLost).evtDev 0x2B).syncTally
    else
      let base := s.base Fd.SEC_TRING_BASE_LO Fd.SEC_TRING_BASE_HI
      let s := if pad = 0 then s
        else s.hostPut (base + c.prod % size) (leBytes 12 0 ++ leBytes 4 pad)
      let s := s.hostPut (base + (c.prod + pad) % size) r
      let prod := c.prod + pad + r.length
      let s := s.hostPut (s.base Fd.SEC_TRING_WB_LO Fd.SEC_TRING_WB_HI) (leBytes 8 prod)
      ({ s with tallyRing := { c with prod := prod }, tly := { s.tly with queue := rest } }).syncTally

end State

/-- LOG_MIRROR (R434). -/
def execLogMirror (s : State) : Result := .next s.begin_.logMirror

/-- TALLY_RECORD_COPY (R451). -/
def execTallyRecordCopy (s : State) : Result := .next s.begin_.tallyCopy

/-- A write of ConsHi of a ring: 0 to 15 result rings, 16 the log ring, 17 the tally ring. The device takes the 64-bit count
(R423). -/
def State.consWrite (s : State) (ring value : Nat) : State :=
  if ring < 16 then
    let s := s.wrAt Fd.CTL_RING_ConsHi 0 ring value
    s.setRing ring fun c => { c with cons := s.rdAt Fd.CTL_RING_ConsLo 0 ring + 2 ^ 32 * (value % 2 ^ 32) }
  else if ring = 16 then
    let s := s.wrAt Fd.LOG_RING_CONS 0 1 value
    { s with logRing := { s.logRing with cons := s.rd64 Fd.LOG_RING_CONS } }
  else if ring = 17 then
    let s := s.wrAt Fd.SEC_TRING_CONS 0 1 value
    { s with tallyRing := { s.tallyRing with cons := s.rd64 Fd.SEC_TRING_CONS } }
  else s

/-- CONS_WRITE (R423). -/
def execConsWrite (ring value : Nat) (s : State) : Result :=
  let s := s.begin_
  .next (s.gated (if ring < 16 then .ctl else if ring = 16 then .log else .sec) 0 fun s => s.consWrite ring value)

end Sys2Proof.Machine
end

