-- ==== Sys2Proof/Machine/Presence.lean ====
section
/-! DEFINITION. Physical presence, the seal loop and the security block's commands (19_presence_tally.md, R436 to R446,
R453). -/
namespace Sys2Proof.Machine
open Sys2Proof

namespace State

/-! The presence window (R436, R437). -/

def windowOpen (s : State) : Bool := s.rd Fd.SEC_PRESENCE_Open == 1

/-- An event of a page that sets no PAGE_ERR bit and names no address (R432). -/
def logPlain (s : State) (k : PageKind) (d2 : Nat) : State := s.logAdd k.pageType 2 0 0xFF 0 0 d2

/-- The window closes: counted and logged, and Hold and debug unlock end with it (R256, R436, R437). -/
def closeWindow (s : State) : State :=
  if !s.windowOpen then s
  else
    let s := (s.wr Fd.SEC_PRESENCE_Open 0).count Fd.SEC_PRESENCE_CNT
    let s := s.wr Fd.SPD_SCRUB_Hold 0
    let s := s.wr Fd.SEC_DEBUG_Unlocked 0
    let s := { s with sec := { s.sec with openEnd := 0 } }
    s.logPlain .sec noEntry

/-- PRESENCE_N has been low for 50 ms; a window opens if the button had been released for 50 ms before. -/
def pressPresence (s : State) : State :=
  if !s.sec.armed then s
  else
    let s := { s with sec := { s.sec with armed := false }, pow := { s.pow with presenceN := false } }
    if s.windowOpen then s
    else
      let s := s.wr Fd.SEC_PRESENCE_Open 1
      let s := s.count Fd.SEC_PRESENCE_CNT
      let s := { s with sec := { s.sec with openEnd := s.now + 60000000000 } }
      s.logPlain .sec noEntry

/-! The seal loop (R438, R439). -/

/-- Next state of the sequence x¹⁵ + x¹⁴ + 1. -/
def sealNext (l : Nat) : Nat := (l * 2 + (slice l 14 1 + slice l 13 1) % 2) % 2 ^ 15

/-- The loop reads open: a fuse blows, Opens counts, the event is flagged and logged (R439). -/
def sealOpen (s : State) : State :=
  let n := Nat.min 1024 (s.tly.opens + 1)
  let s := { s with tly := { s.tly with closed := false, judged := true, opens := n, flags := s.tly.flags ||| 1 } }
  let s := s.wr Fd.TLY_STATUS_SealClosed 0
  let s := s.wr Fd.TLY_SEAL_Opens n
  let s := if n = 1024 then s.wr Fd.TLY_STATUS_SealExhausted 1 else s
  s.setErrLog Fd.TLY_PAGE_ERR_SealOpened 0 noEntry 0

/-- One sample of SEAL_B against the bit driven (R438). -/
def sealSample (s : State) (bit : Bool) : State :=
  let driven := bitAt s.tly.lfsr 0
  let hit := bit == driven
  let s := { s with tly := { s.tly with
    lfsr := sealNext s.tly.lfsr
    matchRun := if hit then s.tly.matchRun + 1 else 0
    missRun := if hit then 0 else s.tly.missRun + 1 } }
  if hit then
    if !s.tly.closed ∧ 8 ≤ s.tly.matchRun then
      ({ s with tly := { s.tly with closed := true, judged := true } }).wr Fd.TLY_STATUS_SealClosed 1
    else s
  else if s.tly.missRun = 2 ∧ (s.tly.closed ∨ !s.tly.judged) then s.sealOpen
  else s

/-- The loop counts as closed for R44: closed, every fuse blown, or not judged yet, since the fuse of an open loop is blown before any tally
parameter can apply (R439). -/
def sealedShut (s : State) : Bool := s.tly.closed || !s.tly.judged || s.rd Fd.TLY_STATUS_SealExhausted == 1

/-! Security commands (R437, R440 to R445, R453). -/

/-- A write of SEC_CMD. -/
def secStart (s : State) (op : Nat) (needsWindow : Bool) : State :=
  s.gated .sec 0 fun s =>
    if s.rd Fd.SEC_CMD_STATUS_Busy = 1 then s.badWrite .sec 0
    else if needsWindow && !s.windowOpen then
      (s.wr Fd.SEC_CMD_STATUS_Result 1).setErr Fd.SEC_PAGE_ERR_PresenceDenied
    else
      let s := s.wr Fd.SEC_CMD_STATUS_Busy 1
      { s with sec := { s.sec with cmd := op } }

/-- The running command ends with a result. -/
def secEnd (s : State) (result : Nat) : State :=
  let s := s.wr Fd.SEC_CMD_STATUS_Busy 0
  let s := s.wr Fd.SEC_CMD_STATUS_Result result
  { s with sec := { s.sec with cmd := 0, cmdWaits := false } }

def secAddr (s : State) : Nat := s.rd Fd.SEC_CMD_ADDR_LO + 2 ^ 32 * s.rd Fd.SEC_CMD_ADDR_HI

/-- The command's range lies in LPDDR at a 64-byte boundary (R453; otherwise BadFormat, DEDUCED, notes/assumptions/17.md). -/
def secRange (s : State) (n : Nat) : Bool := s.inLpddr s.secAddr n && s.secAddr % 64 == 0

def fwReject (s : State) (code : Nat) : State := (s.setErr Fd.SEC_PAGE_ERR_FwReject).secEnd code

/-- Layout check of R440 step 1. -/
def fwLayoutOk (img : List Byte) : Bool :=
  leAt img 0 4 == 0x46575249 && decide (leAt img 4 1 ≤ 63) && decide (leAt img 5 1 ≤ 1) && leAt img 6 2 == 0 &&
    decide (leAt img 8 4 ≤ 8 * 2 ^ 20) && img.length == 0x40 + leAt img 8 4 + 2820 && (bytesAt img 0x10 48).all (· == 0)

/-- Signature check of R440 step 3. -/
def fwSigned (s : State) (img : List Byte) : Bool :=
  let n := 0x40 + leAt img 8 4
  Config.xmssVerify s.sec.vendorKey (shake256 (img.take n)) (img.drop n)

def installDone (s : State) (flashOk : Bool) : State :=
  let n := s.rd Fd.SEC_CMD_LEN
  let img := s.devBytes s.secAddr n
  let s := if s.secRange n then (s.devRead .sec 0 s.secAddr n).2 else s
  if !s.secRange n ∨ !fwLayoutOk img then s.fwReject 2
  else if leAt img 4 1 < s.rd Fd.SEC_FW_MinSvn then s.fwReject 4
  else if !s.fwSigned img then s.fwReject 3
  else if !flashOk then (s.setErr Fd.SEC_PAGE_ERR_FlashFail).secEnd 5
  else
    let slot := 1 - s.sec.active
    let svn := leAt img 4 1
    let s := { s with sec := { s.sec with
      slots := listMod s.sec.slots slot fun _ => ⟨true, svn, img⟩
      pending := some slot
      minSvn := if bitAt (leAt img 5 1) 0 then Nat.max s.sec.minSvn svn else s.sec.minSvn } }
    let s := s.wr Fd.SEC_FW_Pending 1
    (s.wr Fd.SEC_FW_MinSvn s.sec.minSvn).secEnd 0

/-- Rotation, once the signature index may be used (R442). -/
def rotateDone (s : State) (flashOk : Bool) : State :=
  let g := s.sec.idGen
  if 7 ≤ g then s.secEnd 7
  else if s.keyOut g then (s.noteExhausted g).secEnd 6
  else if !s.blockReady g then
    let s := s.askBlock g
    { s with sec := { s.sec with cmdWaits := true } }
  else if !flashOk then (s.setErr Fd.SEC_PAGE_ERR_FlashFail).secEnd 5
  else
    let pub := bytesAt (Config.xmssPublic (g + 1)) 0 68
    let (sig, s) := s.signWith g (shake256 pub)
    let s := { s with sec := { s.sec with idGen := g + 1, certs := s.sec.certs ++ [Config.rotationCert pub sig] } }
    ((s.wr Fd.SEC_KEY_IdGen (g + 1)).wr Fd.SEC_KEY_KeyExhausted 0).secEnd 0

/-- The 352 signed bytes of the attestation report (R445). -/
def reportHead (s : State) (nonce : List Byte) : List Byte :=
  leBytes 4 0x54415452 ++ leBytes 1 1 ++ leBytes 1 s.sec.idGen ++ leBytes 2 0 ++ nonce ++ leBytes 8 s.now ++
    leBytes 4 s.sec.bootCount ++ leBytes 1 (s.rd Fd.SEC_FW_ActiveSvn) ++ leBytes 1 0 ++ leBytes 2 s.tly.opens ++ leBytes 8 0 ++
    (List.range 8).flatMap (fun k => s.measure k) ++ leBytes 4 (s.word 0x4).toNat ++
    leBytes 4 (s.word (Fd.LNK_CHIP_ChipId.addr 0 0)).toNat ++ leBytes 24 0

def attestDone (s : State) : State :=
  if !s.secRange 10245 then s.secEnd 2
  else if s.keyOut s.sec.idGen then (s.noteExhausted s.sec.idGen).secEnd 6
  else if !s.blockReady s.sec.idGen then
    let s := s.askBlock s.sec.idGen
    { s with sec := { s.sec with cmdWaits := true } }
  else
    let head := s.reportHead (s.devBytes s.secAddr 32)
    let s := (s.devRead .sec 0 s.secAddr 32).2
    let (sig, s) := s.signWith s.sec.idGen (shake256 head)
    (s.lpNarrowPut s.secAddr (head ++ sig) .sec).secEnd 0

def identityDone (s : State) : State :=
  let bs := bytesAt (Config.xmssPublic s.sec.idGen) 0 68 ++ Config.vendorCert ++ s.sec.certs.flatten
  if !s.secRange bs.length then s.secEnd 2 else (s.lpNarrowPut s.secAddr bs .sec).secEnd 0

def extendDone (s : State) : State :=
  if !s.secRange 32 then s.secEnd 2 else ((s.devRead .sec 0 s.secAddr 32).2.extendM 7 (s.devBytes s.secAddr 32)).secEnd 0

/-- The running command's effect. -/
def secFinish (s : State) (flashOk : Bool) : State :=
  match s.sec.cmd with
  | 1 => s.installDone flashOk
  | 2 => s.rotateDone flashOk
  | 3 => (s.wr Fd.SEC_DEBUG_Unlocked (b2n s.windowOpen)).secEnd 0
  | 4 => (s.wr Fd.SEC_DEBUG_Unlocked 0).secEnd 0
  | 5 => s.attestDone
  | 6 => s.identityDone
  | 7 => s.extendDone
  | _ => s

end State

def execPresenceOpen (s : State) : Result :=
  let s := s.begin_
  .next (if s.pow.powered then s.pressPresence else s)

/-- PRESENCE_RELEASE (R436): the button is re-armed. -/
def execPresenceRelease (s : State) : Result :=
  let s := s.begin_
  .next { s with sec := { s.sec with armed := true }, pow := { s.pow with presenceN := true } }

def execPresenceExpire (s : State) : Result := .next s.begin_.closeWindow

def execPresenceClose (s : State) : Result := .next (s.begin_.gated .sec 0 fun s => s.closeWindow)

def execInstall (s : State) : Result := .next (s.begin_.secStart 1 true)
def execRotate (s : State) : Result := .next (s.begin_.secStart 2 true)
def execDebugUnlock (s : State) : Result := .next (s.begin_.secStart 3 true)
def execDebugLock (s : State) : Result := .next (s.begin_.secStart 4 false)
def execAttest (s : State) : Result := .next (s.begin_.secStart 5 false)
def execGetIdentity (s : State) : Result := .next (s.begin_.secStart 6 false)
def execExtendM7 (s : State) : Result := .next (s.begin_.secStart 7 false)

/-- SEC_CMD_COMPLETE (R453): the running action ends; `flashOk` says whether its flash writes succeeded. -/
def execSecCmdComplete (flashOk : Bool) (s : State) : Result :=
  let s := s.begin_
  .next (if s.rd Fd.SEC_CMD_STATUS_Busy = 0 ∨ s.sec.cmdWaits then s else s.secFinish flashOk)

def execSealSample (bit : Bool) (s : State) : Result :=
  let s := s.begin_
  .next (if s.pow.powered then s.sealSample bit else s)

end Sys2Proof.Machine
end

