-- ==== Sys2Proof/Machine/Operands.lean ====
section
/-! DEFINITION. Operand forms of an operation: region references, ring slots, per-stream items, data blocks and scale record
sets (03 R66, 04 R96 to R98, 06 R153, 10 R237, R240, R241, 11 R268). -/
namespace Sys2Proof.Machine
open Sys2Proof

/-! Fields of a stream entry (03, R54). -/

namespace Stream

def u (t : Stream) (o n : Nat) : Nat := leAt t.raw o n
def set (t : Stream) (o n v : Nat) : Stream := { t with raw := putBytes t.raw o (leBytes n v) }
def bump32 (t : Stream) (o n : Nat) : Stream := t.set o 4 (satInc32 (t.u o 4) n)

def tag (t : Stream) : Nat := t.u 0x00 4
def cls (t : Stream) : Nat := t.u 0x04 1
def flags (t : Stream) : Nat := t.u 0x06 1
def carried (t : Stream) : Bool := bitAt t.flags 0
def twin (t : Stream) : Bool := bitAt t.flags 1
def markValid (t : Stream) : Bool := bitAt t.flags 2
def rate (t : Stream) : Nat := t.u 0x09 1
def chunkLen (t : Stream) : Nat := t.u 0x0A 2
def chunkMax (t : Stream) : Nat := t.u 0x0C 2
def dlOff (t : Stream) : Nat := t.u 0x10 4
def source (t : Stream) : Nat := t.u 0x14 4
def sink (t : Stream) : Nat := t.u 0x18 4
def replayLen (t : Stream) : Nat := t.u 0x1C 4
def statePtr (t : Stream) : Nat := t.u 0x20 8
def initPtr (t : Stream) : Nat := t.u 0x28 8
def kvPtr (t : Stream) : Nat := t.u 0x30 8
def replayBase (t : Stream) : Nat := t.u 0x38 8
def resetSample (t : Stream) : Nat := t.u 0x40 8
def startTime (t : Stream) : Nat := t.u 0x48 8
def partner (t : Stream) : Nat := t.u 0x50 2
def interval (t : Stream) : Nat := t.u 0x52 1
def sampleIndex (t : Stream) : Nat := t.nextFirst + t.filled + (t.missing.map (·.1)).foldl (· + ·) 0

end Stream

/-- Sample rate of a RateCode, Hz (R54). -/
def rateHz (code : Nat) : Nat := [8000, 16000, 32000, 44100, 48000, 96000].getD code 48000

/-! Endpoints (R55). -/
def epKind (e : Nat) : Nat := slice e 0 4
def epPort (e : Nat) : Nat := slice e 4 5
def epIndex (e : Nat) : Nat := slice e 9 12
def epChans (e : Nat) : Nat := slice e 21 4 + 1

namespace Stream

def channels (t : Stream) : Nat := epChans t.source
/-- Samples of a chunk at stretch `k`, and its period in ns, rounded down. -/
def samplesAt (t : Stream) (k : Nat) : Nat := t.chunkLen * 2 ^ k
def periodNs (t : Stream) (k : Nat) : Nat := t.samplesAt k * 1000000000 / rateHz t.rate
/-- log2(ChunkMaxLen / ChunkLen). -/
def kMax (t : Stream) : Nat := if t.chunkLen = 0 then 0 else log2 (t.chunkMax / t.chunkLen)

end Stream

/-! Region references (R240). -/

namespace Desc

def ref (d : Desc) (i : Nat) : Option Nat :=
  let v := d.regions.getD i 0
  if bitAt v 31 then some (v % 4096) else none

def commit (d : Desc) : Bool := bitAt d.flags 0
def egress (d : Desc) : Bool := bitAt d.flags 1
def chunkScaled (d : Desc) : Bool := bitAt d.flags 2
def gateAware (d : Desc) : Bool := bitAt d.flags 3
def exitPoint (d : Desc) : Bool := bitAt d.flags 4
/-- Chunk lag of R139. -/
def chunkLag (d : Desc) : Nat := if d.lagUnit = 1 then d.lag else 0
/-- Body bytes are numbered from descriptor byte 0x50. -/
def b (d : Desc) (o n : Nat) : Nat := leAt d.body (o - 0x50) n
def conv (d : Desc) : ConvWord := parseConv (d.b 0x78 8)
def maskByte (d : Desc) : Nat := d.b 0x77 1
def maskSlot (d : Desc) : Nat := slice d.maskByte 0 3
def skipInitial (d : Desc) : Bool := slice d.maskByte 3 2 == 1
def wFmt (d : Desc) : Nat := slice d.format 0 4
def aFmt (d : Desc) : Nat := slice d.format 4 4
/-- Step of the chunk that a Recurrence descriptor works on first: Column − Lag (R156, R169). -/
def step (d : Desc) : Nat := if d.kind = 0x06 then d.b 0x58 2 - d.lag else 0
/-- Step position of a tag: 0 for an operation with LagUnit 1 (R97). -/
def tagStep (d : Desc) (p : Nat) : Nat := if d.lagUnit = 0 then p else 0

end Desc

namespace Image

def u (m : Image) (o n : Nat) : Nat := leAt m.header o n
/-- D of R112 and R153. -/
def depth (m : Image) : Nat := m.maxLag + 2
def ringOf (m : Image) (entry : Nat) : Option (Nat × Ring) := (m.rings.zipIdx.find? fun x => x.1.region == entry).map fun x => (x.2, x.1)
/-- Section table of the image's state (R152). -/
def sections (m : Image) : List Byte := Config.layoutSections m.layout
def numSections (m : Image) : Nat := m.sections.length / 16

end Image

namespace State

def refRegion (s : State) (m : Image) (d : Desc) (i : Nat) : Option Region := (d.ref i).bind fun e => s.regionOf m.id e

/-- The regions of an image of one class, in index order. -/
def classRegions (s : State) (m : Nat) (cls : Nat) : List Region :=
  sortBy (fun (a b : Region) => a.entry ≤ b.entry) (s.regions.filter fun r => r.image == m && r.cls == cls && r.valid && !r.shut)

/-- Input buffer and output buffer of an image (R363). -/
def inBuf (s : State) (m : Nat) : Option Region := (s.classRegions m 4)[0]?
def outBuf (s : State) (m : Nat) : Option Region := (s.classRegions m 4)[1]?
/-- The state region (R153). -/
def stateRegion (s : State) (m : Nat) : Option Region := (s.classRegions m 2)[0]?

end State

/-- Where one stream's item lies in a region: byte offset and bytes, for stream slot `slot` and chunk `j`
(R153, R237, R268, R363; places the spec leaves open: DEDUCED, notes/assumptions/14.md). -/
def itemAt (m : Image) (r : Region) (slot j : Nat) : Nat × Nat :=
  let n := Nat.max 1 m.streamSlots
  match m.ringOf r.entry with
  | some (_, g) =>
    let per := r.slotBytes / n
    ((if g.egress then r.tail else r.head) * 256 + slot * per, per)
  | none =>
    if r.perStream then
      let sz := r.units * 256
      if r.circular then (slot * sz + (if r.slots = 0 then 0 else j % r.slots) * r.slotBytes, r.slotBytes)
      else if r.versioned then (slot * sz + (j % m.depth) * (sz / m.depth), sz / m.depth)
      else (slot * sz, sz)
    else
      let v := if r.versioned then r.len * 256 / m.depth else r.len * 256
      ((if r.versioned then (j % m.depth) * v else 0) + slot * (v / n), v / n)

/-- The core of a core-level item; device-level regions take any (R241, Config.coreOf). -/
def itemCore (r : Region) (slot : Nat) : Nat := Config.coreOf r.entry slot % 512

/-- Bytes that the array reads from offset `o` of a region (R235, R241). -/
def regRead (s : State) (r : Region) (core o n : Nat) : List Byte :=
  (List.range n).map fun i =>
    let a := r.arrAddr core (o + i)
    if s.wrongSide false a then 0 else sparseGet State.zeroByte s.spad a

/-- An address beyond the scratchpad among the uncorrectable words asks which reads meet a bank of the other side (State.metPart). -/
def partProbe : Nat := State.spadSize

/-- Whether the array's bytes there include an uncorrectable word. -/
def regBad (s : State) (r : Region) (core o n : Nat) : Bool :=
  !s.spadBad.isEmpty && (List.range n).any fun i =>
    let a := r.arrAddr core (o + i)
    s.spadBad.contains (a / 8 * 8) || (s.spadBad.contains partProbe && s.wrongSide false a)

namespace State

/-- The array's read of `n` bytes at a scratchpad address (R235). -/
def arrBytes (s : State) (a n : Nat) : List Byte :=
  if s.partViolates false a n then (List.range n).map fun i => if s.wrongSide false (a + i) then 0 else sparseGet zeroByte s.spad (a + i)
  else s.spadBytes a n

/-- The array's write at a scratchpad address: what lies in a bank of the other side is dropped (R235). -/
def arrPut (s : State) (a : Nat) (bs : List Byte) : State :=
  if s.partViolates false a bs.length then
    ((bankParts a bs.length).filter fun x => !s.wrongSide false x.1).foldl (fun s x => s.spadPut x.1 (bytesAt bs (x.1 - a) x.2))
      (s.setErr Fd.SPD_PAGE_ERR_PartViolation)
  else s.spadPut a bs

/-- A section of a state version at scratchpad address `a`: Offset, SecFmt, Elements, DriftBound. -/
def sectionAt (s : State) (a sec : Nat) : Nat × Nat × Nat × Nat :=
  let e := s.arrBytes (a + 0x40 + 16 * sec) 16
  (leAt e 0 4, leAt e 4 1, leAt e 8 4, leAt e 12 4)

/-- The array copies a range; a word that it reads as uncorrectable stays so in the copy (R249). -/
def arrCopy (s : State) (a b n : Nat) : State :=
  let s := if s.partViolates false a n then s.setErr Fd.SPD_PAGE_ERR_PartViolation else s
  let s := s.arrPut b (s.arrBytes a n)
  { s with spadBad := s.spadBad ++ ((s.spadBad.filter fun w => a / 8 * 8 ≤ w && w < a + n).map fun w => w + b - a) }

/-- The words of a range that an operation would read as uncorrectable. -/
def anyBad (s : State) (a n : Nat) : Bool :=
  !(s.spadBadIn a n).isEmpty || (s.spadBad.contains partProbe && s.partViolates false a n)

end State

/-- An array write; a bank of the other side takes nothing (R235). -/
def regWrite (s : State) (r : Region) (core o : Nat) (bs : List Byte) : State :=
  let go : State → Nat → Byte → State := fun s i b =>
    let a := r.arrAddr core (o + i)
    if s.wrongSide false a then s.setErr Fd.SPD_PAGE_ERR_PartViolation
    else { s with spad := sparseSet State.zeroByte s.spad a b }
  let s' := (bs.zipIdx).foldl (fun s x => go s x.2 x.1) s
  let hit (a : Nat) : Bool := (List.range bs.length).any fun i => r.arrAddr core (o + i) == a
  { s' with spadBad := s'.spadBad.filter (fun w => !((List.range 8).all fun k => hit (w + k)))
            spadSoft := s'.spadSoft.filter fun w => !((List.range 8).any fun k => hit (w + k)) }

/-- An operation's work on one stream (R69, R70): entry, stream slot, chunk, step, stretch, the stretch that counts in the
operation's work, whether the operation leaves the stream out (R140). -/
structure Work where
  entry : Nat
  slot  : Nat
  st    : Stream
  live  : Live
  step  : Nat
  /-- Its position in tags (R97). -/
  tagAt : Nat
  /-- Base chunks this operation works on: 2^k with ChunkScaled, else 1. -/
  n     : Nat
  left  : Bool
  /-- Base chunks of the streams before it in batch order that take part. -/
  before : Nat := 0
  /-- Base chunks of all streams before it in batch order. -/
  place  : Nat := 0
  deriving DecidableEq, Repr

namespace Work

def j (w : Work) : Nat := w.live.c.j
/-- Tag of R97. -/
def tag (w : Work) : Nat := seqTag w.j w.tagAt

end Work

/-- What reading operands found: data, a tag mismatch (R98), an uncorrectable word (R249). -/
structure Got (α : Type) where
  val  : α
  mism : Bool := false
  bad  : Bool := false

/-- The bytes `o` to `o + n` of the stream's item behind reference `i`; zeros where there is none. -/
def refBytes (s : State) (m : Image) (d : Desc) (w : Work) (i o n : Nat) : Got (List Byte) :=
  match s.refRegion m d i with
  | none => ⟨List.replicate n 0, false, false⟩
  | some r =>
    let b := itemAt m r w.slot w.j
    let core := itemCore r w.slot
    ⟨regRead s r core (b.1 + o) n, false, regBad s r core (b.1 + o) n⟩

/-- Write the stream's item behind reference `i`. -/
def refPut (s : State) (m : Image) (d : Desc) (w : Work) (i o : Nat) (bs : List Byte) : State :=
  match s.refRegion m d i with
  | none => s
  | some r => regWrite s r (itemCore r w.slot) ((itemAt m r w.slot w.j).1 + o) bs

/-- Offset of step `p`'s block of `len` bytes in an item of `size` bytes (notes/assumptions/14.md). -/
def stepOff (size p len : Nat) : Nat := if size < len ∨ len = 0 then 0 else (p * len) % (size / len * len)

def itemSize (s : State) (m : Image) (d : Desc) (w : Work) (i : Nat) : Nat :=
  match s.refRegion m d i with
  | none => 0
  | some r => (itemAt m r w.slot w.j).2

/-- Bytes shared by the batch behind reference `i`: from the start of the region (a weight ring's oldest ready slot), or of
the stream's item in a PerStream region (R237, R273; DEDUCED, notes/assumptions/14.md). -/
def sharedBytes (s : State) (m : Image) (d : Desc) (w : Work) (i o n : Nat) : Got (List Byte) :=
  match s.refRegion m d i with
  | none => ⟨List.replicate n 0, false, false⟩
  | some r =>
    if r.perStream then refBytes s m d w i o n
    else
      let base := if (m.ringOf r.entry).isSome then r.head * 256 else if r.versioned then (w.j % m.depth) * (r.len * 256 / m.depth) else 0
      ⟨regRead s r (itemCore r 0) (base + o) n, false, regBad s r (itemCore r 0) (base + o) n⟩

/-- An activation operand of `n` elements in rows of `width` in a data block of R96 behind reference `i`, with its scale record
set behind reference `si` for A8; `fmt` and `glog` are what the descriptor says (R98, R130). `comp` is the Cap of compressed
blocks (R135), 0 for none. `p` is the step it was produced at. -/
def readBlock (s : State) (m : Image) (d : Desc) (w : Work) (i si fmt glog n width p comp : Nat) : Got ABlock :=
  let codes := if comp = 0 then n * elemBits fmt / 8 else n / 64 * (8 + comp)
  let dlen := roundUp (16 + codes) 16
  let isA8 := fmt == 6 || fmt == 7
  let data := refBytes s m d w i (stepOff (itemSize s m d w i) p dlen) dlen
  let rows := if width = 0 then 1 else n / width
  let groups := if isA8 ∧ glog ≠ 0 then rows * ceilDiv (if width = 0 then n else width) (2 ^ glog) else 0
  let e0 := refBytes s m d w si 0 2
  let e := leAt e0.val 1 1
  let slen := if isA8 then scaleSetLen (if [0, 1, 2, 4].contains e then e else 0) groups else 0
  let sc : Got (List Byte) := if isA8 then refBytes s m d w si (stepOff (itemSize s m d w si) p slen) slen else ⟨[], false, false⟩
  let raw := parseABlock data.val sc.val
  let blk := { raw with codes := bytesAt data.val 16 codes }
  ⟨blk, blk.mismatch (seqTag w.j (d.tagStep p)) || blk.fmt != fmt || blk.glog != (if isA8 then glog else 0), data.bad || sc.bad⟩

/-- Plain FP32 words behind reference `i`. -/
def readF32 (s : State) (m : Image) (d : Desc) (w : Work) (i o n : Nat) : Got (List Nat) :=
  let g := refBytes s m d w i (4 * o) (4 * n)
  ⟨(List.range n).map fun k => leAt g.val (4 * k) 4, false, g.bad⟩

/-- Codes of 64 logical elements of a compressed block (R135). -/
def expandComp (cap : Nat) (bs : List Byte) : List Byte :=
  let bm := leAt bs 0 8
  let idx := (List.range 64).filter fun i => bitAt bm i
  (List.range 64).map fun i =>
    if bitAt bm i then
      let q := (idx.filter (· < i)).length
      if q < cap then bs.getD (8 + q) 0 else 0
    else 0

/-- The logical codes of a compressed data block. -/
def ABlock.expandCodes (b : ABlock) (cap n : Nat) : ABlock :=
  { b with codes := (List.range (n / 64)).flatMap fun q => expandComp cap (bytesAt b.codes (q * (8 + cap)) (8 + cap)) }

end Sys2Proof.Machine
end

