-- ==== Sys2Proof/Machine/Image.lean ====
section
/-! DEFINITION. Sweep images: directory, header, descriptors, layout, gather programs, rings, weight blocks, codebook
references, loading and unloading (03 R63 to R66, 04 R120, R121, 10 R236 to R239, R247, 11 R260, R265). -/
namespace Sys2Proof.Machine
open Sys2Proof

/-- A region entry of a layout, not yet placed (R237). -/
structure RegEnt where
  level  : Nat
  cls    : Nat
  eflags : Nat
  units  : Nat
  slotBytes : Nat
  sparse : Nat
  srcOff : Nat
  srcLen : Nat
  raw    : List Byte
  deriving DecidableEq, Repr

namespace RegEnt
def circular (r : RegEnt) : Bool := bitAt r.eflags 0
def versioned (r : RegEnt) : Bool := bitAt r.eflags 1
def perStream (r : RegEnt) : Bool := bitAt r.eflags 2
/-- U of R239. -/
def total (r : RegEnt) (slots : Nat) : Nat := if r.perStream then r.units * slots else r.units
def rows (r : RegEnt) (slots : Nat) : Nat := if r.level = 1 then ceilDiv (r.total slots) 512 else r.units
end RegEnt

def parseRegEnt (bs : List Byte) : RegEnt :=
  ⟨leAt bs 0 1, leAt bs 1 1, leAt bs 2 1, leAt bs 4 4, leAt bs 8 4, leAt bs 0xC 4, leAt bs 0x10 8, leAt bs 0x18 4, bytesAt bs 0 32⟩

def parseDesc (bs : List Byte) : Desc :=
  { kind := leAt bs 0 1, format := leAt bs 1 1, lag := slice (leAt bs 2 2) 0 15, lagUnit := slice (leAt bs 2 2) 15 1,
    flags := leAt bs 4 1, cycFixed := leAt bs 8 4, granule := leAt bs 0xC 4, workPerStream := leAt bs 0x10 8,
    energyFixed := leAt bs 0x18 4, energyPerStream := leAt bs 0x1C 4,
    regions := (List.range 8).map fun i => leAt bs (0x20 + 4 * i) 4,
    rings := (List.range 4).map fun i => leAt bs (0x40 + 4 * i) 4, body := bytesAt bs 0x50 48 }

/-- Ring references of a descriptor: ring index and slots required (R66). -/
def Desc.ringRefs (d : Desc) : List (Nat × Nat) :=
  (d.rings.filter (· != 0)).map fun v => (slice v 0 16, slice v 16 4)

/-- Gather program records back to back, 16-byte aligned (R260): the bytes of each record. -/
def gatherRecords : Nat → List Byte → List (List Byte)
  | 0, _ => []
  | n + 1, bs =>
    let len := 16 + 16 * leAt bs 2 1
    bytesAt bs 0 len :: gatherRecords n (bs.drop len)

/-- Instructions of a program record. -/
def gatherInstrs (rec : List Byte) : List (List Byte) := (List.range (leAt rec 2 1)).map fun i => bytesAt rec (16 + 16 * i) 16

namespace State

def imageDir (s : State) : Nat := s.base Fd.GAF_IMAGE_DIR_LO_DirLo Fd.GAF_IMAGE_DIR_HI_DirHi

/-- ImageAddr, ImageLen and Valid of a directory entry (R63). -/
def dirEntry (s : State) (dir id : Nat) : Nat × Nat × Nat :=
  let e := s.devBytes (dir + 16 * id) 16
  (leAt e 0 8, leAt e 8 4, leAt e 12 4)

/-- Bytes of an image from an offset, none beyond its length. -/
def imgBytes (s : State) (addr len off n : Nat) : List Byte := if off + n ≤ len then s.devBytes (addr + off) n else []

end State

/-- Header fields (R64). -/
structure Header where
  magic : Nat
  opset : Nat
  cls : Nat
  numReq : Nat
  numOps : Nat
  numGather : Nat
  reqOff : Nat
  opOff : Nat
  gatherOff : Nat
  layoutOff : Nat
  weightOff : Nat
  weightLen : Nat
  maxBatch : Nat
  target : Nat
  sweepCycles : Nat
  maxLag : Nat
  usesKv : Nat
  deriving DecidableEq, Repr

def parseHeader (h : List Byte) : Header :=
  ⟨leAt h 0 4, leAt h 4 1, leAt h 5 1, leAt h 6 2, leAt h 8 4, leAt h 0xC 4, leAt h 0x10 8, leAt h 0x18 8, leAt h 0x20 8,
   leAt h 0x28 8, leAt h 0x30 8, leAt h 0x38 8, leAt h 0x40 2, leAt h 0x42 2, leAt h 0x44 4, leAt h 0x48 2, leAt h 0x4A 1⟩

/-- Where the layout section ends: at the next section, or at the image's end. -/
def layoutEnd (h : Header) (len : Nat) : Nat :=
  ([h.reqOff, h.opOff, h.gatherOff, h.weightOff].filter (h.layoutOff < ·)).foldl Nat.min len

/-- Region entries of a layout (R236). -/
def layoutRegions (lay : List Byte) : List RegEnt :=
  (List.range (leAt lay 0 2)).map fun i => parseRegEnt (bytesAt lay (0x10 + 32 * i) 32)

/-- Ring entries of a layout (R265). -/
def layoutRings (lay : List Byte) : List (List Byte) :=
  (List.range (leAt lay 2 2)).map fun i => bytesAt lay (leAt lay 8 4 + 32 * i) 32

/-- Weight blocks that follow one another in contents (R247, R273): offset, length and whether the block is whole; a bad block
ends the walk and takes the rest. -/
def walkBlocks : Nat → List Byte → Nat → List (Nat × Nat × Bool)
  | 0, _, _ => []
  | fuel + 1, bs, off =>
    if bs.isEmpty then []
    else
      let n := leAt bs 8 4
      if bs.length < 16 ∨ n < 16 ∨ n % 4 ≠ 0 ∨ bs.length < n then [(off, bs.length, false)]
      else (off, n, true) :: walkBlocks fuel (bs.drop n) (off + n)

def blocksOf (bs : List Byte) : List (Nat × Nat × Bool) := walkBlocks (bs.length / 16 + 1) bs 0

/-- The descriptor reads region reference 2 as weight blocks (R247). -/
def Desc.readsBlocks (d : Desc) : Bool := d.kind == 0x01 || (d.kind == 0x06 && decide (d.b 0x50 1 ≤ 1)) || d.kind == 0x0A

/-! Programs (R260 to R264). -/

/-- What a walk reads while it runs: image, program, ring and its region, entries of the batch. -/
structure WalkEnv where
  m     : Image
  code  : List (List Byte)
  ring  : Nat
  g     : Ring
  r     : Region
  batch : List Nat

namespace WalkEnv

/-- Level of the STREAMS counter and the index of its body. -/
def streams (x : WalkEnv) : Option (Nat × Nat) :=
  ((x.code.zipIdx).find? fun i => leAt i.1 0 1 == 5).map fun i => (slice (leAt i.1 1 1) 4 3, i.2 + 1)

/-- The stream that the STREAMS counter names. -/
def current (x : WalkEnv) (w : Walk) : Option Nat :=
  match x.streams with
  | none => none
  | some (l, body) => (w.open_.find? fun o => o.1 == l && o.2.2.2 == body).bind fun o => w.batch[o.2.1]?

end WalkEnv

/-- Signed 48-bit operand of an instruction. -/
def instrVal (i : List Byte) : Int := toSigned 48 (leAt i 8 6)

/-- Value of a counter, 0 when it is not open. -/
def counterOf (w : Walk) (l : Nat) : Nat := ((w.open_.find? fun o => o.1 == l).map (·.2.1)).getD 0

/-- Address of transfer `t` of a MOVE under generator `gen`, whose transfers step by `by_` bytes; none where it lies outside its
ring slot or below address 0 (R262, R267). -/
def moveAddr (s : State) (x : WalkEnv) (w : Walk) (gen by_ t : Nat) : Option Nat :=
  let b := w.base.getD gen (0, 0, 0)
  let raw : Int := ((List.range 6).map fun (l : Nat) => (counterOf w l : Int) * (w.strides.getD gen []).getD l 0).foldl (· + ·) 0 + (by_ * t : Nat)
  let md := w.modulo.getD gen 0
  let off : Int := b.2.2 + if md = 0 then raw else raw % md
  let st := (x.current w).bind s.stream
  let from_ : Nat := match b.1 with
    | 0 => 0
    | 1 => x.m.addr
    | 2 => match s.regionOf x.m.id b.2.1 with
      | none => 0
      | some r => r.start + (if r.perStream then ((st.map (·.slot)).getD 0) * (r.units * 256) else 0)
    | 3 => x.r.start + (if x.g.egress then x.r.head else x.r.tail) * 256
    | 4 => (st.map Stream.statePtr).getD 0
    | 5 => (st.map Stream.initPtr).getD 0
    | 6 => (st.map Stream.replayBase).getD 0
    | _ => (st.map Stream.kvPtr).getD 0
  if b.1 = 3 ∧ (off < 0 ∨ (x.r.slotBytes : Int) ≤ off) then none
  else if (from_ : Int) + off < 0 then none
  else some ((from_ : Int) + off).toNat

/-- A generator's MOVE end lies in scratchpad (R263). -/
def genInSpad (w : Walk) (gen : Nat) : Bool :=
  let b := w.base.getD gen (0, 0, 0)
  b.1 == 2 || b.1 == 3 || (b.1 == 0 && decide (0 ≤ b.2.2 ∧ b.2.2 < (State.spadSize : Int)))

/-- Far-end bytes of one transfer (R264). -/
def farBytes (xform arg : Nat) : Nat := if xform = 1 ∨ xform = 2 then (if arg = 1 then 32 else 64) else 256

/-- The transfers of one MOVE. -/
def moveXfers (s : State) (x : WalkEnv) (w : Walk) (i : List Byte) : List Xfer :=
  let xf := slice (leAt i 1 1) 0 4
  let arg := slice (leAt i 1 1) 4 4
  let far := farBytes xf arg
  let by_ (gen : Nat) : Nat := if genInSpad w gen then 256 else far
  (List.range (slice (leAt i 2 2) 0 12 + 1)).map fun t =>
    let src := moveAddr s x w 0 (by_ 0) t
    let dst := moveAddr s x w 1 (by_ 1) t
    ({ src := src.getD 0, dst := dst.getD 0, xform := xf, arg := arg, far := far, entry := x.current w,
       bad := src.isNone || dst.isNone } : Xfer)

/-- Index after the NEXT that closes a level. -/
def afterNext (code : List (List Byte)) (pc l : Nat) : Nat :=
  ((((code.zipIdx).drop pc).find? fun i => leAt i.1 0 1 == 6 && slice (leAt i.1 1 1) 4 3 == l).map fun i => i.2 + 1).getD code.length

/-- Run a program to its next SLOT, FENCE or END, collecting its transfers (R260 to R262). -/
def walkRun (s : State) (x : WalkEnv) : Nat → Walk → Walk
  | 0, w => w
  | fuel + 1, w =>
    match x.code[w.pc]? with
    | none => { w with stop := 3 }
    | some i =>
      let gen := leAt i 1 1 % 2
      let l := slice (leAt i 1 1) 4 3
      let next := { w with pc := w.pc + 1 }
      match leAt i 0 1 with
      | 1 => walkRun s x fuel { next with base := listSet w.base gen (slice (leAt i 1 1) 4 4, slice (leAt i 2 2) 0 12, instrVal i) }
      | 2 => walkRun s x fuel { next with strides := listMod w.strides gen fun st => listSet st l (instrVal i) }
      | 3 => walkRun s x fuel { next with modulo := listSet w.modulo gen (instrVal i) }
      | 4 => walkRun s x fuel { next with open_ := (l, 0, slice (leAt i 4 4) 0 24 + 1, w.pc + 1) :: w.open_ }
      | 5 =>
        if x.batch.isEmpty then walkRun s x fuel { w with pc := afterNext x.code w.pc l }
        else walkRun s x fuel { next with open_ := (l, 0, x.batch.length, w.pc + 1) :: w.open_, batch := x.batch }
      | 6 =>
        match w.open_ with
        | (k, v, n, body) :: rest =>
          if v + 1 < n then walkRun s x fuel { w with pc := body, open_ := (k, v + 1, n, body) :: rest }
          else walkRun s x fuel { next with open_ := rest }
        | [] => walkRun s x fuel next
      | 7 => walkRun s x fuel { next with queue := w.queue ++ moveXfers s x w i }
      | 8 => { next with stop := 1 }
      | 9 => { next with stop := 2 }
      | _ => { next with stop := 3 }

/-- Instructions that a run of a program takes at most: each runs once per pass of the loops about it (R261). -/
def WalkEnv.fuel (x : WalkEnv) (w : Walk) : Nat :=
  (x.code.length + 1) * (x.code.foldl (fun n i => n * (if leAt i 0 1 = 4 then slice (leAt i 4 4) 0 24 + 1 else 1)) 1) *
    Nat.max 1 (Nat.max x.batch.length w.batch.length)

/-- The contents that a fill brings, from its first byte on: `fill` holds destination and source of each transfer (R273). -/
def fillBytes (s : State) (fill : List (Nat × Nat)) (first : Nat) : List Byte :=
  (sortBy (fun a b => decide (a.1 ≤ b.1)) fill).foldl (fun bs x =>
    let o := x.1 - first
    putBytes (bs ++ List.replicate (o - bs.length) 0) o (s.devBytes x.2 256)) []

/-- The fills that one run of an ingress program makes, one list of destination and source per slot. -/
def walkFills (s : State) (x : WalkEnv) : Nat → Walk → List Xfer → List (List (Nat × Nat))
  | 0, _, _ => []
  | n + 1, w, acc =>
    let v := walkRun s x (x.fuel w) { w with queue := [], stop := 0 }
    let acc := acc ++ v.queue
    match v.stop with
    | 1 => (acc.map fun y => (y.dst, y.src)) :: walkFills s x n v []
    | 2 => walkFills s x n v acc
    | _ => []

/-- What R132 asks of a block that a descriptor reads: weight format, group, sparse flags as block flag bits. -/
def Desc.blockForm (d : Desc) : Nat × Nat × Nat :=
  if d.kind = 0x01 then (d.wFmt, if d.b 0x5C 1 = 0 then 0xFF else d.b 0x5C 1, slice (d.b 0x52 1) 6 2)
  else (d.wFmt, if d.kind = 0x0A ∧ d.b 0x69 1 ≠ 0 then d.b 0x69 1 else 0xFF, 0)

/-- A block passes its CRC, and R132 against every descriptor that reads its region. A group size that the kind's Body does
not give is not compared. Flags bits 1 and 2 of a block are Sparse24 and BlockSparse (R92). -/
def blockOk (descs : List Desc) (bs : List Byte) : Bool :=
  wblockCrcOk bs && descs.all fun d =>
    let f := d.blockForm
    leAt bs 0 1 == f.1 && (f.2.1 == 0xFF || leAt bs 1 1 == f.2.1) && slice (leAt bs 3 1) 1 2 == f.2.2

namespace State

/-- Codebook slots that weight blocks of some contents name, as (q, slot). -/
def bookSlots (c : List Byte) : List (Nat × Nat) :=
  (blocksOf c).filterMap fun b =>
    let blk := bytesAt c b.1 16
    if b.2.2 ∧ leAt blk 0 1 = 1 then some (leAt blk 4 1 % 16, slice (leAt blk 3 1) 0 1) else none

/-- Weight blocks that an image brings: the contents of its weight regions and what its programs fill the slots of weight rings with,
each with the region entry. -/
def imageContents (s : State) (m : Image) : List (Nat × List Byte) :=
  let ents := layoutRegions m.layout
  let reads (e : Nat) : Bool := (ents[e]?).any (fun x => x.cls == 1) && m.descs.any fun d => d.readsBlocks && d.ref 2 == some e
  let held := ents.zipIdx.filterMap fun x =>
    if reads x.2 && !(m.rings.any fun g => g.region == x.2) then some (x.2, s.devBytes (m.addr + x.1.srcOff) x.1.srcLen) else none
  let streamed := m.programs.zipIdx.flatMap fun p =>
    let ring := m.progRing.getD p.2 0
    match m.rings[ring]? with
    | none => []
    | some g =>
      if g.egress || !reads g.region then []
      else
        let e := ents.getD g.region (parseRegEnt [])
        let r : Region :=
          { image := m.id, entry := g.region, level := 1, cls := 1, circular := true, versioned := false, perStream := false,
            units := e.units, slotBytes := e.slotBytes, sparse := 0, srcOff := 0, srcLen := 0, row := 0, rows := 0, len := e.units, desc := 0 }
        let x : WalkEnv := { m := m, code := gatherInstrs p.1, ring := ring, g := g, r := r, batch := List.range m.maxBatch }
        (walkFills s x (x.fuel {}) {} []).map fun f => (g.region, fillBytes s f 0)
  held ++ streamed

/-- Codebook slots that an image's weight blocks name (R121). -/
def imageBooks (s : State) (m : Image) : List (Nat × Nat) := dedup ((s.imageContents m).flatMap fun x => bookSlots x.2)

/-- Parse an image from the directory at `dir` (R63 to R66, R236, R260, R265). -/
def readImage (s : State) (dir id : Nat) : Image :=
  let (addr, len, _) := s.dirEntry dir id
  let hb := s.devBytes addr 128
  let h := parseHeader hb
  let lay := s.devBytes (addr + h.layoutOff) (layoutEnd h len - h.layoutOff)
  let descs := (List.range h.numOps).map fun i => parseDesc (s.devBytes (addr + h.opOff + 128 * i) 128)
  let gEnd := ([h.reqOff, h.opOff, h.layoutOff, h.weightOff].filter (h.gatherOff < ·)).foldl Nat.min len
  let progs := gatherRecords h.numGather (s.devBytes (addr + h.gatherOff) (gEnd - h.gatherOff))
  let rings := (layoutRings lay).map fun r =>
    ({ region := leAt r 0 2, slots := leAt r 2 1, egress := bitAt (leAt r 3 1) 0, program := leAt r 4 2, minFill := leAt r 6 1 } : Ring)
  let m : Image :=
  { id := id, addr := addr, len := len, header := hb, layout := lay, descs := descs, programs := progs,
    progRing := progs.map fun p => leAt p 0 2, walks := progs.map fun _ => {}, rings := rings,
    streamSlots := leAt lay 4 2, maxBatch := h.maxBatch, target := h.target, cls := h.cls, maxLag := h.maxLag,
    kv := if h.usesKv = 1 then some (bytesAt lay (leAt lay 0xC 4) 64) else none,
    groups := (dedup ((descs.filter fun d => d.kind == 0x0D).map fun d => d.b 0x52 1)).map fun g =>
      (g, s.devBytes (s.base Fd.LNK_GROUP_BASE_LO Fd.LNK_GROUP_BASE_HI + 64 * g) 64) }
  { m with codebook := s.imageBooks m }

/-- Region entries of an image, as regions still to be placed (R237, R239). -/
def imageRegions (m : Image) : List Region :=
  (layoutRegions m.layout).zipIdx.map fun x =>
    { image := m.id, entry := x.2, level := x.1.level, cls := x.1.cls, circular := x.1.circular, versioned := x.1.versioned,
      perStream := x.1.perStream, units := x.1.units, slotBytes := x.1.slotBytes, sparse := x.1.sparse, srcOff := x.1.srcOff,
      srcLen := x.1.srcLen, row := 0, rows := x.1.rows m.streamSlots, len := x.1.total m.streamSlots, desc := 0,
      loaded := x.1.cls != 1 }

/-- Place the regions in index order (R239): the state, or the code and the entry that fails. -/
def placeAll (s : State) : List Region → Except (Nat × Nat) State
  | [] => .ok s
  | r :: rs =>
    match s.allocRegion r with
    | .error c => .error (c, r.entry)
    | .ok t => t.placeAll rs

/-- Codebook references follow the images loaded (R121). -/
def syncCodebooks (s : State) : State :=
  (List.range 16).foldl (fun s q =>
    let n (slot : Nat) := (s.gaf.images.filter fun m => m.codebook.contains (q, slot)).length
    (s.wrAt Fd.GAF_CB_REF_RefA 0 q (n 0)).wrAt Fd.GAF_CB_REF_RefB 0 q (n 1)) s

/-- Claim bits of the slots that images to be loaded name. -/
def setClaims (s : State) (uses : List (Nat × Nat)) : State :=
  (List.range 16).foldl (fun s q =>
    (s.wrAt Fd.GAF_CB_REF_ClaimA 0 q (b2n (uses.contains (q, 0)))).wrAt Fd.GAF_CB_REF_ClaimB 0 q (b2n (uses.contains (q, 1)))) s

/-- Store and ring registers follow the images loaded (03 GAF_STORE, 11 GTH_STATUS, GTH_RINGS). -/
def syncStore (s : State) : State :=
  let s := s.wr Fd.GAF_STORE_SlotsUsed (sumNat (s.gaf.images.map fun m => m.descs.length))
  let s := s.wr Fd.GAF_STORE_Images s.gaf.images.length
  let progs := sumNat (s.gaf.images.map fun m => m.programs.length)
  let rings := sumNat (s.gaf.images.map fun m => m.rings.length)
  ((List.range 16).foldl (fun s b => (s.wr Fd.GTH_STATUS_Programs progs b).wr Fd.GTH_RINGS_Rings rings b) s).syncCodebooks

/-- Room for an image's regions: what the CHECK planned for it, or a place found now, over what a scrub still holds of it if need be. -/
def placeImage (s : State) (mine : List Region) (m : Image) : State × Bool :=
  if !mine.isEmpty then ({ s with regions := s.regions ++ mine }, true)
  else
    match s.placeAll (imageRegions m) with
    | .ok t => (t, true)
    | .error _ =>
      match (s.releaseImage m.id).placeAll (imageRegions m) with
      | .ok t => (t, true)
      | .error _ => (s, false)

/-- Load an image at application (R65, R239, R247, R444): descriptors, the regions as the CHECK placed them, weight loads, M4. An
image that was loaded at the CHECK and has unloaded since is placed afresh; where it does not fit, the scrub of its old regions ends
first (DESIGN CHOICE, notes/assumptions/18.md). -/
def loadImage (s : State) (id : Nat) : State :=
  if (s.image id).isSome then s
  else
    let m := s.readImage s.imageDir id
    let m := { m with codebook := (tabGet s.par.books id).getD m.codebook }
    let s := ((s.devRead .gaf 0 (s.imageDir + 16 * id) 16).2).bulkRead .gaf 0 m.addr m.len
    let mine := s.par.plan.filter fun (r : Region) => r.image == id
    let p := s.placeImage mine m
    if !p.2 then s
    else
      let t := { p.1 with gaf := { p.1.gaf with images := sortBy (fun (a b : Image) => a.id ≤ b.id) (p.1.gaf.images ++ [m]) } }
      let t := (t.regions.filter fun (r : Region) => r.image == id && r.cls == 1 && !r.shut).foldl (fun t r =>
        if r.srcLen = 0 then t.setRegion id r.entry (fun x => { x with loaded := true })
        else t.addBuiltIn (.weightLoad r.entry) id none (benchOf r.start) (copyXfers (m.addr + r.srcOff) r.start r.srcLen)) t
      ((t.extendM 4 (bytesAt m.header 0x60 32)).syncSpad).syncStore

/-- Descriptors that read a region as weight blocks. -/
def blockReaders (m : Image) (entry : Nat) : List Desc := m.descs.filter fun d => d.readsBlocks && d.ref 2 == some entry

end State

/-! KV layout record (08_kv_pages.md, R191). -/

namespace Kv
def pageLog2 (k : List Byte) : Nat := leAt k 0 1
def storeFmt (k : List Byte) : Nat := leAt k 1 1
def heads (k : List Byte) : Nat := leAt k 2 1
def layers (k : List Byte) : Nat := leAt k 3 1
def dim (k : List Byte) : Nat := leAt k 4 2
def hot (k : List Byte) : Nat := leAt k 6 1
def mode (k : List Byte) : Nat := leAt k 7 1
def window (k : List Byte) : Nat := leAt k 8 4
def tokPerBase (k : List Byte) : Nat := leAt k 0xC 2
def headroom (k : List Byte) : Nat := leAt k 0xE 1
def minExp (k : List Byte) : Int := toSigned 8 (leAt k 0xF 1)
def listLen (k : List Byte) : Nat := leAt k 0x10 4
def pageBytes (k : List Byte) : Nat := leAt k 0x14 4
def stageFrames (k : List Byte) : Nat := leAt k 0x18 4
def ring (k : List Byte) : Nat := leAt k 0x1C 1
def region (k : List Byte) : Nat := leAt k 0x1D 1
def perPage (k : List Byte) : Nat := 2 ^ pageLog2 k
/-- Scale headers and position rows of a page (R190). -/
def scaleBytes (k : List Byte) : Nat := 64 * ceilDiv (heads k) 8
def posBytes (k : List Byte) : Nat := 64 * ceilDiv (perPage k) 16
def sets (k : List Byte) : Nat := if ring k = 0 then 1 else 2
end Kv

end Sys2Proof.Machine
end

