-- ==== Sys2Proof/Machine/Links.lean ====
section
/-! DEFINITION. Ranratre links: FEC, frames, compression, encryption, routing, replay, reports, port states
(13_links.md, R300 to R319, R329, R330). -/
namespace Sys2Proof.Machine
open Sys2Proof

/-! FEC: RS(136,132) over GF(2⁸) with polynomial 0x11D and generator roots α⁰ to α³ (R304). -/

/-- Product in GF(2⁸). -/
def gfMul (a b : Nat) : Nat :=
  ((List.range 8).foldl (fun (acc : Nat × Nat) i =>
    let r := if b.testBit i then acc.1 ^^^ acc.2 else acc.1
    let x := acc.2 * 2
    (r, if x < 256 then x else x ^^^ 0x11D)) (0, a)).1

def gfPow (a : Nat) : Nat → Nat
  | 0 => 1
  | n + 1 => gfMul a (gfPow a n)

def gfAlpha (n : Nat) : Nat := gfPow 2 (n % 255)

/-- Inverse: a²⁵⁴. -/
def gfInv (a : Nat) : Nat := gfPow a 254

/-- The generator (x + α⁰)(x + α¹)(x + α²)(x + α³), highest power first without the leading 1. -/
def rsGen : List Nat :=
  let mulBy (p : List Nat) (r : Nat) : List Nat := (p ++ [0]).zipWith (· ^^^ ·) (0 :: p.map (gfMul r))
  ((List.range 4).foldl (fun p i => mulBy p (gfAlpha i)) [1]).drop 1

/-- Four check symbols of 132 data symbols, first symbol the highest power (DEDUCED, notes/assumptions/16.md). -/
def rsCheck (data : List Nat) : List Nat :=
  data.foldl (fun reg d =>
    let f := d ^^^ reg.headD 0
    ((reg.drop 1) ++ [0]).zipWith (· ^^^ ·) (rsGen.map (gfMul f))) [0, 0, 0, 0]

/-- Syndrome k of a codeword. -/
def rsSyn (cw : List Nat) (k : Nat) : Nat := cw.foldl (fun acc c => gfMul acc (gfAlpha k) ^^^ c) 0

/-- Decode a codeword: the corrected symbols and how many were wrong, none when uncorrectable. -/
def rsDecode (cw : List Nat) : Option (List Nat × Nat) :=
  let s0 := rsSyn cw 0; let s1 := rsSyn cw 1; let s2 := rsSyn cw 2; let s3 := rsSyn cw 3
  let n := cw.length
  if s0 = 0 ∧ s1 = 0 ∧ s2 = 0 ∧ s3 = 0 then some (cw, 0)
  else
    let loc (p : Nat) : Nat := gfAlpha (n - 1 - p)
    let det := gfMul s0 s2 ^^^ gfMul s1 s1
    if det = 0 then
      match (List.range n).find? (fun p => s0 != 0 && gfMul s0 (loc p) == s1 && gfMul s1 (loc p) == s2 && gfMul s2 (loc p) == s3) with
      | some p => some (listMod cw p (· ^^^ s0), 1)
      | none => none
    else
      let l1 := gfMul (gfMul s0 s3 ^^^ gfMul s1 s2) (gfInv det)
      let l2 := gfMul (gfMul s1 s3 ^^^ gfMul s2 s2) (gfInv det)
      let roots := (List.range n).filter fun p => (gfMul (loc p) (loc p) ^^^ gfMul l1 (loc p)) ^^^ l2 == 0
      match roots with
      | [p, q] =>
        let e2 := gfMul (s1 ^^^ gfMul s0 (loc p)) (gfInv (loc p ^^^ loc q))
        let e1 := s0 ^^^ e2
        some (listMod (listMod cw p (· ^^^ e1)) q (· ^^^ e2), 2)
      | _ => none

/-- Codeword `c` of a wire frame: data byte i is in codeword i mod 8 (R304). -/
def codeword (wire : List Byte) (c : Nat) : List Nat :=
  (List.range 136).map fun q => (wire.getD (8 * q + c) 0).toNat

/-- 1,056 data bytes with their 32 check bytes. -/
def fecEncode (data : List Byte) : List Byte :=
  let checks := (List.range 8).map fun c => rsCheck ((List.range 132).map fun q => (data.getD (8 * q + c) 0).toNat)
  data ++ (List.range 32).map fun i => BitVec.ofNat 8 ((checks.getD (i % 8) []).getD (i / 8) 0)

/-- The corrected data bytes, how many codewords were corrected, and how many are uncorrectable. -/
def fecDecode (wire : List Byte) : List Byte × Nat × Nat :=
  let ds := (List.range 8).map fun c => (codeword wire c, rsDecode (codeword wire c))
  let words := ds.map fun d => match d.2 with | some (w, _) => w | none => d.1
  ((List.range 1056).map (fun i => BitVec.ofNat 8 ((words.getD (i % 8) []).getD (i / 8) 0)),
   (ds.filter fun d => match d.2 with | some (_, n) => n != 0 | none => false).length,
   (ds.filter fun d => d.2.isNone).length)

/-- Codewords of a wire frame that are uncorrectable. -/
def fecBad (wire : List Byte) : List Nat := (List.range 8).filter fun c => (rsDecode (codeword wire c)).isNone

/-! Lanes (R304): bits go on a lane least significant first (notes/assumptions/16.md). -/

/-- One bit through x⁵⁸ + x³⁹ + 1: `line` holds the last 58 bits on the line; `rx` descrambles. -/
def scrambleBit (rx : Bool) (line : Nat) (b : Bool) : Nat × Bool :=
  let y := xor b (xor (line.testBit 57) (line.testBit 38))
  ((2 * line + b2n (if rx then b else y)) % 2 ^ 58, y)

def scrambleByte (rx : Bool) (line : Nat) (x : Byte) : Nat × Byte :=
  let r := (List.range 8).foldl (fun (a : Nat × Nat) i =>
    let y := scrambleBit rx a.1 (x.toNat.testBit i)
    (y.1, a.2 + b2n y.2 * 2 ^ i)) (line, 0)
  (r.1, BitVec.ofNat 8 r.2)

def scramble (rx : Bool) (line : Nat) (bs : List Byte) : Nat × List Byte :=
  bs.foldl (fun (a : Nat × List Byte) x => let y := scrambleByte rx a.1 x; (y.1, a.2 ++ [y.2])) (line, [])

/-- The alignment marker: 16 bytes, alternating 0x0F and 0xF0. -/
def laneMarker : List Byte := (List.range 16).map fun i => if i % 2 = 0 then 0x0F else 0xF0

/-- Codewords of a frame on the `k`-th of `n` lanes: even ones on the first, odd ones on the second, all on a single one. -/
def laneWords (n k : Nat) : List Nat := (List.range 8).filter fun c => n == 1 || c % 2 == k

/-- One frame of the `k`-th of `n` lanes goes out: what the line carries, and the lane's coding after it. -/
def LaneCode.send (x : LaneCode) (wire : List Byte) (n k : Nat) : List Byte × LaneCode :=
  let ws := laneWords n k
  let r := scramble false x.line (ws.flatMap fun c => (codeword wire c).map (BitVec.ofNat 8))
  let due := decide (65536 ≤ x.words + ws.length)
  (r.2 ++ (if due then laneMarker else []), ⟨r.1, if due then 0 else x.words + ws.length⟩)

/-- What a lane brings of a frame, descrambled, the marker left out. -/
def LaneCode.take (x : LaneCode) (line : List Byte) (n k : Nat) : List Byte × LaneCode :=
  let ws := (laneWords n k).length
  let r := scramble true x.line (bytesAt line 0 (136 * ws))
  (r.2, ⟨r.1, if 65536 ≤ x.words + ws then 0 else x.words + ws⟩)

/-- The wire frame out of what its lanes brought. -/
def joinLanes (parts : List (List Byte)) : List Byte :=
  (List.range 1088).map fun i =>
    let c := i % 8
    if parts.length = 1 then (parts.getD 0 []).getD (136 * c + i / 8) 0
    else (parts.getD (c % 2) []).getD (136 * (c / 2) + i / 8) 0

/-! Messages (R307). -/

def msgHasData (op : Nat) (skip : Bool) : Bool := [1, 2, 4, 5, 6, 7].contains op && !(op == 7 && skip)

def Msg.header (m : Msg) : List Byte :=
  leBytes 1 (m.op + 16 * m.vc + 64 * b2n m.poison + 128 * b2n m.skip) ++ leBytes 1 (m.hops + 16 * m.code) ++
  leBytes 2 m.dest ++ leBytes 2 m.src ++ leBytes 2 m.tag ++ leBytes 6 m.addr ++ leBytes 1 (b2n m.returnOld) ++ leBytes 1 m.short

def parseMsg (bs : List Byte) : Msg :=
  let b0 := leAt bs 0 1
  { op := slice b0 0 4, vc := slice b0 4 2, poison := bitAt b0 6, skip := bitAt b0 7,
    hops := slice (leAt bs 1 1) 0 4, code := slice (leAt bs 1 1) 4 4,
    dest := slice (leAt bs 2 2) 0 10, src := slice (leAt bs 4 2) 0 10, tag := leAt bs 6 2, addr := leAt bs 8 6,
    returnOld := bitAt (leAt bs 14 1) 0, data := [], short := leAt bs 15 1 }

/-! Compression (R309, R312). -/

def words32 (bs : List Byte) : List Nat := (List.range (bs.length / 4)).map fun i => leAt bs (4 * i) 4

/-- The compressed slot of a pair of data units, if at most 58 of its words are not zero. -/
def compress (pair : List Byte) : Option (List Byte) :=
  let ws := words32 pair
  let nz := (List.range 128).filter fun i => ws.getD i 0 != 0
  if nz.length ≤ 58 then
    some (bytesAt (leBytes 2 nz.length ++ leBytes 2 0 ++ leBytes 4 (crc32c pair) ++
      leBytes 16 (sumNat (nz.map fun i => 2 ^ i)) ++ nz.flatMap fun i => leBytes 4 (ws.getD i 0)) 0 256)
  else none

/-- The 512 decoded bytes of a compressed slot, or none where the block is poisoned (R312). -/
def expand (slot : List Byte) : Option (List Byte) :=
  let n := leAt slot 0 2
  let bm := leAt slot 8 16
  let idx := (List.range 128).filter fun i => bitAt bm i
  let out := (List.range 128).flatMap fun i =>
    if bitAt bm i then leBytes 4 (leAt slot (24 + 4 * (idx.filter (· < i)).length) 4) else leBytes 4 0
  if idx.length ≠ n ∨ 58 < n ∨ (slot.drop (24 + 4 * n)).any (· != 0) ∨ crc32c out ≠ leAt slot 4 4 then none else some out

/-! Frames (R303, R310). -/

/-- Two-bit slot formats and the slots. -/
abbrev Slots := List (Nat × List Byte)

/-- Pack data units into raw and compressed slots, in order. -/
def packUnits (comp : Bool) : List (List Byte) → Slots
  | [] => []
  | [u] => [(2, u)]
  | u :: v :: us =>
    match (if comp then compress (u ++ v) else none) with
    | some c => (3, c) :: packUnits comp us
    | none => (2, u) :: (2, v) :: packUnits comp us

/-- The header slot and data slots of a frame's messages. -/
def frameSlots (comp : Bool) (ms : List Msg) : Slots :=
  (1, bytesAt (ms.flatMap Msg.header) 0 256) ::
    packUnits comp ((ms.filter fun m => msgHasData m.op m.skip).map fun m => bytesAt m.data 0 256)

/-- The longest prefix of the messages that one frame carries: at most 16 headers and four slots, one kind of frame. -/
def takeFrame (comp : Bool) : Nat → List Msg → List Msg → List Msg × List Msg
  | 0, acc, ms => (acc, ms)
  | _, acc, [] => (acc, [])
  | fuel + 1, acc, m :: ms =>
    let same := match acc.head? with
      | some a => (a.op == 8) == (m.op == 8)
      | none => true
    if same && decide (acc.length < 16) && decide ((frameSlots comp (acc ++ [m])).length ≤ 4) then
      takeFrame comp fuel (acc ++ [m]) ms
    else (acc, m :: ms)

namespace State

def chipId (s : State) : Nat := s.rd Fd.LNK_CHIP_ChipId
def idValid (s : State) : Bool := s.rd Fd.LNK_CHIP_IdValid == 1

/-- The port carries frames: Up or Degraded, enabled, not in packet mode (R302, R315). -/
def portUp (s : State) (p : Nat) : Bool :=
  (s.rd Fd.LNK_STATUS_State p == 2 || s.rd Fd.LNK_STATUS_State p == 3) && s.rd Fd.LNK_CTL_PacketMode p == 0
    && s.rd Fd.LNK_PAGE_CTL_Enable p == 1

/-- Encryption in use on the port: agreed in training and asked for (R301, R310). -/
def encrypting (s : State) (p : Nat) : Bool := bitAt (s.rd Fd.LNK_STATUS_Features p) 0 && s.rd Fd.LNK_CTL_Encrypt p == 1

/-- Compression in use (R309). -/
def compressing (s : State) (p : Nat) : Bool :=
  bitAt (s.rd Fd.LNK_STATUS_Features p) 1 && s.rd Fd.LNK_CTL_Compress p == 1 &&
    (!s.encrypting p || bitAt (s.rd Fd.LNK_STATUS_Features p) 2)

/-- A frame goes onto the lanes in service (R304). -/
def sendLanes (s : State) (p : Nat) (wire : List Byte) : State :=
  let lanes := (s.port p).lanes
  lanes.zipIdx.foldl (fun s x =>
    let r := ((s.port p).txLanes.getD x.1 {}).send wire lanes.length x.2
    (s.setPort p fun l => { l with txLanes := listSet l.txLanes x.1 r.2 }).put (.lane p x.1 r.1)) s

/-- The frame that the lanes in service bring (R304). -/
def takeLanes (s : State) (p : Nat) (lines : List (List Byte)) : List Byte × State :=
  let lanes := (s.port p).lanes
  let got := lanes.zipIdx.map fun x => (x.1, ((s.port p).rxLanes.getD x.1 {}).take (lines.getD x.2 []) lanes.length x.2)
  (joinLanes (got.map fun x => x.2.1), s.setPort p fun l => { l with rxLanes := got.foldl (fun xs x => listSet xs x.1 x.2.2) l.rxLanes })

/-- Build and put out one frame of a port (R303 to R310). `consume` is false for Idle frames, which take no Seq. -/
def emitFrame (s : State) (p type : Nat) (slots : Slots) (consume : Bool) : State :=
  let lp := s.port p
  let enc := s.encrypting p && (type == 1 || type == 3)
  let keys := lp.keys.getD {}
  let fmts := sumNat ((List.range slots.length).map fun i => (slots.getD i (0, [])).1 * 4 ^ i)
  let credits := sumNat ((List.range 4).map fun v => Nat.min 63 (lp.owed.getD v 0) * 64 ^ v)
  let hdr := leBytes 1 type ++ leBytes 1 (b2n enc + 2 * lp.txEpoch + 4 * b2n lp.nak) ++ leBytes 3 lp.txSeq ++
    leBytes 3 ((lp.rxSeq + 2 ^ 24 - 1) % 2 ^ 24) ++ leBytes 1 fmts ++ leBytes 3 credits ++ leBytes 4 (lp.txCount % 2 ^ 32)
  let area := bytesAt (slots.flatMap fun x => x.2) 0 1024
  let iv := keys.txSalt * 2 ^ 64 + lp.txCount
  let body := if enc then bytesAt (Config.gcmEncrypt keys.txKey iv hdr area) 0 1024 else area
  let tag := if enc then bytesAt (Config.gcmTag keys.txKey iv hdr body) 0 16
    else leBytes 4 (crc32c (hdr ++ body)) ++ leBytes 12 0
  let s := s.setPort p fun l =>
    { l with nak := false
             owed := l.owed.map fun n => n - Nat.min 63 n
             txSeq := if consume then (l.txSeq + 1) % 2 ^ 24 else l.txSeq
             txCount := if type = 1 ∨ type = 3 then l.txCount + 1 else l.txCount
             txFrames := l.txFrames + 1 }
  (s.put (.frame p (fecEncode (hdr ++ body ++ tag)))).sendLanes p (fecEncode (hdr ++ body ++ tag))

/-- Send one frame of messages and keep them until they are acknowledged (R305). -/
def emitMsgs (s : State) (p : Nat) (raw : Bool) (ms : List (Option Nat × Msg)) : State :=
  let type := if (ms.head?.map (·.2.op)) == some 8 then 3 else 1
  let seq := (s.port p).txSeq
  let s := s.setPort p fun l => { l with unacked := l.unacked ++ [(seq, ms, [])] }
  s.emitFrame p type (frameSlots (!raw && s.compressing p) (ms.map (·.2))) true

/-- Send one Key frame of up to 1,024 bytes of a handshake message (R313; notes/assumptions/10.md); while 1,024 frames are unacknowledged
it waits (R305). -/
def emitKey (s : State) (p : Nat) (bs : List Byte) : State :=
  if 1024 ≤ (s.port p).unacked.length then s.setPort p fun l => { l with keyQueue := l.keyQueue ++ [bs] }
  else
  let seq := (s.port p).txSeq
  let s := s.setPort p fun l => { l with unacked := l.unacked ++ [(seq, [], bs)] }
  s.emitFrame p 2 ((List.range (ceilDiv bs.length 256)).map fun i => (2, bytesAt bs (256 * i) 256)) true

/-- A handshake message goes out in Key frames: kind (1 Hello, 2 key message), length, content. -/
def emitKeys (s : State) (p kind : Nat) (bs : List Byte) : State :=
  let all := leBytes 1 kind ++ leBytes 3 bs.length ++ bs
  (List.range (ceilDiv all.length 1024)).foldl (fun s i => s.emitKey p ((all.drop (1024 * i)).take 1024)) s

/-- Messages of a replay go back to the front of the queue, to be sent raw, and their credits with them. -/
def requeue (s : State) (p : Nat) (ms : List (Option Nat × Msg)) : State :=
  s.setPort p fun l =>
    { l with queue := ms ++ l.queue, rawLeft := l.rawLeft + ms.length, credits := ms.foldl (fun cr m => listMod cr m.2.vc (· + 1)) l.credits }

/-- Send frame after frame of the messages, up to 1,024 unacknowledged frames (R305). -/
def emitAll (s : State) (p : Nat) (raw : Bool) : Nat → List (Option Nat × Msg) → State
  | 0, _ => s
  | _, [] => s
  | fuel + 1, m :: ms =>
    if 1024 ≤ (s.port p).unacked.length then s.requeue p (m :: ms)
    else
      let n := (takeFrame (!raw && s.compressing p) 16 [m.2] (ms.map (·.2))).1.length
      (s.emitMsgs p raw ((m :: ms).take n)).emitAll p raw fuel ((m :: ms).drop n)

/-- Up to `n` messages of the queue that a credit of their VC lets go now, those that wait, and the credits left (R306). -/
def splitCredits (n : Nat) (cr : List Nat) : List (Option Nat × Msg) → List (Option Nat × Msg) × List (Option Nat × Msg) × List Nat
  | [] => ([], [], cr)
  | m :: ms =>
    if n = 0 then ([], m :: ms, cr)
    else if 0 < cr.getD m.2.vc 0 then
      let (a, b, c) := splitCredits (n - 1) (listMod cr m.2.vc (· - 1)) ms
      (m :: a, b, c)
    else
      let (a, b, c) := splitCredits n cr ms
      (a, m :: b, c)

/-- Send frames of queued messages while credits let some go and fewer than 1,024 frames stay unacknowledged (R305). -/
def pumpFrames (s : State) (p : Nat) : Nat → State
  | 0 => s
  | fuel + 1 =>
    let lp := s.port p
    if 1024 ≤ lp.unacked.length then s
    else
      match (splitCredits lp.queue.length lp.credits lp.queue).1 with
      | [] => s
      | m :: ms =>
        let raw := lp.rawLeft != 0
        let ms := if raw then ms.take (lp.rawLeft - 1) else ms
        let n := (takeFrame (!raw && s.compressing p) 16 [m.2] (ms.map (·.2))).1.length
        let r := splitCredits n lp.credits lp.queue
        ((s.setPort p fun l => { l with queue := r.2.1, credits := r.2.2, rawLeft := l.rawLeft - n }).emitMsgs p raw r.1).pumpFrames p fuel

/-- Key frames that waited go out (R305). -/
def pumpKeys (s : State) (p : Nat) : State :=
  let held := (s.port p).keyQueue
  if held.isEmpty then s else held.foldl (fun s b => s.emitKey p b) (s.setPort p fun l => { l with keyQueue := [] })

/-- Send what the port may send; a chip without a number carries no messages (R305, R315). -/
def pump (s : State) (p : Nat) : State :=
  let s := if s.portUp p then s.pumpKeys p else s
  if s.portUp p && s.idValid then s.pumpFrames p (s.port p).queue.length else s

/-- Route of a destination chip: the live entry's primary, else its alternate (R315). -/
def routeOf (s : State) (dest : Nat) : Option Nat :=
  let e := (tabGet s.lnk.routes dest).getD 0
  if !(bitAt e 10) then none
  else if s.portUp (slice e 0 5) then some (slice e 0 5)
  else if bitAt e 11 && s.portUp (slice e 5 5) then some (slice e 5 5)
  else none

/-- Queue a message at a port and send what may go; `via` is the arrival port of a forwarded message. A chip without a number carries
no messages (R315). -/
def sendOn (s : State) (p : Nat) (m : Msg) (via : Option Nat := none) : State :=
  if s.idValid then (s.setPort p fun l => { l with queue := l.queue ++ [(via, m)] }).pump p else s

/-- Send a message this chip originates; none when it cannot be routed (R315). -/
def sendMsg (s : State) (m : Msg) : Option State :=
  if !s.idValid then none
  else (s.routeOf m.dest).map fun p =>
    s.sendOn p { m with hops := s.rd Fd.LNK_HOPS_MaxHops, src := s.chipId }

/-- A message that cannot go on is dropped and counted at its arrival port (R315). -/
def hopDrop (s : State) (p : Nat) : State := (s.count Fd.LNK_HOP_DROP_CNT p).setErr Fd.LNK_PAGE_ERR_HopDrop p

/-- Forward a message that arrived at port `p` for another chip (R315). -/
def forward (s : State) (p : Nat) (m : Msg) : State :=
  if !s.idValid ∨ m.hops ≤ 1 then s.hopDrop p
  else
    match s.routeOf m.dest with
    | none => s.hopDrop p
    | some q => s.sendOn q { m with hops := m.hops - 1 } (some p)

/-! Port states (R301, R330). -/

def reportEpoch (s : State) : Nat := s.rd Fd.LNK_EPOCH

/-- A report of R327: suspect, kind (1 link-down, 2 collective-timeout), epoch; the reporter is the message's source. -/
def reportMsg (s : State) (reporter suspect kind epoch : Nat) : Msg :=
  { op := 8, vc := 3, poison := false, skip := false, hops := s.rd Fd.LNK_HOPS_MaxHops, code := 3, dest := 0x3FF,
    src := reporter, tag := 0, addr := suspect + kind * 2 ^ 10 + epoch * 2 ^ 12, returnOld := false, data := [] }

/-- Flood a report on every Up or Degraded port but one (R329). -/
def flood (s : State) (except : Option Nat) (m : Msg) : State :=
  (List.range 32).foldl (fun s p =>
    if s.portUp p && except != some p then s.sendOn p { m with dest := s.rd Fd.LNK_STATUS_PeerChip p } else s) s

/-- Log a report and load LNK_LAST_SUSPECT (R329). -/
def noteReport (s : State) (suspect kind epoch reporter : Nat) : State :=
  let s := s.wr Fd.LNK_LAST_SUSPECT_Suspect suspect
  let s := s.wr Fd.LNK_LAST_SUSPECT_Kind kind
  s.logAdd PageKind.lnk.pageType 5 0 kind suspect epoch reporter

/-- Keep the last 256 report keys for 10 ms (R329). -/
def seenReports (s : State) : List (Nat × Nat × Nat × Nat × Nat) :=
  s.lnk.seen.filter fun k => s.now ≤ k.2.2.2.2 + 10000000

def seeReport (s : State) (suspect epoch reporter kind : Nat) : State :=
  let l := s.seenReports ++ [(suspect, epoch, reporter, kind, s.now)]
  { s with lnk := { s.lnk with
      seen := l.drop (l.length - 256)
      reported := tabPut s.lnk.reported suspect (Nat.max (epoch + 1) ((tabGet s.lnk.reported suspect).getD 0)) } }

/-- A report of this chip goes out (R329). -/
def sendReport (s : State) (suspect kind : Nat) : State :=
  let epoch := s.reportEpoch
  let s := s.count Fd.LNK_REPORT_CNT
  let s := s.noteReport suspect kind epoch s.chipId
  let s := s.seeReport suspect epoch s.chipId kind
  let s := { s with lnk := { s.lnk with origin :=
    (s.lnk.origin.filter fun (o : Nat × Nat × Nat) => s.now ≤ o.2.2 + 1000000) ++ [(suspect, kind, s.now)] } }
  s.flood none (s.reportMsg s.chipId suspect kind epoch)

/-- Originate a report (R329): a collective-timeout is quenched by any report against the suspect in the present epoch, or in this
millisecond; a link-down that meets an earlier report of the millisecond waits for the next one (notes/assumptions/102.md). -/
def originate (s : State) (suspect kind : Nat) : State :=
  let known := decide (s.reportEpoch + 1 ≤ (tabGet s.lnk.reported suspect).getD 0)
  let recent := (s.lnk.origin.any fun (o : Nat × Nat × Nat) => o.1 == suspect && o.2.2 / 1000000 == s.now / 1000000) ||
    s.lnk.owedDown.contains suspect
  if kind = 2 ∧ (known ∨ recent) then s.count Fd.LNK_QUENCH_CNT
  else if recent then
    { s with lnk := { s.lnk with owedDown := s.lnk.owedDown.filter (· != suspect) ++ [suspect] } }
  else s.sendReport suspect kind

/-- The link-down reports that waited go out. -/
def sendOwedReports (s : State) : State :=
  s.lnk.owedDown.foldl (fun s c => s.sendReport c 1) { s with lnk := { s.lnk with owedDown := [] } }

/-- A message that its port held has no route any more: the request of a transfer of this chip completes as an unmapped access when the
transfer lands, a message that this chip forwards is dropped at its arrival port (R315, R330). -/
def unrouted (s : State) (m : Option Nat × Msg) : State :=
  match m.1 with
  | some p => s.hopDrop p
  | none =>
    if [0, 2, 4, 5].contains m.2.op then
      { s with flights := s.flights.map fun (f : Flight) =>
          if f.remote && f.id % 65536 == m.2.tag then { f with remote := false, x := { f.x with bad := true } } else f }
    else s

/-- A message that leaves by one port whatever the route table says: samples of a link channel, a flooded report (R319, R329). -/
def portBound (s : State) (m : Option Nat × Msg) : Bool :=
  (m.2.op == 6 && m.1.isNone && m.2.src == s.chipId) || (m.2.op == 8 && m.2.code == 3)

/-- Route a message anew. -/
def routeAgain (s : State) (m : Option Nat × Msg) : State :=
  match s.routeOf m.2.dest with
  | some q => s.sendOn q m.2 m.1
  | none => s.unrouted m

/-- The route entry of a chip names port `p` (R315). -/
def routeNames (s : State) (dest p : Nat) : Bool :=
  let e := (tabGet s.lnk.routes dest).getD 0
  bitAt e 10 && (slice e 0 5 == p || (bitAt e 11 && slice e 5 5 == p))

/-- Queued messages go by the route entry in force when they leave (R331); one at a port that its entry names, while no port of the entry
is usable, has not left yet and waits there. -/
def reroute (s : State) : State :=
  (List.range 32).foldl (fun s p =>
    let stays (m : Option Nat × Msg) : Bool :=
      s.portBound m || s.routeOf m.2.dest == some p || ((s.routeOf m.2.dest).isNone && s.routeNames m.2.dest p)
    let moved := (s.port p).queue.filter fun m => !stays m
    moved.foldl routeAgain (s.setPort p fun l =>
      { l with queue := l.queue.filter stays, rawLeft := ((l.queue.take l.rawLeft).filter stays).length })) s

/-- The port goes Down: unacknowledged frames are lost, held messages are routed again (R330). -/
def portToDown (s : State) (p : Nat) : State :=
  let held := (s.port p).queue
  let s := s.wr Fd.LNK_STATUS_State 0 p
  let s := s.wr Fd.LNK_STATUS_Rate 0 p
  let s := s.setPort p fun l =>
    { l with queue := [], unacked := [], keyQueue := [], rawLeft := 0, partials := [], stage := 0, mine := none, peer := none,
             replays := 0, keys := none, next := none, nakAt := none, keepRate := false }
  let s := { s with sec := { s.sec with hsWait := s.sec.hsWait.filter (· != p) } }
  (held.filter fun m => !s.portBound m).foldl routeAgain s

/-- Down with PortDown set and a link-down report against the peer (R330, R400). -/
def portFails (s : State) (p : Nat) : State :=
  let peer := s.rd Fd.LNK_STATUS_PeerChip p
  let known := s.rd Fd.LNK_STATUS_PeerValid p
  let s := s.portToDown p
  let s := s.setErr Fd.LNK_PAGE_ERR_PortDown p
  if known = 1 then s.originate peer 1 else s

/-- Training starts (R301): the lanes train again; a port that was Up keeps its keys. -/
def startTraining (s : State) (p : Nat) : State := (s.wr Fd.LNK_STATUS_State 1 p).put (.training p)

/-- A lane of a link port goes out of service: the port trains on the other one at the same rate (R330). -/
def laneFails (s : State) (p lane : Nat) : State :=
  let left := (s.port p).lanes.filter (· != lane)
  let s := s.setPort p fun l => { l with lanes := left, laneErrs := l.laneErrs.filter fun x => x.1 != lane, keepRate := true }
  let s := (s.setErrLog Fd.LNK_PAGE_ERR_LaneDegraded p noEntry 0).count Fd.LNK_DEGRADE_CNT p
  if left.isEmpty then s.portFails p else s.startTraining p

/-- Uncorrectable codewords of a frame count at their lanes; a lane with more than LaneFailMax in one second fails (R330). -/
def laneErrors (s : State) (p : Nat) (cws : List Nat) : State :=
  let lanes := (s.port p).lanes
  let at_ (c : Nat) : Nat := lanes.getD (if lanes.length = 1 then 0 else c % 2) 0
  let s := s.setPort p fun l =>
    { l with laneErrs := (l.laneErrs.filter fun x => decide (s.now < x.2 + 1000000000)) ++ cws.map fun c => (at_ c, s.now) }
  match lanes.find? fun k => decide (s.rd Fd.LNK_REPLAY_LaneFailMax p < ((s.port p).laneErrs.filter fun x => x.1 == k).length) with
  | none => s
  | some k => s.laneFails p k

/-- Replay every unacknowledged frame from Ack + 1 on, Key frames first, with raw slots and new transmit counts (R305). -/
def replay (s : State) (p : Nat) : State :=
  let lp := s.port p
  if lp.unacked.isEmpty then s
  else
    if s.rd Fd.LNK_REPLAY_ReplayMax p ≤ lp.replays then
      (s.setPort p fun l => { l with replays := 0 }).startTraining p
    else
      let s := (s.count Fd.LNK_REPLAY_CNT p).evtDev 0x29
      let first := (lp.unacked.headD (0, [], [])).1
      let ms := lp.unacked.flatMap fun f => f.2.1
      let s := s.setPort p fun l => { l with txSeq := first, unacked := [], replays := l.replays + 1 }
      let s := ((lp.unacked.map (·.2.2)).filter fun b => !b.isEmpty).foldl (fun s b => s.emitKey p b) s
      s.emitAll p true ms.length ms

/-- Credits come back and frames up to Ack are done with (R305, R306). -/
def takeAck (s : State) (p ack credits : Nat) : State :=
  s.setPort p fun l =>
    let left := l.unacked.dropWhile fun f => (ack + 2 ^ 24 - f.1) % 2 ^ 24 < 2 ^ 23
    { l with unacked := left
             replays := if left.length < l.unacked.length then 0 else l.replays
             credits := (List.range 4).map fun v => l.credits.getD v 0 + slice credits (6 * v) 6 }

/-- A message has come whole: for this chip into the receive buffer of its VC, else forwarded; one whose buffer meets an
uncorrectable error (`spoiled`) goes on poisoned (R318). -/
def deliver (s : State) (p : Nat) (m : Msg) (spoiled : Bool) : State :=
  if s.idValid ∧ m.dest = s.chipId then s.setPort p fun l => { l with inbox := l.inbox ++ [m] }
  else (s.setPort p fun l => { l with owed := listMod l.owed m.vc (· + 1) }).forward p { m with poison := m.poison || spoiled }

/-- Give the next data unit to the first header that waits for one. -/
def giveUnit (ms : List Msg) (u : List Byte) : List Msg :=
  match ms with
  | [] => []
  | m :: rest => if msgHasData m.op m.skip && m.data.isEmpty then { m with data := u } :: rest else m :: giveUnit rest u

/-- Messages at the front whose data has come. -/
def ripe (ms : List Msg) : List Msg := ms.takeWhile fun m => !(msgHasData m.op m.skip && m.data.isEmpty)

/-- One slot of a good frame; `n` counts the messages that the frame has completed, `spoiled` says which of them met an uncorrectable
buffer error. -/
def takeSlot (s : State) (p : Nat) (spoiled : List Nat) (n : Nat) (slot : Nat × List Byte) : State × Nat :=
  let heads := (List.range 16).filterMap fun i =>
    let h := bytesAt slot.2 (16 * i) 16
    if h.all (· == 0) then none else some (parseMsg h)
  let units : List (List Byte) :=
    if slot.1 = 2 then [slot.2]
    else if slot.1 = 3 then (match expand slot.2 with | some d => [d.take 256, d.drop 256] | none => [])
    else []
  let s := s.setPort p fun l =>
    { l with partials := units.foldl giveUnit (if slot.1 = 1 then l.partials ++ heads else l.partials) }
  let done := ripe (s.port p).partials
  let s := s.setPort p fun l => { l with partials := l.partials.drop done.length }
  (done.zipIdx.foldl (fun s m => s.deliver p m.1 (spoiled.contains (n + m.2))) s, n + done.length)

/-- A frame is discarded: Nak once for a gap, and again where a replay of it fails (R305; notes/assumptions/103.md). -/
def discard (s : State) (p seq type : Nat) : State :=
  s.setPort p fun l =>
    let later := l.nakAt.any fun last =>
      let d := (seq + 2 ^ 24 - last) % 2 ^ 24
      decide (d < 2 ^ 23 ∧ (0 < d ∨ type = 0))
    { l with nak := l.nak || !later, nakAt := some seq }

/-- The peer sends under the new keys: the old receive key is erased (R314). -/
def newEpoch (s : State) (p epoch : Nat) : State :=
  s.setPort p fun l => if epoch != l.rxEpoch && l.next.isSome then { l with rxEpoch := epoch, keys := l.next, next := none } else l

/-- After a frame the port answers: what may be sent, or an Idle frame that carries Ack, Nak and credits. -/
def answer (s : State) (p : Nat) : State :=
  let n := s.out.length
  let t := s.pump p
  if t.out.length = n ∧ t.portUp p then t.emitFrame p 0 [] false else t

/-- FRAME_RECEIVE (R304, R305, R308 to R312): lanes, FEC, authentication, expansion, delivery in Seq order, or a Nak. -/
def receiveFrame (s : State) (p : Nat) (lines : List (List Byte)) (spoiled : List Nat) : State :=
  if !s.portUp p then s
  else
    let (wire, s) := s.takeLanes p lines
    let (d, corr, uncorr) := fecDecode wire
    let s := if 0 < corr then (s.count Fd.LNK_FEC_CORR_CNT p corr).setErr (Fd.PAGE_ERR_Corrected .lnk) p else s
    let s := if 0 < uncorr then (s.count Fd.LNK_FEC_UNCORR_CNT p uncorr).setErr (Fd.PAGE_ERR_Uncorrectable .lnk) p else s
    let s := s.laneErrors p (fecBad wire)
    let lp := s.port p
    let hdr := bytesAt d 0 16
    let type := leAt d 0 1
    let ff := leAt d 1 1
    let seq := leAt d 2 3
    let cipher := bytesAt d 16 1024
    let tag := bytesAt d 0x410 16
    let enc := bitAt ff 0
    let epoch := slice ff 1 1
    let keys := if epoch = lp.rxEpoch then lp.keys else lp.next
    let tx := leAt d 12 4
    let hi := (lp.rxCount + 2 ^ 31 - tx) / 2 ^ 32
    let iv := (keys.getD {}).rxSalt * 2 ^ 64 + (hi * 2 ^ 32 + tx)
    let want := s.encrypting p && (type == 1 || type == 3)
    let authOk :=
      if enc then keys.isSome && tag == bytesAt (Config.gcmTag (keys.getD {}).rxKey iv hdr cipher) 0 16
      else !want && tag == leBytes 4 (crc32c (hdr ++ cipher)) ++ leBytes 12 0
    let area := if enc then bytesAt (Config.gcmDecrypt (keys.getD {}).rxKey iv hdr cipher) 0 1024 else cipher
    let fmts := leAt d 8 1
    let slots : Slots := (List.range 4).map fun i => (slice fmts (2 * i) 2, bytesAt area (256 * i) 256)
    let bad3 := slots.filter fun x => x.1 == 3 && (expand x.2).isNone
    let s := if uncorr = 0 ∧ !authOk then s.count Fd.LNK_AUTH_FAIL_CNT p else s
    let s := if uncorr = 0 ∧ !bad3.isEmpty then (s.count Fd.LNK_EXPAND_ERR_CNT p bad3.length).setErr Fd.LNK_PAGE_ERR_ExpandErr p else s
    if !s.portUp p then s
    else if uncorr ≠ 0 ∨ !authOk ∨ !bad3.isEmpty ∨ 4 ≤ type then (s.discard p seq type).answer p
    else
      let s := if type = 1 then s.count64 Fd.LNK_RX_FRAMES_LO Fd.LNK_RX_FRAMES_HI p else s
      let s := s.newEpoch p epoch
      let s := s.setPort p fun l => { l with rxFrames := l.rxFrames + 1 }
      let s := s.takeAck p (leAt d 5 3) (leAt d 9 3)
      let s := if bitAt ff 2 then s.replay p else s
      if seq ≠ lp.rxSeq then
        let behind := (lp.rxSeq + 2 ^ 24 - seq) % 2 ^ 24 < 2 ^ 23
        (if behind then s else s.discard p seq type).answer p
      else
        let s := s.setPort p fun l =>
          { l with rxSeq := if type = 0 then l.rxSeq else (l.rxSeq + 1) % 2 ^ 24
                   rxCount := if enc then hi * 2 ^ 32 + tx + 1 else l.rxCount
                   nakAt := none }
        let s := if type = 1 ∨ type = 3 then (slots.foldl (fun (a : State × Nat) x => a.1.takeSlot p spoiled a.2 x) (s, 0)).1 else s
        s.answer p

/-- A message is taken out of its receive buffer, whose credit is then owed to the peer (R306). -/
def takeInbox (s : State) (p : Nat) (m : Msg) : State :=
  if (s.port p).inbox.contains m then
    s.setPort p fun l => { l with inbox := l.inbox.erase m, owed := listMod l.owed m.vc (· + 1) }
  else s

end State

/-- FRAME_RECEIVE (R305). -/
def execFrameReceive (port : Nat) (lines : List (List Byte)) (s : State) (spoiled : List Nat := []) : Result :=
  .next (s.begin_.receiveFrame port lines spoiled)

end Sys2Proof.Machine
end

