-- ==== Sys2Proof/Machine/Pktform.lean ====
section
/-! DEFINITION. Session entries, samples on the wire and egress packets (14_packet_ports.md, R335 to R339, R342, R343, R345, R347;
17_failover.md, R415). -/
namespace Sys2Proof.Machine
open Sys2Proof

/-! Session entries (R335, R336, R340). -/

namespace Session
def proto (x : List Byte) : Nat := leAt x 0 1
def dir (x : List Byte) : Nat := leAt x 1 1
def enc (x : List Byte) : Nat := leAt x 2 1
def flag (x : List Byte) (n : Nat) : Bool := bitAt (leAt x 3 1) n
def ipv6 (x : List Byte) : Bool := flag x 0
def pathA (x : List Byte) : Bool := flag x 1
def pathB (x : List Byte) : Bool := flag x 2
def ssrcCheck (x : List Byte) : Bool := flag x 3
def tagged (x : List Byte) : Bool := flag x 4
def per (x : List Byte) : Nat := leAt x 4 2
def payloadType (x : List Byte) : Nat := leAt x 6 1
def dscp (x : List Byte) : Nat := leAt x 7 1 % 64
def dstUdp (x : List Byte) : Nat := leAt x 8 2
def srcUdp (x : List Byte) : Nat := leAt x 0xA 2
/-- VLAN word, address and port of path 0 (A) or 1 (B); `p` is the port of the R55 endpoint. -/
def vlan (x : List Byte) (b : Bool) : Nat := leAt x (if b then 0xE else 0xC) 2
def addr (x : List Byte) (b : Bool) : List Byte := bytesAt x (if b then 0x20 else 0x10) 16
def srcFilter (x : List Byte) : List Byte := bytesAt x 0x30 16
def ssrc (x : List Byte) : Nat := leAt x 0x40 4
def rtpOffset (x : List Byte) : Nat := leAt x 0x44 4
def jitterUs (x : List Byte) : Nat := leAt x 0x48 4
def portB (x : List Byte) : Nat := leAt x 0x4C 1
def rate (x : List Byte) : Nat := leAt x 0x4D 1
def seqBase (x : List Byte) : Nat := leAt x 0x4E 2
/-- Bytes per sample (R336). -/
def width (x : List Byte) : Nat := [2, 3, 4].getD (enc x) 4
/-- Enabled paths as (path B, port). -/
def paths (x : List Byte) (p : Nat) : List (Bool × Nat) := (if pathA x then [(false, p)] else []) ++ (if pathB x then [(true, portB x)] else [])
def sourceAny (x : List Byte) : Bool := (srcFilter x).all (· == 0)

/-- Some datagram matches both ingress sessions, whose endpoints name ports `p` and `q` (R340). -/
def overlap (x : List Byte) (p : Nat) (y : List Byte) (q : Nat) : Bool :=
  dir x == 0 && dir y == 0 && dstUdp x == dstUdp y && (srcUdp x == 0 || srcUdp y == 0 || srcUdp x == srcUdp y) &&
    (sourceAny x || sourceAny y || srcFilter x == srcFilter y) &&
    (paths x p).any fun a => (paths y q).any fun b =>
      a.2 == b.2 && addr x a.1 == addr y b.1 && tagged x == tagged y && (!tagged x || vlan x a.1 % 4096 == vlan y b.1 % 4096)

end Session

/-! A standby entry (17_failover.md, R409). -/

namespace Standby
def valid (x : List Byte) : Bool := bitAt (leAt x 0 1) 0
def auto_ (x : List Byte) : Bool := bitAt (leAt x 0 1) 1
def origin (x : List Byte) : Nat := leAt x 2 2
def originEntry (x : List Byte) : Nat := leAt x 4 2
def local_ (x : List Byte) : Nat := leAt x 6 2 % 4096
def mirror (x : List Byte) : Nat := leAt x 8 8
def stride (x : List Byte) : Nat := leAt x 0x10 4
def poolOff (x : List Byte) : Nat := leAt x 0x18 8
def replayOff (x : List Byte) : Nat := leAt x 0x20 8
def template (x : List Byte) : List Byte := bytesAt x 0x40 256
/-- The template's Source. -/
def source (x : List Byte) : Nat := leAt (template x) 0x14 4
end Standby

/-- The Ethernet address of a multicast group, if the address is one (R334). -/
def groupMac (addr : List Byte) (ipv6 : Bool) : Option Nat :=
  if ipv6 then (if leAt addr 0 1 = 0xFF then some (0x333300000000 + ofBe (bytesAt addr 12 4)) else none)
  else if leAt addr 12 1 / 16 = 14 then some (0x01005E000000 + ofBe (bytesAt addr 13 3) % 2 ^ 23)
  else none

/-! The UDP checksum (R343; PRESUMED, notes/assumptions/105.md). -/

/-- Bytes summed as 16-bit words in network order. -/
def sumWords : List Byte → Nat
  | [] => 0
  | [a] => a.toNat * 256
  | a :: b :: r => a.toNat * 256 + b.toNat + sumWords r

/-- Ones' complement of the ones' complement sum; zero is sent as all ones. -/
def udpChecksum (ipv6 : Bool) (src dst : List Byte) (dstPort srcPort : Nat) (payload : List Byte) : Nat :=
  let n := 8 + payload.length
  let addrs := if ipv6 then src ++ dst else bytesAt src 12 4 ++ bytesAt dst 12 4
  let m := sumWords (addrs ++ beBytes 4 n ++ beBytes 4 17 ++ beBytes 2 srcPort ++ beBytes 2 dstPort ++ beBytes 2 n ++ payload) % 65535
  if m = 0 then 65535 else 65535 - m

/-! Samples (R339, R363). -/

/-- FP32 to a code of `b` bits: x × 2^(b − 1) rounded half to even and saturated, NaN as 0. -/
def codeOf (b x : Nat) : Int :=
  let top : Int := 2 ^ (b - 1)
  match fp32.decode x with
  | .nan => 0
  | .inf n => if n then -top else top - 1
  | .fin n m e => let (a, d) := dyFrac n m (e + ((b - 1 : Nat) : Int)); clampInt (-top) (top - 1) (roundQ .even a d)

/-- Code c of `b` bits as FP32: c / 2^(b − 1), rounded half to even. -/
def sampleOf (b : Nat) (c : Int) : Nat := f32OfInt c (1 - (b : Int))

/-- A sample of a session in network byte order. -/
def wireSample (enc x : Nat) : List Byte :=
  if enc = 0 then beBytes 2 (ofSigned 16 (codeOf 16 x))
  else if enc = 1 then beBytes 3 (ofSigned 24 (codeOf 24 x))
  else beBytes 4 x

def readSample (enc : Nat) (bs : List Byte) : Nat :=
  if enc = 0 then sampleOf 16 (toSigned 16 (ofBe (bytesAt bs 0 2)))
  else if enc = 1 then sampleOf 24 (toSigned 24 (ofBe (bytesAt bs 0 3)))
  else ofBe (bytesAt bs 0 4)

/-! Network time (R347, R415). -/

namespace State

/-- PTP at the instant n / d ns of the system counter, scaled by d × 2⁴⁰. -/
def ptpScaled (s : State) (n : Int) (d : Nat) : Int :=
  ((s.rd64 Fd.PKT_PTP_BASE : Nat) : Int) * d * 2 ^ 40 +
    (n - toSigned 64 (s.rd64 Fd.PKT_PTP_CNT) * d) * (2 ^ 40 + toSigned 32 (s.rd Fd.PKT_PTP_RATIO))

/-- A whole number of ns within 1 ns of PTP at an instant: consecutive mappings agree so (R347; what the servo takes is free,
notes/assumptions/35.md). -/
def agreed (s : State) (t : Nat) : Int :=
  let x := s.ptpScaled t 1
  if x % 2 ^ 40 = 0 then x / 2 ^ 40 + ((s.fresh [35] % 3 : Nat) : Int) - 1 else x / 2 ^ 40 + ((s.fresh [35] % 2 : Nat) : Int)

/-- A new mapping with this PtpBase and Ratio: its CntBase is the instant at which the mapping before it has PtpBase, to within 1 ns
(R347). -/
def publish (s : State) (base ratio : Nat) : State :=
  let cnt : Int := (s.now : Int) - (s.agreed s.now - toSigned 64 base)
  ((s.wr64 Fd.PKT_PTP_BASE base).wr64 Fd.PKT_PTP_CNT (ofSigned 64 cnt)).wr Fd.PKT_PTP_RATIO ratio

/-- First instant at or after `t` at which PTP is a multiple of 10⁶ ns. -/
def ptpSlot (s : State) (t : Nat) : Nat :=
  let now := s.ptpScaled t 1
  let goal := -((-now) / (1000000 * 2 ^ 40)) * (1000000 * 2 ^ 40)
  let rate := 2 ^ 40 + toSigned 32 (s.rd Fd.PKT_PTP_RATIO)
  t + (-((now - goal) / (if rate < 1 then 1 else rate))).toNat

/-! Sending (R342, R343, R345). -/

/-! Stream tables (R52). -/

def tableBase (s : State) : Nat := s.base Fd.GAF_STREAM_BASE_LO_BaseLo Fd.GAF_STREAM_BASE_HI_BaseHi
def liveAddr (s : State) (e : Nat) : Nat := s.tableBase + 256 * e
def shadowEntry (s : State) (e : Nat) : Nat := s.tableBase + 0x100000 + 256 * e
def liveRaw (s : State) (e : Nat) : List Byte := s.devBytes (s.liveAddr e) 256
def shadowRaw (s : State) (e : Nat) : List Byte := s.devBytes (s.shadowEntry e) 256

/-- The Sink that the live entry of a stream names (R54). -/
def namedSink (s : State) (t : Stream) : Nat := leAt (s.liveRaw t.entry) 0x18 4

/-- The session entry behind an endpoint, as the table holds it. -/
def readSession (s : State) (ep : Nat) : List Byte :=
  s.devBytes (s.base Fd.PKT_SESSION_BASE_LO Fd.PKT_SESSION_BASE_HI (epPort ep) + 128 * epIndex ep) 128

/-- The session entry behind an endpoint of a stream as the device has read it (R335). -/
def session (s : State) (t : Stream) (ep : Nat) : List Byte := (tabGet t.sess ep).getD (s.readSession ep)

/-- Packet endpoints of a stream. -/
def packetEnds (t : Stream) : List Nat := [t.source, t.sink].filter fun ep => epKind ep == 2

/-- The device reads the session entries that a stream names, at the application that arms it (R335). -/
def readSessions (s : State) (t : Stream) : Stream :=
  { t with sess := (packetEnds t).map fun ep => (ep, s.readSession ep) }

/-- A Sink that the stream's entry newly names at an admission (R57): its session entry is read, and a packet sink that follows one
of another kind starts at the chunk that commits next (notes/assumptions/106.md). -/
def newSink (s : State) (old t : Stream) : Stream :=
  if t.sink = old.sink ∨ epKind t.sink ≠ 2 then t
  else
    let x := s.readSession t.sink
    let t := { t with sess := tabPut t.sess t.sink x }
    if epKind old.sink = 2 then t else { t with sent := roundUp (t.committed * t.chunkLen) (Nat.max 1 (Session.per x)) }

/-! Live sessions (R335, R409). -/

def standbyAddr (s : State) (k : Nat) : Nat := s.base Fd.PNT_STANDBY_BASE_LO Fd.PNT_STANDBY_BASE_HI + 512 * k
def standbyRaw (s : State) (k : Nat) : List Byte := s.devBytes (s.standbyAddr k) 512

/-- Packet sources that Valid standby entries name (R409). -/
def standbySources (s : State) : List Nat :=
  if s.base Fd.PNT_STANDBY_BASE_LO Fd.PNT_STANDBY_BASE_HI = 0 then []
  else (List.range 4096).filterMap fun k =>
    let e := s.standbyRaw k
    if Standby.valid e && epKind (Standby.source e) == 2 then some (Standby.source e) else none

/-- Live sessions, each as port A, number and entry: those that the live entries name, a Sink as soon as it is applied (R335, R57). -/
def liveSessions (s : State) : List (Nat × Nat × List Byte) :=
  (s.streams.flatMap fun (t : Stream) =>
    ([t.source, s.namedSink t].filter fun ep => epKind ep == 2).map fun ep => (epPort ep, epIndex ep, s.session t ep)) ++
    s.standbySources.map fun ep => (epPort ep, epIndex ep, s.readSession ep)

/-- A live session lies on port `p`, as its port A or through PortB (R335, R349). -/
def onPort (p : Nat) (x : Nat × Nat × List Byte) : Bool := (x.1 == p) || (Session.pathB x.2.2 && Session.portB x.2.2 == p)

/-- Session table entries in use, as (port, number): that of port A and that of PortB (R335; notes/assumptions/85.md). -/
def heldEntries (s : State) : List (Nat × Nat) :=
  s.liveSessions.flatMap fun x => (x.1, x.2.1) :: (if Session.pathB x.2.2 then [(Session.portB x.2.2, x.2.1)] else [])

/-! What the MP does at a packet port (R334, R346). -/

/-- The port's own address, in the form of R335. -/
def localAddr (s : State) (p : Nat) (ipv6 : Bool) : List Byte :=
  if ipv6 then (List.range 4).flatMap fun i => leBytes 4 (s.rdAt Fd.PKT_IPV6 p i)
  else List.replicate 10 0 ++ [0xFF, 0xFF] ++ leBytes 4 (s.rd Fd.PKT_IPV4 p)

def portMac (s : State) (p : Nat) : Nat := s.rd Fd.PKT_MAC_LO p + 2 ^ 32 * s.rd Fd.PKT_MAC_HI p

/-- The port is a packet port that is Up. -/
def pktUpAt (s : State) (p : Nat) : Bool := decide (p < 8) && s.rd Fd.LNK_CTL_PacketMode p == 1 && s.rd Fd.PKT_STATUS_State p == 2

/-- Multicast groups that live ingress sessions name on a port. -/
def liveGroups (s : State) (p : Nat) (ipv6 : Bool) : List (List Byte) :=
  dedup (s.liveSessions.flatMap fun x =>
    if Session.dir x.2.2 ≠ 0 ∨ Session.ipv6 x.2.2 ≠ ipv6 then []
    else (((Session.paths x.2.2 x.1).filter fun b => b.2 == p).map fun b => Session.addr x.2.2 b.1).filter fun a => (groupMac a ipv6).isSome)

/-- The MP reports the groups of a port, if any (R334). -/
def reportGroups (s : State) (p : Nat) (ipv6 : Bool) : State :=
  let g := s.liveGroups p ipv6
  if g.isEmpty ∨ !s.pktUpAt p then s else s.put (.fromMp p (.report ipv6 g))

/-- Key of a next hop: port and address. -/
def hopKey (p : Nat) (addr : List Byte) : Nat := p * 2 ^ 128 + ofBe addr

/-- The MP asks for the next hop of a unicast destination that it has not resolved (R334). -/
def resolveHop (s : State) (p : Nat) (ipv6 : Bool) (addr : List Byte) : State :=
  if (groupMac addr ipv6).isSome ∨ (tabGet s.servo.macs (hopKey p addr)).isSome ∨ !s.pktUpAt p then s else s.put (.fromMp p (.whoHas ipv6 addr))

/-- What a session that becomes live asks of the MP. -/
def announceSession (s : State) (p : Nat) (x : List Byte) : State :=
  (Session.paths x p).foldl (fun s b =>
    if Session.dir x = 0 then s.reportGroups b.2 (Session.ipv6 x) else s.resolveHop b.2 (Session.ipv6 x) (Session.addr x b.1)) s

/-- The destination MAC of an egress address; that of a next hop not resolved is free (notes/assumptions/105.md). -/
def hopMac (s : State) (p : Nat) (ipv6 : Bool) (addr : List Byte) : Nat :=
  match groupMac addr ipv6 with
  | some m => m
  | none => (tabGet s.servo.macs (hopKey p addr)).getD (s.fresh [105, 0, p] % 2 ^ 48)

/-- The stamp of an event message at the message timestamp point: the counter, to within 8 ns (R346). -/
def eventStamp (s : State) (dir : Nat) : Nat := s.now + s.fresh [105, 1, dir] % 17 - 8

/-- A packet port that is Up sends and receives for sessions while it is enabled (R348, R349). -/
def pktLive (s : State) (p : Nat) : Bool := s.pktUpAt p && s.rd Fd.PKT_PAGE_CTL_Enable p == 1

/-- One packet on every enabled path (R343, R345); `payload` is told whether the path is B. -/
def sendPaths (s : State) (x : List Byte) (p : Nat) (payload : Bool → List Byte) : State :=
  (Session.paths x p).foldl (fun s a =>
    if !s.pktLive a.2 then s
    else
      let v6 := Session.ipv6 x
      let src := s.localAddr a.2 v6
      let dst := Session.addr x a.1
      let body := payload a.1
      let s := s.put (.packet a.2 (s.hopMac a.2 v6 dst) (if Session.tagged x then some (Session.vlan x a.1) else none) v6 src dst
        (Session.dstUdp x) (Session.srcUdp x) (Session.dscp x) (s.rd Fd.PKT_CFG_Hops a.2) (!v6) 0
        (udpChecksum v6 src dst (Session.dstUdp x) (Session.srcUdp x) body) body)
      s.count64 Fd.PKT_TX_LO Fd.PKT_TX_HI a.2) s

end State

/-- The payload of a native datagram (R338). -/
def nativePayload (x : List Byte) (sess tag channels : Nat) (chunkEnd pathB filled : Bool) (seq index ptp : Nat) (frames : List (List Nat)) :
    List Byte :=
  beBytes 2 0x4952 ++ beBytes 1 1 ++ beBytes 1 (Session.enc x) ++ beBytes 1 channels ++
    beBytes 1 (b2n chunkEnd + 2 * b2n pathB + 4 * b2n filled) ++ beBytes 2 frames.length ++ beBytes 4 seq ++ beBytes 4 (sess % 4096) ++
    beBytes 4 tag ++ beBytes 4 0 ++ beBytes 8 index ++ beBytes 8 ptp ++ frames.flatMap fun f => f.flatMap (wireSample (Session.enc x))

/-- The payload of an AES67 packet (R337). -/
def rtpPayload (x : List Byte) (seq ts : Nat) (frames : List (List Nat)) : List Byte :=
  [0x80] ++ beBytes 1 (Session.payloadType x % 128) ++ beBytes 2 seq ++ beBytes 4 ts ++ beBytes 4 (Session.ssrc x) ++
    frames.flatMap fun f => f.flatMap (wireSample (Session.enc x))

/-- Frames of `ch` channels out of FP32 bytes. -/
def framesOf (ch n : Nat) (bs : List Byte) : List (List Nat) :=
  (List.range n).map fun i => (List.range ch).map fun c => leAt bs ((i * ch + c) * 4) 4

namespace State

/-- Samples of a stream go out over its link channel as Op 6 messages (R319). -/
def sendUnits (s : State) (t : Stream) (data : List Byte) : State :=
  let p := epPort t.sink
  (List.range (ceilDiv data.length 256)).foldl (fun s u =>
    s.sendOn p { op := 6, vc := 0, poison := false, skip := false, hops := s.rd Fd.LNK_HOPS_MaxHops, code := 0,
                 dest := s.rd Fd.LNK_STATUS_PeerChip p, src := s.chipId, tag := 0,
                 addr := epIndex t.sink + u * 4096, returnOld := false, data := bytesAt data (256 * u) 256 }) s

/-- A committed chunk of a dialogue stream goes out as native datagrams, numbered from SeqBase. PtpTime of a stream without slots
is not stated (R338, R342, R343; notes/assumptions/34.md). -/
def sendChunk (s : State) (t : Stream) (j first : Nat) (frames : List (List Nat)) : State :=
  let x := s.session t t.sink
  let per := Nat.max 1 (Session.per x)
  let n := ceilDiv frames.length per
  let s := (List.range n).foldl (fun s i =>
    let part := (frames.drop (per * i)).take per
    s.sendPaths x (epPort t.sink) fun b =>
      nativePayload x (epIndex t.sink) t.tag (epChans t.sink) (i + 1 == n) b false
        ((Session.seqBase x + t.txSeq + i) % 2 ^ 32) (first + per * i) (s.fresh [34, j, i]) part) s
  s.setStream t.entry fun t => { t with txSeq := t.txSeq + n }

end State

end Sys2Proof.Machine
end

