-- ==== Sys2Proof/Machine/Wire.lean ====
section
/-! DEFINITION. What an audio port sends in its slots: filters, words, gain of a stop, and the frames that it has taken and not
yet sent (15_audio_ports.md, R352, R353, R360, R361, R363, R366, R368). -/
namespace Sys2Proof.Machine
open Sys2Proof

/-- f_p by FsCode (R376). -/
def fsHz (code : Nat) : Nat := [8000, 16000, 32000, 44100, 48000, 88200, 96000, 176400, 192000].getD code 48000

def pdmRatio (code : Nat) : Nat := [16, 32, 48, 64, 96, 128].getD code 64

/-- f_g of a generator with a Trim, as a fraction of Hz, from a reader of register fields (R351). -/
def genHz (v : Field → Nat → Nat → Nat) (i : Nat) (trim : Int := 0) : Nat × Nat :=
  (10 ^ 10 * (2 ^ 32 + trim).toNat, Nat.max 1 (v Fd.APT_GEN_DIV_HI_Int 0 i * 2 ^ 32 + v Fd.APT_GEN_DIV_LO 0 i))

/-- The port takes its clocks from its generator (R351). -/
def usesGen (v : Field → Nat → Nat → Nat) (p : Nat) : Bool :=
  match v Fd.APT_MODE_Mode p 0 with
  | 1 => v Fd.APT_MODE_Target p 0 == 0
  | 2 => v Fd.APT_MODE_Target p 0 == 0
  | 3 => true
  | 4 => v Fd.APT_MODE_Target p 0 == 0
  | _ => false

/-- Bits of SlotBits and SampleBits. -/
def slotWidth (code : Nat) : Nat := [16, 24, 32].getD code 32

/-! The filters of R352 (notes/assumptions/9.md). -/

/-- Order of a filter, of linear phase: twice its delay, in samples of the faster side. Code 1 is RateDiv 2, 2 is RateDiv 4,
16 and up are the PDM ratios. -/
def filterOrder (code : Nat) : Nat := if code = 1 then 40 else if code = 2 then 96 else 32 * code

/-- Sum of the first `n` taps of a filter. -/
def halfTaps (code n : Nat) : Int := (List.range n).foldl (fun acc k => acc + Config.filterTap code k) 0

/-- Tap `k` of a RateDiv filter, in units of 2⁻⁴⁰: the same from either end, and all of them add up to 1. -/
def tap (code k : Nat) : Int :=
  let mid := filterOrder code / 2
  if k = mid then 2 ^ 40 - 2 * halfTaps code mid else Config.filterTap code (Nat.min k (filterOrder code - k))

/-- Tap `k` of the PDM decimator of a ratio, after its first stage, the mean of Ratio bits: of even length, the same from either end, and
all of them add up to 1. -/
def pdmTap (ratio k : Nat) : Int :=
  let top := 31 * ratio + 1
  let mid := top / 2
  if k = mid ∨ k = mid + 1 then 2 ^ 39 - halfTaps ratio mid else Config.filterTap ratio (Nat.min k (top - k))

/-- What the PDM decimator makes of its latest bits, latest first, as ±1: in units of 2⁻⁴⁰ / Ratio. -/
def pdmSum (ratio : Nat) (h : List Int) : Int :=
  (List.range (31 * ratio + 2)).foldl (fun acc k => acc + pdmTap ratio k * ((h.drop k).take ratio).sum) 0

def dotTaps (code off step : Nat) (xs : List Int) : Int :=
  (xs.zipIdx).foldl (fun acc x => if off + step * x.2 ≤ filterOrder code then acc + tap code (off + step * x.2) * x.1 else acc) 0

/-- A finite FP32 datum × 2¹⁴⁹; NaN is 0 (R363). -/
def scaled149 (x : Nat) : Int :=
  match fp32.decode x with
  | .nan => 0
  | .inf n => if n then -(2 ^ 277) else 2 ^ 277
  | .fin n m e => (dyFrac n m (e + 149)).1

/-! IEC 60958 on the line (R360, R361). -/

/-- CRC over channel-status bytes 0 to 22, bits in the order sent (R361). -/
def iecCrc (bs : List Byte) : Nat :=
  (bs.take 23).foldl (fun r b =>
    (List.range 8).foldl (fun (r : Nat) i =>
      if (r % 2 == 1) != bitAt b.toNat i then r / 2 ^^^ 0xB8 else r / 2) r) 0xFF

/-- The 28 bits of slots 4 to 31 with P, which makes them even. -/
def iecBits (sample : Nat) (v u c : Bool) : List Bool :=
  let bs := (List.range 24).map (bitAt sample) ++ [v, u, c]
  bs ++ [(bs.filter id).length % 2 == 1]

/-- The 64 unit intervals of a subframe, after a 0 level, which the even slots keep; preamble 0 B, 1 M, 2 W. -/
def iecLine (pre : Nat) (bits : List Bool) : List Bool :=
  let head := [[true, true, true, false, true, false, false, false], [true, true, true, false, false, false, true, false],
    [true, true, true, false, false, true, false, false]].getD pre []
  (bits.foldl (fun (acc : List Bool × Bool) b =>
    let a := !acc.2
    let z := if b then !a else a
    (acc.1 ++ [a, z], z)) (head, false)).1

/-- Bits as a number, the first in bit 0. -/
def packBits (bs : List Bool) : Nat := bs.foldr (fun b n => 2 * n + b2n b) 0

namespace State

def aptMode (s : State) (p : Nat) : Nat := s.rd Fd.APT_MODE_Mode p
def aptState (s : State) (p : Nat) : Nat := if p < 16 then s.rd Fd.APT_STATUS_State p else 0

/-- Port frames per stream sample (R350). -/
def aptDiv (s : State) (p : Nat) : Nat := if s.aptMode p = 3 then 1 else 2 ^ s.rd Fd.APT_MODE_RateDiv p

/-- Bits of a sample (R363). -/
def aptBits (s : State) (p : Nat) : Nat := if s.aptMode p = 4 then 24 else slotWidth (s.rd Fd.APT_FRAME_SampleBits p)

/-- Channel status that the transmitter sends (R361). -/
def txStatusNow (s : State) (p : Nat) : List Byte :=
  let bs := (List.range 6).flatMap fun w => leBytes 4 (s.rdAt Fd.APT_IEC_CSTX p w)
  if s.rd Fd.APT_IEC_CrcAuto p = 1 ∧ bitAt (leAt bs 0 1) 0 then bs.take 23 ++ [BitVec.ofNat 8 (iecCrc bs)] else bs

def txUserNow (s : State) (p : Nat) : List Byte :=
  if s.rd Fd.APT_IEC_UserSrc p = 0 then List.replicate 48 0
  else (List.range 12).flatMap fun w => leBytes 4 (s.rdAt Fd.APT_IEC_UTX p w)

/-- The settings that a block of the transmitter carries: the latest that began with it or before (R361). -/
def txAt (s : State) (p block : Nat) : List Byte × List Byte :=
  (((s.aport p).txSets.reverse.find? fun x => decide (x.1 ≤ block)).map (·.2)).getD (s.txStatusNow p, s.txUserNow p)

/-! Frames and time (R350, R351, R364). -/

/-- f_g of a generator with its Trim. -/
def genNow (s : State) (i : Nat) : Nat × Nat := genHz s.rdAt i (toSigned 32 (s.rdAt Fd.APT_GEN_TRIM 0 i))

/-- f_g / BclkDiv of a port, with the Trim. -/
def bclkNow (s : State) (p : Nat) : Nat × Nat :=
  let g := s.genNow (s.rd Fd.APT_MODE_GenSel p)
  (g.1, g.2 * Nat.max 1 (s.rd Fd.APT_CLK_BclkDiv p))

/-- Bits of a TDM or I²S frame. -/
def frameBits (s : State) (p : Nat) : Nat := (s.rd Fd.APT_FRAME_Slots p + 1) * slotWidth (s.rd Fd.APT_FRAME_SlotBits p)

/-- Frames per second of a port: of its generator, or the nominal f_p where an outside clock makes them. -/
def frameHz (s : State) (p : Nat) : Nat × Nat :=
  if usesGen s.rdAt p then
    let b := s.bclkNow p
    (b.1, b.2 * (match s.aptMode p with
      | 3 => pdmRatio (s.rd Fd.APT_PDM_Ratio p)
      | 4 => 128
      | _ => s.frameBits p))
  else (fsHz (s.rd Fd.APT_MODE_FsCode p), 1)

/-- The latest data frame begun at or before an instant; negative before data frame 0 (notes/assumptions/38.md). -/
def frameBegun (s : State) (p t : Nat) : Int :=
  let a := s.aport p
  let hz := s.frameHz p
  (a.frame : Int) + (((t : Int) - (a.pin : Int)) * hz.1).fdiv (hz.2 * 1000000000)

/-- The pin time of a data frame. -/
def framePin (s : State) (p f : Nat) : Nat :=
  let a := s.aport p
  let hz := s.frameHz p
  ((a.pin : Int) - (((a.frame : Int) - f) * 1000000000 * hz.2).fdiv hz.1).toNat

/-- Frames before an instant are those of the clocks so far: the port's known frame moves up to the latest begun. -/
def rebase (s : State) (p : Nat) : State :=
  let f := (s.frameBegun p s.now).toNat
  if s.aptState p = 0 ∨ f ≤ (s.aport p).frame then s
  else s.setAport p fun a => { a with frame := f, pin := s.framePin p f }

/-- A data frame's pin time has become known. -/
def knowFrame (s : State) (p f pin : Nat) : State :=
  s.setAport p fun a => if f < a.frame then a else { a with frame := f, pin := pin }

/-- The first port frame that begins at or after a time, from a frame whose pin time is known (notes/assumptions/38.md). -/
def frameAt (s : State) (p frame pin time : Nat) : Nat :=
  let hz := s.frameHz p
  let n : Int := -((((pin : Int) - time) * hz.1).fdiv (hz.2 * 1000000000))
  (frame + n).toNat

/-- Ports that stop keep to the frames of R368 as their clock changes; a port on an outside clock may run 1,000 ppm faster than nominal
(R362). -/
def timeStop (s : State) (p : Nat) : State :=
  let a := s.aport p
  let hz := s.frameHz p
  let due := if usesGen s.rdAt p then s.framePin p a.stopFrame
    else a.stopTime + (a.ramp + a.hold) * 1000000000000 * hz.2 / (1001 * hz.1)
  s.setAport p fun a => { a with stopEnd := due }

/-- A stop begins (R368). -/
def beginStop (s : State) (p : Nat) : State :=
  let s := s.wr Fd.APT_STATUS_State 3 p
  (s.setAport p fun a =>
    { a with stopTime := s.now, stopFrame := s.frameAt p a.frame a.pin s.now + a.ramp + a.hold }).timeStop p

/-- Ports that are stopping on their own clocks. -/
def retimeStops (s : State) : State :=
  ((List.range 16).filter fun p => s.aptState p == 3 && usesGen s.rdAt p).foldl (fun s p => s.timeStop p) s

/-- Slots that a port transmits in: Slots in TDM mode, two in I²S and IEC 60958 modes, none in PDM mode or with OutEn 0. -/
def outSlots (s : State) (p : Nat) : Nat :=
  if s.rd Fd.APT_MODE_OutEn p = 0 ∨ s.aptMode p = 3 then 0 else if s.aptMode p = 1 then s.rd Fd.APT_FRAME_Slots p + 1 else 2

/-- From a frame on, the slots that nothing covers send zeros (R353, R366, R367). -/
def idleSlots (s : State) (p : Nat) (from_ : Option Nat) : State :=
  if s.outSlots p = 0 then s
  else
    let set := if s.aptMode p = 4 then s.txAt p ((from_.getD 0) / 192) else ([], [])
    s.put (.audioIdle p from_ (s.outSlots p) set.1 set.2)

/-- The clocks that a port drives (R350, R351, R353). -/
def driveClocks (s : State) (p : Nat) : State :=
  let g := s.genNow (s.rd Fd.APT_MODE_GenSel p)
  let mdiv := s.rd Fd.APT_CLK_MclkDiv p
  let mode := s.aptMode p
  let own := mode != 4 && usesGen s.rdAt p
  let n := s.frameBits p
  let tdm := own && mode != 3
  s.put (.audioClocks p (if mdiv = 0 then (0, 1) else (g.1, g.2 * mdiv)) (if own then s.bclkNow p else (0, 1))
    (if tdm then s.frameHz p else (0, 1)) (if !tdm then 0 else if s.rd Fd.APT_FRAME_FsPulse p = 1 then 1 else n / 2)
    (tdm && s.rd Fd.APT_FRAME_FsInv p == 1))

/-- Gain of a port frame in a stop, as a fraction (R368). -/
def gainAt (s : State) (p : Nat) (x : Ahead) (f : Nat) : Nat × Nat :=
  let a := s.aport p
  let at_ := s.frameAt p x.frame x.pin a.stopTime
  if s.aptState p ≠ 3 ∨ f < at_ then (1, 1)
  else if a.ramp ≤ f - at_ then (0, 1)
  else (a.ramp - (f - at_), a.ramp)

/-- The word of one slot in one port frame, from its value n / d. -/
def slotWord (s : State) (p : Nat) (x : Ahead) (slot f : Nat) (n : Int) (d : Nat) : Nat :=
  let b := s.aptBits p
  let g := s.gainAt p x f
  let top : Int := 2 ^ (b - 1)
  let c := clampInt (-top) (top - 1) (roundQ .even (n * top * g.1) (d * g.2))
  let w := ofSigned b c
  if s.aptMode p = 4 then
    let set := s.txAt p (f / 192)
    let at_ := f % 192
    packBits (iecLine (if slot = 1 then 2 else if at_ = 0 then 0 else 1)
      (iecBits w x.rep (bitAt (leAt set.2 ((2 * at_ + slot) / 8) 1) ((2 * at_ + slot) % 8)) (bitAt (leAt set.1 (at_ / 8) 1) (at_ % 8))))
  else w * 2 ^ (slotWidth (s.rd Fd.APT_FRAME_SlotBits p) - b)

/-- Words that one slot of a chunk sends for its stream samples `xs`, and its filter history after them. -/
def slotWords (s : State) (p : Nat) (x : Ahead) (slot : Nat) (xs h : List Nat) : List Nat × List Nat :=
  let div := s.aptDiv p
  if div = 1 then ((xs.zipIdx).map fun y => s.slotWord p x slot (x.frame + y.2) (scaled149 y.1) (2 ^ 149), [])
  else
    let code := s.rd Fd.APT_MODE_RateDiv p
    (xs.zipIdx).foldl (fun (acc : List Nat × List Nat) y =>
      let h := (y.1 :: acc.2).take (filterOrder code / div + 1)
      (acc.1 ++ (List.range div).map (fun i =>
        s.slotWord p x slot (x.frame + y.2 * div + i) (dotTaps code i div (h.map scaled149)) (2 ^ 189 / div)), h)) ([], h)

/-- Port frames of a chunk that has been taken. -/
def aheadLen (s : State) (p : Nat) (x : Ahead) : Nat := ((x.cols.head?.map fun c => c.1.length).getD 0) * s.aptDiv p

/-- Words of a chunk that has been taken, frame by frame, and its slots' filter history after it. -/
def aheadWords (s : State) (p : Nat) (x : Ahead) : List (List Nat) × List (List Nat) :=
  let cols := x.cols.zipIdx.map fun c => s.slotWords p x (x.slot + c.2) c.1.1 c.1.2
  ((List.range (s.aheadLen p x)).map fun k => cols.map fun c => c.1.getD k 0, cols.map (·.2))

/-- Send a taken chunk from a port frame on: as it is, with the gain of a stop, or as zeros. -/
def sendAhead (s : State) (p : Nat) (zero : Bool) (x : Ahead) (from_ : Nat) : State :=
  let n := s.aheadLen p x - (from_ - x.frame)
  if n = 0 then s
  else if zero then
    s.put (.audio p from_ x.slot ((List.range n).map fun k => (List.range x.cols.length).map fun c =>
      s.slotWord p { x with rep := false } (x.slot + c) (from_ + k) 0 1))
  else s.put (.audio p from_ x.slot ((s.aheadWords p x).1.drop (from_ - x.frame)))

/-- Send again what of a taken chunk has not begun yet. -/
def resend (s : State) (p : Nat) (zero : Bool) (x : Ahead) : State :=
  s.sendAhead p zero x (Nat.max x.frame (s.frameAt p x.frame x.pin s.now))

/-- From the next frame on, the sink of a stream sends zeros, or plays on (R62, R366). -/
def silence (s : State) (e : Nat) (zero : Bool) : State :=
  (List.range 16).foldl (fun s p =>
    ((s.aport p).ahead.filter fun (x : Ahead) => x.entry == e).foldl (fun s x => s.resend p zero x) s) s

/-- Channel status and user bits have changed: they apply from the first block that starts after now (R361). -/
def txChange (s : State) (p : Nat) : State :=
  if s.aptMode p ≠ 4 ∨ s.outSlots p = 0 ∨ s.aptState p = 0 then s
  else
    let here := (s.frameBegun p s.now).toNat / 192
    let block := if s.aptState p = 1 then 0 else here + 1
    let s := s.setAport p fun a =>
      let kept := a.txSets.filter fun x => decide (x.1 < block)
      { a with txSets := kept.drop (kept.length - 1) ++ [(block, s.txStatusNow p, s.txUserNow p)] }
    let s := s.idleSlots p (if s.aptState p = 1 then none else some (block * 192))
    (s.aport p).ahead.foldl (fun s x =>
      let silent := (s.stream x.entry).all fun (t : Stream) => t.state == 3
      if x.frame + s.aheadLen p x ≤ block * 192 then s else s.sendAhead p silent x (Nat.max x.frame (block * 192))) s

/-- The sink of a stream that has ended sends zeros, and nothing of it is left. -/
def endSink (s : State) (e : Nat) : State :=
  let s := s.silence e true
  (List.range 16).foldl (fun s p =>
    if (s.aport p).ahead.any fun (x : Ahead) => x.entry == e then
      s.setAport p fun a => { a with ahead := a.ahead.filter fun (x : Ahead) => x.entry != e }
    else s) s

end State

end Sys2Proof.Machine
end

