-- ==== Sys2Proof/Machine/Streams.lean ====
section
/-! DEFINITION. Streams: the tables, landing of samples, chunks made ready, faults, rollback, return to IDLE, release of images
(03 R52 to R62, R79, 04 R98, 10 R255, 17 R402 to R408). -/
namespace Sys2Proof.Machine
open Sys2Proof

namespace State

/-- Live state of an entry (R56). -/
def entryState (s : State) (e : Nat) : Nat := ((s.stream e).map (·.state)).getD 0

/-- The largest stretch of an image (R475): over the entries that name it and are not IDLE in their live or their requested state,
with the values that a staged entry would take. -/
def largestStretch (s : State) (id cls : Nat) : Nat :=
  if cls = 0 then 0
  else maxNat ((dedup (s.gaf.streams.map (·.1) ++ s.par.staged)).map fun e =>
    let x := if s.par.staged.contains e then s.shadowRaw e else s.liveRaw e
    if leAt x 8 1 ≠ id ∨ (s.entryState e = 0 ∧ leAt x 5 1 = 0) ∨ leAt x 0xA 2 = 0 then 0 else log2 (leAt x 0xC 2 / leAt x 0xA 2))

/-- The device's fields of a live entry, counters with them (R54). -/
def storeEntry (s : State) (e : Nat) : State :=
  match s.stream e with
  | none => s
  | some t =>
    let a := s.liveAddr e
    let s := s.lpNarrowPut (a + 0x05) (leBytes 1 t.state)
    let s := s.lpNarrowPut (a + 0x0E) (bytesAt t.raw 0x0E 1)
    s.lpNarrowPut (a + 0x80) (leBytes 8 t.sampleIndex ++ bytesAt t.raw 0x88 0x30)

def setState (s : State) (e v : Nat) : State :=
  let s := s.setStream e fun t => ({ t with state := v, runAt := if v = 2 ∧ t.state = 1 then s.now else t.runAt }).set 0x05 1 v
  s.lpNarrowPut (s.liveAddr e + 0x05) (leBytes 1 v)

/-! Punty seals (R402, R403, R408). -/

end State

/-- Device address in the window of another chip (R19). -/
def remoteAddr (chip off : Nat) : Nat := State.remoteBase + chip * 2 ^ 36 + off % 2 ^ 36

/-- A stream that mirrors its state to a partner (R402). -/
def Stream.isPunty (t : Stream) : Bool := t.interval != 0 && decide (t.partner ≤ 1023)

namespace State

def pntRecord (s : State) (e : Nat) : Nat := s.base Fd.PNT_TABLE_BASE_LO Fd.PNT_TABLE_BASE_HI + 64 * e
def mirrorBase (s : State) (e : Nat) : Nat := s.devLe (s.pntRecord e) 8 % 2 ^ 36

/-- The seal unit of 256 bytes. -/
def sealUnit (s : State) (t : Stream) (set seq chunk next : Nat) : List Byte :=
  let mark := if t.markValid then t.resetSample else 2 ^ 64 - 1
  bytesAt (leBytes 4 0x4C504E54 ++ leBytes 1 set ++ leBytes 1 0 ++ leBytes 2 s.chipId ++ leBytes 2 t.entry ++ leBytes 2 0 ++
    leBytes 4 seq ++ leBytes 8 chunk ++ leBytes 8 next ++ leBytes 8 (t.x0.getD 0) ++ leBytes 8 mark ++ leBytes 4 t.tag) 0 256

/-- The device's fields of a punty record (R402). -/
def storePunty (s : State) (t : Stream) : State :=
  let a := s.pntRecord t.entry
  let p := t.punty
  s.lpNarrowPut (a + 0x20) (leBytes 8 (p.last.getD (2 ^ 64 - 1)) ++ leBytes 4 p.copies ++ leBytes 4 p.misses ++ leBytes 1 (b2n p.safe_)) .pnt

/-- PNT_STATUS.Protected. -/
def syncProtected (s : State) : State :=
  s.wr Fd.PNT_STATUS_Protected (s.streams.filter fun (t : Stream) => t.punty.safe_).length

/-- Retire the mirror: the seal with Set = 0xFF goes out once any copy in progress has ended, which the order of a stream's
punty transfers sees to (R408). -/
def puntyRetire (s : State) (t : Stream) : State :=
  if !t.isPunty then s
  else
    let s := s.setStream t.entry fun t => { t with punty := { t.punty with safe_ := false, waiting := none } }
    let s := match s.stream t.entry with | some t => s.storePunty t | none => s
    (s.addBuiltIn .retire t.image (some t.entry) 0
      ((compXfers (remoteAddr t.partner (s.mirrorBase t.entry)) (s.sealUnit t 0xFF t.punty.sent t.committed t.nextFirst)).map
        fun x => { x with fence := true })).syncProtected

/-! Release of images (R65, R255). -/

/-- Pool pages that a KV page table's bitmap marks in use, as (address, bytes). -/
def poolPages (s : State) (m : Image) (table : Nat) : List (Nat × Nat) :=
  match m.kv with
  | none => []
  | some k =>
    let pool := s.devLe (table + 8) 8
    let n := s.devLe (table + 0x10) 4
    let bm := table + roundUp (0x40 + 32 * Kv.layers k + 4 * Kv.listLen k * Kv.layers k) 64
    (List.range n).filterMap fun i =>
      if bitAt (s.devLe (bm + i / 8) 1) (i % 8) then some (pool + i * Kv.pageBytes k, Kv.pageBytes k) else none

/-- Unload an image: programs stop at once, its regions are sealed for scrub (R65, R255, R276). -/
def unloadImage (s : State) (id : Nat) : State :=
  match s.image id with
  | none => s
  | some m =>
    let pages := m.tables.flatMap fun a => s.poolPages m a
    let stays (b : BuiltIn) : Bool :=
      b.image != id ||
        (match b.kind with
         | .stateWrite => true
         | .kvWrite => true
         | .hostRing _ => true
         | .punty _ => true
         | .retire => true
         | .replay => true
         | .initCopy => true
         | _ => false)
    let s := { s with
      gaf := { s.gaf with
        images := s.gaf.images.filter fun (x : Image) => x.id != id
        passes := s.gaf.passes.filter fun (x : Pass) => x.image != id
        rounds := s.gaf.rounds.filter fun (x : Round) => x.image != id }
      builtIns := s.builtIns.filter stays
      scrubs := if pages.isEmpty then s.scrubs else s.scrubs ++ [(id, pages)] }
    (s.sealImage id).syncStore

/-- Take a stream out of every open sweep and owed pass. -/
def leaveSweeps (s : State) (e : Nat) : State :=
  { s with gaf := { s.gaf with
    images := s.gaf.images.map fun (m : Image) =>
      { m with sweep := m.sweep.map fun (w : Sweep) => { w with batch := w.batch.filter fun b => b.entry != e } }
    passes := s.gaf.passes.map fun (p : Pass) => { p with parts := p.parts.filter fun q => q.entry != e } } }

/-- No entry that is not IDLE names the image any more: it unloads (R65). -/
def releaseIfUnused (s : State) (id : Nat) : State :=
  if s.gaf.streams.any (fun x => x.2.image == id) then s else s.unloadImage id

/-- An entry returns to IDLE: its slot is free, its mirror is retired, its image may unload (R56, R65, R408). -/
def toIdle (s : State) (e : Nat) : State :=
  match s.stream e with
  | none => s
  | some t =>
    let s := (s.setState e 0).endSink e
    let s := (s.puntyRetire t).tallyLeave e
    let s := (s.leaveSweeps e).delStream e
    let stays (b : BuiltIn) : Bool :=
      b.entry != some e ||
        (match b.kind with
         | .stateLoad _ => false
         | .initialLoad => false
         | .initCopy => false
         | .restore _ => false
         | .kvStage _ _ => false
         | .ringRotation _ => false
         | _ => true)
    let s := { s with
      gaf := { s.gaf with rounds := s.gaf.rounds.filter fun (r : Round) => r.entry != e }
      builtIns := s.builtIns.filter stays }
    s.releaseIfUnused t.image

/-! Faults, rollback (R58, R98, R155, R202). -/

end State

/-- The committed KV record is the working one again: pages opened since are freed, tokens beyond the committed count are
ignored (R202). -/
def kvRollback (ls : List KvLay) : List KvLay :=
  ls.map fun l =>
    let keep := l.pages.filter fun p => p.done != 0 || p.cullet
    { l with pages := keep.map fun p => if p.cullet then p else { p with toks := p.toks.take p.done }
             nextSeq := l.nextSeq - (l.pages.length - keep.length) }

/-- Staged copies of a stream hold no more than the committed tokens (R202). -/
def Image.kvTrim (m : Image) (t : Stream) : Image :=
  let keep (c : StageCopy) : StageCopy :=
    if c.entry ≠ t.entry ∨ c.cullet then c
    else
      let lay := t.kvw.getD c.layer {}
      { c with tokens := Nat.min c.tokens (((lay.pages.find? fun p => p.q == c.q).map (·.done)).getD 0) }
  { m with stage := m.stage.map fun (g : StageSet) => { g with copies := g.copies.map keep } }

namespace State

/-- The KV history of a stream returns to the committed one (R202). -/
def kvBack (s : State) (e : Nat) : State :=
  match s.stream e with
  | none => s
  | some t => (s.setStream e fun t => { t with kvw := kvRollback t.kvw }).setImage t.image fun m => m.kvTrim t

/-- A stream enters FAULTED (R58); one already out of service is left as it is. -/
def streamFault (s : State) (e code : Nat) : State :=
  match s.stream e with
  | none => s
  | some t =>
    if t.state = 5 ∨ t.state = 0 then s
    else
      let s := s.setState e 5
      let s := s.setStream e fun t =>
        ({ t with live := [], past := [], ready := [], pauseReq := false }).set 0x07 1 code
      let s := s.kvBack e
      let s := s.lpNarrowPut (s.liveAddr e + 0x07) (leBytes 1 code)
      let s := s.setErrLog Fd.GAF_PAGE_ERR_StreamFault 0 e code
      let s := (s.puntyRetire t).tallyLeave e
      s.leaveSweeps e

/-- A narrow read of the gaffer for a stream's entry, KV page table or state: an uncorrectable one faults the stream (R284, R291; which
reads there are: notes/assumptions/40.md). -/
def gafRead (s : State) (e a n : Nat) : State :=
  let (bad, s) := s.devRead .gaf 0 a n e
  if bad then s.streamFault e 6 else s

/-- Every not-IDLE entry of an image faults (R247, R274). -/
def imageFault (s : State) (id code : Nat) : State :=
  (s.streams.filter fun (t : Stream) => t.image == id).foldl (fun s t => s.streamFault t.entry code) s

/-- Discard every uncommitted chunk of a stream and make those chunks ready again (R98, R249). -/
def rollback (s : State) (e : Nat) : State :=
  match s.stream e with
  | none => s
  | some t =>
    let back := t.live.map fun l => { l.c with dl := some l.dl, replayed := true, mark := l.mark }
    let s := s.setStream e fun t =>
      ({ t with live := [], past := [], ready := back ++ t.ready, markHeld := none, fresh := t.fresh || t.live.any (·.fresh) }).bump32 0x9C back.length
    ((s.kvBack e).leaveSweeps e).evtDev 0x26

/-- Discard uncommitted chunks for good: a request for IDLE, a reset (R56, R427). -/
def discardChunks (s : State) (e : Nat) : State :=
  ((s.setStream e fun t => { t with live := [], past := [], ready := [] }).kvBack e).leaveSweeps e

/-- The state and KV writes of a stream's commits are still outstanding (R155, R201). -/
def writesPending (s : State) (e : Nat) : Bool :=
  s.hasBuiltIn fun b => b.entry == some e && (b.kind == .stateWrite || b.kind == .kvWrite)

/-- Transitions that wait for commits, the operation boundary and writes (R56, R155). -/
def settleOne (s : State) (e : Nat) : State :=
  match s.stream e with
  | none => s
  | some t =>
    if t.idleReq then
      if s.gaf.running.isSome then s
      else
        let s := if t.live.isEmpty && t.ready.isEmpty then s else s.discardChunks e
        if s.writesPending e then s else s.toIdle e
    else if t.state = 4 then
      if t.live.isEmpty && t.ready.isEmpty && !s.writesPending e then s.toIdle e else s
    else if t.pauseReq && t.state == 2 then
      if t.live.isEmpty && t.ready.isEmpty && !s.writesPending e then
        ((s.setStream e fun t => { t with pauseReq := false }).setState e 3).silence e true
      else s
    else s

def settle (s : State) : State := (s.gaf.streams.map (·.1)).foldl (fun s e => s.settleOne e) s

/-! Landing of samples (R59, R61, R62, R363, R407). -/

end State

/-- Stretch of the chunk that starts at the present boundary, under the damper's level k_d (R61). -/
def Stream.nextK (t : Stream) (kd : Nat) : Nat :=
  let want := if t.cls = 1 then Nat.min kd t.kMax else 0
  if want ≤ t.curK then want
  else if t.samplesAt want ≠ 0 ∧ t.nextFirst % t.samplesAt want = 0 then want else t.curK

/-- The stream still works on chunks that a resumption takes from the replay buffer; samples that land meanwhile wait there too
(R412). -/
def Stream.mirroring (t : Stream) : Bool := t.ready.any (fun c => c.mirror) || t.live.any fun l => l.c.mirror

namespace State

/-- FP32 frames as bytes, interleaved by channel. -/
def frameBytes (fs : List (List Nat)) : List Byte := fs.flatMap fun f => f.flatMap (leBytes 4)

/-- Whether chunk `j`'s input slot still holds another uncommitted chunk (R369). -/
def slotTaken (s : State) (t : Stream) (j : Nat) : Bool :=
  match s.inBuf t.image with
  | none => false
  | some r =>
    let n := r.slots
    n != 0 && (((t.ready.filter fun c => !c.mirror).map (·.j) ++ t.live.map (·.c.j)).any fun i => i != j && i % n == j % n)

/-- A raw PDM source (R359): bytes of bits per sample, and bytes of history before a chunk's bits. -/
def rawPdm (s : State) (t : Stream) : Option (Nat × Nat) :=
  let p := epPort t.source
  if epKind t.source = 1 ∧ s.rd Fd.APT_MODE_Mode p = 3 ∧ s.rd Fd.APT_PDM_Raw p = 1 then
    some ([2, 4, 6, 8, 12, 16].getD (s.rd Fd.APT_PDM_Ratio p) 8, 4 * s.rd Fd.APT_PDM_HistWords p)
  else none

/-- Bytes of one sample of a stream's input, over its channels, and bytes before the first sample of a chunk. -/
def sampleUnit (s : State) (t : Stream) : Nat := ((s.rawPdm t).map (·.1)).getD (t.channels * 4)
def headUnit (s : State) (t : Stream) : Nat := ((s.rawPdm t).map (·.2)).getD 0

/-- The bytes of frames: FP32 samples, or the bytes of bits of a raw PDM source. -/
def unitBytes (s : State) (t : Stream) (fs : List (List Nat)) : List Byte :=
  if (s.rawPdm t).isSome then fs.flatMap fun f => f.flatMap (leBytes 1) else frameBytes fs

/-- A write of a source's samples to the replay buffer (R363). Where it does not lie in LPDDR it is unmapped: the port block's page
records it and the stream faults (R20, R58). -/
def replayPut (s : State) (t : Stream) (a : Nat) (bs : List Byte) : State :=
  if !s.lpDark a bs.length then s.lpNarrowPut a bs
  else
    let p := epPort t.source
    (s.unmappedErr (if epKind t.source = 1 then .apt else if epKind t.source = 2 then .pkt else .lnk) p).streamFault t.entry 3

/-- Write samples of chunk `j` from position `pos` on to the input buffer and the replay buffer; a missing region faults the
stream (R243). The first samples of a raw PDM chunk bring the history before it (R359). -/
def writeInput (s : State) (t : Stream) (j pos first : Nat) (fs : List (List Nat)) : State :=
  match s.inBuf t.image with
  | none => s.streamFault t.entry 3
  | some r =>
    let u := s.sampleUnit t
    let head := s.headUnit t
    let bs := s.unitBytes t fs
    let o := t.slot * (r.units * 256) + (if r.slots = 0 then 0 else j % r.slots) * r.slotBytes
    let before := if j = 0 then [] else t.pdmTail
    let s :=
      if head = 0 ∨ pos ≠ 0 ∨ t.mirroring then s
      else s.narrowWrite (r.start + o) ((List.replicate (head - before.length) 0 ++ before).map fun (b : Nat) => BitVec.ofNat 8 b)
    let s := if t.mirroring then s else s.narrowWrite (r.start + o + head + pos * u) bs
    if t.replayLen = 0 then s
    else (fs.zipIdx).foldl (fun s x =>
      s.replayPut t (t.replayBase + ((first + x.2) * u) % t.replayLen) (s.unitBytes t [x.1])) s

/-- The input buffer and the replay buffer have room for sample `index`, which lies in the chunk `d` after the one being filled: its
slot holds no other chunk, and its place in the replay buffer no sample of a chunk that has not committed (R59, R76). -/
def canLand (s : State) (t : Stream) (d index : Nat) : Bool :=
  let oldest := ((t.live.map fun l => l.c.first) ++ t.ready.map fun c => c.first).foldl Nat.min t.nextFirst
  let slot := match s.inBuf t.image with
    | none => true
    | some r => (r.slots == 0 || decide (d < r.slots)) && !s.slotTaken t (t.nextJ + d)
  t.mirroring || (slot && decide ((index + 1 - oldest) * t.channels * 4 ≤ t.replayLen))

/-- Held samples of a chunk go to its slot and to the replay buffer: all of them at its admission (`all`), before that the ones whose
places are free (R341). -/
def flushHeld (s : State) (e j first len : Nat) (all : Bool) : State :=
  match s.stream e with
  | none => s
  | some t =>
    let go := t.held.filter fun x => decide (first ≤ x.1 ∧ x.1 < first + len) && (all || s.canLand t (j - t.nextJ) x.1)
    let s := go.foldl (fun s x => s.writeInput t j (x.1 - first) x.1 [x.2]) s
    if go.isEmpty then s else s.setStream e fun t => { t with held := t.held.filter fun x => !go.contains x }

/-- Writes to the replay mirror: the samples of a block, and a stamp record (R407). -/
def mirrorInput (s : State) (t : Stream) (first : Nat) (fs : List (List Nat)) : State :=
  if !t.isPunty ∨ epKind t.source = 2 ∨ t.replayLen = 0 ∨ s.rd Fd.PNT_PAGE_CTL_Enable = 0 then s
  else
    let base := s.mirrorBase t.entry + s.devLe (s.pntRecord t.entry + 0x18) 8
    let u := s.sampleUnit t
    s.addBuiltIn .replay t.image (some t.entry) 0 ((fs.zipIdx).flatMap fun x =>
      compXfers (remoteAddr t.partner (base + ((first + x.2) * u) % t.replayLen)) (s.unitBytes t [x.1]))

def stampQ (t : Stream) : Nat := Nat.max 1 (t.replayLen / Nat.max 1 (t.chunkLen * t.channels * 4))

def mirrorStamp (s : State) (t : Stream) (j tr : Nat) : State :=
  if !t.isPunty ∨ epKind t.source = 2 ∨ t.replayLen = 0 ∨ s.rd Fd.PNT_PAGE_CTL_Enable = 0 then s
  else
    let base := s.mirrorBase t.entry + s.devLe (s.pntRecord t.entry + 0x18) 8
    s.addBuiltIn .replay t.image (some t.entry) 0
      (compXfers (remoteAddr t.partner (base + t.replayLen + 16 * (j % stampQ t))) (leBytes 8 j ++ leBytes 8 tr))

/-- A discarded chunk of a PAUSED stream: a link sink, or the packet sink of a dialogue stream, emits its length of zeros (R62). The
sinks that keep their own time emit theirs at their frames and packet slots. -/
def pausedOut (s : State) (t : Stream) (c : Chunk) : State :=
  let ch := epChans t.sink
  match epKind t.sink with
  | 3 => s.sendUnits t (List.replicate (c.len * ch * 4) 0)
  | 2 => if t.cls = 1 then s.sendChunk t c.j c.first (List.replicate c.len (List.replicate ch 0)) else s
  | _ => s

/-- The chunk being filled is complete at `tr`: it is ready, unless it is discarded (R59, R62, R79). -/
def chunkDone (s : State) (e tr : Nat) : State :=
  match s.stream e with
  | none => s
  | some t =>
    let len := t.samplesAt t.curK
    let keep := !t.discard && t.state == 2
    let c : Chunk := { j := t.nextJ, first := t.nextFirst, len := len, k := t.curK, tr := tr, mirror := t.mirroring }
    let s := s.setStream e fun t =>
      { t with ready := if keep then t.ready ++ [c] else t.ready
               spans := if epKind t.sink = 1 then t.spans ++ [(t.nextJ, len)] else []
               nextJ := t.nextJ + 1, nextFirst := t.nextFirst + len, filled := 0, landed := []
               arrive := if t.arrive.isNone then some tr else t.arrive
               discard := t.discard && !t.resume, resume := false }
    if keep then s.mirrorStamp t c.j tr else if t.state = 3 then s.pausedOut t c else s

/-- The device's stretch level k_d. -/
def stretchLevel (s : State) : Nat := s.dmp.kd

/-- Samples land in order from a block stamped `stamp` (R59): frames of FP32 patterns, one per channel, or of the bytes of a raw
PDM source. While the slot of the chunk still holds another, they are discarded and noted (R369). -/
def landRun (s : State) (e stamp : Nat) : Nat → List (List Nat) → State
  | 0, _ => s
  | _, [] => s
  | fuel + 1, f :: fs =>
    match s.stream e with
    | none => s
    | some t0 =>
      if !t0.discard && !t0.missing.isEmpty then
        s.setStream e fun t => { t with missing := t.missing ++ [((f :: fs).length, stamp)] }
      else
        let s := if t0.filled = 0 then s.setStream e fun t => { t with curK := t.nextK s.stretchLevel } else s
        let t := (s.stream e).getD t0
        let len := t.samplesAt t.curK
        let part := (f :: fs).take (len - t.filled)
        if part.isEmpty then s
        else if !t.discard && s.slotTaken t t.nextJ then
          s.setStream e fun t => { t with missing := [((f :: fs).length, stamp)] }
        else
          let at_ := t.nextFirst + t.filled
          let s := if t.discard then s else (s.writeInput t t.nextJ t.filled at_ part).mirrorInput t at_ part
          let tail := if s.headUnit t = 0 then [] else t.pdmTail ++ part.flatten
          let s := s.setStream e fun t =>
            { t with filled := t.filled + part.length, lastLand := Nat.max t.lastLand stamp
                     lastIn := if t.discard then t.lastIn else part.getLastD []
                     pdmTail := tail.drop (tail.length - s.headUnit t) }
          let s := if t.filled + part.length = len then s.chunkDone e stamp else s
          s.landRun e stamp fuel ((f :: fs).drop (len - t.filled))

/-- A repeat of the last accepted sample of each channel; zero, where none has been accepted; density one half, for raw PDM
(R359, R369). -/
def repeatOf (s : State) (t : Stream) : List Nat :=
  match s.rawPdm t with
  | some x => List.replicate x.1 0x55
  | none => if t.lastIn.isEmpty then List.replicate t.channels 0 else t.lastIn

/-- Discarded samples are filled once the slot of the chunk frees (R369), or are discarded with their chunk (R374). -/
def fillMissing (s : State) (e : Nat) : State :=
  match s.stream e with
  | none => s
  | some t =>
    if t.missing.isEmpty || (!t.discard && s.slotTaken t t.nextJ) then s
    else
      let rep := s.repeatOf t
      t.missing.foldl (fun s x => s.landRun e x.2 x.1 (List.replicate x.1 rep)) (s.setStream e fun t => { t with missing := [] })

/-- Samples of an entry that wait to be filled. -/
def missingOf (s : State) (e : Nat) : Nat := ((s.stream e).map fun (t : Stream) => (t.missing.map (·.1)).foldl (· + ·) 0).getD 0

/-- A source's block for an entry: an ARMED stream starts with it when `starts` says that its first sample may be sample index
0 (R56, R365); a PAUSED stream discards it; the rest land it. -/
def landBlock (s : State) (e stamp : Nat) (starts : Bool) (fs : List (List Nat)) : State :=
  match s.stream e with
  | none => s
  | some t =>
    if t.state = 1 then
      if starts then
        let s := s.setStream e fun t => { t with nextJ := 0, nextFirst := 0, filled := 0, lastLand := stamp, lastIn := [], pdmTail := [] }
        (s.setState e 2).landRun e stamp fs.length fs
      else s
    else if t.state = 2 ∨ t.state = 3 ∨ t.state = 4 then (s.fillMissing e).landRun e stamp fs.length fs
    else s

end State

end Sys2Proof.Machine
end

