-- ==== Sys2Proof/Machine/Kv.lean ====
section
/-! DEFINITION. Key-value pages: scales and codes, append, stage, restore, residence, commit
(08_kv_pages.md, R190 to R209). -/
namespace Sys2Proof.Machine
open Sys2Proof

/-! Scales and codes (R200). -/

namespace Kv

/-- C of R200. -/
def top (k : List Byte) : Nat := if storeFmt k = 3 then 448 else 127

/-- Exponent of the scale of a head's elements in a page's opening token. -/
def scaleExp (k : List Byte) (xs : List Nat) : Int :=
  let fits (e : Int) : Bool := xs.all fun x =>
    match fp32.decode x with
    | .fin _ m ex => dyLe m (ex + headroom k - e) (top k)
    | _ => true
  ((((List.range (127 - minExp k + 1).toNat).map fun (i : Nat) => minExp k + (i : Int)).find? fits)).getD 127

/-- Code of an element under scale 2^e. -/
def code (k : List Byte) (e : Int) (x : Nat) : Nat :=
  if storeFmt k = 3 then
    match fp32.decode x with
    | .nan => e4m3.nanBits
    | .inf n => e4m3.signBit n + e4m3.maxBits
    | .fin n m ex => e4m3.roundSat .even n m (ex - e)
  else
    match fp32.decode x with
    | .nan => 0
    | .inf n => if n then 0x81 else 0x7F
    | .fin n m ex => let (a, d) := dyFrac n m (ex - e); ofSigned 8 (clampInt (-127) 127 (roundQ .even a d))

/-- The element lies beyond the largest finite code. -/
def beyond (k : List Byte) (e : Int) (x : Nat) : Bool :=
  match fp32.decode x with
  | .nan => false
  | .inf _ => true
  | .fin _ m ex => !dyLe m (ex - e) (top k)

/-- FP32 value of a stored code under a scale. -/
def value (k : List Byte) (scale code : Nat) : Nat :=
  if storeFmt k = 3 then fmul scale (e4m3.to32 code) else fmul scale (f32OfInt (toSigned 8 code))

/-! Places inside a page (R190). -/
def scaleOff (h : Nat) : Nat := 0x40 + 8 * h
def posOff (k : List Byte) (i : Nat) : Nat := 0x40 + scaleBytes k + 4 * i
def keyOff (k : List Byte) (h i : Nat) : Nat :=
  0x40 + scaleBytes k + posBytes k + 2 * h * perPage k * dim k + i * dim k
def valOff (k : List Byte) (h i : Nat) : Nat := keyOff k h i + perPage k * dim k

/-- PageBytes of R190. -/
def pageBytesOf (k : List Byte) : Nat := 64 + scaleBytes k + posBytes k + 2 * heads k * perPage k * dim k

/-- Frames one stream takes of a stage set (R192). -/
def allot (k : List Byte) : Nat := listLen k - (hot k - 1)

/-- The KV page table's parts (R194). -/
def listOff (k : List Byte) : Nat := 0x40 + 32 * layers k
def bitmapOff (k : List Byte) : Nat := roundUp (listOff k + 4 * listLen k * layers k) 64
def bitmapBytes (pool : Nat) : Nat := ceilDiv pool 512 * 64
def tableBytes (k : List Byte) (pool : Nat) : Nat := bitmapOff k + bitmapBytes pool

end Kv

/-- The KV layout record of an image, zeros for one without. -/
def Image.kvRec (m : Image) : List Byte := m.kv.getD (List.replicate 64 0)

namespace State

def kvRegion (s : State) (m : Image) : Option Region := s.regionOf m.id (Kv.region m.kvRec)
def kvBase (s : State) (m : Image) : Nat := ((s.kvRegion m).map Region.start).getD 0

/-- Scratchpad address of a frame of the stage sets, numbered through both (R198, R207). -/
def frameAddr (s : State) (m : Image) (frame : Nat) : Nat := s.kvBase m + frame * Kv.pageBytes m.kvRec

/-- The hot frame of page q of a layer (R193; the place within the region: DEDUCED, notes/assumptions/21.md). -/
def hotAddr (s : State) (m : Image) (t : Stream) (l q : Nat) : Nat :=
  let k := m.kvRec
  s.kvBase m + (Kv.sets k * Kv.stageFrames k + t.hot * Kv.layers k * Kv.hot k + l * Kv.hot k + q % Nat.max 1 (Kv.hot k))
    * Kv.pageBytes k

/-- Fields of a stream's KV page table. -/
def kvPoolBase (s : State) (t : Stream) : Nat := s.devLe (t.kvPtr + 8) 8
def kvPoolPages (s : State) (t : Stream) : Nat := s.devLe (t.kvPtr + 0x10) 4
def kvRingIndex (s : State) (t : Stream) : Nat := s.devLe (t.kvPtr + 6) 1
def kvNext (s : State) (t : Stream) : Nat := s.devLe (t.kvPtr + 0x18) 2
def kvPrev (s : State) (t : Stream) : Nat := s.devLe (t.kvPtr + 0x1A) 2

def poolAddr (s : State) (m : Image) (t : Stream) (page : Nat) : Nat := s.kvPoolBase t + page * Kv.pageBytes m.kvRec

end State

def Stream.layer (t : Stream) (l : Nat) : KvLay := t.kvw.getD l {}
def Stream.setLayer (t : Stream) (l : Nat) (f : KvLay → KvLay) : Stream := { t with kvw := listMod t.kvw l f }

/-- Pool pages that a stream holds, those waiting for a punty copy with them (R202, R406). -/
def Stream.poolUsed (t : Stream) : List Nat := (t.kvw.flatMap fun l => l.pages.filterMap (·.pool)) ++ t.punty.freed.map (·.1)

namespace State

/-- The entry enters ARMED: the table is emptied, hot frames are taken (R193, R194). -/
def kvArm (s : State) (e : Nat) : State :=
  match s.stream e with
  | none => s
  | some t =>
    match s.image t.image with
    | none => s
    | some m =>
      if m.kv.isNone then s
      else
        let k := m.kvRec
        let others := (s.streams.filter fun (x : Stream) => x.image == t.image && x.entry != e).map (·.hot)
        let hot := ((List.range 4096).find? fun i => !others.contains i).getD 0
        let pool := s.kvPoolPages t
        let s := s.lpNarrowPut (t.kvPtr + 0x14) (leBytes 4 pool)
        let s := s.lpNarrowPut (t.kvPtr + 0x40) (List.replicate (32 * Kv.layers k) 0)
        let s := s.lpNarrowPut (t.kvPtr + Kv.bitmapOff k) (List.replicate (Kv.bitmapBytes pool) 0)
        let s := s.setStream e fun t => { t with hot := hot, kvw := List.replicate (Kv.layers k) {} }
        s.setImage t.image fun m => { m with tables := if m.tables.contains t.kvPtr then m.tables else m.tables ++ [t.kvPtr] }

/-! Append (R197, R206). -/

/-- Write parts of a page where the scheme keeps it: the hot frame, or the pool page and the staged copy. -/
def kvPut (s : State) (m : Image) (t : Stream) (l : Nat) (p : KvPage) (tokens : Nat) (parts : List (Nat × List Byte)) : State :=
  if !p.own then s
  else if Kv.hot m.kvRec ≠ 0 then
    parts.foldl (fun s x => s.arrPut (s.hotAddr m t l p.q + x.1) x.2) s
  else
    let pool := s.poolAddr m t (p.pool.getD 0)
    let s := s.addBuiltIn .kvWrite m.id (some t.entry) (benchOf (s.kvBase m))
      (parts.flatMap fun x => compXfers (pool + x.1) x.2)
    match (m.stage.getD m.stageNow {}).copies.find? fun c => c.entry == t.entry && c.layer == l && c.q == p.q with
    | none => s
    | some c =>
      let a := s.frameAddr m c.frame
      let staging (b : BuiltIn) : Bool :=
        b.image == m.id && b.entry == some t.entry && b.kind == BKind.kvStage l c.frame
      let s :=
        if s.hasBuiltIn staging then
          { s with builtIns := s.builtIns.map fun (b : BuiltIn) =>
              if staging b then
                { b with todo := b.todo ++ (parts.flatMap fun x => compXfers (a + x.1) x.2).map fun x => { x with fence := true } }
              else b }
        else parts.foldl (fun s x => s.arrPut (a + x.1) x.2) s
      s.setImage m.id fun m =>
        { m with stage := listMod m.stage m.stageNow fun (g : StageSet) =>
            { g with copies := g.copies.map fun (d : StageCopy) => if d == c then { d with tokens := tokens } else d } }

/-- The rows and position of token `i` of a page. -/
def kvRows (k : List Byte) (p : KvPage) (i pos : Nat) (keys vals : List (List Nat)) : List (Nat × List Byte) :=
  (Kv.posOff k i, leBytes 4 (pos - p.base)) ::
  (List.range (Kv.heads k)).flatMap fun h =>
    let sc := p.scales.getD h (0, 0)
    [(Kv.keyOff k h i, (keys.getD h []).map fun x => BitVec.ofNat 8 (Kv.code k sc.1 x)),
     (Kv.valOff k h i, (vals.getD h []).map fun x => BitVec.ofNat 8 (Kv.code k sc.2 x))]

/-- The header and scales of a page. -/
def kvHead (k : List Byte) (p : KvPage) (l : Nat) : List (Nat × List Byte) :=
  [(0, leBytes 8 p.base ++ leBytes 4 p.q ++ leBytes 1 l ++ List.replicate 51 0),
   (0x40, (List.range (Kv.heads k)).flatMap fun h =>
      let sc := p.scales.getD h (0, 0)
      leBytes 4 (f32OfInt 1 sc.1) ++ leBytes 4 (f32OfInt 1 sc.2))]

/-- Put a token into page `p`, the newest of the layer. -/
def kvToken (s : State) (m : Image) (t : Stream) (l : Nat) (p : KvPage) (opened : Bool) (pos j : Nat)
    (keys vals : List (List Nat)) : State :=
  let k := m.kvRec
  let i := p.toks.length
  let q := { p with toks := p.toks ++ [(pos, j)] }
  let sat := (List.range (Kv.heads k)).filter fun h =>
    let sc := p.scales.getD h (0, 0)
    (keys.getD h []).any (Kv.beyond k sc.1) || (vals.getD h []).any (Kv.beyond k sc.2)
  let s := s.count Fd.GAF_KV_SAT_CNT 0 (if p.own then sat.length else 0)
  let s := s.kvPut m t l q (i + 1) ((if opened then kvHead k p l else []) ++ kvRows k p i pos keys vals)
  s.setStream t.entry fun t => t.setLayer l fun y =>
    { y with pages := (y.pages.filter fun x => x.q != p.q) ++ [q], nextSeq := if opened then y.nextSeq + 1 else y.nextSeq }

/-- Open page NextSeq with the token. The page whose hot frame it takes loses it; in Mode 1 that page becomes a cullet page
and gives its pool page up (R204). -/
def kvOpen (s : State) (m : Image) (t : Stream) (l pos j : Nat) (keys vals : List (List Nat)) : Option State :=
  let k := m.kvRec
  let q := (t.layer l).nextSeq
  let own := Kv.ring k == 0 || q % Kv.ring k == s.kvRingIndex t
  let loses (p : KvPage) : Bool := Kv.hot k != 0 && p.q + Kv.hot k == q
  let s := s.setStream t.entry fun t => t.setLayer l fun y =>
    { y with pages := y.pages.map fun (p : KvPage) =>
        if loses p then { p with framed := false, cullet := Kv.mode k == 1, pool := if Kv.mode k = 1 then none else p.pool } else p }
  let t := (s.stream t.entry).getD t
  let used := t.poolUsed
  let free := (List.range (s.kvPoolPages t)).find? fun i => !used.contains i
  if own && free.isNone then none
  else
    let scales := (List.range (Kv.heads k)).map fun h => (Kv.scaleExp k (keys.getD h []), Kv.scaleExp k (vals.getD h []))
    let p : KvPage :=
      { q := q, own := own, pool := if own then free else none, base := pos, scales := scales, framed := Kv.hot k != 0 }
    let g := m.stage.getD m.stageNow {}
    let s :=
      if own && Kv.hot k == 0 && g.layer == l && g.entries.contains t.entry then
        let mine := (g.copies.filter fun c => c.entry == t.entry).map (·.frame)
        let first := m.stageNow * Kv.stageFrames k + g.entries.idxOf t.entry * Kv.allot k
        match (List.range (Kv.allot k)).find? fun i => !mine.contains (first + i) with
        | none => s
        | some i => s.setImage m.id fun m =>
            { m with stage := listMod m.stage m.stageNow fun (g : StageSet) =>
                { g with copies := g.copies ++ [⟨t.entry, l, q, first + i, 0, false⟩] } }
      else s
    let m := (s.image m.id).getD m
    some (s.kvToken m t l p true pos j keys vals)

/-- Append one token; none where the pool holds no free page (R197). -/
def kvAppend (s : State) (image e l pos j : Nat) (keys vals : List (List Nat)) : Option State :=
  match s.image image, s.stream e with
  | some m, some t =>
    let k := m.kvRec
    let y := t.layer l
    match y.pages.getLast? with
    | some p =>
      if p.toks.length < Kv.perPage k ∧ pos - p.base < 2 ^ 32 ∧ !p.cullet then
        some (s.kvToken m t l p false pos j keys vals)
      else s.kvOpen m t l pos j keys vals
    | none => s.kvOpen m t l pos j keys vals
  | _, _ => some s

/-- Append tokens one after another. -/
def kvAppendAll (s : State) (image e l j : Nat) : List (Nat × List (List Nat) × List (List Nat)) → Option State
  | [] => some s
  | x :: xs =>
    match s.kvAppend image e l x.1 j x.2.1 x.2.2 with
    | none => none
    | some t => t.kvAppendAll image e l j xs

/-- Some transfer that reads from the `n` bytes at scratchpad address `a` is not yet complete. -/
def readsLeft (s : State) (a n : Nat) : Bool :=
  let hits (x : Xfer) : Bool := x.comp.isNone && decide (x.src < a + n ∧ a < x.src + x.bytes)
  (s.builtIns.any fun b => b.todo.any hits) || s.flights.any fun f => hits f.x

/-- Pages that an Append of `n` tokens from position `pos` opens, where the newest page holds `len` tokens and has BasePos `base`
(R197). -/
def kvOpens (k : List Byte) : Nat → Nat → Nat → Nat → Nat
  | 0, _, _, _ => 0
  | n + 1, len, base, pos =>
    if len < Kv.perPage k ∧ pos - base < 2 ^ 32 then kvOpens k n (len + 1) base (pos + 1) else 1 + kvOpens k n 1 pos (pos + 1)

/-- An Append that opens a page in a hot frame waits for the spill write and the staging reads of the page it displaces
(R197); each stream comes with its first position and its tokens. -/
def kvAppendWaits (s : State) (m : Image) (d : Desc) (es : List (Nat × Nat × Nat)) : Bool :=
  let k := m.kvRec
  let l := d.b 0x51 1
  Kv.hot k != 0 && es.any fun x =>
    match s.stream x.1 with
    | none => false
    | some t =>
      let y := t.layer l
      let last := (y.pages.getLast?).filter fun p => !p.cullet
      let opens := kvOpens k x.2.2 ((last.map fun p => p.toks.length).getD (Kv.perPage k)) ((last.map fun p => p.base).getD 0) x.2.1
      (List.range opens).any fun i =>
        let q := y.nextSeq + i
        decide (Kv.hot k ≤ q) && s.readsLeft (s.hotAddr m t l (q - Kv.hot k)) (Kv.pageBytes k)

/-! Stage and Restore (R198, R204, R205). -/

/-- The pages of a layer that a Stage copies, or reserves a frame for: oldest first. -/
def kvStaged (k : List Byte) (y : KvLay) : List KvPage :=
  let old := y.pages.filter fun p => decide (p.q + (Kv.hot k - 1) < y.nextSeq) && (p.own || p.cullet)
  old.filter fun p => p.toks.any fun x => decide (y.floor ≤ x.1)

/-- Start a stage set for a layer with the streams that take part: copies, request records (R204), transfers. -/
def kvStage (s : State) (m : Image) (l : Nat) (es : List Nat) : State × List (List Byte) :=
  let k := m.kvRec
  let of (x : Nat × Nat) : List (StageCopy × KvPage) :=
    match s.stream x.1 with
    | none => []
    | some t => (kvStaged k (t.layer l)).zipIdx.map fun p =>
        (⟨x.1, l, p.1.q, x.2 * Kv.allot k + p.2, if p.1.cullet then 0 else p.1.toks.length, p.1.cullet⟩, p.1)
  let all := (es.zipIdx).flatMap of
  let s' := s.setImage m.id fun m =>
    { m with stageNow := 0, stage := listSet m.stage 0 { layer := l, entries := es, copies := all.map (·.1) } }
  let s' := all.foldl (fun s x =>
    match s.stream x.1.entry with
    | none => s
    | some t =>
      if x.1.cullet then s
      else
        let src := if x.2.framed && Kv.hot k != 0 then s.hotAddr m t l x.2.q else s.poolAddr m t (x.2.pool.getD 0)
        let dst := s.frameAddr m x.1.frame
        (s.addBuiltIn (.kvStage l x.1.frame) m.id (some x.1.entry) (benchOf dst)
          (copyXfers src dst (Kv.pageBytes k))).count Fd.GAF_KV_STAGE_CNT) s'
  (s', all.filterMap fun x =>
    if x.1.cullet then
      some (leBytes 2 x.1.entry ++ leBytes 2 l ++ leBytes 2 x.2.toks.length ++ leBytes 2 0 ++ leBytes 8 x.2.base)
    else none)

/-- Put restored tokens into the reserved frames of a stream, in request order (R205). -/
def kvRestore (s : State) (image e l : Nat) : List (List (List Nat) × List (List Nat)) → State
  | [] => s
  | x :: xs =>
    match s.image image, s.stream e with
    | some m, some t =>
      let k := m.kvRec
      let y := t.layer l
      let size (q : Nat) : Nat := ((y.pages.find? fun p => p.q == q).map fun p => p.toks.length).getD 0
      match (m.stage.getD m.stageNow {}).copies.find? fun c => c.entry == e && c.layer == l && c.cullet && decide (c.tokens < size c.q) with
      | none => s
      | some c =>
        match y.pages.find? fun p => p.q == c.q with
        | none => s
        | some p =>
          let scales := if c.tokens = 0 then
              (List.range (Kv.heads k)).map fun h => (Kv.scaleExp k (x.1.getD h []), Kv.scaleExp k (x.2.getD h []))
            else p.scales
          let p := { p with scales := scales }
          let sat := (List.range (Kv.heads k)).filter fun h =>
            let sc := p.scales.getD h (0, 0)
            (x.1.getD h []).any (Kv.beyond k sc.1) || (x.2.getD h []).any (Kv.beyond k sc.2)
          let s := s.count Fd.GAF_KV_SAT_CNT 0 sat.length
          let pos := (p.toks.getD c.tokens (0, 0)).1
          let a := s.frameAddr m c.frame
          let parts := (if c.tokens = 0 then kvHead k p l else []) ++ kvRows k p c.tokens pos x.1 x.2
          let s := parts.foldl (fun s z => s.arrPut (a + z.1) z.2) s
          let s := s.setStream e fun t => t.setLayer l fun y =>
            { y with pages := y.pages.map fun (z : KvPage) => if z.q == p.q then p else z }
          let s := s.setImage image fun m =>
            { m with stage := listMod m.stage m.stageNow fun (g : StageSet) =>
                { g with copies := g.copies.map fun (d : StageCopy) => if d == c then { d with tokens := d.tokens + 1 } else d } }
          s.kvRestore image e l xs
    | _, _ => s

/-- A stream's resident pages at a layer (R199): scratchpad address, valid tokens, and whether the page is a reserved frame. -/
def kvResident (s : State) (m : Image) (t : Stream) (l : Nat) : List (Nat × Nat × Bool) :=
  let k := m.kvRec
  let g := m.stage.getD m.stageNow {}
  let cs := g.copies.filter fun c => c.entry == t.entry && c.layer == l
  let hot := if Kv.hot k = 0 then [] else
    (t.layer l).pages.filter fun p => p.framed && p.own && !(cs.any fun c => c.q == p.q)
  (cs.map fun c => (s.frameAddr m c.frame, c.tokens, c.cullet)) ++ hot.map fun p => (s.hotAddr m t l p.q, p.toks.length, false)

/-- Copies of the current stage set still under way (R199). -/
def kvStaging (s : State) (m : Image) : Bool :=
  s.hasBuiltIn fun b => b.image == m.id &&
    (match b.kind with
     | .kvStage _ _ => true
     | .ringRotation _ => true
     | _ => false)

/-! Commit (R201). -/

end State

/-- A layer after the commit of chunk `j`: tokens committed, Floor raised, pages that lie below it gone; the pages that left. -/
def kvLayerCommit (k : List Byte) (y : KvLay) (j : Nat) (mark : Option Nat) : KvLay × List KvPage :=
  let pages := y.pages.map fun (p : KvPage) => { p with done := Nat.max p.done (p.toks.filter fun x => x.2 ≤ j).length }
  let poss := pages.flatMap fun p => (p.toks.take p.done).map (·.1)
  let f1 := mark.getD y.floor
  let f2 := if Kv.window k < poss.length then Nat.max f1 (poss.getD (poss.length - Kv.window k) 0) else f1
  let goes (p : KvPage) : Bool := p.toks.all fun x => decide (x.1 < f2)
  let gone := pages.takeWhile goes
  let listed := (gone.filter fun p => p.own).length
  ({ y with floor := f2, pages := pages.drop gone.length,
            head := if Kv.listLen k = 0 then 0 else (y.head + listed) % Kv.listLen k }, gone)

/-- A layer record of the table and its page list (R194). -/
def kvLayerBytes (k : List Byte) (y : KvLay) : List Byte × List Byte :=
  let kept := y.pages.filter fun p => p.done != 0 || p.cullet
  let listed := kept.filter fun p => p.own
  let rec_ := leBytes 8 y.floor ++ leBytes 4 y.head ++ leBytes 4 listed.length ++
    leBytes 4 (y.nextSeq - (y.pages.length - kept.length)) ++
    leBytes 2 (((listed.getLast?).map (·.done)).getD 0) ++ List.replicate 10 0
  let slots := (List.range (Kv.listLen k)).flatMap fun i =>
    leBytes 4 (match listed[(i + Kv.listLen k - y.head) % Nat.max 1 (Kv.listLen k)]? with
      | none => 0
      | some p => if p.cullet then 2 ^ 31 else p.pool.getD 0)
  (rec_, slots)

namespace State

/-- The committed table of a stream as transfers (R201 step 6), fenced behind the spill writes. -/
def kvTableXfers (s : State) (m : Image) (t : Stream) : List Xfer :=
  let k := m.kvRec
  let pool := s.kvPoolPages t
  let used := (t.kvw.flatMap fun y => (y.pages.filter fun p => p.done != 0).filterMap (·.pool)) ++ t.punty.freed.map (·.1)
  let parts := t.kvw.map (kvLayerBytes k)
  let bits := (List.range (Kv.bitmapBytes pool)).map fun i =>
    (BitVec.ofNat 8 (sumNat ((List.range 8).map fun b => if used.contains (8 * i + b) then 2 ^ b else 0)) : Byte)
  (compXfers (t.kvPtr + 0x14) (leBytes 4 (pool - used.length)) ++
   compXfers (t.kvPtr + 0x40) (parts.flatMap (·.1) ++ parts.flatMap (·.2)) ++
   compXfers (t.kvPtr + Kv.bitmapOff k) bits).map fun x => { x with fence := true }

/-- The commit of chunk `j` for every layer of a stream (R201): `mark` is the position that Floor takes from a reset mark. -/
def kvCommit (s : State) (e j : Nat) (mark : Option Nat) : State :=
  match s.stream e with
  | none => s
  | some t =>
    match s.image t.image with
    | none => s
    | some m =>
      if m.kv.isNone then s
      else
        let k := m.kvRec
        let hop (l : Nat) : Nat := Nat.max 1 (((m.descs.find? fun d => d.kind == 0x09 && d.b 0x50 1 == 0 && d.b 0x51 1 == l).map
          fun d => d.b 0x54 2).getD 1)
        let rs := (t.kvw.zipIdx).map fun y => kvLayerCommit k y.1 j (mark.map fun x => x / hop y.2)
        let freed := rs.flatMap fun r => r.2.filterMap (·.pool)
        let spillOf (p : KvPage) : Bool :=
          Kv.mode k == 0 && Kv.hot k != 0 && decide (Kv.hot k < Kv.listLen k) && p.done == Kv.perPage k && !p.spilled && p.framed
        let spills := ((rs.map (·.1)).zipIdx).flatMap fun y => (y.1.pages.filter spillOf).map fun p => (y.2, p)
        let lays := (rs.map (·.1)).map fun (y : KvLay) =>
          { y with pages := y.pages.map fun (p : KvPage) => if spillOf p then { p with spilled := true } else p }
        let s := s.setStream e fun t =>
          { t with
            kvw := lays
            punty := { t.punty with freed := if t.isPunty then t.punty.freed ++ freed.map fun p => (p, t.punty.sent) else [] } }
        let s := s.count Fd.GAF_KV_SPILL_CNT 0 spills.length
        let t' := (s.stream e).getD t
        s.addBuiltIn .kvWrite m.id (some e) (benchOf (s.kvBase m))
          ((spills.flatMap fun x =>
              copyXfers (s.hotAddr m t' x.1 x.2.q) (s.poolAddr m t' (x.2.pool.getD 0)) (Kv.pageBytes k)) ++
            s.kvTableXfers m t')

end State

end Sys2Proof.Machine
end

