-- ==== Sys2Proof/Machine/Punty.lean ====
section
/-! DEFINITION. Punty copies and state versions (06 R153 to R155, 17 R401 to R408). -/
namespace Sys2Proof.Machine
open Sys2Proof

/-! Versions of the recurrent state (R153). -/

/-- Bytes of a section of `n` elements. -/
def secBytes (fmt n : Nat) : Nat := if fmt = 0 then 68 * ceilDiv n 32 else if fmt = 1 then 4 * n else n

namespace State

/-- Scratchpad address and bytes of the version of a chunk; `i` is the chunk's number plus 1, 0 for the version of chunk −1. -/
def versionAt (s : State) (m : Image) (t : Stream) (i : Nat) : Option (Nat × Nat) :=
  (s.stateRegion m.id).map fun r =>
    let sz := r.units * 256
    let per := sz / m.depth
    (r.start + t.slot * sz + ((i + m.depth - 1) % m.depth) * per, per)

/-- BlockLen of a stream's state block, 0 for an image that lists no state sections (R150). -/
def blockLen (s : State) (m : Image) (t : Stream) : Nat := if m.numSections = 0 then 0 else s.devLe (t.initPtr + 8) 4

/-- Steps of a chunk that a stream has under an image's Recurrence and Parallel scan descriptors (R156, R165); the first such
descriptor gives the hop. -/
def chunkSteps (m : Image) (t : Stream) : Nat :=
  match m.descs.find? fun d => d.kind == 0x06 || d.kind == 0x07 with
  | none => 0
  | some d => t.chunkLen / Nat.max 1 (if d.kind = 0x06 then d.b 0x5A 2 else d.b 0x56 2)

/-- Carry the version of chunk j − 1 into the version of chunk j, once per chunk (R153); StepCount advances by the chunk's steps
(R161). -/
def carryIn (s : State) (m : Image) (e j : Nat) : State :=
  match s.stream e with
  | none => s
  | some t =>
    if m.numSections = 0 ∨ !(t.live.any fun l => l.c.j == j && !l.carriedIn) then s
    else
      match s.versionAt m t j, s.versionAt m t (j + 1) with
      | some (a, n), some (b, _) =>
        let s := s.arrCopy a b n
        let s := s.arrPut (b + 0x10) (leBytes 8 (ofLe (s.arrBytes (a + 0x10) 8) + chunkSteps m t))
        s.setStream e fun t =>
          { t with live := t.live.map fun (l : Live) => if l.c.j == j then { l with carriedIn := true } else l }
      | _, _ => s

/-- An operation on chunk `j` touches a section: the first such operation finds it as version j − 1 holds it now (R153). `marked` says
that the chunk's reset mark takes effect in the section here or has already (R167). -/
def touchSec (s : State) (m : Image) (e j sec : Nat) (marked : Bool) : State :=
  let s := s.carryIn m e j
  match s.stream e with
  | none => s
  | some t =>
    match t.live.find? fun l => l.c.j == j with
    | none => s
    | some l =>
      let note (s : State) : State := s.setStream e fun t =>
        { t with live := t.live.map fun (l : Live) =>
            if l.c.j == j then { l with secsIn := (l.secsIn.filter fun x => x.1 != sec) ++ [(sec, marked || l.secsIn.contains (sec, true))] } else l }
      if m.numSections = 0 ∨ l.secsIn.any (fun x => x.1 == sec) then note s
      else
        match s.versionAt m t j, s.versionAt m t (j + 1) with
        | some (a, _), some (b, _) =>
          let h := s.sectionAt b sec
          note (s.arrCopy (a + h.1) (b + h.1) (secBytes h.2.1 h.2.2.1))
        | _, _ => note s

/-- Every section of the chunk that no operation has touched takes what version j − 1 holds (R153). -/
def carryAll (s : State) (m : Image) (e j : Nat) : State :=
  (List.range m.numSections).foldl (fun s sec => s.touchSec m e j sec false) (s.carryIn m e j)

/-- Sections of the version at `a` take their bytes from a state block. -/
def putSecs (s : State) (a : Nat) (secs : List Nat) (bs : List Byte) : State :=
  secs.foldl (fun s sec =>
    let h := s.sectionAt a sec
    s.arrPut (a + h.1) (bytesAt bs h.1 (secBytes h.2.1 h.2.2.1))) s

/-- A chunk that holds a mark exits: in the sections that it has not reached yet the mark takes effect now (R77, R170). -/
def exitMark (s : State) (m : Image) (e j : Nat) : State :=
  let s := s.carryAll m e j
  match s.stream e with
  | none => s
  | some t =>
    match t.live.find? fun l => l.c.j == j, s.versionAt m t (j + 1) with
    | some l, some (a, _) =>
      if l.mark.isNone then s
      else s.putSecs a ((List.range m.numSections).filter fun sec => !l.secsIn.contains (sec, true)) t.initCopy
    | _, _ => s

/-- The committed version becomes the version of chunk j − 1, where discarded chunks lie between (R62, R153). -/
def carryOver (s : State) (m : Image) (e j : Nat) : State :=
  match s.stream e with
  | none => s
  | some t =>
    if m.numSections = 0 ∨ t.committed = j ∨ !t.live.isEmpty then s
    else
      match s.versionAt m t t.committed, s.versionAt m t j with
      | some (a, n), some (b, _) => if a = b then s else s.arrCopy a b n
      | _, _ => s

/-! Punty copies (R404 to R406). -/

/-- A copy is missed: counted once (R405). -/
def puntyMiss (s : State) (e : Nat) : State :=
  let s := s.setStream e fun t =>
    { t with punty := { t.punty with misses := t.punty.misses + 1, safe_ := false } }
  let s := match s.stream e with | some t => s.storePunty t | none => s
  ((s.count Fd.PNT_COPY_MISS_CNT).setErr Fd.PNT_PAGE_ERR_CopyMiss).syncProtected

/-- The end of a copy whose stream has left its entry meanwhile: its record and the counters still take it (R405, R418). `chunk` is that of a
complete copy, none of a missed one. -/
def puntyLeft (s : State) (e : Nat) (chunk : Option Nat) : State :=
  let a := s.pntRecord e
  match chunk with
  | some j =>
    let s := if (s.stream e).isSome then s
      else (s.lpNarrowPut (a + 0x20) (leBytes 8 j) .pnt).lpNarrowPut (a + 0x28) (leBytes 4 (s.devLe (a + 0x28) 4 + 1)) .pnt
    s.count Fd.PNT_COPY_CNT
  | none =>
    let s := if (s.stream e).isSome then s else s.lpNarrowPut (a + 0x2C) (leBytes 4 (s.devLe (a + 0x2C) 4 + 1)) .pnt
    (s.count Fd.PNT_COPY_MISS_CNT).setErr Fd.PNT_PAGE_ERR_CopyMiss

/-- The parts of a page that a copy sends, as (offset in the page, bytes). -/
def puntyParts (k : List Byte) (p : KvPage) (sent : Nat) : List (Nat × Nat) :=
  let n := p.done - sent
  if n = 0 then []
  else
    (if sent = 0 then [(0, 0x40 + Kv.scaleBytes k)] else []) ++ [(Kv.posOff k sent, 4 * n)] ++
    (List.range (Kv.heads k)).flatMap fun h => [(Kv.keyOff k h sent, n * Kv.dim k), (Kv.valOff k h sent, n * Kv.dim k)]

/-- What a copy sends of a page; hot frames are read as narrow agents read (R250, R404). -/
def puntyPage (s : State) (m : Image) (t : Stream) (l : Nat) (p : KvPage) (sent : Nat) : List (Nat × List Byte) × State :=
  let k := m.kvRec
  (puntyParts k p sent).foldl (fun acc x =>
    if p.framed && Kv.hot k != 0 then
      let r := acc.2.narrowRead (s.hotAddr m t l p.q + x.1) x.2
      (acc.1 ++ [(x.1, r.1)], r.2)
    else
      let a := s.poolAddr m t (p.pool.getD 0) + x.1
      (acc.1 ++ [(x.1, s.devBytes a x.2)], acc.2.bulkRead .gth 0 a x.2 t.entry)) ([], s)

/-- Send the copy that waits, once the writes of the commit have completed (R404). The bytes are taken at this instant
(DESIGN CHOICE, notes/assumptions/20.md). -/
def puntyStart (s : State) (e : Nat) : State :=
  match s.stream e with
  | none => s
  | some t =>
    match t.punty.waiting, s.image t.image with
    | some (j, next), some m =>
      if s.writesPending e then s
      else
        let k := m.kvRec
        let base := s.mirrorBase e
        let set := t.punty.sent % 2
        let stride := s.devLe (s.pntRecord e + 8) 4
        let poolOff := s.devLe (s.pntRecord e + 0x10) 8
        let far (o : Nat) : Nat := remoteAddr t.partner (base + o)
        let sentOf (l q : Nat) : Nat :=
          if t.punty.full then 0
          else ((t.punty.mirrored.find? fun x => x.1 == l && x.2.1 == q).map fun x => x.2.2).getD 0
        let pages := (t.kvw.zipIdx).flatMap fun y => (y.1.pages.filter fun p => p.pool.isSome && p.done != 0).map fun p => (y.2, p)
        let (kvx, s) := pages.foldl (fun (acc : List Xfer × State) x =>
          let r := acc.2.puntyPage m t x.1 x.2 (sentOf x.1 x.2.q)
          (acc.1 ++ r.1.flatMap fun b => compXfers (far (poolOff + x.2.pool.getD 0 * Kv.pageBytes k + b.1)) b.2, r.2)) ([], s)
        let blk := s.blockLen m t
        let setOff := 0x1000 + set * stride
        let s := s.bulkRead .gth 0 t.statePtr blk e
        let s := if m.kv.isNone then s else s.bulkRead .gth 0 t.kvPtr (Kv.tableBytes k (s.kvPoolPages t)) e
        let st := compXfers (far setOff) (s.devBytes t.statePtr blk)
        let tab := if m.kv.isNone then [] else
          compXfers (far (setOff + roundUp blk 256)) (s.devBytes t.kvPtr (Kv.tableBytes k (s.kvPoolPages t)))
        let end_ := (compXfers (far 0) (s.sealUnit t set t.punty.sent j next)).map fun x => { x with fence := true }
        let s := s.addBuiltIn (.punty j) t.image (some e) 0 (kvx ++ st ++ tab ++ end_)
        s.setStream e fun t =>
          { t with punty := { t.punty with
              sent := t.punty.sent + 1, current := some j, waiting := none, full := false
              mirrored := pages.map fun x => (x.1, x.2.q, x.2.done) } }
    | _, _ => s

/-- The copy of chunk `j` is acknowledged whole (R405). -/
def puntyDone (s : State) (e j : Nat) : State :=
  match s.stream e with
  | none => s.puntyLeft e (some j)
  | some t =>
    if t.punty.current ≠ some j then s.puntyLeft e (some j)
    else
      let s := s.setStream e fun t =>
        { t with punty := { t.punty with
            current := none, last := some j, copies := t.punty.copies + 1, late := false
            safe_ := !t.punty.late && t.state != 5
            freed := t.punty.freed.filter fun x => t.punty.sent ≤ x.2 } }
      let s := match s.stream e with | some t => s.storePunty t | none => s
      ((s.count Fd.PNT_COPY_CNT).syncProtected).puntyStart e

/-- A partner refused a write of the copy of chunk `j`: the copy is abandoned and missed (R405); `late` says that it counts as missed
already. -/
def puntyRefused (s : State) (e j : Nat) (late : Bool) : State :=
  let left := if late then s else s.puntyLeft e none
  match s.stream e with
  | none => left
  | some t =>
    if t.punty.current ≠ some j then left
    else
      let s := if t.punty.late then s else s.puntyMiss e
      let s := { s with builtIns := s.builtIns.filter fun (b : BuiltIn) => !(b.entry == some e && b.kind == BKind.punty j) }
      s.setStream e fun t => { t with punty := { t.punty with current := none, late := false, full := true } }

/-- The commit of chunk `j`: a copy still incomplete is late, and one may fall due (R404, R405). -/
def puntyCommit (s : State) (e j next : Nat) : State :=
  match s.stream e with
  | none => s
  | some t =>
    if !t.isPunty then s
    else
      let busy := t.punty.current.isSome || t.punty.waiting.isSome
      let s := if busy && !t.punty.late then
          let s := (s.puntyMiss e).setStream e fun t => { t with punty := { t.punty with late := true } }
          { s with builtIns := s.builtIns.map fun (b : BuiltIn) =>
              if b.entry == some e && t.punty.current.any (fun j => b.kind == BKind.punty j) then { b with bad := true } else b }
        else s
      if (j + 1) % t.interval ≠ 0 ∨ s.rd Fd.PNT_PAGE_CTL_Enable = 0 then s
      else if busy then s.puntyMiss e
      else
        (s.setStream e fun t => { t with punty := { t.punty with waiting := some (j, next), late := false } }).puntyStart e

/-- The gaffer takes up another PuntyPartner at an admission (R57): a copy to the old one in progress is abandoned, missed unless it counts
so already, and the next copy is full (R404, R418; notes/assumptions/81.md). -/
def puntyTurn (s : State) (e : Nat) : State :=
  match s.stream e with
  | none => s
  | some t =>
    let open_ := t.punty.current.isSome || t.punty.waiting.isSome
    let s := if open_ && !t.punty.late then s.puntyMiss e else s
    let s := { s with builtIns := s.builtIns.filter fun (b : BuiltIn) =>
      !(b.entry == some e && t.punty.current.any fun j => b.kind == BKind.punty j) }
    s.setStream e fun t => { t with punty := { t.punty with current := none, waiting := none, late := false, full := true } }

end State

end Sys2Proof.Machine
end

