-- ==== Sys2Proof/Machine/FailStop.lean ====
section
/-! DEFINITION. Fail-stop (17_failover.md, R397 to R400). -/
namespace Sys2Proof.Machine
open Sys2Proof

namespace State

def failStopWord (s : State) : Nat := (s.word (Fd.PNT_FAILSTOP_Cause.addr 0 0)).toNat

/-- Load PNT_FAILSTOP with the decision. -/
def loadFailStop (s : State) (cause bench : Nat) : State :=
  let s := s.wr Fd.PNT_FAILSTOP_Cause cause
  let s := s.wr Fd.PNT_FAILSTOP_Bench bench
  let s := s.wr Fd.PNT_FAILSTOP_Valid 1
  (s.wr Fd.PNT_FAILSTOP_TIME_LO s.now).wr Fd.PNT_FAILSTOP_TIME_HI (s.now / 2 ^ 32)

/-- The device's side of a fail-stop: gaffer, windows, ports, log, domains, tally (R398). -/
def stopDevice (s : State) (cause : Nat) : State :=
  let s := { s with gaf := { s.gaf with
    running := none, passes := [], images := s.gaf.images.map fun (m : Image) => { m with sweep := none, starved := [] } } }
  let s := s.wr Fd.GAF_STATUS_Running 0
  let s := s.wr Fd.GAF_STATUS_RunKind 0
  let s := s.wr Fd.GAF_STATUS_OpenSweeps 0
  let s := s.wr Fd.GAF_STATUS_Starved 0
  let s := s.wr Fd.GAF_STATUS_CreditWait 0
  let s := s.closeWindow
  let s := (List.range 16).foldl (fun s p => (s.wr Fd.APT_STATUS_State 0 p).put (.audioLow p)) s
  let s := (List.range 8).foldl (fun s p => s.wr Fd.PKT_STATUS_State 0 p) s
  let s := (List.range 32).foldl (fun s p =>
    if s.rd Fd.LNK_CTL_PacketMode p = 1 then s
    else
      let s := s.put (.stopMarker p)
      let s := (s.wr Fd.LNK_STATUS_State 0 p).wr Fd.LNK_STATUS_Rate 0 p
      s.setPort p fun l => { l with queue := [], unacked := [], keyQueue := [], rawLeft := 0, partials := [], stage := 0, mine := none, peer := none, replays := 0, keys := none, next := none }) s
  let s := { s with sec := { s.sec with hsWait := [] } }
  let s := s.wr Fd.CTL_POWER_STATUS_FailStopped 1
  let s := s.logAdd PageKind.pnt.pageType 3 0 cause s.failStopWord 0 0
  let s := { s with
    fo := { s.fo with thermTrip := s.fo.thermTrip || cause == 1 || cause == 2 }
    pow := { s.pow with resetWait := 0, d3Wait := false } }
  (s.setDomains (s.pow.domains.filter fun n => decide (64 ≤ n) && n != 72)).closeEarly 2

/-- Fail-stop with a cause of R397; of causes that fall at one instant the lowest is loaded. -/
def failStop (s : State) (cause : Nat) (bench : Nat := 31) : State :=
  if s.failStopped then
    if s.rd Fd.PNT_FAILSTOP_TIME_LO + 2 ^ 32 * s.rd Fd.PNT_FAILSTOP_TIME_HI = s.now ∧ cause < s.rd Fd.PNT_FAILSTOP_Cause then
      let s := s.loadFailStop cause bench
      { s with fo := { s.fo with thermTrip := s.fo.thermTrip || cause == 1 || cause == 2 } }
    else s
  else (s.loadFailStop cause bench).stopDevice cause

end State

end Sys2Proof.Machine
end

