-- ==== Sys2Proof/Machine/Stage.lean ====
section
/-! DEFINITION. Staged shadows and the end of a parison (02_register_pages.md, R38, R39, R41, R42, R47, R49; 03 R53). -/
namespace Sys2Proof.Machine
open Sys2Proof

/-- A place in the staged half of a page (R32). -/
def isShadow (a : Nat) : Bool := decide (0x800 ≤ a % 0x1000 ∧ a % 0x1000 < 0xF00)

/-- The ST fields of the live word at `a`. -/
def stFields (a : Nat) : List Field :=
  match pageOf a with
  | none => []
  | some (k, inst) => (k.wordFields inst (a % 0x1000)).filter fun f => f.acc == .st

/-- Copy the listed fields of one word into another. -/
def copyFields (fs : List Field) (src dst : Nat) : Nat :=
  fs.foldl (fun v f => setSlice v f.lsb f.width (slice src f.lsb f.width)) dst

namespace State

/-- The shadow of the live word at `a` takes the live copy (R39). -/
def revertWord (s : State) (a : Nat) : State :=
  s.setWord (a + 0x700) (BitVec.ofNat 32 (copyFields (stFields a) (s.word a).toNat (s.word (a + 0x700)).toNat))

/-- The live words of which the live or the staged copy is listed, within a range of the register file. -/
def listedLive (s : State) (lo n : Nat) : List Nat :=
  dedup ((s.regs.filter fun e => lo ≤ e.1 && e.1 < lo + n).map fun e => if isShadow e.1 then e.1 - 0x700 else e.1)

def revertRange (s : State) (lo n : Nat) : State :=
  (s.listedLive lo n).foldl (fun s a => if (stFields a).isEmpty then s else s.revertWord a) s

/-- StageRevert of one page; the staged route entries stand behind the page of port 0. -/
def revertPage (s : State) (k : PageKind) (inst : Nat) : State :=
  let s := s.revertRange (k.base + 0x1000 * inst) 0x1000
  if k = .lnk ∧ inst = 0 then { s with lnk := { s.lnk with staged := [] } } else s

/-- Some shadow of the page differs from its live copy (PAGE_STATUS.Staged). -/
def pageStaged (s : State) (k : PageKind) (inst : Nat) : Bool :=
  ((s.listedLive (k.base + 0x1000 * inst) 0x1000).any fun a =>
    (stFields a).any fun f => slice (s.word a).toNat f.lsb f.width != slice (s.word (a + 0x700)).toNat f.lsb f.width) ||
  (k == .lnk && inst == 0 && !s.lnk.staged.isEmpty)

/-- The live words whose staged copy differs. -/
def stagedWords (s : State) : List Nat :=
  sortBy (fun a b => a ≤ b) ((s.listedLive 0 regEnd).filter fun a =>
    (stFields a).any fun f => slice (s.word a).toNat f.lsb f.width != slice (s.word (a + 0x700)).toNat f.lsb f.width)

/-- GAF_STAGED follows the staged entries. -/
def syncStaged (s : State) : State :=
  let s := s.wr Fd.GAF_STAGED_Count s.par.staged.length
  s.wr Fd.GAF_STAGED_First (s.par.staged.foldl Nat.min (s.par.staged.headD 0))

/-- Every staged entry's live copy goes back into its shadow (R53). -/
def unstageEntries (s : State) : State :=
  let s := if s.gaf.table then s.par.staged.foldl (fun s e => s.lpNarrowPut (s.shadowEntry e) (s.liveRaw e)) s else s
  ({ s with par := { s.par with staged := [] } }).syncStaged

def parState (s : State) : Nat := s.rd Fd.CTL_COMMIT_STATUS_State
def setParState (s : State) (v : Nat) : State := s.wr Fd.CTL_COMMIT_STATUS_State v
def setCode (s : State) (v : Nat) : State := s.wr Fd.CTL_COMMIT_STATUS_Code v

/-- A shadow write was accepted (R41); the Claim bits of a parison that had been checked stay until it is applied or abandoned (R121). -/
def staging (s : State) : State :=
  if s.parState = 2 then { s with par := { s.par with loads := [], plan := [], books := [] } }.setParState 1 else s.setParState 1

/-- Shadow writes are dropped (R41, R42). -/
def stageShut (s : State) : Bool := s.parState == 3 || s.rd Fd.CTL_COMMIT_STATUS_Busy == 1

/-- The instant of an armed APPLY with When = 1 has come: its counter value is the tick of the application (R45, R47). -/
def instantCome (s : State) : State := { s with par := { s.par with due := true, dueAt := some s.now, dueAtBarrier := false } }

/-- The armed parison's instant has come (R45). -/
def applyDue (s : State) : Bool :=
  s.parState == 3 && !s.failStopped &&
    (if s.par.whenBit = 0 then decide (s.par.time ≤ s.now) else s.par.due || s.par.dueAt.any fun t => decide (t ≤ s.now))

/-- A sweep is open. -/
def sweepOpen (s : State) : Bool := s.gaf.images.any fun m => m.sweep.isSome

/-- The instants of an armed APPLY with When = 1 that need no sweep boundary (R45). -/
def parWatch (s : State) : State :=
  if s.parState = 3 ∧ s.par.whenBit = 1 ∧ !s.par.due ∧ s.par.dueAt = none ∧ !s.par.dueAtBarrier ∧
      (!s.sweepOpen ∨ s.rd Fd.GAF_PAGE_CTL_Enable = 0) then
    if s.gaf.running.isSome then { s with par := { s.par with dueAtBarrier := true } }
    else { s with par := { s.par with dueAt := some (s.now + 1000) } }
  else s

/-- Transitions outside an operation boundary, which may leave no sweep open (R45, R56). -/
def settleWatch (s : State) : State := s.settle.parWatch

/-- The parison ends without application: every shadow equals its live copy (R39, R41). -/
def abandonAll (s : State) : State :=
  let s := s.revertRange 0 regEnd
  let s := { s with lnk := { s.lnk with staged := [] } }
  let s := s.unstageEntries
  (({ s with par := {} }).setClaims []).setParState 0

/-- A parison that had been checked returns to OPEN with its shadows kept (R44, R428, R473). -/
def reopen (s : State) (code kind where_ : Nat) : State :=
  let s := { s with par := { s.par with loads := [], plan := [], books := [], due := false, dueAt := none, dueAtBarrier := false } }
  let s := (s.setParState 1).setCode code
  let s := s.wr Fd.CTL_COMMIT_WHERE_Kind kind
  let s := s.wr Fd.CTL_COMMIT_WHERE_Where where_
  s.wr Fd.CTL_COMMIT_AUX_Entry 0

end State

end Sys2Proof.Machine
end

