-- ==== Sys2Proof/Machine/Resets.lean ====
section
/-! DEFINITION. Retention classes, resets, job kill and power states (02 R49, R51, 16 R383, 18 R426 to R430, 20 R461). -/
namespace Sys2Proof.Machine
open Sys2Proof

/-- A word after an event that clears the retention classes `clears` (R51); a shadow clears with its live field. -/
def clearedWord (clears : Cls → Bool) (a : Nat) (w : Word) : Word :=
  match pageOf a with
  | none => w
  | some (k, inst) =>
    let off := if isShadow a then a % 0x1000 - 0x700 else a % 0x1000
    let fs := (k.wordFields inst off).filter fun f => clears f.cls
    BitVec.ofNat 32 (copyFields fs (resetWord a).toNat w.toNat)

namespace State

/-- Clear the fields of retention classes in the pages that `pages` names. -/
def clearClasses (s : State) (pages : PageKind → Nat → Bool) (clears : Cls → Bool) : State :=
  { s with regs := s.regs.filterMap fun e =>
      match pageOf e.1 with
      | none => some e
      | some (k, inst) =>
        if pages k inst then
          let w := clearedWord clears e.1 e.2
          if w = resetWord e.1 then none else some (e.1, w)
        else some e }

end State

/-- The classes that a soft reset clears; a hot reset clears H beside them, a cold reset C (R51). -/
def Cls.softClears : Cls → Bool
  | .s => true
  | .b => true
  | .l => true
  | _ => false

def Cls.hotClears (x : Cls) : Bool := x.softClears || x == .h
def Cls.coldClears (x : Cls) : Bool := x.hotClears || x == .c
/-- A bench reset (R51). -/
def Cls.benchClears (x : Cls) : Bool := x == .b || x == .l

/-- Bench of a page that belongs to one (R51). -/
def PageKind.bench : PageKind → Nat → Option Nat
  | .ben, i => some i
  | .gth, i => some i
  | .evtB, i => some i
  | .cor, i => some (i / 32)
  | _, _ => none

namespace State

/-- The log entry of a reset, and CTL_RESET_CAUSE (R426, R432). -/
def logReset (s : State) (code d0 : Nat) : State :=
  (s.wr Fd.CTL_RESET_CAUSE_Last code).logAdd PageKind.ctl.pageType 4 0 code d0 0 0

/-- A reset abandons the parison, whose Code is then as R49 says. -/
def abandonForReset (s : State) (code : Nat) (clear : State → State) : State :=
  ((clear s.abandonAll).setParState 0).setCode code

/-- A port that is sending or about to stops under R368: the ramp, then the frames of zeros. -/
def aptHalt (s : State) (p : Nat) : State :=
  let st := s.rd Fd.APT_STATUS_State p
  if st = 1 ∨ st = 2 then
    let s := s.beginStop p
    (s.aport p).ahead.foldl (fun s x => s.resend p false x) s
  else s

def benchEnabled (s : State) (b : Nat) : Bool := s.rd Fd.BEN_PAGE_CTL_Enable b == 1

/-- A bench's array and vector domains follow gating and BEN Enable; they go off between operations only (R384). A bench whose
domains are powered again stays out of the mask until both report power good. -/
def syncDomains (s : State) : State :=
  if s.rd Fd.CTL_POWER_STATUS_State ≠ 0 ∨ s.failStopped then s
  else
    let had (n : Nat) : Bool := s.pow.domains.contains n
    let off (b : Nat) : Bool := (s.dmp.gated.contains b || !s.benchEnabled b) && !(s.gaf.running.isSome && had (4 * b))
    let on := (List.range 80).filter fun n => if n < 64 && decide (n % 4 < 2) then !off (n / 4) else had n
    let wakes := (List.range 16).filter fun b => !off b && !had (4 * b) && !s.dmp.ungating.contains b
    ({ s with dmp := { s.dmp with ungating := s.dmp.ungating ++ wakes } }).setDomains on

/-- Measurements that every reset of class S clears (R444). -/
def clearSoftM (s : State) : State := ((s.clearM 4).clearM 5).clearM 7

/-- Run a reset's clearing of fields; a page whose ErrEvt rises, because its mask clears and its PAGE_ERR stays, is named in the log
(R37). -/
def watchAllErr (s : State) (f : State → State) : State :=
  let t := f s
  PageKind.all.foldl (fun t k => (List.range k.count).foldl (fun t i =>
    if !s.errEvt k i && t.errEvt k i then t.logAdd k.pageType 1 (k.instNo i) 0 (t.pageErr k i) (t.pageMask k i) 0 else t) t) t

/-- The effects of a hot or soft reset at the barrier (R427, R430): LPDDR keeps its contents, pool pages too (notes/assumptions/50.md). -/
def resetCore (s : State) (kind : Nat) : State :=
  let code := if s.parState = 0 then 0 else 0x0E
  let stopping := (List.range 16).filter fun p => s.rd Fd.APT_STATUS_State p != 0
  let s := (s.streams.map (·.entry)).foldl (fun s e => (s.discardChunks e).toIdle e) s
  let s := { s.gaf.images.foldl (fun s m => s.unloadImage m.id) s with scrubs := s.scrubs }
  let s := (List.range 16).foldl (fun s p => s.aptHalt p) s
  let s := s.abandonForReset code fun s =>
    s.watchAllErr fun s => s.clearClasses (fun _ _ => true) (if kind = 2 then Cls.hotClears else Cls.softClears)
  let s := stopping.foldl (fun s p => s.wr Fd.APT_STATUS_State 3 p) s
  let s := { s with
    evt := []
    gaf := { s.gaf with images := [], streams := [], running := none, passes := [], table := false, rounds := [], held := [] }
    regions := s.regions.map fun (r : Region) => { r with shut := true }
    dmp := { rest := s.dmp.rest, ungating := s.dmp.ungating }
    servo := {}
    gens := List.replicate 4 {}
    rings := List.replicate 16 {}
    logRing := {}
    tallyRing := {}
    fo := { s.fo with probes := [], standby := [] }
    sec := { s.sec with cmd := 0, cmdWaits := false }
    pow := { s.pow with
      busMaster := s.pow.busMaster && kind != 2
      resetWait := 0
      readyIn := if s.pow.row = 9 then 1 + s.fresh [51] % 20000000 else 0
      domains := if s.rd Fd.CTL_POWER_STATUS_State = 0 then
          (List.range 80).filter fun n => s.pow.domains.contains n || !(decide (n < 64) && decide (n % 4 < 2))
        else s.pow.domains } }
  let s := ((s.clearSoftM.syncSpad).syncStore).syncDomains
  (s.syncTally).logReset kind 0

/-! Power states (R383, R429). -/

/-- Domains that are on while the device is dormant, or in D3hot. -/
def lowDomains (s : State) (d3 : Bool) : List Nat :=
  (List.range 80).filter fun n =>
    if n < 64 then n % 4 ≥ 2 && !s.regions.isEmpty
    else if n == 72 || n == 75 then false
    else if n == 79 then !d3
    else if n < 72 && n % 2 == 0 then !d3
    else true

/-- D3hot is entered. -/
def toD3 (s : State) : State :=
  let s := ({ s with pow := { s.pow with d3Wait := false } }).setDomains (s.lowDomains true)
  s.wr Fd.CTL_POWER_STATUS_State 4

/-- A hot or soft reset that may run now: the gaffer has stopped at a barrier. -/
def resetNow (s : State) (kind : Nat) : State :=
  let d3 := s.pow.d3Wait
  let s := s.resetCore kind
  if d3 then s.toD3 else s

/-- A hot or soft reset: at once, or at the running operation's barrier; where both wait, the hot one clears what both clear. -/
def startReset (s : State) (kind : Nat) : State :=
  if s.gaf.running.isSome then { s with pow := { s.pow with resetWait := if s.pow.resetWait = 2 then 2 else kind } } else s.resetNow kind

/-- What is left when power goes: fuses, flash and what stands outside the device (R430, R443). -/
def wipe (s : State) : State :=
  let sec : Security :=
    { armed := s.sec.armed, slots := s.sec.slots, pending := s.sec.pending, active := s.sec.active, changed := s.sec.changed, fallBack := s.sec.fallBack, minSvn := s.sec.minSvn,
      idGen := s.sec.idGen, nextBlock := s.sec.nextBlock, nextIndex := s.sec.nextBlock.map (256 * ·),
      bootCount := s.sec.bootCount, vendorKey := s.sec.vendorKey, certs := s.sec.certs }
  let t : State :=
    { pending := s.pending, out := s.out, freeTick := s.freeTick, host := s.host, sec := sec,
      tly := { opens := s.tly.opens, gen := s.tly.gen }, pow := { presenceN := s.pow.presenceN } }
  (List.range 16).foldl (fun t i => t.wr Fd.XMC_MAPOUT_Recorded (s.rd Fd.XMC_MAPOUT_Recorded i) i) t

/-- PERST_N is asserted while the supplies stay up (R426, R430, R436, R444, R449). -/
def coldCore (s : State) : State :=
  let s := s.closeWindow
  let s := s.closeEarly 4
  let code := if s.parState = 0 then 0 else 0x0E
  let s := s.abandonAll
  let s := s.clearClasses (fun _ _ => true) Cls.coldClears
  let s := (s.setCode code).clearSoftM
  let s := (((s.clearM 0).clearM 1).clearM 2).clearM 3
  let sec : Security :=
    { s.sec with openEnd := 0, cmd := 0, cmdWaits := false, hsWait := [], fleet := [] }
  let t : State :=
    { pending := s.pending, out := s.out, freeTick := s.freeTick, regs := s.regs, log := s.log, host := s.host, sec := sec,
      tly := { s.tly with start := 0, armed := [], mark := 0, events := [], carry := [] }, clk := {}, dmp := { rest := s.dmp.rest }, pow := { presenceN := s.pow.presenceN } }
  (t.wr Fd.CTL_RESET_CAUSE_Last 1).syncTally

/-- Lowest staged entry whose shadow names an image. -/
def stagedNaming (s : State) (image : Nat) : Option Nat :=
  (sortBy (fun a b => a ≤ b) s.par.staged).find? fun e => leAt (s.shadowRaw e) 8 1 == image

/-- The atomics to an image's regions that have not arrived go away (R255). -/
def abandonAtomics (s : State) (image : Nat) : State :=
  let hits (f : Flight) : Bool := (f.x.xform == 3 || f.x.xform == 4) && (s.regionAt f.x.dst 256).any fun (r : Region) => r.image == image
  let gone := s.flights.filter hits
  gone.foldl (fun s f => s.syncGth f.bench) { s with flights := s.flights.filter fun f => !hits f }

/-- A job kill of a loaded image: its programs stop at once (R276, R428). -/
def killImage (s : State) (image : Nat) : State :=
  let s := s.logReset 5 image
  let s := (s.wr Fd.CTL_JOBKILL_STATUS_Busy 1).wr Fd.CTL_JOBKILL_STATUS_Image image
  let s :=
    if 2 ≤ s.parState then
      match s.stagedNaming image with
      | some e => s.reopen 5 2 e
      | none => s
    else s
  let s := s.abandonAtomics image
  let s := s.setImage image fun m => { m with killed := true, walks := m.walks.map fun w => { w with stopped := true, queue := [] } }
  let es := (s.gaf.streams.filter fun x => x.2.image == image).map (·.1)
  (es.foldl (fun s e => s.setStream e fun t => { t with idleReq := true }) s).settleWatch

/-- A sealed region of an image is zero: its rows and its descriptor are free. With the last one, the pool pages are zero (R255; the order:
notes/assumptions/18.md). -/
def scrubDone (s : State) (image region : Nat) : State :=
  if s.rd Fd.SPD_SCRUB_Hold = 1 then s
  else
  let s := s.releaseRegion image region
  if s.regions.any fun (r : Region) => r.image == image && r.shut then s
  else
    let pages := (s.scrubs.filter fun x => x.1 == image).flatMap (·.2)
    let s := pages.foldl (fun s p => if s.inLpddr p.1 p.2 then s.zeroLp (p.1 - lpBase) p.2 else s) s
    let s := { s with scrubs := s.scrubs.filter fun x => x.1 != image }
    if s.rd Fd.CTL_JOBKILL_STATUS_Image = image && !(s.gaf.images.any fun (m : Image) => m.id == image && m.killed) then
      s.wr Fd.CTL_JOBKILL_STATUS_Busy 0
    else s

end State

/-- POWER_ON (R426): supplies rise; every field is cleared, start-up waits for PERST_N. -/
def execPowerOn (s : State) : Result := .next s.begin_.wipe

/-- POWER_LOSS (R461): every volatile state is lost. -/
def execPowerLoss (s : State) : Result :=
  let s := s.begin_.wipe
  .next { s with pow := { s.pow with powered := false } }

/-- COLD_RESET (R426): PERST_N is asserted. -/
def execColdReset (s : State) : Result :=
  let s := s.begin_
  .next (if s.pow.powered then s.coldCore else s)

/-- HOT_RESET (R427); in fail-stop it resets the PCIe link and nothing else (R399). -/
def execHotReset (s : State) : Result :=
  let s := s.begin_
  .next (if !s.pow.powered || s.pow.perst || s.failStopped then s else s.startReset 2)

/-- A write of CTL_RESET (R426). -/
def State.softResetWrite (s : State) (word : Nat) : State :=
  if slice word 16 16 ≠ 0xC3D2 ∨ slice word 1 15 ≠ 0 then s.badWrite .ctl 0
  else if bitAt word 0 then s.startReset 3
  else s

/-- SOFT_RESET (R426). -/
def execSoftReset (word : Nat) (s : State) : Result := .next (s.begin_.gated .ctl 0 fun s => s.softResetWrite word)

/-- A write of CTL_BENCH_RST (R427). -/
def State.benchResetWrite (s : State) (word : Nat) : State :=
  if slice word 16 16 ≠ 0xC3D2 ∨ s.rd Fd.GAF_PAGE_CTL_Enable = 1 ∨ s.gaf.running.isSome then s.badWrite .ctl 0
  else
    let mine (b : Option Nat) : Bool := match b with | some b => bitAt word b | none => false
    let s := s.clearClasses (fun k i => mine (k.bench i)) Cls.benchClears
    let s := { s with evt := s.evt.filter fun e => !(decide (e.1 / 32 < 16) && bitAt word (e.1 / 32)) }
    (s.setDomains s.pow.domains).logReset 4 (slice word 0 16)

/-- BENCH_RESET (R427). -/
def execBenchReset (word : Nat) (s : State) : Result := .next (s.begin_.gated .ctl 0 fun s => s.benchResetWrite word)

/-- A write of CTL_JOBKILL (R428). -/
def State.jobKillWrite (s : State) (word : Nat) : State :=
  if slice word 8 23 ≠ 0 then s.badWrite .ctl 0
  else if bitAt word 31 ∧ (s.image (slice word 0 8)).isSome then s.killImage (slice word 0 8)
  else s

/-- JOB_KILL (R428). -/
def execJobKill (word : Nat) (s : State) : Result := .next (s.begin_.gated .ctl 0 fun s => s.jobKillWrite word)

/-- SCRUB_COMPLETE (R255). -/
def execScrubComplete (image : Nat) (s : State) (region : Nat := 0) : Result :=
  let s := s.begin_
  .next (if s.working then s.scrubDone image region else s)

/-- The conditions of dormant (R429). -/
def State.mayDormant (s : State) : Bool :=
  s.rd Fd.GAF_PAGE_CTL_Enable == 0 && s.allIdle && s.gaf.images.isEmpty &&
    (List.range 16).all fun p => s.rd Fd.APT_STATUS_State p == 0

/-- A write of CTL_POWER (R429). -/
def State.powerWrite (s : State) (word : Nat) : State :=
  let st := s.rd Fd.CTL_POWER_STATUS_State
  if 1 < word % 2 ^ 32 then s.badWrite .ctl 0
  else if word % 2 ^ 32 = 0 then
    let s := s.wr Fd.CTL_POWER_Req 0
    if st = 1 ∨ st = 2 then s.wr Fd.CTL_POWER_STATUS_State 3 else s
  else if st = 0 ∨ st = 3 then
    if s.mayDormant then (s.wr Fd.CTL_POWER_Req 1).wr Fd.CTL_POWER_STATUS_State 1 else s.badWrite .ctl 0
  else s

/-- DORMANT_REQUEST (R429). -/
def execDormantRequest (word : Nat) (s : State) : Result := .next (s.begin_.gated .ctl 0 fun s => s.powerWrite word)

/-- DORMANT_ENTERED (R429): domains off, L fields cleared. -/
def execDormantEntered (s : State) : Result :=
  let s := s.begin_
  .next <|
    if s.rd Fd.CTL_POWER_STATUS_State ≠ 1 then s
    else
      let s := s.clearClasses (fun _ _ => true) (· == .l)
      (s.setDomains (s.lowDomains false)).wr Fd.CTL_POWER_STATUS_State 2

/-- ACTIVE_REACHED (R429): the domains are on again, but those of benches that stay gated or disabled (R384). -/
def execActiveReached (s : State) : Result :=
  let s := s.begin_
  .next <|
    if s.rd Fd.CTL_POWER_STATUS_State ≠ 3 then s
    else
      let off (n : Nat) : Bool := n < 64 && decide (n % 4 < 2) &&
        (s.dmp.gated.contains (n / 4) || s.rd Fd.BEN_PAGE_CTL_Enable (n / 4) == 0)
      (s.setDomains ((List.range 80).filter fun n => !off n)).wr Fd.CTL_POWER_STATUS_State 0

/-- D3HOT_ENTER (R429): from dormant; otherwise PmViolation, and a soft reset first. -/
def execD3hotEnter (s : State) : Result :=
  let s := s.begin_
  .next <|
    if !(s.hostUp || s.romServes) || s.failStopped then s
    else if s.rd Fd.CTL_POWER_STATUS_State = 2 then s.toD3
    else
      let s := s.setErr Fd.CTL_PAGE_ERR_PmViolation
      ({ s with pow := { s.pow with d3Wait := true } }).startReset 3

/-- D0_RETURN (R429): back to dormant, without reset. -/
def execD0Return (s : State) : Result :=
  let s := s.begin_
  .next <|
    if s.rd Fd.CTL_POWER_STATUS_State ≠ 4 then s
    else
      (s.setDomains (s.lowDomains false)).wr Fd.CTL_POWER_STATUS_State 2

end Sys2Proof.Machine
end

