-- ==== Sys2Proof/Machine/Damper.lean ====
section
/-! DEFINITION. Clocks, power domains and the damper (16_damper.md, R378 to R395). -/
namespace Sys2Proof.Machine
open Sys2Proof

namespace State

/-! The active bench mask (R384, R389, R149). -/

/-- The damper places the bench in the mask for the next issue. -/
def inMask (s : State) (b : Nat) : Bool :=
  s.benchEnabled b && !s.dmp.gated.contains b && !s.dmp.ungating.contains b

def maskBenches (s : State) : List Nat := (List.range 16).filter s.inMask

/-- The bench belongs to the active mask: the one that the running operation sampled at its issue, and between operations the one that
the next issue would sample (R12). -/
def usesBench (s : State) (b : Nat) : Bool :=
  match s.gaf.running with
  | some r => bitAt r.mask b
  | none => s.inMask b

def maskBits (s : State) : Nat := sumNat (s.maskBenches.map (2 ^ ·))

end State

/-- d of a division code (BEN_STATUS.Division). -/
def divOf (code : Nat) : Nat := [4, 5, 6, 8].getD code 4
/-- 4/d in units of 1/120 (R391). -/
def speedOf (code : Nat) : Nat := 480 / divOf code

namespace State

def divCode (s : State) (b : Nat) : Nat := s.dmp.divs.getD b 0
/-- S of the mask, in units of 1/120. -/
def speedSum (s : State) : Nat := sumNat (s.maskBenches.map fun b => speedOf (s.divCode b))

/-- DMP_STATUS and DMP_DIV follow the damper. -/
def syncDamper (s : State) : State :=
  let s := s.syncDomains
  let s := s.wr Fd.DMP_STATUS_ActiveMask s.maskBits
  let s := s.wr Fd.DMP_STATUS_SNow s.speedSum
  let s := s.wr Fd.DMP_STATUS_StretchLevel s.dmp.kd
  let s := s.wr Fd.DMP_DIV (sumNat ((s.dmp.divs.zipIdx).map fun x => x.1 * 4 ^ x.2))
  let nj (x : Int) : Nat := ofSigned 32 (x.tdiv 100)
  let s := s.wr Fd.DMP_GENERAL_NJ (nj s.dmp.general)
  let s := s.wr Fd.DMP_RESERVE_NJ (nj s.dmp.reserve)
  s.wr Fd.DMP_BASE_NJ (nj s.dmp.base)

/-- A stream entry of instrument class is not IDLE (R391). -/
def instrumentRuns (s : State) : Bool := s.streams.any fun (t : Stream) => t.cls == 0

/-- A division or gating change, unless the floor withholds it (R391); `loss` is what S loses, in units of 1/120. -/
def floorGuard (s : State) (loss : Nat) (change : State → State) : State :=
  if s.instrumentRuns ∧ s.speedSum < s.rd Fd.DMP_FLOOR_SFloor + loss ∧ loss ≠ 0 then
    ((s.count Fd.DMP_FLOOR_CNT).wr Fd.DMP_STATUS_AtFloor 1).setErr Fd.DMP_PAGE_ERR_FloorHeld
  else change s

def setDivision (s : State) (b code : Nat) : State :=
  ({ s with dmp := { s.dmp with
    divs := listSet s.dmp.divs b code, steps := listSet s.dmp.steps b 0 } }).count Fd.DMP_DIV_CNT

/-- What S loses when bench b goes to a division code, or out of the mask. -/
def lossTo (s : State) (b : Nat) (code : Option Nat) : Nat :=
  if s.inMask b then speedOf (s.divCode b) - (code.map speedOf).getD 0 else 0

def gateBench (s : State) (b : Nat) : State :=
  let s := { s with dmp := { s.dmp with gated := s.dmp.gated ++ [b], steps := listSet s.dmp.steps b 0 } }
  (s.count Fd.DMP_GATE_CNT).setErr Fd.DMP_PAGE_ERR_Gated

/-- Division and gating of one bench that is not gated (R389); `t` is T_b, none when every sensor of the bench is left out
(R385). -/
def actBench (s : State) (b : Nat) (t : Option Int) : State :=
  let div := s.divCode b
  let since := s.dmp.steps.getD b 0
  let divC : Int := s.rd Fd.DMP_THERM_A_DivC
  let gateC : Int := s.rd Fd.DMP_THERM_A_GateC
  match t with
  | none => if div = 3 then s else s.floorGuard (s.lossTo b (some 3)) fun s => s.setDivision b 3
  | some t =>
    if divC < t ∧ div < 3 then
      if 100 ≤ since then s.floorGuard (s.lossTo b (some (div + 1))) fun s => s.setDivision b (div + 1) else s
    else if gateC < t ∧ div = 3 then s.floorGuard (s.lossTo b none) fun s => s.gateBench b
    else if t ≤ divC - 3 ∧ 0 < div ∧ 1000 ≤ since then s.setDivision b (div - 1)
    else s

/-- Ungating (R389): at ÷8, after 100 ms gated; the bench waits for power good (R384). -/
def ungateBench (s : State) (b : Nat) (t : Int) : State :=
  if s.dmp.gated.contains b ∧ t ≤ (s.rd Fd.DMP_THERM_A_GateC : Int) - 10 ∧ 10000 ≤ s.dmp.steps.getD b 0 then
    { s with dmp := { s.dmp with
      gated := s.dmp.gated.filter (· != b), ungating := s.dmp.ungating ++ [b], steps := listSet s.dmp.steps b 0 } }
  else s

/-! Sensors (R385). -/

/-- One reading: failures count, and the third in a row leaves the sensor out; a second reading in a row at or above 115 °C of a
sensor of Tmax trips (R385, R389). -/
def readSensor (s : State) (n : Nat) (r : Reading) : State × Bool :=
  match r with
  | none =>
    let k := (tabGet s.dmp.failures n).getD 0 + 1
    let s := { s with dmp := { s.dmp with failures := tabPut s.dmp.failures n (Nat.min k 3) } }
    (if k = 3 then s.setErr Fd.DMP_PAGE_ERR_SensorFault else s, false)
  | some t =>
    if (tabGet s.dmp.failures n).getD 0 = 3 then (s, false)
    else
      let was := s.dmp.hot.contains n
      let rest := s.dmp.hot.filter (· != n)
      ({ s with dmp := { s.dmp with
        failures := tabDel s.dmp.failures n, hot := if 115 ≤ t then rest ++ [n] else rest } }, was && decide (115 ≤ t) && decide (n < 136))

/-- Sensors of one window, numbered: eight for each bench, two for each I/O die from 128, the device area from 136. -/
def sensorsOf (w : WindowIn) : List (Nat × Reading) :=
  ((w.bench.zipIdx).flatMap fun x => (x.1.zipIdx).map fun y => (8 * x.2 + y.2, y.1)) ++
    ((w.ioDie.zipIdx).flatMap fun x => (x.1.zipIdx).map fun y => (128 + 2 * x.2 + y.2, y.1)) ++
    (w.device.zipIdx).map fun y => (136 + y.2, y.1)

/-- The readings of a window, and the first sensor that trips (R389, R392). -/
def readSensors (s : State) : List (Nat × Reading) → State × Option Nat
  | [] => (s, none)
  | x :: xs =>
    let (s, a) := s.readSensor x.1 x.2
    let (s, b) := s.readSensors xs
    (s, if a then some x.1 else b)

/-- Valid readings of this window: sensors that answered and are not left out. -/
def validReadings (s : State) (w : WindowIn) : List (Nat × Int) :=
  (sensorsOf w).filterMap fun x =>
    match x.2 with
    | some t => if (tabGet s.dmp.failures x.1).getD 0 = 3 then none else some (x.1, t)
    | none => none

end State

def maxInt : List Int → Option Int
  | [] => none
  | x :: xs => some (xs.foldl (fun a b => if a < b then b else a) x)

/-- Source code of DMP_TEMP_MAX for a sensor number, and the index of DMP_IO_TEMP plus 16. -/
def sensorSource (n : Nat) : Nat := if n < 128 then n / 8 else if n < 136 then 16 + (n - 128) / 2 else 20

namespace State

/-- T_b: the highest valid reading of the window, or the last T_b when sensors answer again later; none when all are left
out. -/
def benchTemp (s : State) (vs : List (Nat × Int)) (b : Nat) : Option Int :=
  match maxInt ((vs.filter fun x => x.1 < 128 && x.1 / 8 == b).map (·.2)) with
  | some t => some t
  | none =>
    if (List.range 8).all fun i => (tabGet s.dmp.failures (8 * b + i)).getD 0 == 3 then none
    else some (toSigned 8 (s.rdAt Fd.DMP_BENCH_TEMP_TempC 0 b))

/-- Temperature registers of a window; the device area takes no part in Tmax (R385). -/
def loadTemps (s : State) (vs : List (Nat × Int)) : State :=
  let tops := vs.filter fun x => x.1 < 136
  let s := match maxInt (tops.map (·.2)) with
    | none => s
    | some t =>
      let n := ((tops.find? fun x => x.2 == t).map (·.1)).getD 0
      (s.wr Fd.DMP_TEMP_MAX_Tmax (ofSigned 8 t)).wr Fd.DMP_TEMP_MAX_Source (sensorSource n)
  let s := (List.range 16).foldl (fun s b =>
    match maxInt ((vs.filter fun x => x.1 < 128 && x.1 / 8 == b).map (·.2)) with
    | none => s
    | some t =>
      let s := s.wrAt Fd.DMP_BENCH_TEMP_TempC 0 b (ofSigned 8 t)
      if toSigned 8 (s.rdAt Fd.DMP_BENCH_TEMP_PeakC 0 b) < t then s.wrAt Fd.DMP_BENCH_TEMP_PeakC 0 b (ofSigned 8 t) else s) s
  (List.range 5).foldl (fun s i =>
    match maxInt ((vs.filter fun x => 128 ≤ x.1 && sensorSource x.1 == 16 + i).map (·.2)) with
    | none => s
    | some t => s.wrAt Fd.DMP_IO_TEMP_TempC 0 i (ofSigned 8 t)) s

def tmax (s : State) : Int := toSigned 8 (s.rd Fd.DMP_TEMP_MAX_Tmax)

/-! Credit (R386 to R388). -/

/-- TF, 0 to 256. -/
def throttle (s : State) : Int :=
  let limit : Int := s.rd Fd.DMP_THERM_B_LimitC
  let low : Int := s.rd Fd.DMP_THERM_A_ThrottleC
  clampInt 0 256 ((256 * (limit - s.tmax)) / (limit - low))

/-- The procedure of R386. Its divisions round toward zero (DEDUCED, notes/assumptions/23.md). -/
def openWindow (s : State) (meas : Nat) : State :=
  let d := s.dmp
  let w0 : Int := s.rd Fd.DMP_BUDGET_PkgWatts * 1000000
  let base := d.base + ((meas : Int) - d.eOps - d.base).tdiv 16
  let tf := s.throttle
  let a := ((max (w0 - max base 0) 0) * tf).tdiv 256
  let short := max (-d.reserve) 0
  let res : Int := s.rd Fd.DMP_RESERVE_ReserveUnits
  let cap := s.rd Fd.DMP_BUDGET_CapWindows * w0
  let gen := clampInt (-cap) cap (d.general + a - res - short)
  let overs := if w0 < meas then d.overRun + 1 else 0
  let energy := d.rest + meas
  let s := { s with dmp := { d with base := base, reserve := res, general := gen, eOps := 0, overRun := overs, rest := energy % 100000 } }
  let s := s.count64 Fd.DMP_ENERGY_LO Fd.DMP_ENERGY_HI 0 (energy / 100000)
  let s := s.count Fd.DMP_WINDOW_CNT
  let s := s.wr Fd.DMP_STATUS_Throttling (b2n (decide (tf < 256)))
  let s := if tf < 256 then s.count Fd.DMP_THROTTLE_CNT else s
  if overs = 100 then s.setErrLog Fd.DMP_PAGE_ERR_OverBudget 0 noEntry 0 else s

/-! Stretch level (R390). -/

def stretchTarget (s : State) : Nat :=
  let t := s.tmax
  let stretchC : Int := s.rd Fd.DMP_THERM_A_StretchC
  let kt := if t ≤ stretchC then 0
    else Nat.min 5 (1 + ((t - stretchC) / (Nat.max 1 (s.rd Fd.DMP_THERM_B_StretchStep) : Nat)).toNat)
  let km := if (List.range 16).any fun i => s.rd Fd.XMC_TEMP_RefreshStep i == 2 then s.rd Fd.DMP_THERM_B_MemStretch else 0
  Nat.min (s.rd Fd.DMP_THERM_B_StretchMax) (Nat.max kt km)

def moveStretch (s : State) : State :=
  let t := s.stretchTarget
  let d := s.dmp
  if d.kd < t then { s with dmp := { d with kd := t, fall := 0 } }
  else if t < d.kd then
    if 10000 ≤ d.fall then { s with dmp := { d with kd := d.kd - 1, fall := 1 } }
    else { s with dmp := { d with fall := d.fall + 1 } }
  else { s with dmp := { d with fall := 0 } }

/-- Thermal actions of a window (R389, R391). -/
def thermal (s : State) (vs : List (Nat × Int)) : State :=
  let s := { s with dmp := { s.dmp with steps := s.dmp.steps.map fun n => Nat.min 20000 (n + 1) } }
  let s := s.wr Fd.DMP_STATUS_AtFloor 0
  let ts := (List.range 16).map fun b => (b, s.benchTemp vs b)
  let key (x : Nat × Option Int) : Int := x.2.getD 128
  let hotFirst := sortBy (fun a b => key b ≤ key a) ts
  let s := (hotFirst.filter fun x => !s.dmp.gated.contains x.1 && !s.dmp.ungating.contains x.1).foldl
    (fun s x => s.actBench x.1 x.2) s
  let s := (sortBy (fun a b => key a ≤ key b) ts).foldl (fun s x =>
    match x.2 with
    | some t => s.ungateBench x.1 t
    | none => s) s
  s.moveStretch.syncDamper

/-- One window opening, but for the choice that follows (R386, R389, R392). -/
def window (s : State) (w : WindowIn) : State :=
  let (s, trip) := s.readSensors (sensorsOf w)
  let vs := s.validReadings w
  let s := ((s.loadTemps vs).openWindow w.energy).thermal vs
  match trip with
  | some n => s.failStop 1 (if n < 128 then n / 8 else 31)
  | none => s

/-! The system counter (R379 to R382). -/

/-- The instant of an APPLY with When = 1 stands when the counter steps from `old` to `new`: a moment to come keeps its distance, one
that has come keeps its tick (R47, R48). -/
def stepPar (p : Parison) (old new : Nat) : Parison :=
  if p.due then p
  else
    match p.dueAt with
    | none => p
    | some t => if t ≤ old then { p with due := true } else { p with dueAt := some (new + (t - old)) }

/-- A step of the counter (R48, R382, R450). -/
def stepCounter (s : State) (now frac : Nat) : State :=
  let s := { s with
    par := stepPar s.par s.now (now % 2 ^ 64)
    clk := { s.clk with now := now % 2 ^ 64, frac := frac }
    tly := { s.tly with flags := s.tly.flags ||| 8, events := [] } }
  if s.parState = 3 ∧ s.par.whenBit = 0 then (s.setParState 2).setCode 0x0F else s

/-- The system counter after one 1 GHz tick, with its 32 fractional bits (R379). -/
def tickedCounter (s : State) : Nat :=
  let adj := if s.rd Fd.CNT_CTL_Role = 2 then toSigned 32 (s.rd Fd.CNT_ADJ) else 0
  ((s.clk.now * 2 ^ 32 + s.clk.frac : Nat) + 2 ^ 32 + adj).toNat

/-- A tick of the soft or hot reset that runs; at its end Ready reads 1 again, at a memory site where one is in service (R426, R465). -/
def readyTick (s : State) : State :=
  if s.pow.readyIn = 0 then s
  else
    let s := { s with pow := { s.pow with readyIn := s.pow.readyIn - 1 } }
    if s.pow.readyIn = 0 then s.setReady else s

/-- The counter goes from `old` to `new`, with fraction `frac`: what falls due between them, the event source of the counter, and the pulse
on SYNC_OUT at a multiple of 2^SyncLog2 ns (R329, R379, R380, R435). In fail-stop no pulse goes out (R398). -/
def tickTo (s : State) (old new frac : Nat) : State :=
  let s := ({ s with out := [], clk := { s.clk with now := new % 2 ^ 64, frac := frac } }).readyTick
  let s := if !s.lnk.owedDown.isEmpty && !s.failStopped && old / 1000000 != new / 1000000 then s.sendOwedReports else s
  let s := s.evtDev 0x2C (new - old)
  let period := 2 ^ s.rd Fd.CNT_CTL_SyncLog2
  if s.rd Fd.CNT_CTL_OutEn = 1 ∧ old / period < new / period ∧ !s.failStopped then s.put .syncOut else s

/-- One tick of the 1 GHz clock while the counter runs (R379). -/
def idle (s : State) : State :=
  if !s.started then s else s.tickTo s.clk.now (s.tickedCounter / 2 ^ 32) (s.tickedCounter % 2 ^ 32)

/-- Counter commands are taken only while no work can run (R382). -/
def counterIdle (s : State) : Bool := s.rd Fd.GAF_PAGE_CTL_Enable == 0 && s.allIdle

/-- Acquiring, Locked and Holdover after a pulse of error `e`, units of 100 ps (R381). -/
def lockState (s : State) (e : Int) : State :=
  let st := s.rd Fd.CNT_STATUS_SyncState
  let good := if e.natAbs ≤ 20 then (if st = 3 then 1 else s.clk.good + 1) else 0
  let s := { s with clk := { s.clk with good := good } }
  if st = 2 then (if 160 < e.natAbs then s.wr Fd.CNT_STATUS_SyncState 1 else s)
  else if st = 1 ∧ 8 ≤ good then s.wr Fd.CNT_STATUS_SyncState 2
  else s.wr Fd.CNT_STATUS_SyncState 1

/-- A rising edge on SYNC_IN at counter value `stamp`, units of 100 ps (R381, R382). -/
def syncPulse (s : State) (stamp : Nat) : State :=
  let n := s.rd Fd.CNT_CTL_SyncLog2
  let period : Int := 10 * 2 ^ n
  let u : Int := (stamp : Int) - s.rd Fd.CNT_CABLE_CableDelay
  let e := u - (u + period / 2) / period * period
  let s := s.wr Fd.CNT_SYNC_ERR (ofSigned 32 e)
  let armed := s.rd Fd.CNT_STATUS_AlignArmed == 1
  let s := s.wr Fd.CNT_STATUS_AlignArmed 0
  if armed ∧ 640 < e.natAbs then
    let v : Int := (s.clk.now : Int) * 2 ^ 32 + s.clk.frac - (e * 2 ^ 32) / 10
    let w := ofSigned 96 v
    let s := s.stepCounter (w / 2 ^ 32) (w % 2 ^ 32)
    let s := { s with clk := { s.clk with freq := 0 } }
    ((s.wr Fd.CNT_ADJ 0).setErr Fd.CNT_PAGE_ERR_SyncStep).lockState e
  else
    let unit := e * 2 ^ (26 - n)
    let freq := s.clk.freq + unit
    let adj := clampInt (-429497) 429497 (((-freq - 8 * unit) * 2).tdiv 5)
    let s := { s with clk := { s.clk with freq := freq } }
    (s.wr Fd.CNT_ADJ (ofSigned 32 adj)).lockState e

/-- CNT_CTL.Role in force: a Follower starts Acquiring, the others run free (R380, R381). -/
def syncRole (s : State) (old : Nat) : State :=
  let role := s.rd Fd.CNT_CTL_Role
  if role = old then s
  else if role = 2 then
    ({ s with clk := { s.clk with good := 0, freq := 0 } }).wr Fd.CNT_STATUS_SyncState 1
  else
    ((s.wr Fd.CNT_STATUS_SyncState 0).wr Fd.CNT_ADJ 0).wr Fd.CNT_STATUS_AlignArmed 0

end State

/-- SYNC_PULSE (R381). -/
def execSyncPulse (stamp : Nat) (s : State) : Result :=
  let s := s.begin_
  .next (if s.rd Fd.CNT_CTL_Role = 2 ∧ s.pow.powered ∧ !s.pow.perst then s.syncPulse stamp else s)

/-- SYNC_HOLDOVER (R381): four pulse periods without a pulse, in Locked state. -/
def execSyncHoldover (s : State) : Result :=
  let s := s.begin_
  .next <|
    if s.rd Fd.CNT_CTL_Role = 2 ∧ s.rd Fd.CNT_STATUS_SyncState = 2 then
      let s := (s.wr Fd.CNT_STATUS_SyncState 3).count Fd.CNT_SYNC_LOST_CNT
      s.setErrLog Fd.CNT_PAGE_ERR_SyncLost 0 State.noEntry 0
    else s

/-- A write of Set = 1 to CNT_CMD (R382). -/
def State.cntSetWrite (s : State) : State :=
  if !s.counterIdle ∨ s.rd Fd.CNT_CTL_Role = 2 then s.badWrite .cnt 0
  else s.stepCounter (s.rd Fd.CNT_SET_LO + 2 ^ 32 * s.rd Fd.CNT_SET_HI) 0

/-- A write of Align = 1 to CNT_CMD (R382). -/
def State.cntAlignWrite (s : State) : State :=
  if !s.counterIdle ∨ s.rd Fd.CNT_CTL_Role ≠ 2 then s.badWrite .cnt 0
  else s.wr Fd.CNT_STATUS_AlignArmed 1

/-- CNT_SET (R382). -/
def execCntSet (s : State) : Result := .next (s.begin_.gated .cnt 0 fun s => s.cntSetWrite)

/-- CNT_ALIGN (R382). -/
def execCntAlign (s : State) : Result := .next (s.begin_.gated .cnt 0 fun s => s.cntAlignWrite)

end Sys2Proof.Machine
end

