-- ==== Sys2Proof/Machine/Commit.lean ====
section
/-! DEFINITION. The commit of a chunk (03 R76, 04 R141, 06 R155, 08 R201, 13 R319, 18 R424, 19 R447). -/
namespace Sys2Proof.Machine
open Sys2Proof

/-- What an operation's barrier finds for one stream: a tag mismatch (R98), an uncorrectable word (R249), a pass that must
redo its results (R115, R184) with what the pass needs, a fault (R58). -/
structure Fate where
  mism  : Bool := false
  bad   : Bool := false
  redo  : Bool := false
  info  : List Nat := []
  fault : Option Nat := none
  deriving DecidableEq, Repr

/-- The effect of an operation at its barrier on the streams of its batch, in batch order. -/
abbrev Kernel := State → Image → Nat → List Work → State × List (Nat × Fate)

/-- A kernel that works on one stream at a time; the results of a stream with an error are discarded (R98, R249). -/
def perStream (f : State → Image → Desc → Work → State × Fate) : Kernel := fun s m i ws =>
  match m.descs[i]? with
  | none => (s, [])
  | some d =>
    ws.foldl (fun (acc : State × List (Nat × Fate)) w =>
      let r := f acc.1 m d w
      ((if r.2.mism || r.2.bad then acc.1 else r.1), acc.2 ++ [(w.entry, r.2)])) (s, [])

/-- Last sample of a chunk's output bytes that nothing has written: the 4-byte words outside the written ranges. -/
def unwritten (n : Nat) (done : List (Nat × Nat)) : List Nat :=
  (List.range (n / 4)).filter fun i => !(done.any fun r => r.1 ≤ 4 * i && 4 * i + 4 ≤ r.1 + r.2)

namespace State

/-- Scratchpad address of the output slot of a chunk and SlotBytes (R363). -/
def outSlot (s : State) (t : Stream) (j : Nat) : Option (Nat × Nat) :=
  (s.outBuf t.image).map fun r =>
    (r.start + t.slot * (r.units * 256) + (if r.slots = 0 then 0 else j % r.slots) * r.slotBytes, r.slotBytes)

/-- Samples of the chunk that no Egress operation has written become zero (R141). -/
def zeroUnwritten (s : State) (t : Stream) (l : Live) : State :=
  match s.outSlot t l.c.j with
  | none => s
  | some (a, _) =>
    (unwritten (l.c.len * epChans t.sink * 4) l.written).foldl (fun s i => s.arrPut (a + 4 * i) (List.replicate 4 0)) s

/-- A committed chunk goes out over a link channel as Op 6 messages (R319). -/
def sendSamples (s : State) (t : Stream) (l : Live) : State :=
  match s.outSlot t l.c.j with
  | none => s
  | some (a, _) =>
    let (data, s) := s.narrowRead a (l.c.len * epChans t.sink * 4)
    s.sendUnits t data

/-- The sink has begun emitting the slot that chunk `j` was for (R76, R342, R366). -/
def emitted (t : Stream) (l : Live) : Bool :=
  if epKind t.sink = 1 then decide (l.c.j < t.taken)
  else if epKind t.sink = 2 ∧ t.cls = 0 then decide (l.c.first < t.sent)
  else false

/-- The output of a committed chunk becomes visible to its sink (R76). -/
def toSink (s : State) (m : Image) (t : Stream) (l : Live) (late : Bool) : State :=
  match epKind t.sink with
  | 4 =>
    match s.outSlot t l.c.j with
    | none => s
    | some (a, n) =>
      s.resultRecord (epPort t.sink) m.id t.entry t.tag late l.c.j l.c.first l.c.tr s.now a n l.dl
  | 3 => s.sendSamples t l
  | k =>
    if k = 2 ∧ t.cls = 1 then
      match s.outSlot t l.c.j with
      | none => s
      | some (a, _) =>
        let (data, s) := s.narrowRead a (l.c.len * epChans t.sink * 4)
        s.sendChunk t l.c.j l.c.first (framesOf (epChans t.sink) l.c.len data)
    else if emitted t l then s
    else s.setStream t.entry fun t => { t with outputs := t.outputs ++ [(l.c.j, t.sink)] }

/-- A commit after its deadline (R76). -/
def lateCommit (s : State) (e : Nat) : State :=
  let s := s.setStream e fun t => t.bump32 0x98 1
  ((s.count Fd.GAF_LATE_CNT).setErr Fd.GAF_PAGE_ERR_DeadlineMiss).evtDev 0x23

/-- The device fields of a commit, and the chunk's place among the live ones (R54, R76, R77, R140). -/
def noteCommit (s : State) (e : Nat) (l : Live) (stays : Bool) : State :=
  s.setStream e fun t =>
    let t := (t.set 0x88 8 (t.u 0x88 8 + 1)).set 0x90 8 s.now
    let t := t.set 0xB4 4 (Nat.max (t.u 0xB4 4) (Nat.min 0xFFFFFFFF (s.now - l.c.tr)))
    let t := if l.skip then t.bump32 0xB0 1 else t
    let t := if t.markHeld = some l.c.j then t.set 0x06 1 (setSlice t.flags 2 1 0) else t
    { t with committed := l.c.j + 1
             markHeld := if t.markHeld = some l.c.j then none else t.markHeld
             live := t.live.filter fun (x : Live) => x.c.j != l.c.j
             past := if stays then t.past ++ [l] else t.past }

/-- The committed version is written to StatePtr (R155). -/
def writeState (s : State) (m : Image) (t : Stream) (j : Nat) : State :=
  if m.numSections = 0 then s
  else
    match s.versionAt m t (j + 1) with
    | none => s
    | some (a, _) =>
      s.addBuiltIn .stateWrite m.id (some t.entry) (benchOf a) (copyXfers a t.statePtr (s.blockLen m t))

/-- The commit of one live chunk of a stream (R76). `stays` says that later operations of the sweep may work on the chunk. -/
def commit (s : State) (image e : Nat) (l : Live) (stays : Bool) : State :=
  match s.image image with
  | none => s
  | some m =>
    let s := s.carryAll m e l.c.j
    match s.stream e with
    | none => s
    | some t0 =>
      let late := decide (l.dl < s.now)
      let s := if late then s.lateCommit e else s
      let s := s.zeroUnwritten t0 l
      let s := s.noteCommit e l stays
      let s := if t0.markHeld = some l.c.j then s.lpNarrowPut (s.liveAddr e + 0x06) (leBytes 1 (setSlice (leAt (s.liveRaw e) 0x06 1) 2 1 0)) else s
      let s := s.writeState m t0 l.c.j
      let s := s.kvCommit e l.c.j l.mark
      let s := s.toSink m ((s.stream e).getD t0) l late
      let s := s.tallyCommit e t0.cls t0.tag (rateHz t0.rate) l.c.first l.c.len l.skip
      let s := (s.evtDev 0x22).storeEntry e
      (s.puntyCommit e l.c.j (l.c.first + l.c.len)).fillMissing e

end State

end Sys2Proof.Machine
end

