-- ==== Sys2Proof/Machine/Units.lean ====
section
/-! DEFINITION. Work units, granules and shares of operations (01 R23, 03 R68, 05 R123 to R131, 06 R158, 07 R175, R176,
08 R196, 09 R216, 13 R321). -/
namespace Sys2Proof.Machine
open Sys2Proof

/-! Work per core per cycle, as numerator and denominator. -/

/-- MACs per core per cycle of a format pair (R23): weight code and activation code. -/
def pairMacs (w a : Nat) : Nat :=
  if a = 8 then 16384
  else if w = 2 then 2048
  else if w ≤ 1 then 4096
  else if w = 3 ∨ w = 4 then 1024
  else 512

def vectorU (op : Nat) : Nat :=
  if op = 0x11 ∨ op = 0x12 then 32 else if (0x07 ≤ op ∧ op ≤ 0x0E) ∨ op = 0x13 then 16 else 64

def cellU (cell : Nat) : Nat := if cell = 2 then 64 else if cell = 5 then 8 else if cell = 6 then 12 else 16

/-- M of R173: KV storage and query formats. -/
def attnMacs (kv q : Nat) : Nat := if kv = 6 then 2048 else if q = 5 then 512 else 1024

namespace Desc

/-- Matrix flags (R128). -/
def mflag (d : Desc) (n : Nat) : Bool := d.kind == 0x01 && bitAt (d.b 0x52 1) n
/-- Cap of CompIn and CompOut (R135). -/
def capIn (d : Desc) : Nat := if d.mflag 4 then 16 else 32
def experts (d : Desc) : Nat := if d.kind = 0x01 then d.b 0x53 1 else 0

/-- U of R125 and the chapters that complete it; `rows` is n × Rows of a Matrix batch (R131). -/
def unitRate (d : Desc) (rows : Nat) : Nat × Nat :=
  match d.kind with
  | 0x01 =>
    let u := pairMacs d.wFmt d.aFmt * (if d.mflag 6 then 2 else 1)
    let (p, q) := if d.mflag 2 then (u * 64, d.capIn) else (u, 1)
    if rows < 8 then (p * rows, q * 8) else (p, q)
  | 0x02 => (vectorU (d.b 0x50 1), 1)
  | 0x03 => (64, 1)
  | 0x04 => (16, 1)
  | 0x05 => (64, 1)
  | 0x06 => if d.b 0x50 1 ≤ 1 then (pairMacs d.wFmt d.aFmt, 1) else (cellU (d.b 0x50 1), 1)
  | 0x07 => (if (d.b 0x50 1) % 2 = 0 then 16 else 4, 1)
  | 0x08 =>
    let m := attnMacs d.wFmt d.aFmt
    let dd := 2 * d.b 0x52 2
    if 16 * dd ≤ m then (16, 1) else (m, dd)
  | 0x09 => (64, 1)
  | 0x0A => (pairMacs d.wFmt d.aFmt, 1)
  | 0x0B => (64, 1)
  | 0x0C => (16, 1)
  | _ => (1, 1)

/-- C of R68 on `cores` cores for active weight `n`. -/
def cycles (d : Desc) (cores n : Nat) : Nat :=
  let g := ceilDiv (n * d.workPerStream) (Nat.max 1 d.granule)
  let u := d.unitRate (n * d.b 0x50 2)
  d.cycFixed + ceilDiv (ceilDiv g (Nat.max 1 cores) * d.granule * u.2) (Nat.max 1 u.1)

end Desc

/-- Σ 2^k over the streams that the operation does not leave out (R68). -/
def activeWeight (ws : List Work) : Nat := sumNat ((ws.filter fun w => !w.left).map (·.n))

/-! Key spans (R176). -/

namespace Image

/-- The layer of an Attention or Collective descriptor: that of the KV descriptor before it (R207; notes/assumptions/24.md). -/
def layerOf (m : Image) (i : Nat) : Nat :=
  (((m.descs.take i).filter fun d => d.kind == 0x09).getLast?.map fun d => d.b 0x51 1).getD 0

end Image

/-- A stored key: position, scratchpad address of its page, index in the page. -/
structure Key where
  pos  : Nat
  page : Nat
  idx  : Nat
  deriving DecidableEq, Repr

namespace State

/-- The keys of a stream's resident pages at or above Floor, oldest first (R199). -/
def storedKeys (s : State) (m : Image) (t : Stream) (l : Nat) : List Key :=
  let k := m.kvRec
  let keys := (s.kvResident m t l).flatMap fun p =>
    let base := ofLe (s.arrBytes p.1 8)
    (List.range p.2.1).map fun i => (⟨base + ofLe (s.arrBytes (p.1 + Kv.posOff k i) 4), p.1, i⟩ : Key)
  sortBy (fun (a b : Key) => a.pos ≤ b.pos) (keys.filter fun x => (t.layer l).floor ≤ x.pos)

end State

/-- Query positions of group `g` of a stream: the first and the number (R176). -/
def queryStart (d : Desc) (w : Work) (g : Nat) : Nat :=
  let hop := Nat.max 1 (d.b 0x68 2)
  (w.live.c.first + g * (d.b 0x56 2 * hop)) / hop

/-- The t_M of R176: of the mark in the chunk, and of those in chunks that have not committed yet; one in a later chunk masks
nothing. -/
def markPos (d : Desc) (w : Work) : List Nat :=
  dedup ((w.live.mark.toList ++ w.st.live.filterMap fun l => l.mark).map fun x => x / Nat.max 1 (d.b 0x68 2))

/-- The key span of a query group: its keys, and whether KeysMax cut it (R176). -/
def keySpan (d : Desc) (w : Work) (g : Nat) (keys : List Key) : List Key × Bool :=
  let mode := slice (d.b 0x50 1) 0 2
  let t0 := queryStart d w g
  let t1 := t0 + d.b 0x56 2 - 1
  let lo1 := if mode = 2 then t0 + 1 - d.b 0x5C 4 else 0
  let lo := Nat.max lo1 (maxNat ((markPos d w).filter fun tm => decide (tm ≤ t0)))
  let ks := keys.filter fun x => lo ≤ x.pos && (mode == 1 || decide (x.pos ≤ t1))
  let n := d.b 0x58 4
  if n < ks.length then (ks.drop (ks.length - n), true) else (ks, false)

namespace State

/-- Key blocks of each query group of a batch, in batch order (R175). -/
def attnBlocks (s : State) (m : Image) (i : Nat) (d : Desc) (ws : List Work) : List Nat :=
  (ws.filter fun w => !w.left).flatMap fun w =>
    let keys := s.storedKeys m w.st (m.layerOf i)
    (List.range w.n).map fun g => ceilDiv (keySpan d w g keys).1.length 64

/-- Kept choices per expert that an expert matrix works on (R144). -/
def routeCounts (m : Image) (i : Nat) : List Nat :=
  let r := (((m.descs.zipIdx).take i).filter fun x => x.1.kind == 0x04).getLast?
  match r with
  | none => []
  | some x => ((m.routes.find? fun y => y.1 == x.2).map (·.2)).getD []

/-- Granule size and work units of an operation (R68, R125, R131, R144, R175). -/
def opWork (s : State) (m : Image) (i : Nat) (d : Desc) (ws : List Work) : Nat × Nat :=
  if d.kind = 0x08 then
    let qr := Nat.max (d.b 0x51 1 * d.b 0x56 2) 8
    (64 * qr, sumNat (s.attnBlocks m i d ws) * d.b 0x55 1 * (64 * qr))
  else if d.experts ≠ 0 then
    let u := (d.unitRate 8).1 / (d.unitRate 8).2
    let kp := roundUp (d.b 0x54 4) (Nat.max 128 (u / 64))
    let np := roundUp (d.b 0x58 4) 64
    (d.granule, sumNat (routeCounts m i) * kp * np)
  else (d.granule, activeWeight ws * d.workPerStream)

end State

/-! Shares (R123). -/

/-- A core while granules are counted out: number, d, granules, work units. -/
structure CoreShare where
  core : Nat
  div  : Nat
  grs  : Nat := 0
  work : Nat := 0
  deriving DecidableEq, Repr

/-- Completion time of a core with `w` work units, in tenths of a nanosecond (R123). -/
def doneAt (cyc : Nat) (u : Nat × Nat) (div w : Nat) : Nat := (cyc + ceilDiv (w * u.2) (Nat.max 1 u.1)) * div

/-- The core that would finish the granule first. -/
def bestCore (cyc : Nat) (u : Nat × Nat) (size : Nat) : List CoreShare → Option CoreShare
  | [] => none
  | c :: cs =>
    match bestCore cyc u size cs with
    | none => some c
    | some b =>
      let tc := doneAt cyc u c.div (c.work + size)
      let tb := doneAt cyc u b.div (b.work + size)
      if tc < tb ∨ (tc = tb ∧ c.div ≤ b.div) then some c else some b

/-- Count out granules one at a time; the last one may hold less. -/
def countOut (cyc : Nat) (u : Nat × Nat) (gran : Nat) : Nat → Nat → List CoreShare → List CoreShare
  | 0, _, cs => cs
  | n + 1, left, cs =>
    let size := Nat.min gran left
    match bestCore cyc u size cs with
    | none => cs
    | some b =>
      countOut cyc u gran n (left - size)
        (cs.map fun c => if c.core == b.core then { c with grs := c.grs + 1, work := c.work + size } else c)

namespace State

/-- Shares of `work` units in granules of `gran` over the cores of the benches of a mask (R9, R123). -/
def sharesOf (s : State) (benches : List Nat) (cyc gran work : Nat) (u : Nat × Nat) : List CoreShare :=
  let cores : List CoreShare := benches.flatMap fun b =>
    (List.range 32).map fun c => { core := 32 * b + c, div := divOf (s.divCode b) }
  countOut cyc u gran (ceilDiv work (Nat.max 1 gran)) work cores

end State

/-- Consecutive runs of granules in core order: (core, first granule, granules). -/
def layRuns : Nat → List CoreShare → List (Nat × Nat × Nat)
  | _, [] => []
  | at_, c :: cs => if c.grs = 0 then layRuns at_ cs else (c.core, at_, c.grs) :: layRuns (at_ + c.grs) cs

/-- The core whose share holds a granule. -/
def coreOfGranule (shares : List (Nat × Nat × Nat)) (g : Nat) : Nat :=
  ((shares.find? fun x => decide (x.2.1 ≤ g ∧ g < x.2.1 + x.2.2)).map (·.1)).getD 0

end Sys2Proof.Machine
end

