-- ==== Sys2Proof/Machine/Emit.lean ====
section
/-! DEFINITION. Outputs of operations: conversion, carried sets, compressed blocks, left-out streams, the second-chance pass; the
fields of state sections (04 R96 to R117, 05 R136, R140, 06 R150, R153). -/
namespace Sys2Proof.Machine
open Sys2Proof

namespace Desc

def vecRow (d : Desc) : Bool := decide (0x0F ≤ d.b 0x50 1 ∧ d.b 0x50 1 ≤ 0x13)

/-- Output elements of one row, along which groups are counted (R91); 0 where they follow the storage order of a map (R210). -/
def outWidth (d : Desc) : Nat :=
  match d.kind with
  | 0x01 => d.b 0x58 4
  | 0x02 => if d.vecRow && d.b 0x50 1 != 0x0F && d.b 0x50 1 != 0x10 then d.b 0x58 4 else d.conv.outElems
  | 0x06 => d.b 0x52 2 * (if d.b 0x50 1 = 3 ∨ d.b 0x50 1 = 5 then 2 else 1)
  | 0x07 => d.b 0x52 2 * (if (d.b 0x50 1) % 2 = 1 then 2 else 1)
  | 0x08 => d.b 0x51 1 * d.b 0x55 1 * d.b 0x52 2
  | 0x0A => 0
  | 0x0B => 0
  | _ => d.conv.outElems

/-- Output groups per base chunk, and the bytes of a carried set of them: 4 bytes a group, padded to 16
(R112; DEDUCED, notes/assumptions/25.md). -/
def outGroups (d : Desc) : Nat :=
  if d.outWidth = 0 then ceilDiv d.conv.outElems (2 ^ d.conv.glog) else d.conv.outElems / d.outWidth * ceilDiv d.outWidth (2 ^ d.conv.glog)

def setLen (d : Desc) : Nat := roundUp (4 * d.outGroups) 16

/-- Cap of compressed output, none for plain codes (R136). -/
def capOut (d : Desc) : Option Nat :=
  if d.kind = 0x01 then (if d.mflag 3 then some (if d.mflag 5 then 16 else 32) else none)
  else if d.kind = 0x02 then
    (if bitAt (d.b 0x51 1) 0 then some (if bitAt (d.b 0x51 1) 1 then 16 else 32) else none)
  else none

/-- The descriptor converts to A8. -/
def outA8 (d : Desc) : Bool := d.conv.outFmt == 6 || d.conv.outFmt == 7

end Desc

/-- Offset of the carried set of chunk `j` in the region of reference 6; sets of descriptors that share the region follow one
another (notes/assumptions/25.md). -/
def setOff (m : Image) (i : Nat) (d : Desc) (r : Region) (slot j : Nat) : Nat :=
  let earlier := (m.descs.take i).filter fun x => x.conv.carried && x.ref 6 == d.ref 6
  if r.versioned then (itemAt m r slot j).1 + sumNat (earlier.map Desc.setLen)
  else (itemAt m r slot 0).1 + sumNat (earlier.map fun x => m.depth * x.setLen) + (j % m.depth) * d.setLen

/-- The carried set that chunk `j` reads: that of chunk j − 1 (R112). -/
def readSet (s : State) (m : Image) (i : Nat) (d : Desc) (w : Work) : Got (List (Nat × Nat)) :=
  match s.refRegion m d 6 with
  | none => ⟨List.replicate d.outGroups (0, 0), false, false⟩
  | some r =>
    let o := setOff m i d r w.slot (w.j + m.depth - 1)
    let core := itemCore r w.slot
    let bs := regRead s r core o d.setLen
    ⟨(List.range d.outGroups).map fun g => (leAt bs (4 * g) 2, leAt bs (4 * g + 2) 1), false, regBad s r core o d.setLen⟩

def writeSet (s : State) (m : Image) (i : Nat) (d : Desc) (w : Work) (xs : List (Nat × Nat)) : State :=
  match s.refRegion m d 6 with
  | none => s
  | some r =>
    regWrite s r (itemCore r w.slot) (setOff m i d r w.slot w.j)
      (bytesAt (xs.flatMap fun x => leBytes 2 x.1 ++ leBytes 1 x.2 ++ leBytes 1 0) 0 d.setLen)

/-- Carried scales are in force for a stream's output (R111, R113). -/
def carriedOn (d : Desc) (w : Work) : Bool :=
  d.conv.carried && d.outA8 && w.st.cls == 0 && w.st.carried && !w.live.fresh

/-- Change a chunk that a sweep works on, committed already or not. -/
def State.setLive (s : State) (e j : Nat) (f : Live → Live) : State :=
  let g (l : Live) : Live := if l.c.j == j then f l else l
  s.setStream e fun t => { t with live := t.live.map g, past := t.past.map g }

/-- An Egress operation has written bytes of its output slot (R141). -/
def noteWritten (s : State) (d : Desc) (w : Work) (off n : Nat) : State :=
  if d.egress then s.setLive w.entry w.j fun l => { l with written := l.written ++ [(off, n)] } else s

/-- Write a block of the operation's step behind a reference: where it lies, and the state. -/
def putStep (s : State) (m : Image) (d : Desc) (w : Work) (ref : Nat) (bs : List Byte) : Nat × State :=
  let o := stepOff (itemSize s m d w ref) w.step bs.length
  (o, refPut s m d w ref o bs)

def putOut (s : State) (m : Image) (d : Desc) (w : Work) (bs : List Byte) : State :=
  let r := putStep s m d w 1 bs
  noteWritten r.2 d w r.1 bs.length

/-- Count the compressed blocks that dropped codes at the bench whose core wrote each (R136). -/
def countPrunes (s : State) (coreAt : Nat → Nat) (blocks : List Nat) : State :=
  blocks.foldl (fun s b => (s.count Fd.BEN_PRUNE_CNT (coreAt (64 * b) / 32)).evtCount (coreAt (64 * b) / 32) 0x0A) s

/-- Write A8 groups: codes, scale records and the carried set. -/
def putA8 (s : State) (m : Image) (i : Nat) (d : Desc) (w : Work) (gs : List GroupOut) (coreAt : Nat → Nat) : State :=
  let c := d.conv
  let s := match d.capOut with
    | some cap => let b := a8Comp w.tag cap c gs; countPrunes (putOut s m d w b.1) coreAt b.2
    | none => putOut s m d w (a8Data w.tag c gs)
  let s := (putStep s m d w 5 (a8Scales w.tag c gs)).2
  if c.carried then writeSet s m i d w (gs.map (·.next)) else s

/-- Convert and write one stream's FP32 results (R101, R102, R111 to R117). -/
def emitOut (s : State) (m : Image) (i : Nat) (d : Desc) (w : Work) (xs : List Nat) (coreAt : Nat → Nat) : State × Fate :=
  let c := d.conv
  if d.outA8 then
    let on := carriedOn d w
    let old := readSet s m i d w
    let gs := convertGroups c (rowGroups c.glog d.outWidth xs) (if on then some old.val else none)
    let s := if c.carried then refPut s m d w 7 0 (f32Data xs) else s
    if on && old.bad then (s, { bad := true, info := [1] })
    else if gs.any (·.exceeds) then (s, { redo := true })
    else
      let coarse := (gs.filter (·.coarse)).length
      let s := if coarse = 0 then s else s.setStream w.entry fun t => t.bump32 0xA4 coarse
      (putA8 s m i d w gs coreAt, {})
  else if c.outFmt = 3 ∨ c.outFmt = 4 ∨ c.outFmt = 5 then (putOut s m d w (fpData w.tag c xs), {})
  else (putOut s m d w (f32Data xs), {})

/-- Output of a stream that the operation leaves out: zeros with valid tags, the carried set unchanged (R140). -/
def emitZero (s : State) (m : Image) (i : Nat) (d : Desc) (w : Work) : State :=
  let c := d.conv
  let n := w.n * c.outElems
  let s := s.setLive w.entry w.j fun l => { l with skip := true }
  if d.outA8 then
    let old := readSet s m i d w
    let gs := (rowGroups c.glog d.outWidth (List.replicate n 0)).map fun g =>
      ({ codes := g.map fun _ => 0, rec_ := ⟨0, 0, []⟩, next := (0, 0) } : GroupOut)
    let gs := gs.zipIdx.map fun x => { x.1 with next := old.val.getD x.2 (0, 0) }
    putA8 s m i d w gs fun _ => 0
  else if c.outFmt = 3 ∨ c.outFmt = 4 ∨ c.outFmt = 5 then putOut s m d w (fpData w.tag c (List.replicate n 0))
  else putOut s m d w (List.replicate (4 * n) 0)

/-- The conversion-only form for one stream of a second-chance pass (R115, R117). -/
def redoStream (s : State) (m : Image) (i : Nat) (d : Desc) (w : Work) (coreAt : Nat → Nat) : State × Fate :=
  let xs := readF32 s m d w 7 0 (w.n * d.conv.outElems)
  if xs.bad then (s, { bad := true })
  else
    let s := s.setStream w.entry fun t => t.bump32 0xA0 1
    (putA8 s m i d w (convertGroups d.conv (rowGroups d.conv.glog d.outWidth xs.val) none) coreAt, {})

namespace State

/-- The core that holds granule `g` of the running operation. -/
def coreAtGranule (s : State) (g : Nat) : Nat := coreOfGranule ((s.gaf.running.map (·.shares)).getD []) g

/-- A core with a share of the running operation, where the spec does not say which (notes/assumptions/26.md). -/
def coreFree (s : State) (path : List Nat) : Nat :=
  let cs := ((s.gaf.running.map (·.shares)).getD []).map (·.1)
  if cs.isEmpty then 0 else cs.getD (s.fresh (26 :: path) % cs.length) 0

end State

/-- The reset mark of the chunk that a Work is for lies in it; its step position for a hop (R77, R167). -/
def Work.markStep (w : Work) (hop : Nat) : Option Nat := w.live.mark.map fun x => (x - w.live.c.first) / Nat.max 1 hop

end Sys2Proof.Machine
end

