-- ==== Sys2Proof/Machine/Array.lean ====
section
/-! DEFINITION. The array's kinds: Matrix, Vector, Gate, Expert routing and Conversion (04 R103 to R108, 05 R127 to R148). -/
namespace Sys2Proof.Machine
open Sys2Proof

namespace State

/-- Entries of a codebook slot (R120). -/
def book (s : State) (q slot : Nat) : List Int :=
  (List.range 4).flatMap fun w =>
    let ix := 8 * q + 4 * slot + w
    [Fd.GAF_CB_TABLE_Entry0, Fd.GAF_CB_TABLE_Entry1, Fd.GAF_CB_TABLE_Entry2, Fd.GAF_CB_TABLE_Entry3].map fun f =>
      toSigned 8 (s.rdAt f 0 ix)

end State

/-! Weights (R128, R129, R247, R273). -/

/-- The weight blocks behind reference 2, `skip` bytes in; a failed region has none. -/
def weightBlocks (s : State) (m : Image) (d : Desc) (skip : Nat) : List WBlock :=
  match s.refRegion m d 2 with
  | none => []
  | some r =>
    if r.failed then []
    else
      let ring := (m.ringOf r.entry).isSome
      let n := if ring then r.slotBytes else if r.srcLen = 0 then r.size else r.srcLen
      let c := regRead s r 0 (if ring then r.head * 256 else 0) n
      let c := c.drop skip
      ((blocksOf c).filter (·.2.2)).map fun b => parseWBlock (bytesAt c b.1 b.2.1)

namespace Desc

/-- Kp and Np of R129. -/
def kp (d : Desc) : Nat := let u := d.unitRate 8; roundUp (d.b 0x54 4) (Nat.max 128 (u.1 / u.2 / 64))
def np (d : Desc) : Nat := roundUp (d.b 0x58 4) 64

end Desc

/-- A weight matrix laid out as R129: blocks with their codebooks, and Kp. -/
structure WMat where
  blocks : List (WBlock × List Int)
  kp     : Nat
  deriving DecidableEq, Repr

def WMat.load (s : State) (m : Image) (d : Desc) (skip kp : Nat) : WMat :=
  ⟨(weightBlocks s m d skip).map fun b => (b, if b.fmt = 1 then s.book b.codebook (b.flags % 2) else []), kp⟩

/-- Every block that `nout` features need is present (R129). -/
def WMat.whole (x : WMat) (nout : Nat) : Bool := decide (x.kp / 128 * (roundUp nout 64 / 32) ≤ x.blocks.length)

/-- Element of feature `f` at reduction position `k`: the element, its scale, the log2 of the group size, S of its group. -/
def WMat.elem (x : WMat) (f k : Nat) : WElem × FVal × Nat × Int :=
  match x.blocks[(f / 32) * (x.kp / 128) + k / 128]? with
  | none => (.int 0 0, .fin false 0 0, 7, 0)
  | some (b, book) =>
    let e := (f % 32) * 128 + k % 128
    let g := e / 2 ^ b.glog
    (b.elem book e, scaleVal (b.scales.getD g 0), b.glog, b.sums.getD g 0)

/-- Σ over the K reduction positions for feature `f` (R105 to R108); `act` gives activation element and scale, `aglog` the log2
of its group size, 7 where it has none. -/
def WMat.dot (x : WMat) (path : List Nat) (f n : Nat) (act : Nat → AElem × FVal) (aglog : Nat) : Nat :=
  let ts := (List.range n).map fun k =>
    let w := x.elem f k
    let a := act k
    (({ w := w.1, a := a.1, sw := w.2.1, sa := a.2, g := k / 2 ^ Nat.min w.2.2.1 aglog } : MacTerm), w.2.2.2)
  macSum path (ts.map (·.1)) (ts.map fun t => (t.1.g, t.2))

/-- Activation elements of a data block whose rows have `width` elements. -/
def ABlock.act (b : ABlock) (width r k : Nat) : AElem × FVal :=
  (b.elem width (r * width + k), if b.fmt = 6 ∨ b.fmt = 7 then scaleVal (b.scaleOf width (r * width + k)) else .fin false 1 0)

/-! Matrix (R127 to R137, R144, R145). -/

namespace Image

/-- The Expert routing descriptor that an expert matrix follows (R144). -/
def routing (m : Image) (i : Nat) : Option (Nat × Desc) :=
  ((((m.descs.zipIdx).take i).filter fun x => x.1.kind == 0x04).getLast?).map fun x => (x.2, x.1)

end Image

/-- The activations of a Matrix operation: whether they mismatch or are bad, and element `k` of row `r`. -/
def matrixActs (s : State) (m : Image) (d : Desc) (w : Work) : Got (Nat → Nat → AElem × FVal) :=
  let kk := d.b 0x54 4
  let rows := w.n * d.b 0x50 2
  if d.aFmt = 8 then
    let hop := d.b 0x5E 2
    let g := refBytes s m d w 0 0 (ceilDiv ((rows - 1) * hop + kk) 8)
    ⟨fun r k => let i := r * hop + k; (a1Elem (bitAt (g.val.getD (i / 8) 0).toNat (i % 8)), .fin false 1 0), false, g.bad⟩
  else
    let cap := if d.mflag 2 then d.capIn else 0
    let g := readBlock s m d w 0 3 d.aFmt (d.b 0x5D 1) (rows * kk) kk w.step cap
    let b := if cap = 0 then g.val else g.val.expandCodes cap (rows * kk)
    ⟨b.act kk, g.mism, g.bad⟩

/-- FP32 outputs of a Matrix operation for one stream, feature by feature within each row; where blocks are absent, of any expert's set,
they are undefined (R129). -/
def matrixRows (s : State) (m : Image) (i : Nat) (d : Desc) (w : Work) (acts : Nat → Nat → AElem × FVal) : List Nat × Bool :=
  let kk := d.b 0x54 4
  let nout := d.b 0x58 4
  let rows := w.n * d.b 0x50 2
  let path (r f c : Nat) : List Nat := [s.freeTick, 5, m.id, i, w.entry, r, f, c]
  let aglog := if d.b 0x5D 1 = 0 then 7 else d.b 0x5D 1
  let one (x : WMat) (r f c : Nat) : Nat :=
    if x.whole nout then x.dot (path r f c) f kk (acts r) aglog else s.fresh [5, m.id, i, w.entry, r, f, c] % 2 ^ 32
  if d.experts = 0 then
    let x := WMat.load s m d 0 d.kp
    let add : Got (List Nat) :=
      if d.mflag 0 then
        let g := sharedBytes s m d w 4 0 (4 * nout)
        ⟨(List.range nout).map fun f => leAt g.val (4 * f) 4, false, g.bad⟩
      else if d.mflag 1 then readF32 s m d w 4 0 (rows * nout)
      else ⟨[], false, false⟩
    ((List.range rows).flatMap fun r => (List.range nout).map fun f =>
      let y := one x r f 0
      if d.mflag 0 then fadd y (add.val.getD f 0) else if d.mflag 1 then fadd y (add.val.getD (r * nout + f) 0) else y,
     add.bad)
  else
    let topK := ((m.routing i).map fun x => x.2.b 0x51 1).getD 0
    let tab := refBytes s m d w 4 0 (8 * rows * topK)
    let sets := (List.range d.experts).map fun e => WMat.load s m d (e * d.b 0x60 8) d.kp
    if !(sets.all fun x => x.whole nout) then
      ((List.range rows).flatMap fun r => (List.range nout).map fun f => s.fresh [5, m.id, i, w.entry, r, f] % 2 ^ 32, tab.bad)
    else
    ((List.range rows).flatMap fun r =>
      let cs := (List.range topK).map fun c =>
        let o := 8 * (r * topK + c)
        (slice (leAt tab.val o 4) 0 6, bitAt (leAt tab.val o 4) 6, leAt tab.val (o + 4) 4)
      let live := (cs.zipIdx).filter fun x => !x.1.2.1
      (List.range nout).map fun f =>
        if live.all fun x => isZero32 x.1.2.2 then 0
        else fsum (path r f topK) (live.map fun x => fmul x.1.2.2 (one (sets.getD x.1.1 ⟨[], d.kp⟩) r f x.2)),
     tab.bad)

/-- The choices of a stream's rows that an expert matrix with TopK 1 keeps: the expert of each row, none where it was dropped (R143). -/
def keptExperts (s : State) (m : Image) (d : Desc) (w : Work) : List (Option Nat) :=
  let rows := w.n * d.b 0x50 2
  let tab := refBytes s m d w 4 0 (8 * rows)
  (List.range rows).map fun r =>
    let x := leAt tab.val (8 * r) 4
    if bitAt x 6 then none else some (slice x 0 6)

/-- Place of a position among the kept choices, expert by expert and then by position (R144). -/
def keptRank (s : State) (m : Image) (i : Nat) (d : Desc) (ws : List Work) (w : Work) (r : Nat) : Option Nat :=
  let mine := keptExperts s m d w
  (mine.getD r none).map fun e =>
    let earlier := ((ws.takeWhile fun x => x.entry != w.entry).filter fun x => !x.left).flatMap (keptExperts s m d) ++ mine.take r
    sumNat ((State.routeCounts m i).take e) + (earlier.filter (· == some e)).length

/-- The core that writes output element `e` of a stream: where one tile holds the whole reduction and an output is one product, the core
whose share has that tile's row (R123, R125, R144); elsewhere free (notes/assumptions/26.md). -/
def State.matrixCore (s : State) (m : Image) (i : Nat) (d : Desc) (ws : List Work) (w : Work) (e : Nat) : Nat :=
  let nout := Nat.max 1 (d.b 0x58 4)
  let u := d.unitRate 8
  let tiles := Nat.max 1 (roundUp nout 64 / 64)
  let granules := sumNat (((s.gaf.running.map (·.shares)).getD []).map (·.2.2))
  let topK := ((m.routing i).map fun x => x.2.b 0x51 1).getD 0
  if d.mflag 7 ∨ u.1 / Nat.max 1 u.2 / 64 < d.kp then s.coreFree [m.id, i, w.entry, e]
  else if d.experts = 0 then s.coreAtGranule (e % nout / 64 * (granules / tiles) + w.before * d.b 0x50 2 + e / nout)
  else if topK = 1 then
    match keptRank s m i d ws w (e / nout) with
    | some k => s.coreAtGranule (k * tiles + e % nout / 64)
    | none => s.coreFree [m.id, i, w.entry, e]
  else s.coreFree [m.id, i, w.entry, e]

/-- Matrix on one stream of its batch. -/
def matrixStream (i : Nat) (ws : List Work) (s : State) (m : Image) (d : Desc) (w : Work) : State × Fate :=
  if w.left then (emitZero s m i d w, {})
  else
    let a := matrixActs s m d w
    let ys := matrixRows s m i d w a.val
    if a.mism || a.bad || ys.2 then (s, { mism := a.mism, bad := a.bad || ys.2 })
    else emitOut s m i d w ys.1 fun e => s.matrixCore m i d ws w e

def matrixKernel : Kernel := fun s m i ws => perStream (matrixStream i ws) s m i ws

/-! Vector (R146 to R148). -/

/-- FP32 maximum; a NaN operand gives NaN, and of two zeros the first operand stands (notes/assumptions/100.md). -/
def fmax (a b : Nat) : Nat := if isNan32 a || isNan32 b then fp32.nanBits else if flt a b then b else a
def fmin (a b : Nat) : Nat := if isNan32 a || isNan32 b then fp32.nanBits else if flt b a then b else a

/-- Softmax of a row (R148). -/
def softmaxRow (path : List Nat) (xs : List Nat) : List Nat :=
  if xs.any isNan32 then xs.map fun _ => fp32.nanBits
  else if xs.all (· == 0xFF800000) then xs.map fun _ => 0
  else
    let top := xs.foldl (fun a x => if flt a x then x else a) 0xFF800000
    let es := xs.map fun x => fexp (fsub x top)
    let t := fsum path es
    es.map fun e => fdiv e t

/-- One element of an element-by-element function. -/
def vecElem (op alpha beta a b c : Nat) : Nat :=
  match op with
  | 0x01 => fadd a b
  | 0x02 => fmul a b
  | 0x03 => fma a b c
  | 0x04 => fadd (fmul a alpha) beta
  | 0x05 => fmax a 0
  | 0x06 => fmin (fmax a alpha) beta
  | 0x07 => fsigmoid a
  | 0x08 => ftanh a
  | 0x09 => fswish a
  | 0x0A => fgelu a
  | 0x0B => fexp a
  | 0x0C => fln a
  | 0x0D => frecip a
  | _ => frsqrt a

/-- One row of a row operation; γ and β of the normalisations (R146, R148). -/
def vecRowOut (path : List Nat) (op eps : Nat) (xs gamma beta : List Nat) : List Nat :=
  let n := f32OfInt xs.length
  match op with
  | 0x0F => [fsum path xs]
  | 0x10 => [xs.foldl fmax (xs.headD 0)]
  | 0x11 =>
    let den := fsqrt (fadd (fdiv (fsum path (xs.map fun x => fmul x x)) n) eps)
    (xs.zipIdx).map fun x => fdiv (fmul x.1 (gamma.getD x.2 0)) den
  | 0x12 =>
    let mu := fdiv (fsum (1 :: path) xs) n
    let ds := xs.map fun x => fsub x mu
    let den := fsqrt (fadd (fdiv (fsum (2 :: path) (ds.map fun x => fmul x x)) n) eps)
    (ds.zipIdx).map fun x => fadd (fdiv (fmul x.1 (gamma.getD x.2 0)) den) (beta.getD x.2 0)
  | _ => softmaxRow path xs

/-- The FP32 elements of reference 0 of a Vector or Conversion form: an FP32 array, or a data block with its scales, of the group size
that the block names (notes/assumptions/100.md). -/
def readVals (s : State) (m : Image) (d : Desc) (w : Work) (fmt si n width : Nat) : Got (List Nat) :=
  if fmt = 9 then readF32 s m d w 0 (w.step * n) n
  else
    let gb := refBytes s m d w 0 2 1
    let glog := leAt gb.val 0 1
    let g := readBlock s m d w 0 si fmt (if [5, 6, 7].contains glog then glog else 5) n width w.step 0
    ⟨(List.range n).map fun i => g.val.value width i, g.mism, g.bad⟩

def vectorStream (i : Nat) (s : State) (m : Image) (d : Desc) (w : Work) : State × Fate :=
  if w.left then (emitZero s m i d w, {})
  else
    let op := d.b 0x50 1
    let elems := d.b 0x54 4
    let n := w.n * elems
    let feat := d.b 0x58 4
    let a := readVals s m d w d.wFmt 4 n (if d.vecRow then feat else elems)
    let unary := 0x04 ≤ op ∧ op ≤ 0x0E
    let nb := if d.vecRow then (if op = 0x11 ∨ op = 0x12 then feat else 0) else if unary then 0 else n
    let nc := if op = 0x03 then n else if op = 0x12 then feat else 0
    let read (ref k : Nat) : Got (List Nat) :=
      if k = 0 then ⟨[], false, false⟩
      else if d.vecRow then
        let g := sharedBytes s m d w ref 0 (4 * k)
        ⟨(List.range k).map fun f => leAt g.val (4 * f) 4, false, g.bad⟩
      else readF32 s m d w ref 0 k
    let b := read 2 nb
    let c := read 3 nc
    let path (r : Nat) : List Nat := [s.freeTick, 6, m.id, i, w.entry, r]
    let ys := if d.vecRow then
        (List.range (n / Nat.max 1 feat)).flatMap fun r =>
          vecRowOut (path r) op (d.b 0x64 4) ((a.val.drop (r * feat)).take feat) b.val c.val
      else (a.val.zipIdx).map fun x => vecElem op (d.b 0x5C 4) (d.b 0x60 4) x.1 (b.val.getD x.2 0) (c.val.getD x.2 0)
    let bad := a.bad || b.bad || c.bad
    let per := if op = 0x0F ∨ op = 0x10 then feat else 1
    if a.mism || bad then (s, { mism := a.mism, bad := bad })
    else emitOut s m i d w ys fun e => s.coreAtGranule ((w.before * elems + e * per) / Nat.max 1 d.granule)

def vectorKernel : Kernel := fun s m i ws => perStream (vectorStream i) s m i ws

/-! Gate (R138). -/

/-- The decision for score `x` with the counter `h`: take, and the counter after it. -/
def gateDecide (mode hang threshold x h : Nat) : Bool × Nat :=
  if fle threshold x || isNan32 x then (true, hang)
  else if mode = 1 ∧ 0 < h then (true, h - 1)
  else (false, h)

def gateStream (s : State) (m : Image) (d : Desc) (w : Work) : State × Fate :=
  let x := readF32 s m d w 0 (d.b 0x58 4) 1
  let slot := slice (d.b 0x50 1) 0 3
  let mode := d.b 0x51 1
  let put (s : State) (b : Bool) : State :=
    s.setLive w.entry w.j fun l => { l with masks := (l.masks.filter fun y => y.1 != slot) ++ [(slot, b)] }
  if mode = 0 then
    if x.bad then (s, { bad := true })
    else (put s (gateDecide 0 (d.b 0x52 2) (d.b 0x54 4) (x.val.getD 0 0) 0).1, {})
  else
    let s := s.touchSec m w.entry w.j (d.b 0x5C 1) true
    match s.versionAt m w.st (w.j + 1) with
    | none => (s, {})
    | some (a, _) =>
      let s := if w.live.mark.isSome then s.putSecs a [d.b 0x5C 1] w.st.initCopy else s
      let sec := (s.sectionAt a (d.b 0x5C 1)).1
      if x.bad || s.anyBad (a + sec) 4 then (s, { bad := true })
      else
        let h := ofLe (s.arrBytes (a + sec) 4)
        let r := gateDecide 1 (d.b 0x52 2) (d.b 0x54 4) (x.val.getD 0 0) h
        (put (s.arrPut (a + sec) (leBytes 4 r.2)) r.1, {})

def gateKernel : Kernel := fun s m i ws => perStream gateStream s m i ws

/-! Expert routing (R142, R143). -/

/-- Key of a logit's rank: NaN below −∞, the two zeros equal. -/
def logitKey (x : Nat) : Int := if isNan32 x then -(2 ^ 31 : Int) else fkey x

/-- The TopK candidates of a position in rank order. -/
def rankLogits (xs : List Nat) (k : Nat) : List Nat :=
  (sortBy (fun i j => decide (logitKey (xs.getD j 0) < logitKey (xs.getD i 0)) ||
    (logitKey (xs.getD j 0) == logitKey (xs.getD i 0) && decide (i ≤ j))) (List.range xs.length)).take k

def finite32 (x : Nat) : Bool := !isNan32 x && !isInf32 x

/-- Weights of the chosen logits, a NaN's 0 under each Norm; a NaN among those not chosen adds nothing to Norm 1's sum. -/
def routeWeights (path : List Nat) (norm : Nat) (xs : List Nat) (chosen : List Nat) : List Nat :=
  let cs := chosen.map fun e => xs.getD e 0
  match cs.find? finite32 with
  | none => cs.map fun _ => 0
  | some top =>
    if norm = 2 then cs.map fun x => if isNan32 x then 0 else f32One
    else
      let es := cs.map fun x => if isNan32 x then 0 else fexp (fsub x top)
      let all := if norm = 1 then (xs.filter fun x => !isNan32 x).map fun x => fexp (fsub x top) else (cs.filter fun x => !isNan32 x).map fun x => fexp (fsub x top)
      let t := fsum path all
      (cs.zip es).map fun x => if isNan32 x.1 then 0 else fdiv x.2 t

/-- Assign one position's choices: table bytes, counts per expert, whether each choice was dropped. -/
def assign (cap : Nat) (counts : List Nat) : List (Nat × Nat) → List Byte × List Nat × Nat
  | [] => ([], counts, 0)
  | (e, wt) :: rest =>
    let drop := decide (cap ≠ 0 ∧ cap ≤ counts.getD e 0)
    let r := assign cap (if drop then counts else listMod counts e (· + 1)) rest
    (leBytes 4 (e + (if drop then 64 else 0)) ++ leBytes 4 (if drop then 0 else wt) ++ r.1, r.2.1, r.2.2 + b2n drop)

/-- The positions of one stream, one after another: table, counts, drops of each position. -/
def routeRows (path : List Nat) (d : Desc) (xs : List Nat) : List Nat → List Nat → List Byte × List Nat × List (Nat × Nat)
  | [], counts => ([], counts, [])
  | r :: rs, counts =>
    let n := d.b 0x50 1
    let row := (xs.drop (r * n)).take n
    let ch := rankLogits row (d.b 0x51 1)
    let a := assign (d.b 0x54 4) counts (ch.zip (routeWeights (r :: path) (d.b 0x52 1) row ch))
    let rest := routeRows path d xs rs a.2.1
    (a.1 ++ rest.1, rest.2.1, (r, a.2.2) :: rest.2.2)

def routingKernel : Kernel := fun s m i ws =>
  match m.descs[i]? with
  | none => (s, [])
  | some d =>
    let rowsOf (w : Work) : Nat := w.n * d.b 0x58 4
    let go (acc : State × List Nat × List (Nat × Fate)) (w : Work) : State × List Nat × List (Nat × Fate) :=
      let s := acc.1
      if w.left then
        (putOut (s.setLive w.entry w.j fun l => { l with skip := true }) m d w (List.replicate (8 * rowsOf w * d.b 0x51 1) 0),
         acc.2.1, acc.2.2 ++ [(w.entry, {})])
      else
        let x := readF32 s m d w 0 0 (rowsOf w * d.b 0x50 1)
        if x.bad then (s, acc.2.1, acc.2.2 ++ [(w.entry, { bad := true })])
        else
          let r := routeRows [s.freeTick, 7, m.id, i, w.entry] d x.val (List.range (rowsOf w)) acc.2.1
          let s := putOut s m d w r.1
          let s := r.2.2.foldl (fun s z =>
            if z.2 = 0 then s
            else
              let b := s.coreAtGranule (w.before * d.b 0x58 4 + z.1) / 32
              (s.count Fd.BEN_DROP_CNT b z.2).evtCount b 0x0B z.2) s
          (s, r.2.1, acc.2.2 ++ [(w.entry, {})])
    let r := ws.foldl go (s, List.replicate (d.b 0x50 1) 0, [])
    (r.1.setImage m.id fun m => { m with routes := tabPut m.routes i r.2.1 }, r.2.2)

/-! Conversion (R103). -/

/-- The value of an input element before Gain, as an exact datum. -/
def pcmVal (fmt code : Nat) : FVal :=
  let bits := if fmt = 0xA then 32 else 16
  let v := toSigned bits code
  .fin (decide (v < 0)) v.natAbs (-((bits : Int) - 1))

def conversionStream (i : Nat) (s : State) (m : Image) (d : Desc) (w : Work) : State × Fate :=
  let fmt := d.b 0x50 1
  let elems := d.b 0x54 4
  let n := w.n * elems
  let gain := fp32.decode (d.b 0x58 4)
  let scaled (v : FVal) : Nat := fp32.encode (fvProd v gain)
  let xs : Got (List Nat) :=
    if fmt = 9 then
      let g := readF32 s m d w 0 0 n
      ⟨g.val.map fun x => scaled (fp32.decode x), false, g.bad⟩
    else if fmt = 0xA ∨ fmt = 0xB then
      let by_ := if fmt = 0xA then 4 else 2
      let g := refBytes s m d w 0 0 (n * by_)
      ⟨(List.range n).map fun k => scaled (pcmVal fmt (leAt g.val (by_ * k) by_)), false, g.bad⟩
    else
      let g := readBlock s m d w 0 3 fmt 0 n elems w.step 0
      ⟨(List.range n).map fun k => scaled (fpCode fmt (codeAt (elemBits fmt) g.val.codes k)), g.mism, g.bad⟩
  if xs.mism || xs.bad then (s, { mism := xs.mism, bad := xs.bad })
  else emitOut s m i d w xs.val fun e => s.coreAtGranule ((w.before * elems + e) / Nat.max 1 d.granule)

def conversionKernel : Kernel := fun s m i ws => perStream (conversionStream i) s m i ws

end Sys2Proof.Machine
end

