-- ==== Sys2Proof/Machine/Recur.lean ====
section
/-! DEFINITION. Recurrent and state-carrying kinds: state sections, Recurrence, Parallel scan (06_recurrence.md, R150 to R170). -/
namespace Sys2Proof.Machine
open Sys2Proof

/-! Sections (R151, R160 to R164). -/

/-- A section while an operation works on it: its format, block exponents, FP32 values. -/
structure Sec where
  fmt  : Nat
  exps : List Nat
  vals : List Nat
  deriving DecidableEq, Repr

/-- Value of a mantissa under an exponent; −32,768 is treated as −32,767. -/
def mantVal (ex m : Nat) : Nat :=
  let v := toSigned 16 m
  f32OfInt (if v = -32768 then -32767 else v) ((ex : Int) - 142)

def loadSec (fmt n : Nat) (bs : List Byte) : Sec :=
  if fmt = 0 then
    ⟨fmt, (List.range (ceilDiv n 32)).map fun b => leAt bs (68 * b) 1,
     (List.range n).map fun i => mantVal (leAt bs (68 * (i / 32)) 1) (leAt bs (68 * (i / 32) + 4 + 2 * (i % 32)) 2)⟩
  else ⟨fmt, [], (List.range n).map fun i => leAt bs (4 * i) 4⟩

/-- Mantissa of a value under an exponent: none for a NaN. -/
def mantOf (ex v : Nat) : Option Int :=
  match fp32.decode v with
  | .nan => none
  | .inf n => some (if n then -(2 ^ 300 : Int) else 2 ^ 300)
  | .fin n m e => let (a, d) := dyFrac n m (e + 142 - ex); some (roundQ .even a d)

/-- F of R160. -/
def fitExp (vs : List Nat) : Nat :=
  let ok (e : Nat) : Bool := vs.all fun v =>
    match fp32.decode v with
    | .fin .. => ((mantOf e v).map fun x => decide (x.natAbs ≤ 32767)).getD true
    | _ => true
  ((List.range 255).find? ok).getD 254

/-- A stored block: exponent, mantissas, elements that were not finite or lay beyond exponent 254 (R160, R163). -/
def storeBlock (old : Nat) (anneal : Bool) (vs : List Nat) : Nat × List Int × Nat :=
  let f := fitExp vs
  let ex := if anneal then f else Nat.max old f
  (ex, vs.map fun v => ((mantOf ex v).map (clampInt (-32767) 32767)).getD 0,
   (vs.filter fun v => isNan32 v || isInf32 v || ((mantOf 254 v).map fun x => decide (32767 < x.natAbs)).getD false).length)

/-- Store new values: the section and what NonFinite gains. -/
def Sec.store (x : Sec) (anneal : Bool) (vs : List Nat) : Sec × Nat :=
  if x.fmt = 0 then
    let bs := (List.range (ceilDiv vs.length 32)).map fun b => storeBlock (x.exps.getD b 0) anneal ((vs.drop (32 * b)).take 32)
    (⟨0, bs.map (·.1), bs.flatMap fun b => b.2.1.map fun m => f32OfInt m ((b.1 : Int) - 142)⟩, sumNat (bs.map (·.2.2)))
  else (⟨x.fmt, [], vs⟩, (vs.filter fun v => isNan32 v || isInf32 v).length)

/-- Bytes of a stored section. -/
def Sec.bytes (x : Sec) : List Byte :=
  if x.fmt = 0 then
    (List.range x.exps.length).flatMap fun b =>
      let ex := x.exps.getD b 0
      leBytes 1 ex ++ leBytes 3 0 ++
        bytesAt (((x.vals.drop (32 * b)).take 32).flatMap fun v => leBytes 2 (ofSigned 16 ((mantOf ex v).getD 0))) 0 64
  else x.vals.flatMap (leBytes 4)

/-- First element beyond a drift bound, if any (R164). -/
def Sec.drift (x : Sec) (bound : Nat) : Option Nat :=
  if isZero32 bound then none else (List.range x.vals.length).find? fun i => flt bound (fabs (x.vals.getD i 0))

/-- What the header of a version gains from the steps of one operation (R163, R164). -/
structure SecLog where
  nonFinite : Nat := 0
  exceed    : Nat := 0
  last      : Option Nat := none
  /-- Elements that exceeded the bound, one per exceedance. -/
  where_    : List Nat := []
  deriving DecidableEq, Repr

/-- Store a section after step `t` (StepCount), with the anneal pass and the drift monitor. -/
def Sec.step (x : Sec) (m1 bound t : Nat) (vs : List Nat) (lg : SecLog) : Sec × SecLog :=
  let anneal := (t + 1) % (m1 + 1) == 0
  let r := x.store anneal vs
  let lg := { lg with nonFinite := lg.nonFinite + r.2 }
  match (if anneal then r.1.drift bound else none) with
  | none => (r.1, lg)
  | some i => (r.1, { lg with exceed := lg.exceed + 1, last := some t, where_ := lg.where_ ++ [i] })

namespace State

/-- Write a section of the version at `a` and its header counters. -/
def putSec (s : State) (a sec : Nat) (x : Sec) (lg : SecLog) (coreAt : Nat → Nat) : State :=
  let s := s.arrPut (a + (s.sectionAt a sec).1) x.bytes
  let s := s.arrPut (a + 0x0C) (leBytes 4 (satInc32 (ofLe (s.arrBytes (a + 0x0C) 4)) lg.nonFinite))
  let s := if lg.exceed = 0 then s else s.arrPut (a + 0x18) (leBytes 4 (ofLe (s.arrBytes (a + 0x18) 4) + lg.exceed))
  let s := match lg.last with | none => s | some t => s.arrPut (a + 0x20) (leBytes 8 t)
  lg.where_.foldl (fun s i => s.evtCount (coreAt i / 32) 0x05) s

/-- Read a section of the version at `a`. -/
def getSec (s : State) (a sec : Nat) : Got Sec :=
  let h := s.sectionAt a sec
  let n := secBytes h.2.1 h.2.2.1
  ⟨loadSec h.2.1 h.2.2.1 (s.arrBytes (a + h.1) n), false, s.anyBad (a + h.1) n⟩

end State

/-- A section of a state block held as bytes: an initial copy or the block at InitStatePtr. -/
def blockSec (bs : List Byte) (sec : Nat) : Sec :=
  let o := leAt bs (0x40 + 16 * sec) 4
  let fmt := leAt bs (0x40 + 16 * sec + 4) 1
  let n := leAt bs (0x40 + 16 * sec + 8) 4
  loadSec fmt n (bytesAt bs o (secBytes fmt n))

/-- A state-carrying operation leaves a stream out (R140): under Hold the state stays, under Initial, or with a mark in the
chunk, it is the initial state. -/
def leaveState (s : State) (m : Image) (d : Desc) (w : Work) (secs : List Nat) : State :=
  let s := secs.foldl (fun s sec => s.touchSec m w.entry w.j sec w.live.mark.isSome) s
  match s.versionAt m w.st (w.j + 1) with
  | none => s
  | some (a, _) =>
    let src : Option (List Byte) :=
      if w.live.mark.isSome then some w.st.initCopy
      else if d.skipInitial then some (s.devBytes w.st.initPtr (s.blockLen m w.st)) else none
    match src with
    | none => s
    | some bs => s.putSecs a secs bs

/-! Recurrence (R156 to R159). -/

/-- S of position `k`'s accumulation group in a row of `n` real positions, where `key` tells the groups of the operands apart. -/
def gateSum (x : WMat) (row n : Nat) (key : Nat → Nat) (k : Nat) : Int :=
  let w := x.elem row k
  let lo := k / 2 ^ w.2.2.1 * 2 ^ w.2.2.1
  let hi := Nat.min n (lo + 2 ^ w.2.2.1)
  if key lo = key (hi - 1) then w.2.2.2
  else (((List.range (hi - lo)).map (lo + ·)).filter fun q => key q == key k).foldl (fun a q =>
    match (x.elem row q).1 with | .int v _ => a + v | _ => a) 0

/-- Σ over one gate row of the recurrent product: reduction positions `from_` up to `to_` of which the first `h` are recurrent and
`n` are real. An accumulation group lies in one weight group and in one group of either operand, whose log2 sizes are `hlog` and
`xlog`; its S is that of the weight group, or where that group meets two groups of operands, the sum of R94 over its own elements. -/
def gateDot (x : WMat) (path : List Nat) (row from_ to_ h n : Nat) (rec_ inp : Nat → AElem × FVal) (hlog xlog : Nat) : Nat :=
  let key (k : Nat) : Nat := if k < h then 2 * (k / 2 ^ hlog) else 2 * ((k - h) / 2 ^ xlog) + 1
  let ts := (List.range (to_ - from_)).map fun i =>
    let k := from_ + i
    let w := x.elem row k
    let a := if k < h then rec_ k else inp (k - h)
    (({ w := w.1, a := a.1, sw := w.2.1, sa := a.2, g := k / 2 ^ w.2.2.1 * 65536 + key k } : MacTerm), gateSum x row n key k)
  macSum path (ts.map (·.1)) (ts.map fun t => (t.1.g, t.2))

/-- What one step of cell 0 or 1 computes with: weights, pre-activation or input, recurrent operand, bias. -/
structure GateIn where
  x     : WMat
  /-- Every block that the gate rows need is present; otherwise what they give is undefined (R129). -/
  whole : Bool
  path  : List Nat
  h     : Nat
  inp   : Nat
  hlog  : Nat
  xlog  : Nat
  pre   : List Nat
  bias  : List Nat
  rec_  : Nat → AElem × FVal
  xin   : Nat → AElem × FVal

/-- Σ over reduction positions of a gate row. -/
def GateIn.dot (q : GateIn) (path : List Nat) (row from_ to_ : Nat) : Nat :=
  if q.whole then gateDot q.x path row from_ to_ q.h (q.h + q.inp) q.rec_ q.xin q.hlog q.xlog else Config.free path % 2 ^ 32

/-- Pre-activation of gate row `g`·H + `u` with the recurrent product: P + U h, or U h + W x + b with InProj. -/
def GateIn.z (q : GateIn) (g u : Nat) : Nat :=
  let row := g * q.h + u
  let y := q.dot (row :: q.path) row 0 (q.h + q.inp)
  if q.inp = 0 then fadd (q.pre.getD row 0) y else fadd y (q.bias.getD row 0)

/-- LSTM: new c and h (R159). -/
def lstmStep (q : GateIn) (c : List Nat) : List Nat × List Nat :=
  let r := (List.range q.h).map fun u =>
    let i := fsigmoid (q.z 0 u)
    let f := fsigmoid (q.z 1 u)
    let g := ftanh (q.z 2 u)
    let o := fsigmoid (q.z 3 u)
    let c' := fma f (c.getD u 0) (fmul i g)
    (c', fmul o (ftanh c'))
  (r.map (·.1), r.map (·.2))

/-- GRU: new h (R159). -/
def gruStep (q : GateIn) (h : List Nat) : List Nat :=
  (List.range q.h).map fun u =>
    let z := fsigmoid (q.z 0 u)
    let r := fsigmoid (q.z 1 u)
    let row := 2 * q.h + u
    let uh := q.dot (0 :: row :: q.path) row 0 q.h
    let pn := if q.inp = 0 then q.pre.getD row 0
      else fadd (q.dot (1 :: row :: q.path) row q.h (q.h + q.inp)) (q.bias.getD row 0)
    let n := ftanh (fadd pn (fmul r (fadd uh (q.bias.getD (3 * q.h + u) 0))))
    fma z (fsub (h.getD u 0) n) n

/-- Phi of cell 6. -/
def phiOf (phi clip y : Nat) : Nat :=
  match phi with
  | 0 => y
  | 1 => ftanh y
  | 2 => fmin (fmax y (fneg clip)) clip
  | _ => fdiv y (fadd f32One (fabs y))

/-- One element-step of cells 2 to 6: coefficients, input, Δ, old state parts; new state parts and output parts (R159). -/
def elemStep (d : Desc) (co : List Nat) (u dl : List Nat) (h : List Nat) : List Nat × List Nat :=
  let g (xs : List Nat) (i : Nat) : Nat := xs.getD i 0
  let cplx (a0 a1 u0 u1 : Nat) : List Nat :=
    [fma a0 (g h 0) (fma (fneg a1) (g h 1) u0), fma a0 (g h 1) (fma a1 (g h 0) u1)]
  match d.b 0x50 1 with
  | 2 => let x := [fma (g co 0) (g h 0) (g u 0)]; (x, x)
  | 3 => let x := cplx (g co 0) (g co 1) (g u 0) (g u 1); (x, x)
  | 4 => let x := [fma (fexp (fmul (g dl 0) (g co 0))) (g h 0) (fmul (g dl 0) (g u 0))]; (x, x)
  | 5 =>
    let mag := fexp (fmul (g dl 0) (g co 0))
    let cs := fcosSin (fmul (g dl 0) (g co 1))
    let x := cplx (fmul mag cs.1) (fmul mag cs.2) (fmul (g dl 0) (g u 0)) (fmul (g dl 0) (g u 1))
    (x, x)
  | _ =>
    let x := g u 0
    let y := fma (g co 0) x (g h 0)
    let p := phiOf (d.b 0x5E 1) (d.b 0x60 4) y
    let y' := if bitAt (d.b 0x51 1) 1 then p else y
    ([fadd (fsub (fmul (g co 1) x) (fmul (g co 3) y')) (g h 1), fsub (fmul (g co 2) x) (fmul (g co 4) y')], [p])

/-- State parts, input parts and coefficients per element of a cell. -/
def cellState (cell : Nat) : Nat := if cell = 3 ∨ cell = 5 ∨ cell = 6 then 2 else 1
def cellInput (cell : Nat) : Nat := if cell = 3 ∨ cell = 5 then 2 else 1
def cellCoef (cell : Nat) : Nat := if cell = 6 then 5 else if cell = 3 ∨ cell = 5 then 2 else 1

def part (xs : List Nat) (n i : Nat) : List Nat := (xs.drop (n * i)).take n

/-- Steps `t` upwards of cells 2 to 6: `rows` holds each step's u and Δ. The state switches to the initial copy at its reset
position. -/
def runSteps (d : Desc) (co : List Nat) (init : Option (Nat × Sec)) (bound : Nat) :
    Nat → Nat → List (List Nat) → Sec → SecLog → Sec × SecLog × List Nat
  | _, _, [], x, lg => (x, lg, [])
  | p, t, row :: rows, x, lg =>
    let cell := d.b 0x50 1
    let h := d.b 0x52 2
    let x := match init with | some (q, y) => if q = p then y else x | none => x
    let us := row.take (h * cellInput cell)
    let dls := row.drop (h * cellInput cell)
    let rs := (List.range h).map fun e =>
      elemStep d (part co (cellCoef cell) e) (part us (cellInput cell) e) (part dls 1 e) (part x.vals (cellState cell) e)
    let r := x.step (d.b 0x64 2) bound t (rs.flatMap (·.1)) lg
    let rest := runSteps d co init bound (p + 1) (t + 1) rows r.1 r.2
    (rest.1, rest.2.1, rs.flatMap (·.2) ++ rest.2.2)

/-- The recurrent operand of cells 0 and 1 (R159): at step 0 and at a reset step the h section converted by R99, otherwise what
the previous step wrote to reference 1. -/
def recurOperand (s : State) (m : Image) (d : Desc) (w : Work) (atStart : Bool) (hs : List Nat) : Got (Nat → AElem × FVal) :=
  let c := d.conv
  let h := d.b 0x52 2
  if atStart then
    if d.aFmt = 6 ∨ d.aFmt = 7 then
      let gs := convertGroups { c with outFmt := d.aFmt } (groupsOf c.glog hs) none
      let b : ABlock := ⟨0, d.aFmt, c.glog, h, (gs.flatMap (·.codes)).map (BitVec.ofNat 8), 0, c.e, gs.map (·.rec_)⟩
      ⟨b.act h 0, false, false⟩
    else
      ⟨fun k => (.fp (fpCode d.aFmt (convertFp d.aFmt c.rnd c.nanZero (hs.getD k 0))), .fin false 1 0), false, false⟩
  else
    let g := readBlock s m d w 1 5 d.aFmt c.glog h h (w.step - 1) 0
    ⟨g.val.act h 0, g.mism, g.bad⟩

/-- Where the spec does not give the group size of an operand, the data block's own. -/
def blockGlog (s : State) (m : Image) (d : Desc) (w : Work) (ref : Nat) : Nat :=
  let g := leAt (refBytes s m d w ref 2 1).val 0 1
  if g = 5 ∨ g = 6 ∨ g = 7 then g else 5

/-- The core that stores element `e` of a Recurrence or Parallel scan of one stream. -/
def recurCore (s : State) (d : Desc) (w : Work) (e : Nat) : Nat :=
  let h := d.b 0x52 2
  if d.kind = 0x06 ∧ d.b 0x50 1 ≤ 1 then
    let g := if d.b 0x50 1 = 0 then 4 else 3
    let per := g * (h + (if bitAt (d.b 0x51 1) 0 then d.b 0x54 2 else 0))
    s.coreAtGranule (((w.before * h + e + 1) * per - 1) / Nat.max 1 d.granule)
  else s.coreAtGranule (w.before * h + e)

/-- The section that a step of cell 0 or 1 starts from: the initial copy's where the step carries the reset. -/
def oldSec (s : State) (d : Desc) (w : Work) (a sec : Nat) : Sec :=
  if w.markStep (d.b 0x5A 2) == some w.step then blockSec w.st.initCopy sec else (s.getSec a sec).val

/-- What a step of cell 0 or 1 computes with; without InProj only a GRU's b_hn is read of the bias (R156). -/
def gateInput (i : Nat) (s : State) (m : Image) (d : Desc) (w : Work) (a : Nat) : Got GateIn :=
  let h := d.b 0x52 2
  let lstm := d.b 0x50 1 = 0
  let gates := if lstm then 4 else 3
  let proj := bitAt (d.b 0x51 1) 0
  let inp := if proj then d.b 0x54 2 else 0
  let p := w.step
  let reset := w.markStep (d.b 0x5A 2) == some p
  let rc := recurOperand s m d w (p == 0 || reset) (oldSec s d w a (d.b 0x5C 1)).vals
  let pre : Got (List Nat) := if proj then ⟨[], false, false⟩ else readF32 s m d w 0 (p * gates * h) (gates * h)
  let xg := blockGlog s m d w 0
  let xb : Got ABlock := if proj then readBlock s m d w 0 3 d.aFmt xg inp inp p 0 else ⟨⟨0, 0, 0, 0, [], 0, 0, []⟩, false, false⟩
  let b0 := if proj then 0 else 3 * h
  let bias : Got (List Byte) := if lstm && !proj then ⟨[], false, false⟩ else sharedBytes s m d w 4 (4 * b0) (4 * (4 * h - b0))
  let x := WMat.load s m d 0 (roundUp (h + inp) (Nat.max 128 (pairMacs d.wFmt d.aFmt / 64)))
  let q : GateIn :=
    { x := x, whole := x.whole (gates * h), path := [s.freeTick, 9, m.id, i, w.entry],
      h := h, inp := inp, hlog := d.conv.glog, xlog := xg, pre := pre.val,
      bias := (List.range (4 * h)).map fun k => if k < b0 then 0 else leAt bias.val (4 * (k - b0)) 4,
      rec_ := rc.val, xin := xb.val.act inp 0 }
  ⟨q, rc.mism || xb.mism, rc.bad || pre.bad || xb.bad || bias.bad⟩

/-- Cells 0 and 1 on one stream. -/
def gatedCell (i : Nat) (s : State) (m : Image) (d : Desc) (w : Work) (a : Nat) (t : Nat) : State × Fate :=
  let secH := d.b 0x5C 1
  let secC := d.b 0x5D 1
  let lstm := d.b 0x50 1 = 0
  let q := gateInput i s m d w a
  let bad := (s.getSec a secH).bad || (lstm && (s.getSec a secC).bad) || q.bad
  if q.mism || bad then (s, { mism := q.mism, bad := bad })
  else
    let core := recurCore s d w
    let keep (sec : Nat) (vs : List Nat) : Sec × SecLog := (oldSec s d w a sec).step (d.b 0x64 2) (s.sectionAt a sec).2.2.2 t vs {}
    if lstm then
      let r := lstmStep q.val (oldSec s d w a secC).vals
      let nc := keep secC r.1
      let nh := keep secH r.2
      emitOut ((s.putSec a secC nc.1 nc.2 core).putSec a secH nh.1 nh.2 core) m i d w r.2 fun e => core e
    else
      let r := gruStep q.val (oldSec s d w a secH).vals
      let nh := keep secH r
      emitOut (s.putSec a secH nh.1 nh.2 core) m i d w r fun e => core e

/-- u and Δ of the steps of cells 2 to 6 and of Parallel scan: one row per step. -/
def readSteps (s : State) (m : Image) (d : Desc) (w : Work) (per n : Nat) : Got (List (List Nat)) :=
  let g : Got (List Nat) :=
    if d.aFmt = 9 then readF32 s m d w 0 (w.step * per) (n * per)
    else
      let b := readBlock s m d w 0 3 d.aFmt (blockGlog s m d w 0) (n * per) per w.step 0
      ⟨(List.range (n * per)).map fun i => b.val.value per i, b.mism, b.bad⟩
  ⟨(List.range n).map fun r => part g.val per r, g.mism, g.bad⟩

/-- Coefficients of reference 2, shared by the batch. -/
def readCoefs (s : State) (m : Image) (d : Desc) (w : Work) (n : Nat) : Got (List Nat) :=
  let g := sharedBytes s m d w 2 0 (4 * n)
  ⟨(List.range n).map fun k => leAt g.val (4 * k) 4, false, g.bad⟩

/-- Cells 2 to 6 on one stream. -/
def elementCell (i : Nat) (s : State) (m : Image) (d : Desc) (w : Work) (a : Nat) (t : Nat) : State × Fate :=
  let cell := d.b 0x50 1
  let h := d.b 0x52 2
  let n := d.b 0x56 2
  let rows := readSteps s m d w (h * cellInput cell + (if cell = 4 ∨ cell = 5 then h else 0)) n
  let co := readCoefs s m d w (h * cellCoef cell)
  let sec := s.getSec a (d.b 0x5C 1)
  let init := (w.markStep (d.b 0x5A 2)).map fun q => (q, blockSec w.st.initCopy (d.b 0x5C 1))
  if rows.mism || rows.bad || co.bad || sec.bad then (s, { mism := rows.mism, bad := rows.bad || co.bad || sec.bad })
  else
    let r := runSteps d co.val init (s.sectionAt a (d.b 0x5C 1)).2.2.2 w.step t rows.val sec.val {}
    let core := recurCore s d w
    let s := s.putSec a (d.b 0x5C 1) r.1 r.2.1 fun e => core (e / cellState cell)
    emitOut s m i d w r.2.2 fun e => core (e % Nat.max 1 d.outWidth / cellInput cell)

/-- StepCount at the operation's first step: that of the carry-in version and the step (R161). -/
def stepCountAt (s : State) (m : Image) (w : Work) : Nat :=
  ((s.versionAt m w.st w.j).map fun x => ofLe (s.arrBytes (x.1 + 0x10) 8)).getD 0 + w.step

def recurrenceStream (i : Nat) (s : State) (m : Image) (d : Desc) (w : Work) : State × Fate :=
  let secs := if d.b 0x50 1 = 0 then [d.b 0x5C 1, d.b 0x5D 1] else [d.b 0x5C 1]
  if w.left then (emitZero (leaveState s m d w secs) m i d w, {})
  else
    let t := stepCountAt s m w
    let marked := (w.markStep (d.b 0x5A 2)).any fun p => decide (p < w.step + d.b 0x56 2)
    let s := secs.foldl (fun s sec => s.touchSec m w.entry w.j sec marked) s
    match s.versionAt m w.st (w.j + 1) with
    | none => (s, {})
    | some (a, _) => if d.b 0x50 1 ≤ 1 then gatedCell i s m d w a t else elementCell i s m d w a t

def recurrenceKernel : Kernel := fun s m i ws => perStream (recurrenceStream i) s m i ws

/-! Parallel scan (R165, R166). -/

/-- An element of the scan: a and b, real or complex, and whether a mark lies in it. -/
structure Scan where
  a : List Nat
  b : List Nat
  f : Bool
  deriving DecidableEq, Repr

/-- Product and sum of real or complex FP32 numbers. -/
def numMul (x y : List Nat) : List Nat :=
  match x, y with
  | [a, b], [c, d] => [fsub (fmul a c) (fmul b d), fadd (fmul a d) (fmul b c)]
  | _, _ => [fmul (x.getD 0 0) (y.getD 0 0)]

def numAdd (x y : List Nat) : List Nat := (x.zip y).map fun p => fadd p.1 p.2

/-- (a₁, b₁, f₁) ∘ (a₂, b₂, f₂) of R166. -/
def Scan.comb (x y : Scan) : Scan :=
  if y.f then { y with f := true } else ⟨numMul x.a y.a, numAdd (numMul y.a x.b) y.b, x.f⟩

/-- Combine a run of elements in some tree, whose splits are free values (R110, R166). -/
def scanTree : Nat → List Nat → List Scan → Scan
  | _, _, [] => ⟨[], [], false⟩
  | _, _, [x] => x
  | 0, _, x :: xs => xs.foldl Scan.comb x
  | fuel + 1, path, x :: y :: rest =>
    let xs := x :: y :: rest
    let k := Config.free (fuel :: path) % (xs.length - 1) + 1
    (scanTree fuel (0 :: k :: path) (xs.take k)).comb (scanTree fuel (1 :: k :: path) (xs.drop k))

/-- h of every position of one element (R166). -/
def segScan (path : List Nat) (xs : List Scan) (hIn hInit : List Nat) : List (List Nat) :=
  (List.range xs.length).map fun t =>
    let r := scanTree xs.length (t :: path) (xs.take (t + 1))
    numAdd (numMul r.a (if r.f then hInit else hIn)) r.b

def scanStream (i : Nat) (s : State) (m : Image) (d : Desc) (w : Work) : State × Fate :=
  let cell := d.b 0x50 1
  let h := d.b 0x52 2
  let l := d.b 0x54 2
  let sec := d.b 0x58 1
  if w.left then (emitZero (leaveState s m d w [sec]) m i d w, {})
  else
    let t := stepCountAt s m w
    let s := s.touchSec m w.entry w.j sec w.live.mark.isSome
    match s.versionAt m w.st (w.j + 1) with
    | none => (s, {})
    | some (a, _) =>
      let np := if cell % 2 = 1 then 2 else 1
      let sel := decide (2 ≤ cell)
      let rows := readSteps s m d w (h * np + (if sel then h else 0)) l
      let co := readCoefs s m d w (h * np)
      let old := s.getSec a sec
      if rows.mism || rows.bad || co.bad || old.bad then (s, { mism := rows.mism, bad := rows.bad || co.bad || old.bad })
      else
        let init := if w.live.mark.isSome then blockSec w.st.initCopy sec else old.val
        let pm := w.markStep (d.b 0x56 2)
        let elem (e : Nat) : List (List Nat) :=
          let c := part co.val np e
          let xs := (rows.val.zipIdx).map fun r =>
            let u := part (r.1.take (h * np)) np e
            let dl := r.1.getD (h * np + e) 0
            let av := if !sel then c
              else if np = 1 then [fexp (fmul dl (c.getD 0 0))]
              else
                let mag := fexp (fmul dl (c.getD 0 0))
                let cs := fcosSin (fmul dl (c.getD 1 0))
                [fmul mag cs.1, fmul mag cs.2]
            (⟨av, if sel then u.map (fmul dl) else u, pm == some r.2⟩ : Scan)
          segScan [s.freeTick, 10, m.id, i, w.entry, e] xs (part old.val.vals np e) (part init.vals np e)
        let hs := (List.range h).map elem
        let last := hs.flatMap fun x => x.getD (l - 1) []
        let m1 := d.b 0x5C 2
        let anneals := (List.range l).filter fun p => (t + p + 1) % (m1 + 1) == 0
        let ta := match anneals.getLast? with | some p => t + p | none => t
        let base := match pm with | some _ => init | none => old.val
        let r := base.store (!anneals.isEmpty) last
        let lg : SecLog := { nonFinite := r.2 }
        let lg := match (if anneals.isEmpty then none else r.1.drift (s.sectionAt a sec).2.2.2) with
          | none => lg
          | some x => { lg with exceed := 1, last := some ta, where_ := [x] }
        let core := recurCore s d w
        let s := s.putSec a sec r.1 lg fun e => core (e / np)
        emitOut s m i d w ((List.range l).flatMap fun p => hs.flatMap fun x => x.getD p [])
          fun e => core (e % Nat.max 1 d.outWidth / np)

def scanKernel : Kernel := fun s m i ws => perStream (scanStream i) s m i ws

end Sys2Proof.Machine
end

