-- ==== Sys2Proof/Machine/Attn.lean ====
section
/-! DEFINITION. Attention and its merge pass (07_attention.md, R171 to R188). -/
namespace Sys2Proof.Machine
open Sys2Proof

/-- A row while its blocks run, and a partial record: m, l, o, poisoned (R178, R182). -/
structure Row where
  m   : Nat
  l   : Nat
  o   : List Nat
  bad : Bool := false
  deriving DecidableEq, Repr

def negInf : Nat := 0xFF800000

def Row.empty (dim : Nat) : Row := ⟨negInf, 0, List.replicate dim 0, false⟩

namespace Desc

def groupQ (d : Desc) : Nat := d.b 0x51 1
def headDim (d : Desc) : Nat := d.b 0x52 2
def kvFirst (d : Desc) : Nat := d.b 0x54 1
def kvCount (d : Desc) : Nat := d.b 0x55 1
def qRows (d : Desc) : Nat := d.b 0x56 2
/-- Query heads that the descriptor computes. -/
def qHeads (d : Desc) : Nat := d.groupQ * d.kvCount
def mergeIn (d : Desc) : Bool := bitAt (d.b 0x50 1) 2
def partialOut (d : Desc) : Bool := bitAt (d.b 0x50 1) 3
def lseOut (d : Desc) : Bool := bitAt (d.b 0x50 1) 4

end Desc

/-- What a stored key gives one KV head: codes of its rows and its page's scales (R190). -/
structure KeyRow where
  key  : Key
  k    : List Nat
  v    : List Nat
  sk   : Nat
  sv   : Nat
  deriving DecidableEq, Repr

def keyRow (s : State) (kv : List Byte) (h : Nat) (x : Key) : KeyRow :=
  let dim := Kv.dim kv
  ⟨x, (s.arrBytes (x.page + Kv.keyOff kv h x.idx) dim).map (·.toNat), (s.arrBytes (x.page + Kv.valOff kv h x.idx) dim).map (·.toNat),
   ofLe (s.arrBytes (x.page + Kv.scaleOff h) 4), ofLe (s.arrBytes (x.page + Kv.scaleOff h + 4) 4)⟩

/-- A key is visible to the query at `tq` (R176). -/
def visible (d : Desc) (tms : List Nat) (tq : Nat) (x : Key) : Bool :=
  (match slice (d.b 0x50 1) 0 2 with
   | 1 => true
   | 2 => decide (tq < x.pos + d.b 0x5C 4 ∧ x.pos ≤ tq)
   | _ => decide (x.pos ≤ tq)) &&
  tms.all fun t => !(decide (t ≤ tq) && decide (x.pos < t))

/-- The score of a query vector that starts at element `base` of its block against a key (R177). -/
def score (path : List Nat) (d : Desc) (q : ABlock) (base : Nat) (x : KeyRow) : Nat :=
  let dim := d.headDim
  let scale := fp32.decode (d.b 0x60 4)
  let raw :=
    if d.wFmt = 6 then
      let ts := (List.range dim).map fun i =>
        ({ w := .int (toSigned 8 (x.k.getD i 0)) 0, a := q.elem dim (base + i), sw := fp32.decode x.sk,
           sa := scaleVal (q.scaleOf dim (base + i)), g := i / 2 ^ q.glog } : MacTerm)
      fp32.encode (fvProd scale (fp32.decode (macSum path ts [])))
    else
      let ts := (List.range dim).map fun i =>
        ({ w := .fp (e4m3.decode (x.k.getD i 0)), a := q.elem dim (base + i), sw := .fin false 1 0, sa := .fin false 1 0, g := 0 } : MacTerm)
      fp32.encode (fvProd (fvProd scale (fp32.decode x.sk)) (fp32.decode (macSum path ts [])))
  let cap := d.b 0x64 4
  if isZero32 cap then raw else fmul cap (ftanh (fdiv raw cap))

/-- Quant and Value of R178: what a probability counts as. -/
def probVal (d : Desc) (p : Nat) : FVal :=
  if d.aFmt = 6 then
    match fp32.decode p with
    | .fin n m e => let (a, q) := dyFrac n (127 * m) e; intVal (clampInt (-127) 127 (roundQ .even a q))
    | _ => intVal 127
  else if d.aFmt = 5 then bf16.decode (convertFp 5 .even false p)
  else fpCode d.aFmt (convertFp d.aFmt .even false p)

/-- Terms of one element of o from one block, grouped by page (R178). -/
def valueTerms (path : List Nat) (d : Desc) (i : Nat) (xs : List (KeyRow × FVal)) : List Nat :=
  (dedup (xs.map (·.1.key.page))).map fun pg =>
    let g := xs.filter fun x => x.1.key.page == pg
    let sv := fp32.decode (((g.head?).map (·.1.sv)).getD 0)
    if d.wFmt = 6 then
      let p : Int := (g.map fun x => (match x.2 with | .fin n m e => (if n then -1 else 1) * ((m * 2 ^ e.toNat : Nat) : Int) | _ => 0) *
        toSigned 8 (x.1.v.getD i 0)).foldl (· + ·) 0
      fp32.encode (fvProd (intVal p) sv)
    else
      let t := fsum (i :: pg :: path) (g.map fun x => fp32.encode (fvProd x.2 (e4m3.decode (x.1.v.getD i 0))))
      fp32.encode (fvProd (fp32.decode t) sv)

/-- One key block of a row (R178, R179). `vis` says which of the keys the query sees. -/
def attendBlock (path : List Nat) (d : Desc) (q : ABlock) (base : Nat) (vis : Key → Bool) (r : Row) (xs : List KeyRow) : Row :=
  let ss := xs.map fun x => (x, if vis x.key then score (x.key.pos :: path) d q base x else negInf)
  let bad := r.bad || ss.any fun x => isNan32 x.2 || x.2 == 0x7F800000
  let fin := ss.filter fun x => finite32 x.2
  let mb := fin.foldl (fun a x => if flt a x.2 then x.2 else a) negInf
  let r :=
    if flt r.m mb then
      let alpha := fexp (fsub r.m mb)
      { r with m := mb, l := fmul r.l alpha, o := r.o.map fun y => fmul y alpha }
    else r
  let ps := fin.map fun x => (x.1, probVal d (fexp (fsub x.2 r.m)))
  { m := r.m, bad := bad
    l := if ps.isEmpty then r.l else fsum (1 :: path) (r.l :: ps.map fun x => fp32.encode x.2)
    o := if ps.isEmpty then r.o else (r.o.zipIdx).map fun y => fsum (2 :: y.2 :: path) (y.1 :: valueTerms path d y.2 ps) }

/-- A row over consecutive key blocks. -/
def attend (path : List Nat) (d : Desc) (q : ABlock) (base : Nat) (vis : Key → Bool) : List (List KeyRow) → Row → Row
  | [], r => r
  | b :: bs, r => attend path d q base vis bs (attendBlock (bs.length :: path) d q base vis r b)

/-- A row as a record in real units (R182). -/
def Row.record (d : Desc) (r : Row) : Row :=
  if d.wFmt = 6 then
    let f := fdiv f32One (f32OfInt 127)
    { r with l := fmul r.l f, o := r.o.map fun y => fmul y f }
  else r

/-- Merge two records; the larger m weighs exactly 1 (R183). -/
def Row.merge (x y : Row) : Row :=
  if x.bad || y.bad then { x with m := fp32.nanBits, bad := true }
  else if x.m = negInf ∧ y.m = negInf then Row.empty x.o.length
  else
    let m := fmax x.m y.m
    let weight (v : Nat) : Nat := let z := fsub v m; if isZero32 z then f32One else fexp z
    let a := weight x.m
    let b := weight y.m
    ⟨m, fadd (fmul a x.l) (fmul b y.l), (x.o.zip y.o).map fun p => fadd (fmul a p.1) (fmul b p.2), false⟩

/-- Merge several records pairwise, in an order that the device chooses (R183). -/
def mergeAll : Nat → List Nat → List Row → Option Row
  | _, _, [] => none
  | _, _, [x] => some x
  | 0, _, x :: xs => some (xs.foldl Row.merge x)
  | fuel + 1, path, x :: y :: rest =>
    let xs := x :: y :: rest
    let i := Config.free (3 :: fuel :: path) % xs.length
    let a := xs.getD i x
    let ys := removeAt xs i
    let j := Config.free (4 :: fuel :: path) % ys.length
    mergeAll fuel path (a.merge (ys.getD j y) :: removeAt ys j)

/-- Bytes of a record; l and o of a poisoned one are not stated (notes/assumptions/28.md). -/
def Row.bytes (path : List Nat) (r : Row) : List Byte :=
  let open_ (i v : Nat) : Nat := if r.bad then Config.free (28 :: i :: path) % 2 ^ 32 else v
  leBytes 4 (if r.bad then fp32.nanBits else r.m) ++ leBytes 4 (open_ 0 r.l) ++ leBytes 8 0 ++
    (r.o.zipIdx).flatMap fun y => leBytes 4 (open_ (y.2 + 1) y.1)

def parseRecord (dim : Nat) (bs : List Byte) : Row :=
  let m := leAt bs 0 4
  ⟨m, leAt bs 4 4, (List.range dim).map fun i => leAt bs (16 + 4 * i) 4, isNan32 m⟩

/-- Bytes of a record of head dimension `dim`. -/
def recordLen (dim : Nat) : Nat := 4 * dim + 16

/-- Elements and log-sum-exp of a final row in real units of l; where l is 1, as of one visible key, the log-sum-exp is m (R180, R181). -/
def Row.final (r : Row) (real : Nat) : List Nat × Nat :=
  if r.bad then (r.o.map fun _ => fp32.nanBits, fp32.nanBits)
  else if flt 0 r.l then (r.o.map fun y => fdiv y r.l, if real = f32One then r.m else fadd r.m (fln real))
  else (r.o.map fun _ => 0, 0xFF7FFFFF)

/-- Count a final row (R180). -/
def countRow (s : State) (r : Row) (core : Nat) : State :=
  if r.bad then s.count Fd.GAF_ATTN_NAN_CNT
  else if flt 0 r.l then s
  else (s.count Fd.GAF_EMPTY_QUERY_CNT).evtCount (core / 32) 0x06

/-- What one row of a stream came to: its words of output, its log-sum-exp; none where the merge pass writes it. -/
structure RowOut where
  out : List Nat
  lse : Nat
  deriving DecidableEq, Repr

/-- Finish a row whose blocks one core held: fold in the incoming record, write it as a record or as final (R180, R184, R186). -/
def finishRow (s : State) (path : List Nat) (d : Desc) (r : Row) (isRecord : Bool) (incoming : Option Row) (core : Nat) : State × RowOut :=
  let joined : Row × Bool := match incoming with
    | none => (r, isRecord)
    | some x => ((if isRecord then r else r.record d).merge x, true)
  if d.partialOut then
    let q := if joined.2 then joined.1 else joined.1.record d
    let bs := q.bytes path
    (s, ⟨(List.range (bs.length / 4)).map fun i => leAt bs (4 * i) 4, 0⟩)
  else
    let real := if joined.2 then joined.1.l else (joined.1.record d).l
    let f := joined.1.final real
    (countRow s joined.1 core, ⟨f.1, f.2⟩)

/-- A split key-head pair: query group, KV head, cores that hold pieces of it. -/
structure Split where
  g     : Nat
  h     : Nat
  cores : Nat
  deriving DecidableEq, Repr

/-- Records that split pairs write, in the order of R182: query row, query head, core. -/
def splitKeys (d : Desc) (groups : Nat) (xs : List Split) : List (Nat × Nat × Nat) :=
  (List.range (groups * d.qRows)).flatMap fun r => (List.range d.qHeads).flatMap fun q =>
    match xs.find? fun x => x.g == r / Nat.max 1 d.qRows && x.h == q / Nat.max 1 d.groupQ with
    | none => []
    | some x => (List.range x.cores).map fun c => (r, q, c)

/-- Cut a run of granules into the pieces that the cores hold: core, first and number. -/
def piecesOf (shares : List (Nat × Nat × Nat)) (first n : Nat) : List (Nat × Nat × Nat) :=
  shares.filterMap fun x =>
    let lo := Nat.max first x.2.1
    let hi := Nat.min (first + n) (x.2.1 + x.2.2)
    if lo < hi then some (x.1, lo - first, hi - lo) else none

/-- Blocks of 64 keys from the span's first key. -/
def keyBlocks (xs : List Key) : List (List Key) := (List.range (ceilDiv xs.length 64)).map fun b => (xs.drop (64 * b)).take 64

/-- The incoming record of a row (R186). -/
def incomingOf (d : Desc) (bs : List Byte) (r q : Nat) : Option Row :=
  if d.mergeIn then some (parseRecord d.headDim (bytesAt bs ((r * d.qHeads + q) * recordLen d.headDim) (recordLen d.headDim))) else none

/-- Where a stream's records start behind a reference: in the stream's item of a PerStream region, otherwise in batch order from the
start of the region, of its version or of the ring's slot (R182). -/
def recordBase (m : Image) (d : Desc) (w : Work) (r : Region) : Nat :=
  if r.perStream then (itemAt m r w.slot w.j).1
  else
    let start := match m.ringOf r.entry with
      | some (_, g) => (if g.egress then r.tail else r.head) * 256
      | none => if r.versioned then (w.j % m.depth) * (r.len * 256 / m.depth) else 0
    start + w.place * d.qRows * d.qHeads * recordLen d.headDim

def recordCore (w : Work) (r : Region) : Nat := itemCore r (if r.perStream then w.slot else 0)

/-- The first `n` bytes of a stream's records behind a reference. -/
def readRecords (s : State) (m : Image) (d : Desc) (w : Work) (ref n : Nat) : Got (List Byte) :=
  match s.refRegion m d ref with
  | none => ⟨List.replicate n 0, false, false⟩
  | some r =>
    let o := recordBase m d w r
    ⟨regRead s r (recordCore w r) o n, false, regBad s r (recordCore w r) o n⟩

/-- Write some of a stream's bytes behind reference 1 or another, as (offset, length) of the whole. -/
def putParts (s : State) (put : State → Nat → List Byte → State) (bs : List Byte) (parts : List (Nat × Nat)) : State :=
  parts.foldl (fun s x => put s x.1 (bytesAt bs x.1 x.2)) s

/-- Write records to reference 1. -/
def putRecords (s : State) (m : Image) (d : Desc) (w : Work) (bs : List Byte) (parts : List (Nat × Nat)) : State :=
  match s.refRegion m d 1 with
  | none => s
  | some r =>
    putParts s (fun s o b => noteWritten (regWrite s r (recordCore w r) (recordBase m d w r + o) b) d w o b.length) bs parts

/-- Groups of an output whose rows are all finished: number, first element, elements. -/
def readyGroups (d : Desc) (ready : Nat → Bool) (n : Nat) : List (Nat × Nat × Nat) :=
  let width := Nat.max 1 d.outWidth
  let per := ceilDiv width (2 ^ d.conv.glog)
  (List.range (n / width * per)).filterMap fun g =>
    let lo := g % per * 2 ^ d.conv.glog
    let hi := Nat.min width (lo + 2 ^ d.conv.glog)
    let first := g / per * width + lo
    let rows := (List.range (ceilDiv (hi - lo) (Nat.max 1 d.headDim) + 1)).filter fun k => decide ((lo / d.headDim + k) * d.headDim < hi)
    if rows.all fun k => ready (first / Nat.max 1 d.headDim + k) then some (g, first, hi - lo) else none

/-- Write a stream's rows, those that are finished and not in `was`, which are written already: output block or records, and log-sum-exp
values (R179, R184). `head` says that the headers of the blocks are still to be written. -/
def attnEmit (s : State) (m : Image) (d : Desc) (w : Work) (rows : List (Option RowOut)) (was : List Nat) (head : Bool) : State :=
  let words := if d.partialOut then recordLen d.headDim / 4 else d.headDim
  let xs := rows.flatMap fun x => (x.map (·.out)).getD (List.replicate words 0)
  let done := (rows.zipIdx.filter fun x => x.1.isSome).map (·.2)
  let new := done.filter fun k => !was.contains k
  let top (xs : List (Nat × Nat)) : List (Nat × Nat) := if head then xs else []
  let s := if d.lseOut then
      putParts s (fun s o b => refPut s m d w 7 o b) (f32Data (rows.map fun x => (x.map (·.lse)).getD 0)) (new.map fun k => (4 * k, 4))
    else s
  let c := d.conv
  let put (s : State) (o : Nat) (b : List Byte) : State := noteWritten (refPut s m d w 1 o b) d w o b.length
  if d.partialOut then putRecords s m d w (f32Data xs) (new.map fun k => (4 * words * k, 4 * words))
  else if d.outA8 then
    let gs := convertGroups c (rowGroups c.glog d.outWidth xs) none
    let old := readyGroups d was.contains xs.length
    let ok := (readyGroups d done.contains xs.length).filter fun g => !old.contains g
    let s := putParts s put (a8Data w.tag c gs) (top [(0, 16)] ++ ok.map fun g => (16 + g.2.1, g.2.2))
    let one := 4 + 4 * c.e
    let sc := a8Scales w.tag c gs
    let used := 16 + one * gs.length
    putParts s (fun s o b => refPut s m d w 5 o b) sc (top [(0, 16), (used, sc.length - used)] ++ ok.map fun g => (16 + one * g.1, one))
  else if c.outFmt = 3 ∨ c.outFmt = 4 ∨ c.outFmt = 5 then
    let one := words * (elemBits c.outFmt / 8)
    putParts s put (fpData w.tag c xs) (top [(0, 16)] ++ new.map fun k => (16 + one * k, one))
  else putParts s put (f32Data xs) (new.map fun k => (4 * words * k, 4 * words))

/-- A stream that the operation leaves out (R140, R186). -/
def attnLeft (s : State) (m : Image) (i : Nat) (d : Desc) (w : Work) : State :=
  let n := w.n * d.qRows * d.qHeads
  if d.partialOut then
    let s := s.setLive w.entry w.j fun l => { l with skip := true }
    let one := recordLen d.headDim
    putRecords s m d w (if d.mergeIn then (readRecords s m d w 6 (n * one)).val
      else (List.range n).flatMap fun _ => (Row.empty d.headDim).bytes []) [(0, n * one)]
  else
    let s := if d.lseOut then refPut s m d w 7 0 (List.replicate (4 * n) 0) else s
    emitZero s m i d w

/-- The key-head pairs of a stream that the shares split; `first` is the stream's first granule (R184). -/
def splitsOf (s : State) (m : Image) (i : Nat) (d : Desc) (w : Work) (first : Nat) : List Split :=
  let keys := s.storedKeys m w.st (m.layerOf i)
  let shares := (s.gaf.running.map (·.shares)).getD []
  let n (g : Nat) : Nat := ceilDiv (keySpan d w g keys).1.length 64
  (((List.range w.n).flatMap fun g => (List.range d.kvCount).map fun h => (g, h)).foldl (fun (a : Nat × List Split) x =>
    let k := (piecesOf shares a.1 (n x.1)).length
    (a.1 + n x.1, if k ≤ 1 then a.2 else a.2 ++ [⟨x.1, x.2, k⟩])) (first, [])).2

/-- Unsplit and split rows of a stream: finished rows by (row, head), and the records of split pairs in the order of R182. -/
def attnRows (s : State) (m : Image) (i : Nat) (d : Desc) (w : Work) (q : ABlock) (incoming : List Byte) (first : Nat) :
    State × List (Nat × Nat × RowOut) × List ((Nat × Nat × Nat) × Row) :=
  let kv := m.kvRec
  let keys := s.storedKeys m w.st (m.layerOf i)
  let tms := markPos d w
  let shares := (s.gaf.running.map (·.shares)).getD []
  let path (xs : List Nat) : List Nat := xs ++ [s.freeTick, 11, m.id, i, w.entry]
  let go (acc : State × Nat × List (Nat × Nat × RowOut) × List ((Nat × Nat × Nat) × Row)) (gh : Nat × Nat) :
      State × Nat × List (Nat × Nat × RowOut) × List ((Nat × Nat × Nat) × Row) :=
    let (s, gran, done, recs) := acc
    let (g, h) := gh
    let span := keySpan d w g keys
    let s := if h = 0 ∧ span.2 then s.count Fd.GAF_KEY_TRUNC_CNT else s
    let blocks := (keyBlocks span.1).map fun b => b.map (keyRow s kv (d.kvFirst + h))
    let ps := piecesOf shares gran blocks.length
    let t0 := queryStart d w g
    let rq := (List.range d.qRows).flatMap fun r => (List.range d.groupQ).map fun x => (g * d.qRows + r, h * d.groupQ + x)
    let run (rq : Nat × Nat) (bs : List (List KeyRow)) (c : Nat) : Row :=
      attend (path [c, rq.1, rq.2]) d q ((rq.1 * d.qHeads + rq.2) * d.headDim) (visible d tms (t0 + rq.1 % Nat.max 1 d.qRows)) bs
        (Row.empty d.headDim)
    if ps.length ≤ 1 then
      let core := ((ps.head?).map (·.1)).getD (s.coreFree [m.id, i, w.entry, g, h])
      let r := rq.foldl (fun (a : State × List (Nat × Nat × RowOut)) x =>
        let y := finishRow a.1 (path [x.1, x.2]) d (run x blocks 0) false (incomingOf d incoming x.1 x.2) core
        (y.1, a.2 ++ [(x.1, x.2, y.2)])) (s, [])
      (r.1, gran + blocks.length, done ++ r.2, recs)
    else
      let new := rq.flatMap fun x => (ps.zipIdx).map fun p =>
        ((x.1, x.2, p.2), (run x ((blocks.drop p.1.2.1).take p.1.2.2) (p.2 + 1)).record d)
      (s, gran + blocks.length, done, recs ++ new)
  let r := ((List.range w.n).flatMap fun g => (List.range d.kvCount).map fun h => (g, h)).foldl go (s, first, [], [])
  (r.1, r.2.2.1, r.2.2.2)

/-- What a merge pass is told of a stream, as numbers: entry, first record, groups, split pairs, finished rows. -/
def packSplit (w : Work) (base : Nat) (xs : List Split) (done : List (Nat × Nat × RowOut)) (dim : Nat) : List Nat :=
  [w.entry, base, w.n, xs.length] ++ xs.flatMap (fun x => [x.g, x.h, x.cores]) ++ [done.length, dim] ++
    done.flatMap fun y => [y.1, y.2.1, y.2.2.lse] ++ y.2.2.out

/-- Words of one output row. -/
def rowWords (d : Desc) : Nat := if d.partialOut then recordLen d.headDim / 4 else d.headDim

/-- Granules of the streams before each stream of the batch (R175). -/
def attnFirst (s : State) (m : Image) (i : Nat) (d : Desc) (ws : List Work) : Nat := sumNat (s.attnBlocks m i d ws) * d.kvCount

/-- Some word that a stream's share reads of its resident pages is uncorrectable: the positions of their tokens, and the rows and
scales of the keys in the spans of its query groups. -/
def pagesBad (s : State) (m : Image) (i : Nat) (d : Desc) (w : Work) : Bool :=
  !s.spadBad.isEmpty &&
    let k := m.kvRec
    let keys := s.storedKeys m w.st (m.layerOf i)
    ((s.kvResident m w.st (m.layerOf i)).any fun p => p.2.1 != 0 && (s.anyBad p.1 8 || s.anyBad (p.1 + Kv.posOff k 0) (4 * p.2.1))) ||
    (dedup ((List.range w.n).flatMap fun g => (keySpan d w g keys).1)).any fun x => (List.range d.kvCount).any fun n =>
      let h := d.kvFirst + n
      s.anyBad (x.page + Kv.scaleOff h) 8 || s.anyBad (x.page + Kv.keyOff k h x.idx) (Kv.dim k) || s.anyBad (x.page + Kv.valOff k h x.idx) (Kv.dim k)

/-- Rows of a stream in output order, as far as they are finished. -/
def rowTable (d : Desc) (groups : Nat) (done : List (Nat × Nat × RowOut)) : List (Option RowOut) :=
  (List.range (groups * d.qRows * d.qHeads)).map fun k =>
    (done.find? fun x => x.1 * d.qHeads + x.2.1 == k).map (·.2.2)

def attnOne (s : State) (m : Image) (i : Nat) (d : Desc) (before : List Work) (base : Nat) (w : Work) : State × Nat × Fate :=
  if w.left then (attnLeft s m i d w, base, {})
  else
    let n := w.n * d.qRows * d.qHeads
    let q := readBlock s m d w 0 3 d.aFmt (d.b 0x6A 1) (n * d.headDim) d.headDim w.step 0
    let inc := if d.mergeIn then readRecords s m d w 6 (n * recordLen d.headDim) else ⟨[], false, false⟩
    let first := attnFirst s m i d before
    let sp := splitsOf s m i d w first
    let ks := splitKeys d w.n sp
    let info (done : List (Nat × Nat × RowOut)) : List Nat := if sp.isEmpty then [] else packSplit w base sp done d.headDim
    if q.mism || q.bad || inc.bad || pagesBad s m i d w then
      (s, base + ks.length, { mism := q.mism, bad := q.bad || inc.bad || pagesBad s m i d w, info := info [] })
    else
      let culls := ((s.kvResident m w.st (m.layerOf i)).filter fun p => p.2.2 && p.2.1 == 0).length
      let s := s.count Fd.GAF_KV_CULLET_CNT 0 culls
      let r := attnRows s m i d w q.val inc.val first
      let s := r.1
      let done := r.2.1
      let s := attnEmit s m d w (rowTable d w.n done) [] true
      if sp.isEmpty then (s, base, {})
      else
        let one := recordLen d.headDim
        let s := match s.refRegion m d 4 with
          | none => s
          | some rg => (ks.zipIdx).foldl (fun s k =>
              match r.2.2.find? fun x => x.1 == k.1 with
              | none => s
              | some x => regWrite s rg (itemCore rg 0) ((base + k.2) * one) (x.2.bytes [s.freeTick, m.id, i, w.entry, k.2])) s
        (s, base + ks.length, { redo := true, info := info done })

/-- Attention on a batch (R178, R184). -/
def attentionKernel : Kernel := fun s m i ws =>
  match m.descs[i]? with
  | none => (s, [])
  | some d =>
    let r := ws.zipIdx.foldl (fun (acc : State × Nat × List (Nat × Fate)) x =>
      let y := attnOne acc.1 m i d (ws.take x.2) acc.2.1 x.1
      ((if y.2.2.mism || y.2.2.bad then acc.1 else y.1), y.2.1, acc.2.2 ++ [(x.1.entry, y.2.2)])) (s, 0, [])
    (r.1, r.2.2)

/-! The merge pass (R184, R188). -/

/-- Read back what `packSplit` packed, stream by stream: entry, first record, groups, split pairs, finished rows. -/
def unpackSplits (d : Desc) : Nat → List Nat → List (Nat × Nat × Nat × List Split × List (Nat × Nat × RowOut))
  | 0, _ => []
  | fuel + 1, xs =>
    match xs with
    | e :: base :: n :: k :: rest =>
      let sp := (List.range k).map fun i => (⟨rest.getD (3 * i) 0, rest.getD (3 * i + 1) 0, rest.getD (3 * i + 2) 0⟩ : Split)
      let rest := rest.drop (3 * k)
      let cnt := rest.getD 0 0
      let one := 3 + rowWords d
      let rows := rest.drop 2
      let done := (List.range cnt).map fun i =>
        let y := (rows.drop (one * i)).take one
        (y.getD 0 0, y.getD 1 0, (⟨y.drop 3, y.getD 2 0⟩ : RowOut))
      (e, base, n, sp, done) :: unpackSplits d fuel (rows.drop (one * cnt))
    | _ => []

/-- Merge the records of one stream's split rows, each with the row's incoming record, and write those rows (R184). -/
def mergeStream (i : Nat) (info : List Nat) (s : State) (m : Image) (d : Desc) (w : Work) : State × Fate :=
  match (unpackSplits d info.length info).find? fun x => x.1 == w.entry with
  | none => (s, {})
  | some (_, base, n, sp, done) =>
    let ks := splitKeys d n sp
    let one := recordLen d.headDim
    let inc := if d.mergeIn then readRecords s m d w 6 (n * d.qRows * d.qHeads * one) else ⟨[], false, false⟩
    let rg := s.refRegion m d 4
    let recs := ks.zipIdx.map fun k =>
      (k.1, match rg with
        | none => Row.empty d.headDim
        | some r => parseRecord d.headDim (regRead s r (itemCore r 0) ((base + k.2) * one) one))
    let bad := inc.bad || (match rg with
      | none => false
      | some r => regBad s r (itemCore r 0) (base * one) (ks.length * one))
    if bad then (s, { bad := true })
    else
      let rows := dedup (ks.map fun k => (k.1, k.2.1))
      let fin := rows.foldl (fun (a : State × List (Nat × Nat × RowOut)) x =>
        let mine := (recs.filter fun y => y.1.1 == x.1 && y.1.2.1 == x.2).map (·.2) ++ (incomingOf d inc.val x.1 x.2).toList
        let path := [s.freeTick, 12, m.id, i, w.entry, x.1, x.2]
        let r := (mergeAll mine.length path mine).getD (Row.empty d.headDim)
        let y := finishRow a.1 path d r true none (s.coreFree path)
        (y.1, a.2 ++ [(x.1, x.2, y.2)])) (s, done)
      (attnEmit fin.1 m d w (rowTable d n fin.2) (done.map fun x => x.1 * d.qHeads + x.2.1) false, {})

end Sys2Proof.Machine
end

