-- ==== Sys2Proof/Machine/KvOps.lean ====
section
/-! DEFINITION. The KV page move kind: Append, Stage and Restore (08_kv_pages.md, R196 to R207). -/
namespace Sys2Proof.Machine
open Sys2Proof

/-- Keys or values of a stream: per token and KV head, D elements as FP32 (R196). -/
def readTokens (s : State) (m : Image) (d : Desc) (w : Work) (ref n : Nat) : Got (List (List (List Nat))) :=
  let k := m.kvRec
  let per := Kv.heads k * Kv.dim k
  let g : Got (List Nat) :=
    if d.wFmt = 9 then readF32 s m d w ref 0 (n * per)
    else
      let b := readBlock s m d w ref 7 d.wFmt 0 (n * per) per w.step 0
      ⟨(List.range (n * per)).map fun i => b.val.value per i, b.mism, b.bad⟩
  ⟨(List.range n).map fun t => (List.range (Kv.heads k)).map fun h => ((g.val.drop (t * per + h * Kv.dim k)).take (Kv.dim k)),
   g.mism, g.bad⟩

/-- A stream that a KV operation leaves out appends and stages nothing (R140). -/
def kvLeft (s : State) (w : Work) : State := s.setLive w.entry w.j fun l => { l with skip := true }

def appendStream (s : State) (m : Image) (d : Desc) (w : Work) : State × Fate :=
  if w.left then (kvLeft s w, {})
  else
    let n := w.n * d.b 0x52 2
    let ks := readTokens s m d w 0 n
    let vs := readTokens s m d w 3 n
    if ks.mism || vs.mism || ks.bad || vs.bad then (s, { mism := ks.mism || vs.mism, bad := ks.bad || vs.bad })
    else
      let t0 := w.live.c.first / Nat.max 1 (d.b 0x54 2)
      let xs := (List.range n).map fun r => (t0 + r, ks.val.getD r [], vs.val.getD r [])
      match s.kvAppendAll m.id w.entry (d.b 0x51 1) w.j xs with
      | none => (s, { fault := some 5 })
      | some s => (s, {})

def appendKernel : Kernel := fun s m i ws => perStream appendStream s m i ws

/-- Stage (R198, R204): request records go to reference 4 one after another. -/
def stageKernel : Kernel := fun s m i ws =>
  match m.descs[i]? with
  | none => (s, [])
  | some d =>
    let s := (ws.filter fun w => w.left).foldl kvLeft s
    let r := s.kvStage m (d.b 0x51 1) ((ws.filter fun w => !w.left).map (·.entry))
    let s := match s.refRegion m d 4 with
      | none => r.1
      | some rg => (r.2.zipIdx).foldl (fun s x => regWrite s rg (itemCore rg 0) (16 * x.2) x.1) r.1
    (s, ws.map fun w => (w.entry, {}))

def restoreStream (s : State) (m : Image) (d : Desc) (w : Work) : State × Fate :=
  if w.left then (kvLeft s w, {})
  else
    let n := w.n * d.b 0x52 2
    let ks := readTokens s m d w 0 n
    let vs := readTokens s m d w 3 n
    if ks.mism || vs.mism || ks.bad || vs.bad then (s, { mism := ks.mism || vs.mism, bad := ks.bad || vs.bad })
    else (s.kvRestore m.id w.entry (d.b 0x51 1) (ks.val.zip vs.val), {})

def restoreKernel : Kernel := fun s m i ws => perStream restoreStream s m i ws

end Sys2Proof.Machine
end

