-- ==== Sys2Proof/Machine/Spectral.lean ====
section
/-! DEFINITION. Maps: Convolution, Pooling, fixed-rate tiles, Event decoding (09_spectral.md, R210 to R229). -/
namespace Sys2Proof.Machine
open Sys2Proof

namespace Desc

/-! Fields of R211. -/
def sflag (d : Desc) (n : Nat) : Bool := bitAt (d.b 0x50 1) n
def padT (d : Desc) : Nat := slice (d.b 0x51 1) 0 2
def padF (d : Desc) : Nat := slice (d.b 0x51 1) 2 2
def frameHop (d : Desc) : Nat := d.b 0x52 2
def tin (d : Desc) : Nat := d.b 0x54 2
def fin (d : Desc) : Nat := d.b 0x56 2
def cin (d : Desc) : Nat := d.b 0x58 2
def cout (d : Desc) : Nat := d.b 0x5A 2
def groups (d : Desc) : Nat := Nat.max 1 (d.b 0x5C 2)
def kt (d : Desc) : Nat := d.b 0x5E 1
def kf (d : Desc) : Nat := d.b 0x5F 1
def strideT (d : Desc) : Nat := d.b 0x60 1
def strideF (d : Desc) : Nat := d.b 0x61 1
def dilT (d : Desc) : Nat := d.b 0x62 1
def dilF (d : Desc) : Nat := d.b 0x63 1
def padAT (d : Desc) : Nat := d.b 0x64 1
def padAF (d : Desc) : Nat := d.b 0x66 1

/-- Output extent of one axis (R213). -/
def extent (n padA padB dil k st : Nat) : Int :=
  ((n : Int) + padA + padB - dil * ((k : Int) - 1) - 1) / (Nat.max 1 st : Nat) + 1

def tout (d : Desc) : Int := extent d.tin d.padAT (d.b 0x65 1) d.dilT d.kt d.strideT
def fout (d : Desc) : Int := extent d.fin d.padAF (d.b 0x67 1) d.dilF d.kf d.strideF

def history (d : Desc) : Bool := d.padT == 2
def frameElems (d : Desc) : Nat := d.fin * d.cin
/-- Input format of a Convolution or Pooling descriptor (R212). -/
def mapFmt (d : Desc) : Nat := if d.kind = 0x0A then d.aFmt else d.wFmt

end Desc

/-! Tiles (R222, R223). -/

/-- Levels, K and bits of a triple for a tile size. -/
def tileForm (tb : Nat) : Nat × Nat × Nat := if tb = 16 then (3, 1, 5) else (11, 5, 11)

/-- Element `i` of a tile, rounded into BF16 or FP32, as an FP32 pattern. -/
def tileElem (tb fmt : Nat) (bs : List Byte) (i : Nat) : Nat :=
  let f := tileForm tb
  let v := ofLe bs
  let ex := slice v 0 8
  let t := slice v (8 + f.2.2 * (i / 3)) f.2.2
  if f.1 ^ 3 ≤ t then 0
  else
    let c : Int := ((t / f.1 ^ (i % 3)) % f.1 : Nat) - (f.2.1 : Int)
    if c = 0 then 0
    else
      let q := quotSticky c.natAbs f.2.1 ((ex : Int) - 127)
      if fmt = 5 then ofBf16 (bf16.round .even (decide (c < 0)) q.1 q.2) else fp32.round .even (decide (c < 0)) q.1 q.2

def tileExp (xs : List Nat) : Nat :=
  let ok (e : Nat) : Bool := xs.all fun x =>
    match fp32.decode x with
    | .fin _ m ex => dyLe m (ex - ((e : Int) - 127)) 1
    | _ => true
  (((List.range 254).map (· + 1)).find? ok).getD 254

def tileCode (k ex x : Nat) : Int :=
  match fp32.decode x with
  | .nan => 0
  | .inf n => if n then -(k : Int) else k
  | .fin n m e => let (a, d) := dyFrac n (m * k) (e - ((ex : Int) - 127)); clampInt (-k) k (roundQ .even a d)

def encodeTile (tb : Nat) (xs : List Nat) : List Byte :=
  let f := tileForm tb
  let ex := tileExp xs
  let c (i : Nat) : Nat := if i < 64 then (tileCode f.2.1 ex (xs.getD i 0) + f.2.1).toNat else f.2.1
  let v := sumNat ((List.range 22).map fun j =>
    (c (3 * j) + f.1 * c (3 * j + 1) + f.1 * f.1 * c (3 * j + 2)) * 2 ^ (8 + f.2.2 * j))
  leBytes tb (ex + v)

/-- A tiled map of one base chunk (R224). -/
def tiledMap (tag tb : Nat) (xs : List Nat) : List Byte :=
  leBytes 1 tag ++ leBytes 1 tb ++ leBytes 2 0 ++ leBytes 4 xs.length ++ leBytes 8 0 ++
    (List.range (xs.length / 64)).flatMap fun i => encodeTile tb ((xs.drop (64 * i)).take 64)

def Desc.tileBytes (d : Desc) : Nat := if d.sflag 5 then 16 else 32

/-! Inputs. -/

/-- An element as it enters a reduction: the activation, its scale, the activation group it lies in. -/
structure MapElem where
  a : AElem
  s : FVal
  g : Nat
  deriving DecidableEq, Repr

/-- Bytes of the map's elements; what reading it met. -/
def readMap (s : State) (m : Image) (d : Desc) (w : Work) : Got (Nat → MapElem) :=
  let per := d.tin * d.frameElems
  let n := w.n * per
  let fmt := d.mapFmt
  if d.sflag 3 then
    let tb := d.tileBytes
    let len := 16 + per / 64 * tb
    let g := refBytes s m d w 0 (stepOff (itemSize s m d w 0) w.step (w.n * len)) (w.n * len)
    let mism := (List.range w.n).any fun b => leAt g.val (b * len) 1 != w.tag || leAt g.val (b * len + 1) 1 != tb
    ⟨fun i =>
      let x := tileElem tb fmt (bytesAt g.val (i / per * len + 16 + i % per / 64 * tb) tb) (i % per % 64)
      ⟨.fp (fp32.decode x), .fin false 1 0, 0⟩, mism, g.bad⟩
  else if fmt = 9 then
    let g := readF32 s m d w 0 0 n
    ⟨fun i => ⟨.fp (fp32.decode (g.val.getD i 0)), .fin false 1 0, 0⟩, false, g.bad⟩
  else
    let g := readBlock s m d w 0 3 fmt (d.b 0x6A 1) n 0 w.step 0
    ⟨fun i => ⟨g.val.elem 0 i, if fmt = 6 then scaleVal (g.val.scaleOf 0 i) else .fin false 1 0, 2 * (i / 2 ^ g.val.glog)⟩,
     g.mism, g.bad⟩

/-- A history record as an element (R220). -/
def histElem (fmt : Nat) (recs : List Byte) (i : Nat) : MapElem :=
  let r := leAt recs (4 * i) 4
  if fmt = 6 then
    if slice r 8 8 = 1 then ⟨.side (slice r 16 16) 0 0, .fin false 1 0, 2 * i + 1⟩
    else ⟨.int (toSigned 8 r) 0 0, scaleVal (slice r 16 16), 2 * i + 1⟩
  else if fmt = 3 ∨ fmt = 4 then ⟨.fp (fpCode fmt (slice r 0 8)), .fin false 1 0, 2 * i + 1⟩
  else if fmt = 9 then ⟨.fp (fp32.decode r), .fin false 1 0, 2 * i + 1⟩
  else ⟨.fp (bf16.decode (slice r 0 16)), .fin false 1 0, 2 * i + 1⟩

/-- The history record of element `i` of the map: its code, with the scale or the escape value beside it. -/
def histRecord (d : Desc) (blk : Option ABlock) (x : MapElem) (i : Nat) : List Byte :=
  if d.mapFmt = 6 then
    match x.a with
    | .side v _ _ => leBytes 1 0x80 ++ leBytes 1 1 ++ leBytes 2 v
    | .int q _ _ => leBytes 1 (ofSigned 8 q) ++ leBytes 1 0 ++ leBytes 2 (((blk.map fun b => b.scaleOf 0 i)).getD 0)
    | .fp _ => leBytes 4 0
  else
    match x.a with
    | .fp v =>
      if d.mapFmt = 3 ∨ d.mapFmt = 4 then leBytes 4 ((blk.map fun b => codeAt 8 b.codes i).getD 0)
      else if d.mapFmt = 9 ∧ !d.sflag 3 then leBytes 4 (fp32.encode v)
      else leBytes 4 (toBf16 (fp32.encode v))
    | _ => leBytes 4 0

/-- Where a window position reads from. -/
inductive Src where
  | pad
  | map (i : Nat)
  | hist (i : Nat)
  | init (i : Nat)
  deriving DecidableEq, Repr

/-- Index on an axis without history: none for zero padding, the nearest inside for replicate (R215). -/
def axisAt (mode n : Nat) (x : Int) : Option Nat :=
  if 0 ≤ x ∧ x < n then some x.toNat
  else if mode = 1 then some (clampInt 0 ((n : Int) - 1) x).toNat else none

/-- t_M of a mark that falls in the chunk (R221). -/
def Work.markFrame (w : Work) (hop : Nat) : Option Nat := w.live.mark.map fun x => x / Nat.max 1 hop

/-- Source of tap (it, jf) of output frame `o` and bin `f` of base chunk `b`, channel `ch` (R213, R215, R221). -/
def srcAt (d : Desc) (w : Work) (b o it f jf ch : Nat) : Src :=
  let fi := axisAt d.padF d.fin ((f * d.strideF + jf * d.dilF : Nat) - (d.padAF : Int))
  match fi with
  | none => .pad
  | some fi =>
    let off := fi * d.cin + ch
    let t : Int := ((o * d.strideT + it * d.dilT : Nat) : Int) - d.padAT
    if d.history then
      let t := t + (b * d.tin : Nat)
      let p0 : Int := w.live.c.first / Nat.max 1 d.frameHop
      let outPos : Int := p0 + (b * d.tin + o * d.strideT : Nat)
      let marked := match w.markFrame d.frameHop with
        | some tm => if (tm : Int) ≤ outPos ∧ p0 + t < tm then some ((d.padAT : Int) - (tm - (p0 + t))) else none
        | none => none
      match marked with
      | some r => .init (r.toNat * d.frameElems + off)
      | none => if t < 0 then .hist ((t + d.padAT).toNat * d.frameElems + off) else .map (t.toNat * d.frameElems + off)
    else
      match axisAt d.padT d.tin t with
      | none => .pad
      | some t => .map ((b * d.tin + t) * d.frameElems + off)

/-- What a Convolution or Pooling operation reads: map, carried history, initial history, the data block of the map. -/
structure Maps where
  elem : Nat → MapElem
  hist : List Byte
  init : List Byte
  blk  : Option ABlock
  at_  : Nat
  sec  : Nat

def Maps.get (x : Maps) (fmt : Nat) : Src → Option MapElem
  | .pad => none
  | .map i => some (x.elem i)
  | .hist i => some (histElem fmt x.hist i)
  | .init i => some (histElem fmt x.init i)

/-- Format of the history's records: tiles keep BF16 (R220). -/
def Desc.histFmt (d : Desc) : Nat := if d.sflag 3 then 5 else d.mapFmt

/-- Read the inputs of a stream; the version of the chunk is carried in first in history mode. -/
def readMaps (s : State) (m : Image) (d : Desc) (w : Work) : Got Maps :=
  let g := readMap s m d w
  let fmt := d.mapFmt
  let blk := if d.sflag 3 ∨ fmt = 9 then none
    else some (readBlock s m d w 0 3 fmt (d.b 0x6A 1) (w.n * d.tin * d.frameElems) 0 w.step 0).val
  if !d.history then ⟨⟨g.val, [], [], blk, 0, 0⟩, g.mism, g.bad⟩
  else
    match s.versionAt m w.st (w.j + 1) with
    | none => ⟨⟨g.val, [], [], blk, 0, 0⟩, g.mism, g.bad⟩
    | some (a, _) =>
      let o := (s.sectionAt a (d.b 0x68 1)).1
      let n := 4 * d.padAT * d.frameElems
      ⟨⟨g.val, s.arrBytes (a + o) n, bytesAt w.st.initCopy o n, blk, a, o⟩, g.mism, g.bad || s.anyBad (a + o) n⟩

/-- Write the history of the chunk (R220, R221). -/
def putHistory (s : State) (d : Desc) (w : Work) (x : Maps) : State :=
  if !d.history then s
  else
    let p0 : Int := w.live.c.first / Nat.max 1 d.frameHop
    let total : Int := (w.n * d.tin : Nat)
    let one (r i : Nat) : List Byte :=
      let t : Int := total - d.padAT + r
      let e := i
      let marked := match w.markFrame d.frameHop with
        | some tm => if p0 + t < tm then some ((d.padAT : Int) - (tm - (p0 + t))) else none
        | none => none
      match marked with
      | some q => if q < 0 then leBytes 4 0 else bytesAt x.init (4 * (q.toNat * d.frameElems + e)) 4
      | none =>
        if t < 0 then bytesAt x.hist (4 * ((t + d.padAT).toNat * d.frameElems + e)) 4
        else
          let k := t.toNat * d.frameElems + e
          histRecord d x.blk (x.elem k) k
    s.arrPut (x.at_ + x.sec) ((List.range d.padAT).flatMap fun r => (List.range d.frameElems).flatMap fun i => one r i)

/-- Output of a map: tiles, or what the conversion word says. -/
def emitMap (s : State) (m : Image) (i : Nat) (d : Desc) (w : Work) (xs : List Nat) : State × Fate :=
  let per := d.conv.outElems
  if d.sflag 4 then
    (putOut s m d w ((List.range w.n).flatMap fun b => tiledMap w.tag d.tileBytes ((xs.drop (b * per)).take per)), {})
  else
    emitOut s m i d w xs fun e =>
      s.coreAtGranule (w.before * d.tout.toNat + e / Nat.max 1 (d.fout.toNat * d.cout))

def leftMap (s : State) (m : Image) (i : Nat) (d : Desc) (w : Work) : State :=
  let s := if d.history then leaveState s m d w [d.b 0x68 1] else s
  if d.sflag 4 then
    (emitMap (s.setLive w.entry w.j fun l => { l with skip := true }) m i d w (List.replicate (w.n * d.conv.outElems) 0)).1
  else emitZero s m i d w

/-- Output positions of a map in storage order: base chunk, frame, bin, channel. -/
def outPositions (d : Desc) (n : Nat) : List (Nat × Nat × Nat × Nat) :=
  (List.range n).flatMap fun b => (List.range d.tout.toNat).flatMap fun o => (List.range d.fout.toNat).flatMap fun f =>
    (List.range d.cout).map fun c => (b, o, f, c)

/-! Convolution (R216, R217). -/

/-- Number the maximal runs of reduction elements in one weight group and one activation group; padding breaks no run. -/
def runIds : Option (Nat × Nat) → Nat → List (Nat × Option Nat) → List Nat
  | _, _, [] => []
  | last, id, (_, none) :: rest => id :: runIds last id rest
  | none, id, (wg, some ag) :: rest => id :: runIds (some (wg, ag)) id rest
  | some p, id, (wg, some ag) :: rest =>
    if p = (wg, ag) then id :: runIds (some p) id rest else (id + 1) :: runIds (some (wg, ag)) (id + 1) rest

/-- One output of a convolution before the bias. -/
def convOne (path : List Nat) (d : Desc) (w : Work) (x : Maps) (mats : List WMat) (pos : Nat × Nat × Nat × Nat) : Nat :=
  let (b, o, f, co) := pos
  let per := d.cout / d.groups
  let cg := d.cin / d.groups
  let g := co / Nat.max 1 per
  let mat := mats.getD g ⟨[], 128⟩
  let taps := (List.range d.kt).flatMap fun it => (List.range d.kf).flatMap fun jf => (List.range cg).map fun c => (it, jf, c)
  let el := (taps.zipIdx).map fun t =>
    let wt := mat.elem (co % Nat.max 1 per) t.2
    (wt, x.get d.histFmt (srcAt d w b o t.1.1 f t.1.2.1 (g * cg + t.1.2.2)), t.2)
  let ids := runIds none 0 (el.map fun e => (e.2.2 / 2 ^ e.1.2.2.1, e.2.1.map (·.g)))
  let ts := (el.zip ids).filterMap fun e =>
    match e.1.2.1 with
    | some y => some ({ w := e.1.1.1, a := y.a, sw := e.1.1.2.1, sa := y.s, g := e.2 } : MacTerm)
    | none => match e.1.1.1 with
      | .fp v => some ({ w := .fp v, a := .fp (.fin false 0 0), sw := .fin false 1 0, sa := .fin false 1 0, g := e.2 } : MacTerm)
      | .side v z => some ({ w := .side v z, a := .int 0 0 0, sw := .fin false 1 0, sa := .fin false 1 0, g := taps.length + e.1.2.2 } : MacTerm)
      | .int _ _ => none
  macSum path ts []

def convStream (i : Nat) (s : State) (m : Image) (d : Desc) (w : Work) : State × Fate :=
  if w.left then (leftMap s m i d w, {})
  else
    let s := if d.history then s.touchSec m w.entry w.j (d.b 0x68 1) true else s
    let x := readMaps s m d w
    let kk := d.kt * d.kf * (d.cin / d.groups)
    let kp := roundUp kk (Nat.max 128 (pairMacs d.wFmt d.aFmt / 64))
    let mats := (List.range d.groups).map fun g => WMat.load s m d (g * d.b 0x6C 4) kp
    let whole := mats.all fun y => y.whole (d.cout / d.groups)
    let bias : Got (List Nat) :=
      if d.sflag 2 then
        let g := sharedBytes s m d w 4 0 (4 * d.cout)
        ⟨(List.range d.cout).map fun f => leAt g.val (4 * f) 4, false, g.bad⟩
      else ⟨[], false, false⟩
    if x.mism || x.bad || bias.bad then (s, { mism := x.mism, bad := x.bad || bias.bad })
    else
      let ys := ((outPositions d w.n).zipIdx).map fun p =>
        let y := if whole then convOne [s.freeTick, 13, m.id, i, w.entry, p.2] d w x.val mats p.1
          else s.fresh [13, m.id, i, w.entry, p.2] % 2 ^ 32
        if d.sflag 2 then fadd y (bias.val.getD p.1.2.2.2 0) else y
      emitMap (putHistory s d w x.val) m i d w ys

def convKernel : Kernel := fun s m i ws => perStream (convStream i) s m i ws

/-! Pooling (R218). -/

/-- FP32 value of an element. -/
def MapElem.value (x : MapElem) : Nat :=
  match x.a with
  | .fp v => fp32.encode v
  | .side v _ _ => ofBf16 v
  | .int q z _ => fp32.encode (fvProd (intVal (q - z)) x.s)

/-- One window: the result, and whether it admitted no position. -/
def poolOne (path : List Nat) (d : Desc) (w : Work) (x : Maps) (pos : Nat × Nat × Nat × Nat) : Nat × Bool :=
  let (b, o, f, c) := pos
  let taps := (List.range d.kt).flatMap fun it => (List.range d.kf).map fun jf => srcAt d w b o it f jf c
  let inMap (it jf : Nat) : Bool :=
    let t : Int := ((o * d.strideT + it * d.dilT : Nat) : Int) - d.padAT
    let q : Int := ((f * d.strideF + jf * d.dilF : Nat) : Int) - d.padAF
    (d.history || (decide (0 ≤ t) && decide (t < d.tin))) && decide (0 ≤ q) && decide (q < d.fin)
  let real := ((List.range d.kt).flatMap fun it => (List.range d.kf).map fun jf => inMap it jf)
  let val (y : Src) : Nat := ((x.get d.histFmt y).map MapElem.value).getD 0
  if d.sflag 0 then
    match (taps.filter fun y => y != .pad).map val with
    | [] => (0, true)
    | v :: vs => (vs.foldl fmax v, false)
  else if d.sflag 1 then (fdiv (fsum path (taps.map val)) (f32OfInt (d.kt * d.kf : Nat)), false)
  else
    let vs := ((taps.zip real).filter fun y => y.2).map fun y => val y.1
    if vs.isEmpty then (0, true) else (fdiv (fsum path vs) (f32OfInt vs.length), false)

def poolStream (i : Nat) (s : State) (m : Image) (d : Desc) (w : Work) : State × Fate :=
  if w.left then (leftMap s m i d w, {})
  else
    let s := if d.history then s.touchSec m w.entry w.j (d.b 0x68 1) true else s
    let x := readMaps s m d w
    if x.mism || x.bad then (s, { mism := x.mism, bad := x.bad })
    else
      let ys := ((outPositions d w.n).zipIdx).map fun p => poolOne [s.freeTick, 14, m.id, i, w.entry, p.2] d w x.val p.1
      let s := s.count Fd.GAF_EMPTY_WIN_CNT 0 (ys.filter fun y => y.2).length
      emitMap (putHistory s d w x.val) m i d w (ys.map (·.1))

def poolKernel : Kernel := fun s m i ws => perStream (poolStream i) s m i ws

/-! Event decoding (R225 to R228). -/

/-- A decoded candidate. -/
structure Cand where
  idx  : Nat
  cls  : Nat
  score : Nat
  ct   : Nat
  cf   : Nat
  et   : Nat
  ef   : Nat
  t0   : Nat
  t1   : Nat
  f0   : Nat
  f1   : Nat
  clip : Bool
  deriving DecidableEq, Repr

def f32Half : Nat := 0x3F000000
def f32Two : Nat := 0x40000000

/-- The largest logit's class, ties to the lower. -/
def topClass (xs : List Nat) : Nat :=
  ((xs.zipIdx).foldl (fun (a : Nat × Nat) x => if isNan32 a.1 && !isNan32 x.1 || flt a.1 x.1 then (x.1, x.2) else a) (xs.headD 0, 0)).2

/-- Decode candidate `i` from its logits and offsets, and its anchor (R226). -/
def decodeCand (d : Desc) (i : Nat) (xs anchor : List Nat) : Cand :=
  let k := d.b 0x52 2
  let cls := topClass (xs.take k)
  let lg := xs.getD cls 0
  let x (n : Nat) : Nat := xs.getD (k + n) 0
  let a (n : Nat) : Nat := anchor.getD n 0
  let ct := fma (x 0) (a 1) (a 0)
  let cf := fma (x 1) (a 3) (a 2)
  let et := fmul (a 1) (fexp (x 2))
  let ef := fmul (a 3) (fexp (x 3))
  let f0 := fsub cf (fdiv ef f32Two)
  let f1 := fadd cf (fdiv ef f32Two)
  let lim := f32OfInt (d.b 0x62 2)
  let g0 := if flt f0 0 then 0 else if flt lim f0 then lim else f0
  let g1 := if flt f1 0 then 0 else if flt lim f1 then lim else f1
  let clip := bitAt (d.b 0x56 1) 3 && (g0 != f0 || g1 != f1)
  { idx := i, cls := cls, score := if bitAt (d.b 0x56 1) 0 then fsigmoid lg else lg, ct := ct, et := et,
    cf := if clip then fdiv (fadd g0 g1) f32Two else cf, ef := if clip then fsub g1 g0 else ef,
    t0 := fsub ct (fdiv et f32Two), t1 := fadd ct (fdiv et f32Two), f0 := if clip then g0 else f0, f1 := if clip then g1 else f1,
    clip := clip }

def Cand.finite (c : Cand) : Bool := [c.ct, c.cf, c.et, c.ef, c.t0, c.t1, c.f0, c.f1].all finite32

/-- Overlap of two intervals, at least 0. -/
def overlap (a0 a1 b0 b1 : Nat) : Nat := fmax 0 (fsub (fmin a1 b1) (fmax a0 b0))

/-- IoU of R227. -/
def iou (temporal : Bool) (a b : Cand) : Nat :=
  let lt := overlap a.t0 a.t1 b.t0 b.t1
  let inter := if temporal then lt else fmul lt (overlap a.f0 a.f1 b.f0 b.f1)
  let area (c : Cand) : Nat := if temporal then fsub c.t1 c.t0 else fmul (fsub c.t1 c.t0) (fsub c.f1 c.f0)
  let union := fsub (fadd (area a) (area b)) inter
  if flt 0 union then fdiv inter union else 0

/-- Visit candidates in order: kept ones, and those unvisited when the list is full (R227). -/
def suppress (d : Desc) : List Cand → List Cand → List Cand × Nat
  | kept, [] => (kept, 0)
  | kept, c :: cs =>
    if d.b 0x54 2 ≤ kept.length then (kept, (c :: cs).length)
    else
      let hit := kept.any fun k => (bitAt (d.b 0x56 1) 2 || k.cls == c.cls) && flt (d.b 0x5C 4) (iou (bitAt (d.b 0x56 1) 1) k c)
      suppress d (if hit then kept else kept ++ [c]) cs

def candRecord (d : Desc) (rank : Nat) (c : Cand) : List Byte :=
  let hop := f32OfInt (d.b 0x60 2)
  leBytes 2 c.cls ++ leBytes 1 rank ++ leBytes 1 (b2n c.clip) ++ leBytes 4 c.score ++ leBytes 4 (fmul c.ct hop) ++
    leBytes 4 (fmul c.et hop) ++ leBytes 4 c.cf ++ leBytes 4 c.ef ++ leBytes 2 c.idx ++ List.replicate 6 0

/-- Output of R228. -/
def eventBytes (d : Desc) (w : Work) (kept : List Cand) (passed : Nat) : List Byte :=
  leBytes 1 w.tag ++ leBytes 1 0 ++ leBytes 2 kept.length ++ leBytes 4 passed ++ leBytes 8 w.live.c.first ++
    bytesAt ((kept.zipIdx).flatMap fun c => candRecord d c.2 c.1) 0 (32 * d.b 0x54 2)

def eventStream (s : State) (m : Image) (d : Desc) (w : Work) : State × Fate :=
  if w.left then
    (putOut (s.setLive w.entry w.j fun l => { l with skip := true }) m d w (eventBytes d w [] 0), {})
  else
    let n := d.b 0x50 2
    let per := d.b 0x52 2 + 4
    let x := readF32 s m d w 0 0 (n * per)
    let an := sharedBytes s m d w 2 0 (16 * n)
    if x.bad || an.bad then (s, { bad := true })
    else
      let cs := (List.range n).map fun i =>
        decodeCand d i (part x.val per i) ((List.range 4).map fun k => leAt an.val (16 * i + 4 * k) 4)
      let scored := cs.filter fun c => !isNan32 c.score && !flt c.score (d.b 0x58 4)
      let ok := scored.filter Cand.finite
      let s := s.count Fd.GAF_EVT_BAD_CNT 0 (scored.length - ok.length)
      let r := suppress d [] (sortBy (fun a b => fle b.score a.score) ok)
      let s := if r.2 = 0 then s else s.count Fd.GAF_EVT_OVER_CNT
      (putOut s m d w (eventBytes d w r.1 ok.length), {})

def eventKernel : Kernel := fun s m i ws => perStream eventStream s m i ws

end Sys2Proof.Machine
end

