-- ==== Sys2Proof/Machine/Collective.lean ====
section
/-! DEFINITION. Collectives: groups, rounds, contributions, the ring rotation (08 R206, R207, 13 R320 to R327). -/
namespace Sys2Proof.Machine
open Sys2Proof

/-! Groups (R320). -/

namespace Desc

def collOp (d : Desc) : Nat := d.b 0x50 1
def redOp (d : Desc) : Nat := d.b 0x51 1
def group (d : Desc) : Nat := d.b 0x52 1
def root (d : Desc) : Nat := d.b 0x53 1
def units (d : Desc) : Nat := d.b 0x54 4
def collId (d : Desc) : Nat := d.b 0x58 2

end Desc

namespace Image

/-- The image's copy of a group entry. -/
def groupOf (m : Image) (g : Nat) : List Byte := (tabGet m.groups g).getD (List.replicate 64 0)

end Image

def groupCount (g : List Byte) : Nat := leAt g 0 1
def groupRank (g : List Byte) : Nat := leAt g 1 1
def groupTimeout (g : List Byte) : Nat := leAt g 2 2
def groupMembers (g : List Byte) : List Nat := (List.range (Nat.min 16 (groupCount g))).map fun r => slice (leAt g (8 + 2 * r) 2) 0 10

/-- Ranks that contribute to a member, other than itself (R322). -/
def expectedRanks (d : Desc) (g : List Byte) : List Nat :=
  let others := (List.range (groupCount g)).filter (· != groupRank g)
  if d.collOp = 3 then others.filter (· == d.root) else others

/-- Ranks that a member sends to. -/
def sendRanks (d : Desc) (g : List Byte) : List Nat :=
  let others := (List.range (groupCount g)).filter (· != groupRank g)
  if d.collOp = 3 ∧ groupRank g ≠ d.root then [] else others

/-- Units that one member contributes to another: first unit and number (R322). -/
def partOf (d : Desc) (g : List Byte) (to_ : Nat) : Nat × Nat :=
  let n := Nat.max 1 (groupCount g)
  if d.collOp = 1 then (to_ * (d.units / n), d.units / n) else (0, d.units)

/-- Units of a result (R321). -/
def resultUnits (d : Desc) (g : List Byte) : Nat :=
  let n := Nat.max 1 (groupCount g)
  if d.collOp = 1 then d.units / n else if d.collOp = 2 then d.units * n else d.units

/-- Address field of Op 7 (R322). -/
def collAddr (coll entry j unit : Nat) : Nat := coll + entry * 2 ^ 16 + (j % 256) * 2 ^ 28 + unit * 2 ^ 36

namespace State

/-- Scratchpad address of unit `u` of version j mod D of a result (R321). -/
def resultAddr (s : State) (m : Image) (d : Desc) (slot j u : Nat) : Option Nat :=
  (s.refRegion m d 1).map fun r =>
    r.start + slot * (r.units * 256) + ((j % m.depth) * resultUnits d (m.groupOf d.group) + u) * 256

/-- Scratchpad address of unit `u` of version j mod D of the send region. -/
def sendAddr (s : State) (m : Image) (d : Desc) (slot j u : Nat) : Option Nat :=
  (s.refRegion m d 2).map fun r => r.start + slot * (r.units * 256) + ((j % m.depth) * d.units + u) * 256

def setRound (s : State) (p : Round → Bool) (f : Round → Round) : State :=
  { s with gaf := { s.gaf with rounds := s.gaf.rounds.map fun (r : Round) => if p r then f r else r } }

def roundIs (image coll entry chunk : Nat) (r : Round) : Bool :=
  r.image == image && r.collId == coll && r.entry == entry && r.chunk == chunk

/-- A round completes when every expected member has contributed (R323); that of a rotation is its pull (R325). -/
def checkRound (s : State) (image coll entry chunk : Nat) : State :=
  match s.gaf.rounds.find? (roundIs image coll entry chunk), s.image image with
  | some r, some m =>
    match m.descs[r.desc]? with
    | none => s
    | some d =>
      let g := m.groupOf d.group
      let done := d.collOp ≠ 4 ∧ (expectedRanks d g).all fun k => decide ((partOf d g (groupRank g)).2 ≤ ((tabGet r.got k).getD 0))
      if done then s.setRound (roundIs image coll entry chunk) fun r => { r with complete := true } else s
  | _, _ => s

/-- Apply one message of Op 7 to its round (R323); a chip that is no member contributes nothing. -/
def applyUnit (s : State) (r : Round) (g : Msg) : State :=
  match s.image r.image, s.stream r.entry with
  | some m, some t =>
    match m.descs[r.desc]? with
    | none => s
    | some d =>
      let grp := m.groupOf d.group
      let rank := (groupMembers grp).idxOf g.src
      if !(expectedRanks d grp).contains rank then s
      else
      let part := partOf d grp (groupRank grp)
      let unit := slice g.addr 36 12
      let here := if d.collOp = 1 then unit - part.1 else if d.collOp = 2 then rank * d.units + unit else unit
      let s :=
        if g.skip then s
        else
          match s.resultAddr m d t.slot r.chunk here with
          | none => s
          | some a =>
            let s := if d.collOp ≤ 1 then (s.spadAtomic a d.redOp (bytesAt g.data 0 256)).2 else s.narrowWrite a (bytesAt g.data 0 256)
            if g.poison then s.poisonSpad a 256 else s
      let s := s.setRound (roundIs r.image r.collId r.entry r.chunk) fun r =>
        { r with got := tabPut r.got rank (if g.skip then part.2 else (tabGet r.got rank).getD 0 + 1) }
      s.checkRound r.image r.collId r.entry r.chunk
  | _, _ => s

/-- The open round that an Op 7 message belongs to. -/
def roundFor (s : State) (g : Msg) : Option Round :=
  s.gaf.rounds.find? fun (r : Round) =>
    r.collId == slice g.addr 0 16 && r.entry == slice g.addr 16 12 && r.chunk % 256 == slice g.addr 28 8 && !r.complete

/-- A held message's buffer is free again. -/
def oweCredit (s : State) (p vc : Nat) : State := s.setPort p fun l => { l with owed := listMod l.owed vc (· + 1) }

/-- Apply every held contribution whose round is open (R323). -/
def releaseHeld (s : State) : State :=
  s.gaf.held.foldl (fun s x =>
    match s.roundFor x.2 with
    | none => s
    | some r =>
      let s := { s with gaf := { s.gaf with held := s.gaf.held.erase x } }
      (s.applyUnit r x.2).oweCredit x.1 x.2.vc) s

/-- Open the round of a stream and send its parts, or Skip messages for a stream left out (R322). -/
def openRound (s : State) (m : Image) (i : Nat) (d : Desc) (w : Work) : State :=
  let g := m.groupOf d.group
  let limit := s.now + groupTimeout g * 1000
  let keep (r : Round) : Bool := !(r.image == m.id && r.collId == d.collId && r.entry == w.entry && r.chunk % m.depth == w.j % m.depth)
  let s := { s with gaf := { s.gaf with rounds := s.gaf.rounds.filter keep ++
    [({ image := m.id, desc := i, collId := d.collId, entry := w.entry, chunk := w.j, limit := limit, got := [] } : Round)] } }
  let msg (to_ unit : Nat) (skip poison : Bool) (data : List Byte) : Msg :=
    { op := 7, vc := 2, poison := poison, skip := skip, hops := 0, code := 0, dest := (groupMembers g).getD to_ 0, src := 0, tag := 0,
      addr := collAddr d.collId w.entry w.j unit, returnOld := false, data := data }
  let s := (sendRanks d g).foldl (fun s to_ =>
    if w.left then (s.sendMsg (msg to_ 0 true false [])).getD s
    else
      let p := partOf d g to_
      (List.range p.2).foldl (fun s k =>
        match s.sendAddr m d w.slot w.j (p.1 + k) with
        | none => s
        | some a =>
          let bad := !(s.spadBadIn a 256).isEmpty
          let r := s.narrowRead a 256
          (r.2.sendMsg (msg to_ (p.1 + k) false bad r.1)).getD r.2) s) s
  s.checkRound m.id d.collId w.entry w.j

end State

/-- Collective of CollOp 0 to 3 on one stream: its parts, then the round (R322, R324). -/
def collectiveStream (i : Nat) (s : State) (m : Image) (d : Desc) (w : Work) : State × Fate :=
  let g := m.groupOf d.group
  let rank := groupRank g
  if s.gaf.rounds.any (State.roundIs m.id d.collId w.entry w.j) then (s, {})
  else
    let n := d.units * 256
    let x : Got (List Byte) := if w.left then ⟨List.replicate n 0, false, false⟩ else refBytes s m d w 0 0 n
    if x.bad then (s, { bad := true })
    else
      let s := if w.left then s.setLive w.entry w.j fun l => { l with skip := true } else s
      let part := partOf d g rank
      let own : Nat × List Byte :=
        if d.collOp = 2 then (rank * d.units, x.val)
        else (0, (x.val.drop (part.1 * 256)).take (part.2 * 256))
      let s := if d.collOp = 3 ∧ rank ≠ d.root then s
        else match s.resultAddr m d w.slot w.j own.1 with
          | none => s
          | some a => s.arrPut a own.2
      let s := if w.left then s
        else (dedup ((sendRanks d g).map (partOf d g))).foldl (fun s p =>
          match s.sendAddr m d w.slot w.j p.1 with
          | none => s
          | some a => s.arrPut a ((x.val.drop (p.1 * 256)).take (p.2 * 256))) s
      ((s.openRound m i d w).releaseHeld, {})

/-- The position of a rotation among those of its layer: 1 for the first (R207). -/
def Image.rotationNo (m : Image) (i : Nat) : Nat :=
  let l := ((m.descs[i]?).map fun d => d.b 0x5A 1).getD 0
  ((m.descs.zipIdx.take (i + 1)).filter fun x => x.1.kind == 0x0D && x.1.collOp == 4 && x.1.b 0x5A 1 == l).length

namespace State

/-- Where a pull of ring rotation goes: RingPrev of the stream (R325). -/
def pullChip (s : State) (e : Nat) : Nat := ((s.stream e).map fun t => s.kvPrev t).getD 0

/-- A ring rotation's pull is complete: its round ends and RingPrev hears of it (R325). -/
def rotationDone (s : State) (image e : Nat) : State :=
  match s.gaf.rounds.find? fun r => r.image == image && r.entry == e && !r.complete &&
      ((s.image image).any fun m => ((m.descs[r.desc]?).any fun d => d.kind == 0x0D && d.collOp == 4)) with
  | none => s
  | some r =>
    let s := s.setRound (fun x => x == r) fun x => { x with complete := true }
    let g : Msg := { op := 8, vc := 3, poison := false, skip := false, hops := 0, code := 2, dest := s.pullChip e, src := 0, tag := 0,
                     addr := collAddr r.collId e r.chunk 0, returnOld := false, data := [] }
    (s.sendMsg g).getD s

end State

/-- Pseudo-address of a frame that a rotation pulls (R325; the layout of the Address field is a DESIGN CHOICE,
notes/assumptions/29.md): CollId, entry, number of the unit among the units of the stream's frames in the set. -/
def pullAddr (coll entry unit : Nat) : Nat := 2 ^ 60 + coll + entry * 2 ^ 16 + unit * 2 ^ 28

/-- KV ring rotation (R207, R325): the stage set that the predecessor's Attention read is pulled into the other set, stream by
stream; the set that this chip's Attention read is held until RingNext has pulled it. A replayed chunk whose round stands reads the
result that the set still holds (R324; notes/assumptions/29.md). -/
def rotationKernel : Kernel := fun s m i ws =>
  match m.descs[i]? with
  | none => (s, [])
  | some d =>
    let k := m.kvRec
    let l := d.b 0x5A 1
    let r := m.rotationNo i
    let live := ws.filter fun w => !w.left
    let es := live.map (·.entry)
    let old := m.stageNow
    let new := 1 - old
    let owner (w : Work) : Nat := (s.kvRingIndex w.st + Kv.ring k - r % Nat.max 1 (Kv.ring k)) % Nat.max 1 (Kv.ring k)
    let pages (w : Work) : List KvPage :=
      let y := w.st.layer l
      y.pages.filter fun p => p.q % Nat.max 1 (Kv.ring k) == owner w && p.toks.any fun z => decide (y.floor ≤ z.1)
    let held (w : Work) : List StageCopy := (m.stage.getD new {}).copies.filter fun c =>
      c.entry == w.entry && c.layer == l && c.q % Nat.max 1 (Kv.ring k) == owner w
    let again (w : Work) : Bool :=
      s.gaf.rounds.any (State.roundIs m.id d.collId w.entry w.j) && (held w).length == (pages w).length
    let fresh := live.filter fun w => !again w
    let kept := (live.filter again).flatMap held
    let taken := dedup (kept.map fun c => (c.frame - new * Kv.stageFrames k) / Nat.max 1 (Kv.allot k))
    let places := (List.range (fresh.length + taken.length)).filter fun p => !taken.contains p
    let copies : List (StageCopy × Nat) := (fresh.zip places).flatMap fun x =>
      ((pages x.1).zipIdx).map fun p =>
        (⟨x.1.entry, l, p.1.q, new * Kv.stageFrames k + x.2 * Kv.allot k + p.2, p.1.toks.length, false⟩, p.2)
    let s := s.setImage m.id fun m =>
      { m with stageNow := new,
               stage := listMod (listSet m.stage new { layer := l, entries := es, copies := kept ++ copies.map (·.1) }) old
                 fun (g : StageSet) => { g with pulled := fresh.map (·.entry), coll := d.collId } }
    let s := fresh.foldl (fun s w =>
      let mine := copies.filter fun c => c.1.entry == w.entry
      let todo := mine.flatMap fun c =>
        let dst := s.frameAddr m c.1.frame
        let per := ceilDiv (Kv.pageBytes k) 256
        (List.range per).map fun u =>
          ({ src := pullAddr d.collId w.entry (c.2 * per + u), dst := dst + 256 * u, bytes := Nat.min 256 (Kv.pageBytes k - 256 * u), entry := some w.entry } : Xfer)
      let s := s.openRound m i d w
      if todo.isEmpty then s.rotationDone m.id w.entry
      else s.addBuiltIn (.ringRotation l) m.id (some w.entry) (benchOf (s.kvBase m)) todo) s
    let s := (ws.filter fun w => w.left).foldl kvLeft s
    (s, ws.map fun w => (w.entry, {}))

def collectiveKernel : Kernel := fun s m i ws => perStream (collectiveStream i) s m i ws

end Sys2Proof.Machine
end

