-- ==== Sys2Proof/Machine/Choose.lean ====
section
/-! DEFINITION. The gaffer: batches, what an operation's barrier does to its streams, admission, ring readiness, issue, retirement
and the choice (03 R68 to R79, 04 R98, R115, R119, 05 R123 to R126, R140, R141, 10 R246 to R252, 11 R268, R269). -/
namespace Sys2Proof.Machine
open Sys2Proof

/-! Batches (R70, R140). -/

/-- The effect of each kind at its barrier. -/
def kernelOf (d : Desc) : Kernel :=
  match d.kind with
  | 0x01 => matrixKernel
  | 0x02 => vectorKernel
  | 0x03 => gateKernel
  | 0x04 => routingKernel
  | 0x05 => conversionKernel
  | 0x06 => recurrenceKernel
  | 0x07 => scanKernel
  | 0x08 => attentionKernel
  | 0x09 => if d.b 0x50 1 = 0 then appendKernel else if d.b 0x50 1 = 1 then stageKernel else restoreKernel
  | 0x0A => convKernel
  | 0x0B => poolKernel
  | 0x0C => eventKernel
  | 0x0D => if d.collOp = 4 then rotationKernel else collectiveKernel
  | _ => fun s _ _ _ => (s, [])

/-- The chunk that a stream entered `lag` of its sweeps ago. -/
def Stream.lagChunk (t : Stream) (lag : Nat) : Option Live := (t.live ++ t.past).find? fun l => l.age == lag

def Stream.chunkOf (t : Stream) (j : Nat) : Option Live := (t.live ++ t.past).find? fun l => l.c.j == j

/-- The bit of a mask slot reads skip (R138). -/
def Live.skips (l : Live) (slot : Nat) : Bool := (l.masks.find? fun x => x.1 == slot).any fun x => !x.2

def mkWork (d : Desc) (t : Stream) (l : Live) (left : Bool) : Work :=
  { entry := t.entry, slot := t.slot, st := t, live := l, step := d.step, tagAt := d.tagStep d.step, n := if d.chunkScaled then 2 ^ l.c.k else 1, left := left }

/-- Fill in the base chunks that come before each stream. -/
def countBefore : Nat → Nat → List Work → List Work
  | _, _, [] => []
  | n, p, w :: ws => { w with before := n, place := p } :: countBefore (if w.left then n else n + w.n) (p + w.n) ws

namespace State

/-- What an operation works on for a sweep's entries, in batch order, sampled before issue. -/
def batchWorks (s : State) (d : Desc) (es : List Nat) : List Work :=
  countBefore 0 0 ((sortBy (fun a b => decide (a ≤ b)) es).filterMap fun e =>
    (s.stream e).bind fun t => (t.lagChunk d.chunkLag).map fun l => mkWork d t l (d.gateAware && l.skips d.maskSlot))

/-- The same at the barrier, for the streams that were sampled and are still there, each at its place in the batch that was issued. -/
def partWorks (s : State) (d : Desc) (ps : List Part) : List Work :=
  ps.filterMap fun x => (s.stream x.entry).bind fun t => (t.chunkOf x.j).map fun l =>
    { mkWork d t l x.left with before := x.before, place := x.place }

end State

def partsOf (ws : List Work) : List Part := ws.map fun w => ⟨w.entry, w.j, w.left, w.before, w.place⟩

/-! Weight rows that read as uncorrectable, and their reload (R247, R248, R273). -/

/-- The weight-class regions that a descriptor references. -/
def weightRefs (s : State) (m : Image) (d : Desc) : List Region :=
  (List.range 8).filterMap fun i => (s.refRegion m d i).bind fun r => if r.cls = 1 then some r else none

/-- The scratchpad bytes that an operation reads as weight blocks, as (address, bytes): those that a Matrix needs of each weight set that
some stream uses (R129, R144), all blocks of other kinds. -/
def blockSpans (s : State) (m : Image) (i : Nat) (d : Desc) : List (Nat × Nat) :=
  match s.refRegion m d 2 with
  | none => []
  | some r =>
    if !d.readsBlocks ∨ r.cls ≠ 1 then []
    else
      let ring := (m.ringOf r.entry).isSome
      let base := if ring then r.head * 256 else 0
      let c := regRead s r 0 base (if ring then r.slotBytes else if r.srcLen = 0 then r.size else r.srcLen)
      let spans (skip : Nat) : List (Nat × Nat) := ((blocksOf (c.drop skip)).filter (·.2.2)).map fun b => (r.start + base + skip + b.1, b.2.1)
      if d.kind = 0x01 then
        let need := d.kp / 128 * (d.np / 32)
        let used := ((m.routing i).bind fun x => tabGet m.routes x.1).getD []
        let sets := if d.experts = 0 then [0] else ((List.range d.experts).filter fun e => used.getD e 0 != 0).map fun e => e * d.b 0x60 8
        sets.flatMap fun o => (spans o).take need
      else spans 0

/-- Transfers that reload the weight blocks that hold part of the row at scratchpad address `a` of a region, or 4 KiB of other
contents (R248). -/
def reloadXfers (s : State) (m : Image) (r : Region) (a : Nat) : List Xfer :=
  let o := (a - r.start) / 32 * 32
  let isBlocks := !(State.blockReaders m r.entry).isEmpty
  match m.ringOf r.entry with
  | some (_, g) =>
    let k := Nat.max 1 (r.slotBytes / 256)
    let n := Nat.max 1 r.slots
    let slot := (o / Nat.max 1 r.slotBytes + n - r.head / k) % n
    let src := g.sources.getD slot []
    let off := o % Nat.max 1 r.slotBytes
    let first := r.start + (o / Nat.max 1 r.slotBytes) * r.slotBytes
    let parts := if isBlocks then
        ((blocksOf (fillBytes s src first)).filter fun y => decide (y.1 < off + 32 ∧ off < y.1 + y.2.1)).map fun y => (first + y.1, y.2.1)
      else [(first + off / 4096 * 4096, 4096)]
    (src.filter fun x => parts.any fun p => decide (x.1 < p.1 + p.2 ∧ p.1 < x.1 + 256)).map fun x => { src := x.2, dst := x.1 }
  | none =>
    let from_ := m.addr + r.srcOff
    if isBlocks then
      ((blocksOf (s.devBytes from_ r.srcLen)).filter fun y => decide (y.1 < o + 32 ∧ o < y.1 + y.2.1)).flatMap fun y =>
        copyXfers (from_ + y.1) (r.start + y.1) y.2.1
    else
      let b := o / 4096 * 4096
      copyXfers (from_ + b) (r.start + b) (Nat.min 4096 (r.srcLen - b))

namespace State

/-- Start the reload of what holds a weight word (R248 step 2, R251). -/
def startReload (s : State) (a : Nat) : State :=
  match s.regionAt a 1 with
  | none => s
  | some r =>
    match s.image r.image with
    | none => s
    | some m => s.addBuiltIn .weightReload m.id none (benchOf a) (reloadXfers s m r a)

/-! Errors at a barrier (R98, R119, R249). -/

/-- Samples of a chunk in the replay buffer, with their places in the input buffer (R412). -/
def inputFromReplay (s : State) (t : Stream) (c : Chunk) : List (Nat × List Byte) :=
  match s.inBuf t.image with
  | none => []
  | some r =>
    let frame := s.sampleUnit t
    let a := r.start + t.slot * (r.units * 256) + (if r.slots = 0 then 0 else c.j % r.slots) * r.slotBytes + s.headUnit t
    if t.replayLen = 0 then []
    else (List.range c.len).map fun i => (a + i * frame, s.devBytes (t.replayBase + ((c.first + i) * frame) % t.replayLen) frame)

/-- The input of a chunk comes back from the replay buffer where its slot holds an uncorrectable word. -/
def inputRestore (s : State) (t : Stream) (c : Chunk) : List Xfer :=
  match s.inBuf t.image with
  | none => []
  | some r =>
    let frame := s.sampleUnit t
    let head := Nat.min (s.headUnit t) (c.first * frame)
    let n := head + c.len * frame
    let a := r.start + t.slot * (r.units * 256) + (if r.slots = 0 then 0 else c.j % r.slots) * r.slotBytes + (s.headUnit t - head)
    if t.replayLen = 0 ∨ !s.anyBad a n then []
    else
      let o := (c.first * frame - head) % t.replayLen
      let n1 := Nat.min n (t.replayLen - o)
      copyXfers (t.replayBase + o) a n1 ++ copyXfers t.replayBase (a + n1) (n - n1)

end State

/-- Byte ranges of a page that its first `n` tokens occupy. -/
def Kv.tokenRanges (k : List Byte) (n : Nat) : List (Nat × Nat) :=
  if n = 0 then []
  else (0, 0x40 + scaleBytes k) :: (posOff k 0, 4 * n) ::
    (List.range (heads k)).flatMap fun x => [(keyOff k x 0, n * dim k), (valOff k x 0, n * dim k)]

namespace State

/-- Hot frames of a stream whose committed tokens hold an uncorrectable word: layer and page. -/
def badFrames (s : State) (m : Image) (t : Stream) : List (Nat × KvPage) :=
  let k := m.kvRec
  if m.kv.isNone ∨ Kv.hot k = 0 ∨ s.spadBad.isEmpty then []
  else (t.kvw.zipIdx).flatMap fun y => (y.1.pages.filter fun g => g.own && g.framed &&
    (Kv.tokenRanges k g.done).any fun z => s.anyBad (s.hotAddr m t y.2 g.q + z.1) z.2).map fun g => (y.2, g)

/-- The transfers that restore a stream's poisoned data (R249). -/
def restoreXfers (s : State) (m : Image) (t : Stream) : List Xfer :=
  let input := (t.live.map (·.c) ++ t.ready).flatMap fun c => s.inputRestore t c
  let version := match s.versionAt m t t.committed with
    | none => []
    | some (a, _) => if m.numSections ≠ 0 ∧ s.anyBad a (s.blockLen m t) then copyXfers t.statePtr a (s.blockLen m t) else []
  let pages := (s.badFrames m t).flatMap fun x =>
    copyXfers (s.poolAddr m t (x.2.pool.getD 0)) (s.hotAddr m t x.1 x.2.q) (Kv.pageBytes m.kvRec)
  input ++ version ++ pages

def addRestore (s : State) (m : Image) (t : Stream) (dl j : Nat) (xs : List Xfer) : State :=
  s.addBuiltIn (.restore j) m.id (some t.entry) (match xs with | x :: _ => benchOf x.dst | [] => 0) xs (some dl)

/-- A committed token is lost: its frame is bad and no pool page has a copy. -/
def tokenLost (s : State) (m : Image) (t : Stream) : Bool := (s.badFrames m t).any fun x => !(x.2.spilled && x.2.pool.isSome)

/-- What one stream's fate does at the barrier. No chunk is replayed twice: where a roll-back would discard a chunk that is being replayed
already, the stream faults (R98, R249; notes/assumptions/101.md); `met` are the uncorrectable words that its reads met, which alone are restored, the rest
waiting for their next reader (R249, R251). -/
def applyFate (s : State) (m : Image) (w : Work) (f : Fate) (met : List Nat) : State :=
  match f.fault with
  | some c => s.streamFault w.entry c
  | none =>
    if !(f.mism || f.bad) then s
    else if w.live.c.replayed || (s.stream w.entry).any fun t => t.live.any fun l => l.c.replayed then
      s.streamFault w.entry (if f.mism then 1 else 2)
    else
      let s := if f.mism then s.setStream w.entry fun t => t.bump32 0xA8 1 else s
      match s.stream w.entry with
      | none => s
      | some t =>
        let seen : State := { s with spadBad := s.spadBad.filter met.contains }
        if f.bad && seen.tokenLost m t then s.streamFault w.entry 2
        else
          let s := if f.bad then s.addRestore m t w.live.dl w.j (seen.restoreXfers m t) else s
          let s := if f.bad && f.info == [1] then s.setStream w.entry fun t => { t with fresh := true } else s
          s.rollback w.entry

def applyFates (s : State) (m : Image) (ws : List Work) (fs : List (Nat × Fate)) (met : List (Nat × List Nat)) : State :=
  fs.foldl (fun s x =>
    match ws.find? fun w => w.entry == x.1 with
    | none => s
    | some w => s.applyFate m w x.2 ((met.filter fun y => y.2.contains x.1).map (·.1))) s

/-! The end of an operation. -/

/-- Advance the rings that an operation references (R268). -/
def advanceRings (s : State) (m : Image) (d : Desc) : State :=
  d.ringRefs.foldl (fun s x =>
    match m.rings[x.1]? with
    | none => s
    | some g =>
      let go (r : Region) (at_ : Nat) : Nat := (List.range x.2).foldl (fun at_ _ => r.step at_) at_
      let s := s.setRegion m.id g.region fun r => if g.egress then { r with tail := go r r.tail } else { r with head := go r r.head }
      if g.egress then s
      else s.setImage m.id fun m => { m with rings := listMod m.rings x.1 fun (q : Ring) => { q with sources := q.sources.drop x.2 } }) s

/-- Commits and exits of the streams that an operation has finished with (R76, R141). -/
def finishStream (s : State) (m : Image) (i : Nat) (d : Desc) (w : Work) : State :=
  match (s.stream w.entry).bind fun t => t.chunkOf w.j with
  | none => s
  | some l =>
    if d.exitPoint && l.skips d.maskSlot then
      let s := (s.exitMark m w.entry w.j).setLive w.entry w.j fun l => { l with skip := true }
      match (s.stream w.entry).bind fun t => t.live.find? fun l => l.c.j == w.j with
      | some l => s.commit m.id w.entry l false
      | none => s.setStream w.entry fun t => { t with past := t.past.filter fun (l : Live) => l.c.j != w.j }
    else if d.commit then
      match (s.stream w.entry).bind fun t => t.live.find? fun l => l.c.j == w.j with
      | some l => s.commit m.id w.entry l (decide (i + 1 < m.descs.length))
      | none => s
    else s

def oweP (s : State) (x : Pass) : State := { s with gaf := { s.gaf with passes := s.gaf.passes ++ [x] } }

def setNext (s : State) (id next : Nat) : State := s.setImage id fun m => { m with sweep := m.sweep.map fun (w : Sweep) => { w with next := next } }

/-- The operation touches state sections. -/
def touchesState (d : Desc) : Bool :=
  d.kind == 0x06 || d.kind == 0x07 || (d.kind == 0x03 && d.b 0x51 1 == 1) || ((d.kind == 0x0A || d.kind == 0x0B) && d.history)

/-- The version that the operation is first to carry forward holds an uncorrectable word (R153, R249). -/
def carryBad (s : State) (m : Image) (d : Desc) (w : Work) : Bool :=
  m.numSections != 0 && touchesState d && !w.left && !w.live.carriedIn &&
    (match s.versionAt m w.st w.j with
     | some (a, _) => s.anyBad a (s.blockLen m w.st)
     | none => false)

/-- The kernel of an operation (`pass` 0 or 3), of a second-chance pass (1) or of a merge pass (2). -/
def kernelRun (s : State) (m : Image) (i : Nat) (d : Desc) (pass : Nat) (info : List Nat) (ws : List Work) : State × List (Nat × Fate) :=
  let core (s : State) (e : Nat) : Nat := s.coreFree [m.id, i, e]
  if pass = 1 then perStream (fun s m d w => redoStream s m i d w (core s)) s m i ws
  else if pass = 2 then perStream (fun s m d w => mergeStream i info s m d w) s m i ws
  else
    let r := kernelOf d s m i ws
    (r.1, r.2.map fun x => if ws.any fun w => w.entry == x.1 && s.carryBad m d w then (x.1, { x.2 with bad := true }) else x)

/-- The entries whose reads of a run meet a word, were it alone uncorrectable. -/
def readers (s : State) (run : State → List (Nat × Fate)) (a : Nat) : List Nat :=
  ((run { s with spadBad := [a] }).filter fun x => x.2.bad).map (·.1)

/-- The uncorrectable activation words that a run's reads met, each with the entries whose reads they are: those that by themselves
poison a stream (R246, R249). -/
def metWords (s : State) (run : State → List (Nat × Fate)) : List (Nat × List Nat) :=
  if !(run s).any fun x => x.2.bad then []
  else s.spadBad.filterMap fun a =>
    if s.isWeight a then none
    else match s.readers run a with | [] => none | es => some (a, es)

/-- Count what the reads of a run met: uncorrectable words, words that read as corrected, and banks of the other side (R235, R246, R249). -/
def countMet (s : State) (met : List (Nat × List Nat)) (soft : List Nat) (part : Bool) : State :=
  let s := met.foldl (fun s a => s.uncorrWord a.1 false) s
  let s := soft.foldl (fun s a => s.corrWord a) s
  if part then s.setErr Fd.SPD_PAGE_ERR_PartViolation else s

/-- The weight blocks that an operation reads overlap the protected row of a word. -/
def inSpans (spans : List (Nat × Nat)) (a : Nat) : Bool :=
  spans.any fun x => decide (x.1 < a / 32 * 32 + 32 ∧ a / 32 * 32 < x.1 + x.2)

/-- The protected words that a run reads as corrected. -/
def metSoft (s : State) (spans : List (Nat × Nat)) (run : State → List (Nat × Fate)) : List Nat :=
  dedup ((s.spadSoft.filter fun a => !s.spadBad.contains a && (inSpans spans a || !(s.readers run a).isEmpty)).map s.codeWord)

/-- A run reads a bank of the other side (R235). -/
def metPart (s : State) (spans : List (Nat × Nat)) (run : State → List (Nat × Fate)) : Bool :=
  s.rd Fd.SPD_MODE_Partitioned == 1 && (spans.any (fun x => s.partViolates false x.1 x.2) || !(s.readers run partProbe).isEmpty)

/-- The weight rows that an operation found uncorrectable: those its reads met, and those that it reads and that are known to be bad
(R245, R248). -/
def badRows (s : State) (m : Image) (i : Nat) (d : Desc) (ws : List Work) (seen : List Nat) : List Nat :=
  let rs := weightRefs s m d
  let mine (a : Nat) : Bool := rs.any fun r => r.holds a 1
  let spans := blockSpans s m i d
  let run (s : State) : List (Nat × Fate) := (s.kernelRun m i d 0 [] ws).2
  dedup (((seen.filter mine) ++ s.spadBad.filter fun a => mine a && (inSpans spans a || !(s.readers run a).isEmpty)).map fun a => a / 32 * 32)

/-- What an operation (`pass` 0 or 3), a second-chance pass (1) or a merge pass (2) does at its barrier, or at retirement. A split pair
brings the merge pass even where its stream's results are discarded (R184). -/
def complete (s : State) (m : Image) (i : Nat) (d : Desc) (pass : Nat) (info : List Nat) (mask : Nat) (ws : List Work) : State :=
  let run (s : State) : List (Nat × Fate) := (s.kernelRun m i d pass info ws).2
  let r := s.kernelRun m i d pass info ws
  let met := s.metWords run
  let spans := if pass = 1 ∨ pass = 2 then [] else blockSpans s m i d
  let s := (r.1.countMet met (s.metSoft spans run) (s.metPart spans run)).applyFates m ws r.2 met
  let s := if pass = 1 ∨ pass = 2 then s else (s.advanceRings m d).setNext m.id (i + 1)
  let isOk (x : Nat × Fate) : Bool := !x.2.mism && !x.2.bad && x.2.fault.isNone
  let redo := (r.2.filter fun x => isOk x && x.2.redo)
  let parts (es : List Nat) : List Part := partsOf (ws.filter fun w => es.contains w.entry)
  let split := r.2.filter fun x => decide (1 < x.2.info.length)
  let overs := redo.filter fun x => x.2.info.isEmpty
  let s := if split.isEmpty then s
    else s.oweP { kind := 2, image := m.id, desc := i, parts := parts ((split.filter isOk).map (·.1)), info := split.flatMap (·.2.info), rows := [mask] }
  let s := if overs.isEmpty then s
    else s.oweP { kind := 1, image := m.id, desc := i, parts := parts (overs.map (·.1)) }
  (ws.filter fun w => (r.2.find? fun x => x.1 == w.entry).any fun x => isOk x && !x.2.redo).foldl
    (fun s w => s.finishStream m i d w) s

/-! Admission (R56, R60 to R62, R69, R70, R77, R78, R154, R168). -/

/-- The entry's host fields as they stand in the live table. -/
def sampled (s : State) (t : Stream) : Stream :=
  let now := s.liveRaw t.entry
  let take (o n : Nat) (raw : List Byte) : List Byte := putBytes raw o (bytesAt now o n)
  { t with raw := take 0x10 0x70 (take 0x08 6 (take 0x06 1 (take 0x00 5 t.raw))) }

/-- A restoration under R249 is still to land for the stream. -/
def restoring (s : State) (e : Nat) : Bool :=
  s.hasBuiltIn fun b => b.entry == some e && (match b.kind with | .restore _ => true | _ => false)

/-- What a stream would bring to the next sweep of its image, and its weight. -/
def memberOf (s : State) (t0 : Stream) : Option (Member × Nat) :=
  if t0.idleReq ∨ !t0.copied ∨ s.restoring t0.entry then none
  else
    let t := s.sampled t0
    let drain : Option (Member × Nat) :=
      match t.live.getLast? with
      | none => none
      | some l =>
        some (⟨t.entry, t.lastTr + (t.drains + 1) * t.periodNs l.c.k + t.dlOff, true⟩, 2 ^ l.c.k)
    if (t.state = 2 ∧ (!t.pauseReq ∨ !t.ready.isEmpty)) ∨ (t.state = 4 ∧ !t.ready.isEmpty) then
      (t.ready.head?).map fun c => (⟨t.entry, c.dl.getD (c.tr + t.dlOff), false⟩, 2 ^ c.k)
    else if t.state = 4 ∨ (t.state = 2 ∧ t.pauseReq) then drain
    else none

end State

/-- Take members in order while they fit; one that does not fit waits (R69). -/
def fitBatch : Nat → List (Member × Nat) → List (Member × Nat)
  | _, [] => []
  | cap, x :: xs => if x.2 ≤ cap then x :: fitBatch (cap - x.2) xs else fitBatch cap xs

namespace State

/-- Admissible streams of an image that fit its next sweep, in order of deadline. -/
def admissible (s : State) (m : Image) : List (Member × Nat) :=
  let all := (s.streams.filter fun (t : Stream) => t.image == m.id).filterMap s.memberOf
  fitBatch m.maxBatch (sortBy (fun (a b : Member × Nat) => decide (a.1.dl ≤ b.1.dl)) all)

/-- The load of a stream's state block at its first admission (R154). -/
def loadState (s : State) (m : Image) (t : Stream) (j dl : Nat) : State :=
  if t.loaded then s.carryOver m t.entry j
  else if m.numSections = 0 then s.setStream t.entry fun t => { t with loaded := true }
  else if s.hasBuiltIn (fun b => b.entry == some t.entry && (match b.kind with | .stateLoad _ => true | _ => false)) then s
  else
    match s.versionAt m t 0, s.versionAt m t j with
    | some (a, _), some (b, _) =>
      let n := s.blockLen m t
      s.addBuiltIn (.stateLoad j) m.id (some t.entry) (benchOf a)
        (copyXfers t.statePtr a n ++ (if a = b then [] else copyXfers t.statePtr b n)) (some dl)
    | _, _ => s

/-- The pending reset mark, which no chunk holds yet, where it takes effect in a chunk to be admitted, and whether it is late (R77,
R78). -/
def markFor (t : Stream) (c : Chunk) : Option (Nat × Bool) :=
  if t.markValid && t.markHeld.isNone && decide (t.resetSample < c.first + c.len) then
    some (Nat.max t.resetSample c.first, decide (t.resetSample < c.first) && (t.markNew || !c.replayed))
  else none

/-- The load of the initial copy for a chunk that holds a mark (R168). -/
def loadInitial (s : State) (m : Image) (t : Stream) (dl : Nat) : State :=
  let n := s.blockLen m t
  if n = 0 ∨ s.hasBuiltIn (fun b => b.entry == some t.entry && b.kind == .initialLoad) then s
  else
    let s := s.setStream t.entry fun t => { t with initCopy := List.replicate n 0, initReady := false }
    s.addBuiltIn .initialLoad m.id (some t.entry) (benchOf (((s.versionAt m t 0).map (·.1)).getD 0)) (copyXfers t.initPtr 0 n) (some dl)

/-- Admit one member to a sweep. -/
def admitMember (s : State) (m : Image) (x : Member) : State :=
  match s.stream x.entry with
  | none => s
  | some t0 =>
    let older (l : Live) : Live := { l with age := l.age + 1 }
    let t := { s.newSink t0 (s.sampled t0) with live := t0.live.map older, past := t0.past.map older }
    let s := s.putStream t
    let s := if t.sink = t0.sink ∨ epKind t.sink ≠ 2 then s else s.announceSession (epPort t.sink) (s.session t t.sink)
    let s := if t.partner = t0.partner then s else s.puntyTurn x.entry
    if x.drain then s.setStream x.entry fun t => { t with drains := t.drains + 1 }
    else
      match t0.ready with
      | [] => s
      | c :: rest =>
        let s := (s.flushHeld t.entry c.j c.first c.len true).loadState m t c.j x.dl
        let s := if c.mirror then (s.inputFromReplay t c).foldl (fun s p => s.narrowWrite p.1 p.2) s else s
        let mk := markFor t c
        let mark := (mk.map (·.1)).or c.mark
        let s := if mark.isSome then s.loadInitial m t x.dl else s
        let new : Live := { c := { c with dl := some x.dl }, dl := x.dl, mark := mark, fresh := t.fresh }
        let s := s.setStream x.entry fun t =>
          let t := { t with live := t.live ++ [new], ready := rest, fresh := false, markNew := false
                            markHeld := if mk.isSome then some c.j else t.markHeld, lastTr := c.tr, drains := 0
                            d0 := if c.j = 0 then some x.dl else t.d0 }
          let t := if mk.any (·.2) then t.bump32 0xAC 1 else t
          t.set 0x0E 1 c.k
        s.lpNarrowPut (s.liveAddr x.entry + 0x0E) (leBytes 1 c.k)

/-- Open a sweep with its batch: the gaffer reads each entry; a member whose entry reads as uncorrectable faults and is left out (R57,
R291). -/
def openSweep (s : State) (m : Image) (xs : List Member) : State :=
  let s := xs.foldl (fun s x => s.gafRead x.entry (s.liveAddr x.entry) 256) s
  let ys := xs.filter fun x => (s.stream x.entry).any fun (t : Stream) => t.state != 5
  let s := ys.foldl (fun s x => s.admitMember m x) s
  if ys.isEmpty then s else s.setImage m.id fun m => { m with sweep := some { batch := ys } }

/-! Ring readiness and the other waits at the boundary (R73, R154, R155, R168, R197, R199, R207, R247, R268, R269, R323). -/

/-- Ring slots of the references, and the first fill for a sweep's first operation. -/
def slotsReady (s : State) (m : Image) (d : Desc) (first : Bool) : Bool :=
  (d.ringRefs.all fun x =>
    match m.rings[x.1]? with
    | none => true
    | some g =>
      match s.regionOf m.id g.region with
      | none => false
      | some r => if g.egress then decide (x.2 ≤ r.slots - 1 - r.full) else decide (x.2 ≤ r.full)) &&
  (!first || m.rings.all fun g => g.egress || g.minFill == 0 ||
    (match s.regionOf m.id g.region with
     | none => false
     | some r => decide (g.minFill ≤ r.full)))

/-- Weight regions that the operation reads are loaded. -/
def weightsReady (s : State) (m : Image) (d : Desc) : Bool := (weightRefs s m d).all fun r => r.loaded && !r.failed

/-- The stream's state, its initial copy and the version to be written are ready. -/
def stateReady (s : State) (m : Image) (d : Desc) (w : Work) : Bool :=
  m.numSections == 0 || !(touchesState d || d.commit || (d.exitPoint && w.live.skips d.maskSlot)) ||
    (w.st.loaded && (w.live.mark.isNone || w.st.initReady) &&
      (w.live.carriedIn ||
        (match s.versionAt m w.st (w.j + 1) with
         | none => true
         | some (a, n) => !s.readsLeft a n)))

/-- No round of the version is still open. -/
def roundsReady (s : State) (m : Image) (d : Desc) (w : Work) : Bool :=
  !(s.gaf.rounds.any fun r => r.image == m.id && r.collId == d.collId && r.entry == w.entry && r.chunk % m.depth == w.j % m.depth &&
    r.chunk != w.j && !r.complete)

/-- RingsReady of R71 and every other wait of the operation. -/
def ready (s : State) (m : Image) (d : Desc) (first : Bool) (ws : List Work) : Bool :=
  s.slotsReady m d first && s.weightsReady m d && ws.all (fun w => s.stateReady m d w) &&
  (match d.kind with
   | 0x08 => !s.kvStaging m
   | 0x09 =>
     if d.b 0x50 1 = 0 then
       !s.kvAppendWaits m d ((ws.filter fun w => !w.left).map fun w => (w.entry, w.live.c.first / Nat.max 1 (d.b 0x54 2), w.n * d.b 0x52 2))
     else if d.b 0x50 1 = 1 then (m.stage.getD 0 {}).pulled.isEmpty
     else true
   | 0x0D =>
     if d.collOp = 4 then (m.stage.getD (1 - m.stageNow) {}).pulled.isEmpty
     else ws.all fun w => s.roundsReady m d w
   | _ => true)

/-- One starve event of the operation that waits, over the entries `es` (R73). -/
def starve (s : State) (id : Nat) (es : List Nat) : State :=
  let s := s.wr Fd.GAF_STATUS_Starved 1
  if (s.image id).any fun m => !m.starved.isEmpty then s
  else
    let s := s.setImage id fun m => { m with starved := es }
    let s := (s.count Fd.GAF_STARVE_CNT).evtDev 0x03
    s.maskBenches.foldl (fun s b => s.evtCount b 0x03) s

/-! Issue (R9, R12, R72, R115, R123, R185, R248). -/

/-- Granule, work units, work rate and fixed cycles of an operation or pass. -/
def shapeOf (s : State) (m : Image) (i : Nat) (d : Desc) (pass : Nat) (info : List Nat) (ws : List Work) :
    Nat × Nat × (Nat × Nat) × Nat :=
  if pass = 1 then (64, activeWeight ws * d.conv.outElems, (64, 1), d.cycFixed)
  else if pass = 2 then
    let recs := sumNat ((unpackSplits d info.length info).map fun x => (splitKeys d x.2.2.1 x.2.2.2.1).length)
    (64, recs * (d.headDim + 4), (64, 1), d.b 0x6C 4)
  else
    let w := s.opWork m i d ws
    (w.1, w.2, d.unitRate (activeWeight ws * d.b 0x50 2), d.cycFixed)

/-- Spend credit (R72); dialogue operations from general, instrument operations from the reserve. -/
def spend (s : State) (m : Image) (cost : Nat) : State :=
  let d := s.dmp
  let d := { d with eOps := d.eOps + cost }
  { s with dmp := if m.cls = 0 then { d with reserve := d.reserve - cost } else { d with general := d.general - cost } }

/-- Issue an operation or pass: sample the mask and divisions, lay out the shares, count and charge. -/
def issue (s : State) (m : Image) (i : Nat) (d : Desc) (x : Pass) (cost : Nat) (ws : List Work) : State :=
  let z := s.shapeOf m i d x.kind x.info ws
  let benches := if x.kind = 2 then (List.range 16).filter fun b => bitAt (x.rows.headD 0) b else s.maskBenches
  let cs := s.sharesOf benches z.2.2.2 z.1 z.2.1 z.2.2.1
  let cycles (b : Nat) : Nat := maxNat ((cs.filter fun c => c.core / 32 == b && c.grs != 0).map fun c =>
    z.2.2.2 + ceilDiv (c.work * z.2.2.1.2) (Nat.max 1 z.2.2.1.1))
  let s := (List.range 16).foldl (fun s b =>
    (s.wr Fd.BEN_STATUS_InMask (b2n (benches.contains b)) b).wr Fd.BEN_STATUS_Division (s.divCode b) b) s
  let s := benches.foldl (fun s b =>
    let empty := (cs.filter fun c => c.core / 32 == b && c.grs == 0).length
    let s := if empty = 32 then s.count Fd.BEN_EMPTY_CNT b else (s.count Fd.BEN_OPS b).evtCount b 0x02
    if empty = 0 then s else s.evtCount b 0x04 empty) s
  let s := (s.spend m cost).evtDev 0x20
  let s := if x.kind = 1 then s.evtDev 0x25 else if x.kind = 2 then s.count Fd.GAF_MERGE_CNT else s
  let s := s.setImage m.id fun m => { m with starved := [] }
  let r : Running :=
    { image := m.id, desc := i, pass := x.kind, parts := partsOf ws, work := z.2.1, issued := s.now, info := x.info,
      count := x.count, rows := x.rows, shares := layRuns 0 cs, busy := benches.map (fun b => (b, cycles b)),
      mask := sumNat (benches.map (2 ^ ·)) }
  ({ s with gaf := { s.gaf with running := some r } }).syncDamper

/-- The plain issue of an operation, as a pass of kind 0. -/
def plainPass (m : Image) (i : Nat) : Pass := { kind := 0, image := m.id, desc := i, parts := [] }

/-- Retire an operation of active weight 0 (R126). -/
def retire (s : State) (m : Image) (i : Nat) (d : Desc) (ws : List Work) : State :=
  let s := (s.complete m i d 0 [] 0 ws).evtDev 0x21
  s.setImage m.id fun m => { m with starved := [] }

end State

/-! The choice (R71, R75). -/

/-- A candidate: image, descriptor, the pass it is, the members that its admission would take, what it works on, MinDeadline
rounded down to Q, weight, cost. -/
structure Choice where
  m      : Image
  desc   : Nat
  d      : Desc
  pass   : Option Pass := none
  first  : List Member := []
  ws     : List Work
  /-- Its deadline class; none where the sweep's batch has emptied. -/
  dl     : Option Nat
  weight : Nat
  cost   : Nat

namespace State

/-- Cost of a pass or operation (R68, R72, R115, R185). -/
def costOf (d : Desc) (kind : Nat) (ws : List Work) : Nat :=
  if kind = 1 then d.energyFixed + activeWeight ws * d.conv.redoEnergy
  else if kind = 2 then 0
  else d.energyFixed + activeWeight ws * d.energyPerStream

def minDl (xs : List Member) : Nat :=
  match xs with
  | [] => 0
  | x :: rest => rest.foldl (fun a b => Nat.min a b.dl) x.dl

/-- The pass of a dialogue image that comes before its sweep's later operations: a reissue first (R75, R252). -/
def passOf (s : State) (id : Nat) : Option Pass :=
  let xs := s.gaf.passes.filter fun x => x.image == id
  match xs.find? fun x => x.kind == 3 with
  | some x => some x
  | none => xs.head?

/-- The candidate of one image. -/
def candOf (s : State) (m : Image) : Option Choice :=
  let q := 2 ^ s.rd Fd.GAF_SCHED_DlQuantum * 1000
  let low (xs : List Member) : Option Nat := if xs.isEmpty then none else some (minDl xs / q * q)
  match m.sweep with
  | some w =>
    match s.passOf m.id with
    | some x =>
      (m.descs[x.desc]?).map fun d =>
        let ws := s.partWorks d x.parts
        ⟨m, x.desc, d, some x, [], ws, low w.batch, activeWeight ws, costOf d x.kind ws⟩
    | none =>
      (m.descs[w.next]?).map fun d =>
        let ws := s.batchWorks d (w.batch.map (·.entry))
        ⟨m, w.next, d, none, [], ws, low w.batch, activeWeight ws, costOf d 0 ws⟩
  | none =>
    let xs := s.admissible m
    let hold := m.cls = 1 ∧ sumNat (xs.map (·.2)) < m.target ∧ s.now + s.rd Fd.GAF_SCHED_HoldSlack * 100000 < minDl (xs.map (·.1))
    if xs.isEmpty ∨ hold then none
    else (m.descs[0]?).map fun d =>
      let ws := (s.openSweep m (xs.map (·.1))).batchWorks d (xs.map (·.1.entry))
      ⟨m, 0, d, none, xs.map (·.1), ws, low (xs.map (·.1)), activeWeight ws, costOf d 0 ws⟩

end State

/-- Entries that the candidate works on: those that its admission would take, or the sweep's batch. -/
def Choice.entries (c : Choice) : List Nat :=
  if c.first.isEmpty then ((c.m.sweep.map (·.batch)).getD []).map (·.entry) else c.first.map (·.entry)

/-- Order of the choice; a batch that has emptied has no deadline and comes last (notes/assumptions/37.md). -/
def Choice.before (a b : Choice) : Bool :=
  if a.dl ≠ b.dl then (a.dl.any fun x => b.dl.all fun y => decide (x < y))
  else if a.weight * b.m.maxBatch ≠ b.weight * a.m.maxBatch then decide (b.weight * a.m.maxBatch < a.weight * b.m.maxBatch)
  else decide (a.m.id ≤ b.m.id)

/-- Whether the candidate may go on: retired operations spend nothing; instrument work and reissues are never held. -/
def Choice.affordable (general : Int) (c : Choice) : Bool :=
  c.m.cls == 0 || (c.pass.any fun x => x.kind == 3) || (c.pass.isNone && c.weight == 0) || decide ((c.cost : Int) ≤ general)

namespace State

def dropPass (s : State) (x : Pass) : State := { s with gaf := { s.gaf with passes := s.gaf.passes.erase x } }

/-- Issue a pass that is owed, or drop one that covers no stream; whether to choose again. A merge pass is issued as R184 says, whatever
has become of its streams; a reissue is a new batch. -/
def takePass (s : State) (m : Image) (x : Pass) (d : Desc) (ps : List Work) : State × Bool :=
  let ws := if x.kind = 3 then countBefore 0 0 ps else ps
  if x.kind = 3 ∧ activeWeight ws = 0 then ((s.dropPass x).retire m x.desc d ws, true)
  else if ws.isEmpty ∧ x.kind ≠ 2 then (s.dropPass x, true)
  else if !x.ready then (s, false)
  else ((s.dropPass x).issue m x.desc d x (costOf d x.kind ws) ws, false)

/-- An operation none of whose entries is a candidate any more has stopped waiting: the next that waits has its own starve event
(R73, notes/assumptions/37.md). -/
def dropStarved (s : State) (cs : List Choice) : State :=
  { s with gaf := { s.gaf with images := s.gaf.images.map fun (m : Image) =>
    { m with starved := m.starved.filter fun e => cs.any fun c => c.m.id == m.id && c.entries.contains e } } }

/-- What becomes of the candidate that the choice selects; whether to choose again. Streams are admitted once its first operation is
ready to issue (notes/assumptions/59.md). -/
def takeCand (s : State) (c : Choice) : State × Bool :=
  match c.pass with
  | some x => s.takePass c.m x c.d c.ws
  | none =>
    if !c.first.isEmpty then
      if s.slotsReady c.m c.d true && s.weightsReady c.m c.d then (s.openSweep c.m c.first, true)
      else (if c.weight = 0 then s else s.starve c.m.id c.entries, false)
    else
      let ok := s.ready c.m c.d (c.desc == 0) c.ws
      if c.weight = 0 then (if ok then (s.retire c.m c.desc c.d c.ws, true) else (s, false))
      else if ok then (s.issue c.m c.desc c.d (plainPass c.m c.desc) c.cost c.ws, false)
      else (s.starve c.m.id c.entries, false)

/-- The pass of an instrument image that goes ahead of the choice. -/
def instrumentPass (s : State) : Option Pass :=
  let xs := s.gaf.passes.filter fun x => (s.image x.image).any fun m => m.cls == 0
  match xs.find? fun x => x.kind == 3 with
  | some x => some x
  | none => xs.head?

/-- One run of the choice; whether to choose again. -/
def chooseOnce (s : State) : State × Bool :=
  let s := (s.wr Fd.GAF_STATUS_Starved 0).wr Fd.GAF_STATUS_CreditWait 0
  match s.instrumentPass with
  | some x =>
    match s.image x.image with
    | none => (s.dropPass x, true)
    | some m =>
      match m.descs[x.desc]? with
      | none => (s.dropPass x, true)
      | some d => s.takePass m x d (s.partWorks d x.parts)
  | none =>
    let cs := sortBy Choice.before (s.gaf.images.filterMap s.candOf)
    let s := s.dropStarved cs
    match cs.find? (Choice.affordable s.dmp.general) with
    | some c => s.takeCand c
    | none =>
      (((s.count Fd.GAF_CREDIT_WAIT_CNT).evtDev 0x24).wr Fd.GAF_STATUS_CreditWait 1, false)

/-! Sweep close (R69, R270). -/

/-- Every descriptor of the open sweep has passed its barrier, and nothing is owed. -/
def sweepDone (s : State) (m : Image) : Bool :=
  (m.sweep.any fun (w : Sweep) => decide (m.descs.length ≤ w.next)) && !(s.gaf.passes.any fun x => x.image == m.id) &&
    !(s.gaf.running.any fun (r : Running) => r.image == m.id)

/-- The image's egress rings have flushed. -/
def flushed (s : State) (m : Image) : Bool :=
  (m.rings.zipIdx).all fun x => !x.1.egress ||
    ((match s.regionOf m.id x.1.region with
      | none => true
      | some r => r.full == 0) &&
     !(s.flights.any fun f =>
        match f.owner with
        | .program im ix => im == m.id && m.progRing.getD ix 0 == x.2
        | _ => false))

def closable (s : State) (m : Image) : Bool := s.sweepDone m && s.flushed m

/-- A sweep has closed: it counts, and is a boundary for an APPLY that waits for one (R45, R69). -/
def sweepBoundary (s : State) : State :=
  let s := s.count Fd.GAF_SWEEP_CNT
  if s.parState = 3 ∧ s.par.whenBit = 1 ∧ !s.applyDue then s.instantCome else s

/-- Transitions at the boundary; a sweep that has passed its last barrier closes even where its image then unloads (R65, R69). -/
def settleSweeps (s : State) : State :=
  let t := s.settle
  (s.gaf.images.filter fun m => s.closable m && (t.image m.id).isNone).foldl (fun t _ => t.sweepBoundary) t

/-- The gaffer may not choose now. -/
def held (s : State) : Bool :=
  s.gaf.running.isSome || s.rd Fd.GAF_PAGE_CTL_Enable == 0 || s.failStopped || !s.gaf.table || s.pow.resetWait != 0 ||
    s.maskBenches.isEmpty || s.applyDue || s.rd Fd.CTL_POWER_STATUS_State != 0 || s.gaf.images.any s.closable

/-- The choice of R71, run again while it admits or retires. -/
def chooseN : Nat → State → State
  | 0, s => s
  | n + 1, s =>
    if s.held then s
    else
      let r := s.chooseOnce
      if r.2 then chooseN n r.1.settleSweeps else r.1

/-- Entries armed on an image with a failed region fault at an operation boundary, which is any time that no operation runs (R11, R247). -/
def faultFailed (s : State) : State :=
  if s.gaf.running.isSome then s
  else (dedup ((s.regions.filter fun (r : Region) => r.failed && !r.shut).map (·.image))).foldl (fun s i => s.imageFault i 6) s

/-- A wake event of R71. -/
def choose (s : State) : State :=
  let n := sumNat (s.gaf.images.map fun m => m.descs.length + 2) + s.gaf.passes.length + 8
  (s.faultFailed.chooseN n).parWatch

/-- The chunks that are ready. -/
def readyMarks (s : State) : List (Nat × List Nat) := s.streams.map fun (t : Stream) => (t.entry, t.ready.map fun (c : Chunk) => c.j)

/-- The wake event of a chunk that has become ready since `was` (R71). -/
def chooseIfReady (s was : State) : State := if s.readyMarks = was.readyMarks then s else s.choose

/-- The operation boundary: an APPLY that waits for it, resets, transitions, domains, then the choice. -/
def boundary (s : State) : State :=
  if s.failStopped then s
  else
  let s := if s.par.dueAtBarrier then s.instantCome else s
  let s := if s.pow.resetWait ≠ 0 then s.resetNow s.pow.resetWait else s.settleSweeps
  s.syncDamper.choose

end State

end Sys2Proof.Machine
end

