-- ==== Sys2Proof/Machine/Gaffer.lean ====
section
/-! DEFINITION. Barriers of operations and passes, sweep close, timers, windows: the commands that end in the gaffer's choice
(03 R58, R70 to R76, 04 R115, 07 R184, 10 R246 to R252, R256, 11 R270, 16 R384, R386, 17 R397). -/
namespace Sys2Proof.Machine
open Sys2Proof

namespace State

/-- The bench counters of an operation that ends (05 BEN_BUSY, R435). -/
def countBusy (s : State) (r : Running) : State :=
  r.busy.foldl (fun s x =>
    if x.2 = 0 then s else (s.count64 Fd.BEN_BUSY_LO Fd.BEN_BUSY_HI x.1 x.2).evtCount x.1 0x01 x.2) s

/-- A weight row read as uncorrectable: the results are discarded, streams with errors of their own, which no weight word is, leave, and
the operation is reissued after the reload, or the device fail-stops (R248, R252). -/
def weightError (s : State) (m : Image) (d : Desc) (r : Running) (ws : List Work) (rows : List Nat) : State :=
  let run (s : State) : List (Nat × Fate) := (s.kernelRun m r.desc d 0 [] ws).2
  let own : State := { s with spadBad := s.spadBad.filter fun a => !s.isWeight a }
  let fates := run own
  let met := own.metWords run
  let spans := blockSpans s m r.desc d
  let s := rows.foldl (fun s a => s.uncorrWord a true) (s.countMet met (s.metSoft spans run) (s.metPart spans run))
  let s := s.applyFates m ws (fates.filter fun x => x.2.mism || x.2.bad) met
  let out := (fates.filter fun x => x.2.mism || x.2.bad).map (·.1)
  let stay := ws.filter fun w => !out.contains w.entry
  if r.count = 4 ∨ rows.any r.rows.contains then s.failStop 3
  else
    let s := rows.foldl (fun s a => s.startReload a) (s.count Fd.SPD_WREPLAY_CNT)
    if activeWeight stay = 0 then s.retire m r.desc d (s.partWorks d (partsOf stay))
    else s.oweP { kind := 3, image := m.id, desc := r.desc, parts := partsOf stay, ready := false, count := r.count + 1, rows := r.rows ++ rows }

/-- The running operation or pass reaches its barrier (R14, R76, R98, R246 to R249). -/
def atBarrier (s : State) (r : Running) (b : BarrierReads) : State :=
  let s := s.countBusy r
  let s := (b.corrected.filter fun a => !s.spadSoft.contains (a / 8 * 8)).foldl (fun s a => s.corrWord a) s
  match s.image r.image with
  | none => s
  | some m =>
    match m.descs[r.desc]? with
    | none => s
    | some d =>
      let ws := s.partWorks d r.parts
      let rows := if r.pass = 1 ∨ r.pass = 2 then [] else s.badRows m r.desc d ws b.weightBad
      let s := (b.actBad.filter fun a => !s.isWeight a && decide (a < spadSize)).foldl (fun s a => s.poisonSpad a 8) s
      let s := if rows.isEmpty then s.complete m r.desc d r.pass r.info r.mask ws else s.weightError m d r ws rows
      s.noteSoft b.corrected

/-- The barrier of the running operation, when it is the one that `due` says; the boundary follows. -/
def barrier (s : State) (due : Running → Desc → Bool) (b : BarrierReads) : State :=
  match s.gaf.running with
  | none => s
  | some r =>
    let d? := (s.image r.image).bind fun m => m.descs[r.desc]?
    if !(d?.any (due r)) || s.failStopped then s
    else
      let s := s.atBarrier r b
      ({ s with gaf := { s.gaf with running := none } }).boundary

/-- The barrier of an operation of one kind. -/
def opBarrier (s : State) (kind : Nat) (b : BarrierReads) : State := s.barrier (fun r d => r.pass == 0 && d.kind == kind) b

/-- The barrier of one move of the KV page kind, or of one collective. -/
def subBarrier (s : State) (kind sub : Nat) (b : BarrierReads) : State :=
  s.barrier (fun r d => r.pass == 0 && d.kind == kind && d.b 0x50 1 == sub) b

/-- The barrier of a pass. -/
def passBarrier (s : State) (pass : Nat) (b : BarrierReads) : State := s.barrier (fun r _ => r.pass == pass) b

/-- The sweep of an image closes (R69, R270). -/
def closeSweep (s : State) (m : Image) : State :=
  let s := s.setImage m.id fun m => { m with sweep := none, starved := [] }
  let s := { s with gaf := { s.gaf with streams := s.gaf.streams.map fun (x : Nat × Stream) =>
    (x.1, if x.2.image == m.id then { x.2 with past := [] } else x.2) } }
  s.sweepBoundary.choose

/-- Reload transfers of an image are still to land. -/
def reloading (s : State) (id : Nat) : Bool := s.hasBuiltIn fun b => b.image == id && b.kind == BKind.weightReload

end State

/-! The array's kinds. -/

/-- MATRIX (R127 to R137, R144, R145). -/
def execMatrix (b : BarrierReads) (s : State) : Result := .next (s.begin_.opBarrier 0x01 b)
/-- VECTOR (R146 to R148). -/
def execVector (b : BarrierReads) (s : State) : Result := .next (s.begin_.opBarrier 0x02 b)
/-- GATE (R138). -/
def execGate (b : BarrierReads) (s : State) : Result := .next (s.begin_.opBarrier 0x03 b)
/-- EXPERT_ROUTING (R143). -/
def execExpertRouting (b : BarrierReads) (s : State) : Result := .next (s.begin_.opBarrier 0x04 b)
/-- CONVERSION (R103). -/
def execConversion (b : BarrierReads) (s : State) : Result := .next (s.begin_.opBarrier 0x05 b)
/-- RECURRENCE (R156 to R162). -/
def execRecurrence (b : BarrierReads) (s : State) : Result := .next (s.begin_.opBarrier 0x06 b)
/-- PARALLEL_SCAN (R165, R166). -/
def execParallelScan (b : BarrierReads) (s : State) : Result := .next (s.begin_.opBarrier 0x07 b)
/-- ATTENTION (R178 to R188). -/
def execAttention (b : BarrierReads) (s : State) : Result := .next (s.begin_.opBarrier 0x08 b)
/-- KV_APPEND (R197). -/
def execKvAppend (b : BarrierReads) (s : State) : Result := .next (s.begin_.subBarrier 0x09 0 b)
/-- KV_STAGE (R198). -/
def execKvStage (b : BarrierReads) (s : State) : Result := .next (s.begin_.subBarrier 0x09 1 b)
/-- KV_RESTORE (R205). -/
def execKvRestore (b : BarrierReads) (s : State) : Result := .next (s.begin_.subBarrier 0x09 2 b)
/-- CONVOLUTION (R217). -/
def execConvolution (b : BarrierReads) (s : State) : Result := .next (s.begin_.opBarrier 0x0A b)
/-- POOLING (R218). -/
def execPooling (b : BarrierReads) (s : State) : Result := .next (s.begin_.opBarrier 0x0B b)
/-- EVENT_DECODING (R227). -/
def execEventDecoding (b : BarrierReads) (s : State) : Result := .next (s.begin_.opBarrier 0x0C b)
/-- ALL_REDUCE (R322). -/
def execAllReduce (b : BarrierReads) (s : State) : Result := .next (s.begin_.subBarrier 0x0D 0 b)
/-- REDUCE_SCATTER (R322). -/
def execReduceScatter (b : BarrierReads) (s : State) : Result := .next (s.begin_.subBarrier 0x0D 1 b)
/-- ALL_GATHER (R322). -/
def execAllGather (b : BarrierReads) (s : State) : Result := .next (s.begin_.subBarrier 0x0D 2 b)
/-- BROADCAST (R322). -/
def execBroadcast (b : BarrierReads) (s : State) : Result := .next (s.begin_.subBarrier 0x0D 3 b)
/-- KV_RING_ROTATION (R325). -/
def execKvRingRotation (b : BarrierReads) (s : State) : Result := .next (s.begin_.subBarrier 0x0D 4 b)
/-- SECOND_CHANCE_PASS (R115). -/
def execSecondChancePass (b : BarrierReads) (s : State) : Result := .next (s.begin_.passBarrier 1 b)
/-- ATTENTION_MERGE_PASS (R184). -/
def execAttentionMergePass (b : BarrierReads) (s : State) : Result := .next (s.begin_.passBarrier 2 b)
/-- WEIGHT_REISSUE (R248). -/
def execWeightReissue (b : BarrierReads) (s : State) : Result := .next (s.begin_.passBarrier 3 b)

/-- WEIGHT_RELOAD_COMPLETE (R248): the reload has ended; a reissue that waits for it may issue. -/
def execWeightReloadComplete (image : Nat) (s : State) : Result :=
  let s := s.begin_
  .next <|
    if s.reloading image then s
    else
      let free (x : Pass) : Pass := if x.image == image && x.kind == 3 then { x with ready := true } else x
      ({ s with gaf := { s.gaf with passes := s.gaf.passes.map free } }).choose

/-- SWEEP_CLOSE (R69, R270). -/
def execSweepClose (image : Nat) (s : State) : Result :=
  let s := s.begin_
  .next <|
    match s.image image with
    | none => s
    | some m => if s.closable m && !s.failStopped then s.closeSweep m else s

/-- SOURCE_TIMEOUT (R58): the source of a RUNNING stream has stopped for longer than 8 chunk periods. -/
def execSourceTimeout (entry : Nat) (s : State) : Result :=
  let s := s.begin_
  .next <|
    match s.stream entry with
    | none => s
    | some t => if t.state = 2 ∧ s.working then (s.streamFault entry 4).settleWatch else s

/-- BARRIER_WATCHDOG (R397): no barrier within 2T + 10 µs of issue. -/
def execBarrierWatchdog (s : State) : Result :=
  let s := s.begin_
  .next (if s.gaf.running.isSome then s.failStop 7 else s)

/-- WINDOW_OPEN (R385, R386, R389, R390, R392, R393): the counter opens windows wherever it runs, during start-up and in fail-stop
too. -/
def execWindowOpen (w : WindowIn) (s : State) : Result :=
  let s := s.begin_
  .next (if s.started then (s.window w).choose else s)

/-- BENCH_POWER_GOOD (R384): both domains of an ungated bench report power good. -/
def execBenchPowerGood (bench : Nat) (s : State) : Result :=
  let s := s.begin_
  .next <|
    if s.dmp.ungating.contains bench then
      ({ s with dmp := { s.dmp with ungating := s.dmp.ungating.filter (· != bench) } }).syncDamper
    else s

/-- SCRATCHPAD_PATROL (R251): rows of a core's slice that the patrol finds corrected or uncorrectable. -/
def execScratchpadPatrol (core : Nat) (corrected bad : List Nat) (s : State) : Result :=
  let s := s.begin_
  let mine (a : Nat) : Bool := sliceOf a == core
  .next (if s.failStopped || !s.pow.powered then s
    else patrolSlice s core (corrected.filter mine) (bad.filter mine) State.startReload)

/-- A write of SPD_SCRUB, whose Hold takes 1 only inside a presence window (R256, R437). -/
def State.scrubHoldWrite (s : State) (value : Nat) : State :=
  if 4 ≤ value then s.badWrite .spd 0
  else if value % 2 = 1 ∧ s.rd Fd.SEC_PRESENCE_Open = 0 then s else s.wr Fd.SPD_SCRUB_Hold (value % 2)

/-- SCRUB_HOLD (R256). -/
def execScrubHold (value : Nat) (s : State) : Result := .next (s.begin_.gated .spd 0 fun s => s.scrubHoldWrite value)

end Sys2Proof.Machine
end

