-- ==== Sys2Proof/Machine/Gather.lean ====
section
/-! DEFINITION. Gather engines: programs, rings, need times, issue, landing, built-in transfers, faults
(11_gather.md, R257 to R276; 10 R247, R275; 13 R325, R328). -/
namespace Sys2Proof.Machine
open Sys2Proof

namespace State

/-! Rings and slots (R265 to R268, R271). -/

/-- Descriptors that use a ring's slots, one entry per slot, from index `lo` on. -/
def ringUses (m : Image) (ring lo : Nat) : List Nat :=
  ((m.descs.zipIdx).filter fun x => lo ≤ x.2).flatMap fun x =>
    (x.1.ringRefs.filter fun y => y.1 == ring).flatMap fun y => List.replicate y.2 x.2

/-- The descriptor that a ring slot is for, and whether it belongs to the open sweep (R271). -/
def slotUser (m : Image) (ring : Nat) (r : Region) (egress : Bool) : Option (Nat × Bool) :=
  let nx := (m.sweep.map (·.next)).getD 0
  let rest := ringUses m ring nx
  let all := ringUses m ring 0
  let q := if egress then r.slots - 1 - r.full else r.full
  match rest[q]? with
  | some d => some (d, m.sweep.isSome)
  | none => if all.isEmpty then none else (all[(q - rest.length) % all.length]?).map fun d => (d, false)

def walkEnv (s : State) (m : Image) (ix : Nat) : Option WalkEnv :=
  let ring := m.progRing.getD ix 0
  match m.programs[ix]?, m.rings[ring]? with
  | some rec, some g =>
    (s.regionOf m.id g.region).map fun r =>
      let batch := match m.sweep with
        | none => []
        | some w => sortBy (fun a b => decide (a ≤ b)) (w.batch.map (·.entry))
      { m := m, code := gatherInstrs rec, ring := ring, g := g, r := r, batch := batch }
  | _, _ => none

/-- The slot that a segment starts is free or full, and its batch is admitted (R267). -/
def slotOpen (x : WalkEnv) : Bool :=
  (if x.g.egress then decide (0 < x.r.full) else decide (x.r.full < x.r.slots - 1)) &&
  (x.streams.isNone || (x.m.sweep.isSome && (x.g.egress ||
    (match slotUser x.m x.ring x.r false with
     | some (_, here) => here
     | none => false))))

def setWalk (s : State) (id ix : Nat) (f : Walk → Walk) : State := s.setImage id fun m => { m with walks := listMod m.walks ix f }

/-- Transfers of a program that are outstanding. -/
def progFlights (s : State) (id ix : Nat) : Bool := s.flights.any fun f => f.owner == Owner.program id ix

/-! Weight blocks as they land (R247, R273). -/

/-- Offsets and lengths of the blocks in `n` bytes at scratchpad address `a` that fail; contents that no descriptor reads as
blocks have none. -/
def failingBlocks (s : State) (m : Image) (region a n : Nat) : List (Nat × Nat) :=
  let ds := blockReaders m region
  if ds.isEmpty then []
  else
    let c := s.spadBytes a n
    (blocksOf c).filterMap fun b =>
      if b.2.2 && blockOk ds (bytesAt c b.1 b.2.1) && !s.anyBad (a + b.1) b.2.1 then none else some (b.1, b.2.1)

/-- A region's contents fail for good: each failing block is counted, flagged and logged, every entry of the image faults (R247). -/
def weightFails (s : State) (m : Image) (region blocks : Nat) : State :=
  let s := (List.range blocks).foldl (fun s _ => (s.count Fd.SPD_CRC_FAIL_CNT).setErrLog Fd.SPD_PAGE_ERR_WeightCrc 0 noEntry 0) s
  let s := s.setRegion m.id region fun r => { r with failed := true }
  s.imageFault m.id 6

/-- SLOT: the filled slot becomes ready or the drained one free; a weight fill is checked first (R267, R273). -/
def slotDone (s : State) (x : WalkEnv) (ix : Nat) (w : Walk) : State :=
  let adv (s : State) : State :=
    let s := s.setRegion x.m.id x.g.region fun r => if x.g.egress then { r with head := r.step r.head } else { r with tail := r.step r.tail }
    let s := if x.r.cls = 1 ∧ !x.g.egress then
        s.setImage x.m.id fun m => { m with rings := listMod m.rings x.ring fun (g : Ring) => { g with sources := g.sources ++ [w.fill] } }
      else s
    s.setWalk x.m.id ix fun w => { w with stop := 0, skip := [], fill := [], tries := 0 }
  if x.r.cls = 1 ∧ !x.g.egress then
    let a := x.r.start + x.r.tail * 256
    let n := maxNat (w.fill.map fun y => y.1 + 256 - a)
    let bad := s.failingBlocks x.m x.g.region a n
    if bad.isEmpty then adv s
    else if w.tries < 2 then
      let again := w.fill.filter fun y => bad.any fun b => decide (y.1 < a + b.1 + b.2 ∧ a + b.1 < y.1 + 256)
      let s := bad.foldl (fun s b => s.count Fd.GTH_CRC_RETRY_CNT (benchOf (a + b.1))) s
      s.setWalk x.m.id ix fun w =>
        { w with tries := w.tries + 1, queue := again.map fun y => ({ src := y.2, dst := y.1 } : Xfer) }
    else (s.weightFails x.m x.g.region bad.length).setWalk x.m.id ix fun w => { w with stopped := true }
  else adv s

/-- A stream of a batch that no longer works on the image: it has faulted or ended (R274). -/
def streamGone (s : State) (id e : Nat) : Bool :=
  match s.stream e with
  | none => true
  | some t => t.state == 5 || t.image != id

/-- Carry one program on while nothing of its present segment is left; whether a slot moved. -/
def pumpOne (id ix : Nat) : Nat → State → State
  | 0, s => s
  | fuel + 1, s =>
    match s.image id with
    | none => s
    | some m =>
      match s.walkEnv m ix, m.walks[ix]? with
      | some x, some w =>
        let start (s : State) : State := s.setWalk id ix fun w =>
          let v := walkRun s x (x.fuel w) { w with queue := [], stop := 0 }
          { v with queue := v.queue.filter fun y => !(y.entry.any fun e => v.skip.contains e || s.streamGone id e) }
        if w.stopped then s
        else if w.stop = 0 then (if slotOpen x then pumpOne id ix fuel (start s) else s)
        else if !w.queue.isEmpty || s.progFlights id ix then s
        else if w.stop = 2 then pumpOne id ix fuel (start s)
        else if w.stop = 3 then pumpOne id ix fuel (s.setWalk id ix fun w => { ({} : Walk) with stopped := w.stopped })
        else pumpOne id ix fuel (s.slotDone x ix w)
      | _, _ => s

/-- Head and tail of every ring region. -/
def ringMarks (s : State) : List (Nat × Nat) := s.regions.map fun r => (r.head, r.tail)

/-- Carry every program on; a slot that moves wakes the choice (R71, R267). -/
def pumpPrograms (s : State) : State :=
  let t := s.gaf.images.foldl (fun s m => (List.range m.programs.length).foldl (fun s ix => pumpOne m.id ix 64 s) s) s
  if t.ringMarks = s.ringMarks then t else t.choose

/-! Need times (R271, R272): −∞, a value scaled by the speed sum, +∞. -/

end State

inductive Need where
  | first
  | at_ (n : Int)
  | never
  deriving DecidableEq, Repr

def Need.before (a b : Need) : Bool :=
  match a, b with
  | .first, .first => false
  | .first, _ => true
  | .at_ _, .first => false
  | .at_ x, .at_ y => decide (x < y)
  | .at_ _, .never => true
  | .never, _ => false

namespace State

/-- Σ of C over the descriptors from `i` to the last. -/
def remOf (s : State) (m : Image) (i : Nat) : Nat :=
  let n := m.maxBatch * 2 ^ s.largestStretch m.id m.cls
  sumNat ((m.descs.drop i).map fun d => d.cycles (32 * s.rd Fd.CTL_CAP_ARRAY_Benches) n)

/-- A deadline as a need time. -/
def dlNeed (s : State) (dl : Nat) : Need := .at_ ((dl : Int) * s.speedSum)

/-- Earliest deadline among the admissible streams of an image. -/
def admNeed (s : State) (m : Image) : Option Nat := (s.admissible m).head?.map fun x => x.1.dl

/-- The same where one of them has a ready chunk (R271). -/
def readyNeed (s : State) (m : Image) : Option Nat := if (s.admissible m).any fun x => !x.1.drain then s.admNeed m else none

/-- MinDeadline of an open batch; none where it has emptied. -/
def batchDl (w : Sweep) : Option Nat := if w.batch.isEmpty then none else some (minDl w.batch)

/-- Need time of what descriptor `i` waits for; `here` says that it belongs to the open sweep. -/
def descNeed (s : State) (m : Image) (i : Nat) (here : Bool) : Need :=
  let dl := if here then m.sweep.bind batchDl else s.readyNeed m
  match dl with
  | none => .never
  | some x => .at_ ((x : Int) * s.speedSum - (s.remOf m i * 768 : Nat))

/-- The last operation of the open sweep has issued. -/
def lastIssued (s : State) (m : Image) : Bool :=
  (m.sweep.any fun (w : Sweep) => decide (m.descs.length ≤ w.next)) ||
    s.gaf.running.any fun (r : Running) => r.image == m.id && r.desc + 1 == m.descs.length

/-- Need time of a program's slot. -/
def slotNeed (s : State) (m : Image) (x : WalkEnv) : Need :=
  if x.g.egress ∧ s.lastIssued m then
    match m.sweep.bind batchDl with
    | some x => s.dlNeed x
    | none => .never
  else
    match slotUser m x.ring x.r x.g.egress with
    | none => .never
    | some (d, here) => s.descNeed m d here

/-- A stream's next deadline (R60, R272). -/
def nextDl (s : State) (e : Nat) : Option Nat :=
  (s.stream e).map fun t =>
    match t.live.head?, t.ready.head? with
    | some l, _ => l.dl
    | none, some c => c.dl.getD (c.tr + t.dlOff)
    | none, none => t.lastTr + t.periodNs t.curK + t.dlOff

/-- The next Attention descriptor of the image from the open sweep's place on, and whether it is in that sweep. -/
def nextAttention (m : Image) : Option (Nat × Bool) :=
  let nx := (m.sweep.map (·.next)).getD 0
  let at_ (xs : List (Desc × Nat)) : Option Nat := (xs.find? fun x => x.1.kind == 0x08).map (·.2)
  match at_ ((m.descs.zipIdx).drop nx) with
  | some i => some (i, m.sweep.isSome)
  | none => (at_ m.descs.zipIdx).map fun i => (i, false)

def optNeed (s : State) (x : Option Nat) : Need := match x with | some n => s.dlNeed n | none => .never

/-- Need time of a built-in transfer (R272, R404). -/
def builtNeed (s : State) (b : BuiltIn) : Need :=
  let e := b.entry.getD 0
  match b.kind with
  | .weightReload => .first
  | .restore _ => s.optNeed b.dl
  | .stateLoad _ => s.optNeed b.dl
  | .initialLoad => s.optNeed b.dl
  | .hostRing _ => s.optNeed b.dl
  | .initCopy => s.optNeed ((s.stream e).bind fun t => (t.ready.head?).map fun c => c.dl.getD (c.tr + t.dlOff))
  | .weightLoad _ => match s.image b.image with
    | some m => s.optNeed (s.admNeed m)
    | none => .never
  | .kvStage _ _ => match (s.image b.image).bind fun m => (nextAttention m).map fun x => (m, x) with
    | some (m, i, here) => s.descNeed m i here
    | none => .never
  | .ringRotation _ => match (s.image b.image).bind fun m => (nextAttention m).map fun x => (m, x) with
    | some (m, i, here) => s.descNeed m i here
    | none => .never
  | .stateWrite => s.optNeed (s.nextDl e)
  | .kvWrite => s.optNeed (s.nextDl e)
  | .punty _ => s.optNeed ((s.stream e).bind fun t => (s.nextDl e).map fun n => n + t.periodNs t.curK)
  | .retire => s.optNeed (s.nextDl e)
  | .replay => s.optNeed ((s.stream e).bind fun t => (s.nextDl e).map fun n => n + t.periodNs t.curK)

/-! Which transfer of an item may go (R257, R261, R404, R423). -/

def inSpad (a : Nat) : Bool := decide (a < spadSize)

/-- The engine that issues a transfer of a built-in. -/
def builtBench (b : BuiltIn) (x : Xfer) : Nat :=
  if b.kind = .initialLoad then b.bench
  else if inSpad x.src then benchOf x.src
  else if inSpad x.dst then benchOf x.dst
  else b.bench

def progBench (x : Xfer) : Nat := if inSpad x.src then benchOf x.src else benchOf x.dst

/-- The first of an item's transfers for an engine that no fence holds back; `idle` says that nothing earlier is outstanding. -/
def pickXfer (mine : Xfer → Bool) (idle : Bool) : List Xfer → Option Xfer
  | [] => none
  | x :: xs =>
    if x.fence && !idle then none
    else if mine x then some x
    else pickXfer mine false xs

def builtFlights (s : State) (id : Nat) : Bool := s.flights.any fun f => f.owner == Owner.builtIn id

/-- An earlier built-in of the same order still has to end: punty copies of an entry, rings by their Prod, staging behind the
page writes of its entry. -/
def builtBlocked (s : State) (b : BuiltIn) (x : Xfer) : Bool :=
  let earlier (p : BuiltIn → Bool) : Bool := s.builtIns.any fun c => decide (c.id < b.id) && p c
  match b.kind with
  | .punty _ => earlier fun c => c.entry == b.entry && (match c.kind with | .punty _ => true | .retire => true | _ => false)
  | .retire => earlier fun c => c.entry == b.entry && (match c.kind with | .punty _ => true | .retire => true | _ => false)
  | .hostRing r => x.fence && earlier fun c => c.kind == BKind.hostRing r
  | .kvStage _ _ => earlier fun c => c.entry == b.entry && c.kind == BKind.kvWrite
  | _ => false

end State

/-- A work item that an engine could serve now: need time, ready slots, image, ring, owner, transfer. -/
structure WorkItem where
  need  : Need
  prog  : Nat
  full  : Nat
  image : Nat
  ring  : Nat
  owner : Owner
  x     : Xfer
  deriving DecidableEq, Repr

/-- Order of service (R271). -/
def WorkItem.before (a b : WorkItem) : Bool :=
  if a.need.before b.need then true
  else if b.need.before a.need then false
  else if a.prog ≠ b.prog then decide (a.prog < b.prog)
  else if a.full ≠ b.full then decide (a.full < b.full)
  else if a.image ≠ b.image then decide (a.image < b.image)
  else decide (a.ring ≤ b.ring)

namespace State

/-- A program's read of a collective's result waits until the round of the version that it reads is complete (R323): one that is
open, or that the open sweep has still to open. -/
def roundHolds (s : State) (m : Image) (x : Xfer) : Bool :=
  (m.descs.zipIdx).any fun i =>
    let d := i.1
    d.kind == 0x0D && d.collOp != 4 &&
    match s.refRegion m d 1 with
    | none => false
    | some r =>
      let per := Nat.max 1 (r.units * 256)
      let slot := (x.src - r.start) / per
      let v := (x.src - r.start) % per / Nat.max 1 (resultUnits d (m.groupOf d.group) * 256)
      r.holds x.src 1 && s.streams.any fun (t : Stream) =>
        t.image == m.id && t.slot == slot &&
          ((s.gaf.rounds.any fun q => q.image == m.id && q.collId == d.collId && q.entry == t.entry && q.chunk % m.depth == v && !q.complete) ||
           (m.sweep.any fun (w : Sweep) =>
             (decide (w.next ≤ i.2) || s.gaf.running.any fun u => u.image == m.id && u.desc == i.2) &&
             (s.batchWorks d (w.batch.map (·.entry))).any fun k =>
               k.entry == t.entry && k.j % m.depth == v && !s.gaf.rounds.any (roundIs m.id d.collId k.entry k.j)))

/-- The items with a transfer for engine `bench`, built-ins first. -/
def items (s : State) (bench : Nat) : List WorkItem :=
  (s.builtIns.filterMap fun b =>
    match pickXfer (fun x => builtBench b x == bench) (!s.builtFlights b.id) b.todo with
    | none => none
    | some x => if s.builtBlocked b x then none else some ⟨s.builtNeed b, 0, 0, b.image, 0, .builtIn b.id, x⟩) ++
  s.gaf.images.flatMap fun m => (List.range m.programs.length).filterMap fun ix =>
    match s.walkEnv m ix, m.walks[ix]? with
    | some e, some w =>
      if w.stopped then none
      else (w.queue.find? fun x => progBench x == bench && !s.roundHolds m x).map fun x =>
        ⟨s.slotNeed m e, 1, e.r.full, m.id, e.ring, .program m.id ix, x⟩
    | _, _ => none

/-! Faults (R20, R243, R274). -/

/-- Check of one end: 0 good, 1 unmapped, 2 sealed, 4 forbidden weight write. -/
def endCheck (s : State) (a n : Nat) (write load : Bool) : Nat :=
  match s.target a n with
  | .unmapped => 1
  | .spad a =>
    match s.spadCheck a n write load with
    | .ok => 0
    | .unmapped => 1
    | .sealed => 2
    | .forbidden => 4
    | .released => 0
  | .lpddr o => b2n (s.anyOff o n)
  | .remote _ _ => 0
  | .host _ => 0

/-- Alignment of a program's transfer (R264). -/
def alignedX (x : Xfer) : Bool :=
  let ok (a : Nat) : Bool := if inSpad a then a % 256 == 0 else a % (if x.xform = 1 ∨ x.xform = 2 then x.far else 32) == 0
  ok x.src && ok x.dst

/-- Bytes of a transfer at its source and at its destination (R264). -/
def srcBytes (x : Xfer) : Nat := if x.xform = 2 then Nat.min x.bytes x.far else x.bytes
def dstBytes (x : Xfer) : Nat := if x.xform = 1 then Nat.min x.bytes x.far else x.bytes

/-- Address that a message names for `n` bytes at offset `o` of a window: the unit that holds them where they are fewer than 256. -/
def farAddr (o n : Nat) : Nat := if n = 256 then o else o / 256 * 256

/-- An address in this chip's own window is that of what a remote access would reach (R21, R316); what refuses the access is an address
that is unmapped. -/
def ownAddr (s : State) (a n : Nat) (write atomic : Bool) : Nat :=
  match s.target a n with
  | .remote c o =>
    if s.idValid && c == s.chipId then
      let u := if write then o else farAddr o n
      match s.windowAt u c write atomic (if write then n else 256) with
      | .spad b => b + (o - u)
      | .lpddr b => lpBase + b + (o - u)
      | .refused => spadSize
    else a
  | _ => a

/-- A ring rotation's pull names no address (R325). -/
def isPull (kind : Option BKind) : Bool := match kind with | some (.ringRotation _) => true | _ => false

/-- A transfer with its ends in the chip's own window resolved (R21). -/
def ownXfer (s : State) (kind : Option BKind) (x : Xfer) : Xfer :=
  let src := if x.comp.isSome ∨ isPull kind then x.src else s.ownAddr x.src (srcBytes x) (x.xform == 4) false
  let dst := if kind = some .initialLoad then x.dst else s.ownAddr x.dst (dstBytes x) (decide (x.xform < 3)) (decide (3 ≤ x.xform))
  { x with src := src, dst := dst, srcOwn := src != x.src, dstOwn := dst != x.dst }

/-- What the check of an end that was named through the chip's own window comes to: a sealed place is read as zero and not written, and a
forbidden write is answered as unmapped, as for another chip (R21, R243, R316). -/
def ownCause (own : Bool) (c : Nat) : Nat := if own then (if c = 2 then 0 else if c = 4 then 1 else c) else c

/-- The destination that an atomic acts on: shared scratchpad, or LPDDR for a MemAtomic, here or at another chip (R264, R287). -/
def atomicDst (s : State) (x : Xfer) : Bool :=
  match s.target x.dst (dstBytes x) with
  | .spad _ => x.xform != 5
  | .lpddr _ => x.xform == 5 || decide (x.xform < 3)
  | .remote _ _ => true
  | .host _ => decide (x.xform < 3)
  | .unmapped => false

/-- The cause of a transfer's fault, 0 for none; an atomic at an address that its adders do not serve is unmapped (R287). -/
def xferCause (s : State) (owner : Owner) (kind : Option BKind) (load : Bool) (x : Xfer) : Nat :=
  let isProg : Bool := match owner with | .program _ _ => true | .builtIn _ => false
  if x.bad then 1
  else if isProg && !alignedX x then 3
  else
    let x := s.ownXfer kind x
    let src := if x.comp.isSome ∨ isPull kind then 0
      else ownCause x.srcOwn (s.endCheck x.src (srcBytes x) (x.xform == 4) (load && !x.srcOwn))
    let dst := if kind = some .initialLoad then 0
      else ownCause x.dstOwn (s.endCheck x.dst (dstBytes x) (decide (x.xform < 3)) (load && !x.dstOwn))
    if src ≠ 0 then src else if dst ≠ 0 then dst
    else if isProg && !s.atomicDst x then 1 else 0

/-- Record a fault at an engine (R274). -/
def recordFault (s : State) (bench prog image cause : Nat) (entry : Option Nat) : State :=
  let s := s.wr Fd.GTH_FAULT_Program prog bench
  let s := s.wr Fd.GTH_FAULT_Image image bench
  let s := s.wr Fd.GTH_FAULT_Cause cause bench
  let s := s.wr Fd.GTH_FAULT_STREAM_Entry (entry.getD 0) bench
  let s := s.wr Fd.GTH_FAULT_STREAM_Valid (b2n entry.isSome) bench
  let s := s.setErr Fd.GTH_PAGE_ERR_ProgFault bench
  if cause = 2 then s.sealedErr else s.unmappedErr .gth bench

/-- A built-in goes away with what it had still to issue. -/
def dropBuiltIn (s : State) (id : Nat) : State := { s with builtIns := s.builtIns.filter fun (b : BuiltIn) => b.id != id }

def isPunty (k : BKind) : Bool := match k with | .punty _ => true | .retire => true | .replay => true | _ => false

/-- A transfer is not performed (R274): its fault is recorded and taken, but for a punty transfer, where R405 takes the place of R274 and
the engine records the access alone (R20, R243). -/
def xferFault (s : State) (bench cause : Nat) (owner : Owner) (x : Xfer) : State :=
  match owner with
  | .program id ix =>
    let s := s.recordFault bench ix id cause x.entry
    match x.entry with
    | some e => (s.setWalk id ix fun w => { w with skip := w.skip ++ [e], queue := w.queue.filter fun y => y.entry != some e }).streamFault e 3
    | none => (s.setWalk id ix fun w => { w with stopped := true, queue := [] }).imageFault id 3
  | .builtIn id =>
    match s.builtIns.find? fun b => b.id == id with
    | none => s
    | some b =>
      if isPunty b.kind then
        let s := (if cause = 2 then s.sealedErr else s.unmappedErr .gth bench).dropBuiltIn id
        match b.kind, b.entry with
        | .punty j, some e => s.puntyRefused e j b.bad
        | _, _ => s
      else
        let s := (s.recordFault bench 0xFFFF b.image cause b.entry).dropBuiltIn id
        match b.entry with
        | some e => s.streamFault e 3
        | none => s.imageFault b.image 3

/-! Issue (R257, R258, R271, R328). -/

/-- Take a transfer out of its item. -/
def takeX (s : State) (owner : Owner) (x : Xfer) : State :=
  match owner with
  | .program id ix => s.setWalk id ix fun w => { w with queue := w.queue.erase x }
  | .builtIn id => { s with builtIns := s.builtIns.map fun (b : BuiltIn) => if b.id == id then { b with todo := b.todo.erase x } else b }

/-- Some round of the chip is open (R328). -/
def roundOpen (s : State) : Bool := s.gaf.rounds.any fun r => !r.complete

/-- The end of a transfer in LPDDR maps to a site at refresh step 2. -/
def hotEnd (s : State) (a n : Nat) : Bool :=
  match s.target a n with
  | .lpddr o => s.rd Fd.XMC_TEMP_RefreshStep (s.siteOf o) == 2
  | _ => false

/-- The data that a transfer reads at this chip: bytes, the words among them that were uncorrectable (offsets), the state. -/
def readEnd (s : State) (x : Xfer) (n : Nat) (m : MemOutcome) : List Byte × List Nat × State :=
  match x.comp with
  | some bs => (bs, [], s)
  | none =>
    match s.target x.src n with
    | .spad a =>
      if x.srcOwn && s.spadCheck a n false false == .sealed then (List.replicate n 0, [], s.sealedErr)
      else
        let bad := (s.spadBadIn a n).map fun w => w - a
        let (d, s) := s.narrowRead a n
        (d, if x.srcOwn && !bad.isEmpty then (List.range (ceilDiv n 8)).map (8 * ·) else bad, s)
    | .lpddr o =>
      let was := s.lpBadIn o n
      let (d, poison, s) := s.memReads o n m (x.entry.getD noEntry)
      let met := (o / 32 + m.burst) * 32 :: was.map (·.1)
      let words := (List.range (ceilDiv n 8)).filter fun i =>
        poison && (if m.failed || m.addrCheck then met else met.drop 1).any fun w => decide (w < o + 8 * i + 8 ∧ o + 8 * i < w + 32)
      (d, if x.srcOwn && poison then (List.range (ceilDiv n 8)).map (8 * ·) else words.map fun i => 8 * i, s)
    | .host a => (getBytes s.host a n, [], s)
    | _ => (List.replicate n 0, [], s)

/-- Two tiles of a far end as 128 BF16 values. -/
def decodePair (far : Nat) (bs : List Byte) : List Byte :=
  (List.range 128).flatMap fun i =>
    leBytes 2 (tileElem (far / 2) 5 (bytesAt bs (i / 64 * (far / 2)) (far / 2)) (i % 64) / 65536)

def encodePair (far : Nat) (bs : List Byte) : List Byte :=
  (List.range 2).flatMap fun t => encodeTile (far / 2) ((List.range 64).map fun i => leAt bs (2 * (64 * t + i)) 2 * 65536)

/-- The message of a transfer with an end at another chip; none for a transfer within this chip (R307, R316, R325). -/
def remoteMsg (s : State) (id : Nat) (kind : Option BKind) (x : Xfer) : Option Msg × State :=
  let base : Msg := { op := 0, vc := 0, poison := false, skip := false, hops := 0, code := 0, dest := 0, src := 0, tag := id % 65536,
                      addr := 0, returnOld := false, data := [] }
  match kind with
  | some (.ringRotation _) => (some { base with vc := 2, dest := s.pullChip (x.entry.getD 0), addr := x.src % 2 ^ 48 }, s)
  | _ =>
    match s.target x.src (srcBytes x), s.target x.dst (dstBytes x) with
    | .remote c o, _ => if x.comp.isSome then (none, s) else (some { base with dest := c, addr := farAddr o (srcBytes x) }, s)
    | _, .remote c o =>
      let (d, bad, s) := s.readEnd x x.bytes goodMem
      let d := if x.xform = 1 then encodePair x.far d else d
      let op := if x.xform = 3 ∨ x.xform = 4 then 4 else if x.xform = 5 then 5 else 2
      (some { base with op := op, poison := !bad.isEmpty, code := if op = 2 then 0 else x.arg, dest := c, addr := o,
                        returnOld := x.xform == 4, data := bytesAt d 0 256, short := d.length % 256 }, s)
    | _, _ => (none, s)

/-- What an engine issues for an item: the built-in's kind, whether it is a weight load, and the transfer. -/
def issueOf (s : State) (it : WorkItem) : Option BKind × Bool × Xfer :=
  let b? : Option BuiltIn := match it.owner with | .builtIn id => s.builtIns.find? (fun (b : BuiltIn) => b.id == id) | _ => none
  let kind : Option BKind := b?.map fun (b : BuiltIn) => b.kind
  let load := (match kind with | some (.weightLoad _) => true | some .weightReload => true | _ => false) ||
    (match it.owner with
     | .program id _ => (s.image id).any fun m => ((m.rings[it.ring]?).bind fun g => s.regionOf id g.region).any fun r => r.cls == 1
     | _ => false)
  (kind, load, { it.x with entry := match b? with | some b => (match it.x.entry with | some e => some e | none => b.entry) | none => it.x.entry })

/-- The cause of the fault that an item's next transfer meets at issue, 0 for none. -/
def issueCause (s : State) (it : WorkItem) : Nat :=
  let y := s.issueOf it
  (s.takeX it.owner it.x).xferCause it.owner y.1 y.2.1 y.2.2

/-- Issue one transfer. -/
def launch (s : State) (bench : Nat) (it : WorkItem) : State :=
  let y := s.issueOf it
  let kind := y.1
  let x := y.2.2
  let cause := s.issueCause it
  let s := s.takeX it.owner it.x
  if cause ≠ 0 then s.xferFault bench cause it.owner x
  else
    let x := s.ownXfer kind x
    let id := s.nextId
    let wait := s.roundOpen && !isPull kind &&
      (s.hotEnd x.src (srcBytes x) && x.comp.isNone || s.hotEnd x.dst (dstBytes x))
    let f : Flight :=
      { id := id, bench := bench, owner := it.owner, image := it.image, x := x, issued := s.now,
        deferred := if wait then some (s.now + s.rd Fd.LNK_SLOW_DeferMaxUs * 1000) else none }
    match s.remoteMsg id kind x with
    | (none, _) => { s with nextId := id + 1, flights := s.flights ++ [f] }
    | (some g, t) =>
      match t.sendMsg g with
      | none => s.xferFault bench 1 it.owner x
      | some t => { t with nextId := id + 1, flights := t.flights ++ [{ f with remote := true }] }

/-- An issue opportunity of an engine (R271). -/
def gatherIssue (s : State) (bench : Nat) : State :=
  let s := s.pumpPrograms
  match sortBy WorkItem.before (s.items bench) with
  | [] => s
  | it :: _ =>
    if s.rd Fd.GTH_LIMIT_MaxOut bench ≤ s.outstanding bench then s.count Fd.GTH_FULL_CNT bench
    else ((s.launch bench it).syncGth bench)

/-! Landing (R258, R264, R275, R276). -/

/-- Poisoned words land where a scratchpad reader decodes them as uncorrectable (R275). -/
def landPoison (s : State) (bench a : Nat) (words : List Nat) : State :=
  if words.isEmpty then s
  else
    let s := words.foldl (fun s w => s.poisonSpad (a + w) 8) s
    (s.count Fd.GTH_POISON_CNT bench words.length).setErr Fd.GTH_PAGE_ERR_Poisoned bench

/-- The kind of the built-in that a transfer belongs to. -/
def flightKind (s : State) (f : Flight) : Option BKind :=
  match f.owner with | .builtIn id => (s.builtIns.find? fun b => b.id == id).map (·.kind) | _ => none

/-- A write to host memory that Bus Master Enable = 0 drops: it counts as a drop of its ring (R420, notes/assumptions/57.md). -/
def hostDrop (s : State) (f : Flight) : State :=
  match s.flightKind f with
  | some (.hostRing r) => s.ringDrop r
  | _ => s.evtDev 0x2B

/-- Write the data of a transfer at its destination in this chip; what comes as a message of a chip, poisoned, is uncorrectable in LPDDR too
(R21, R318). -/
def writeEnd (s : State) (f : Flight) (d : List Byte) (words : List Nat) (m : MemOutcome) (msg : Bool := false) : State :=
  match s.target f.x.dst d.length with
  | .spad a =>
    match s.spadCheck a d.length true true (if f.x.dstOwn then none else some f.image) with
    | .ok => (s.narrowWrite a d).landPoison f.bench a words
    | .sealed => s.sealedErr
    | _ => s
  | .lpddr o =>
    let s := s.memWrites o d m (f.x.entry.getD noEntry)
    if (msg || f.x.dstOwn) && !words.isEmpty then s.spoilLp ((List.range (ceilDiv (o % 32 + d.length) 32)).map fun i => o / 32 * 32 + 32 * i) false
    else s
  | .host a => if s.pow.busMaster then s.hostPut a d else s.hostDrop f
  | _ => s

/-- The atomic of a transfer on its destination: old bytes and state; what its poisoned operands change is poisoned (R253, R275). -/
def atomicEnd (s : State) (f : Flight) (d : List Byte) (words : List Nat) : List Byte × State :=
  let x := f.x
  let done := (s.regionAt x.dst d.length).any fun (r : Region) => !r.shut && r.cls == 3
  let (old, t) := s.spadAtomic x.dst x.arg d (if x.dstOwn then none else some f.image)
  (old, if done then t.landPoison f.bench x.dst words else t)

/-- The 8-byte words of a decoded tile pair that a bad source word makes bad: those of its tile (R275). -/
def decodedWords (far : Nat) (words : List Nat) : List Nat :=
  (List.range 2).flatMap fun t =>
    if words.any fun w => t * (far / 2) < w + 8 ∧ w < (t + 1) * (far / 2) then (List.range 16).map fun i => 8 * (16 * t + i) else []

/-- What the write of a transfer whose source lies in LPDDR too meets there: an outcome's write-back (R290). -/
def backOutcome (m : MemOutcome) : MemOutcome := { goodMem with retries := m.backRetries, failed := m.backFailed, burst := m.burst }

/-- The outcome of a transfer's write: its own where only the destination lies in LPDDR. -/
def writeOutcome (s : State) (x : Xfer) (m : MemOutcome) : MemOutcome :=
  match s.target x.src (srcBytes x) with
  | .lpddr _ => if x.comp.isSome then m else backOutcome m
  | _ => m

/-- What a transfer does with its data at this chip (R264). -/
def landData (s : State) (f : Flight) (d : List Byte) (words : List Nat) (m : MemOutcome) : State :=
  let x := f.x
  match x.xform with
  | 1 => s.writeEnd f (encodePair x.far d) (if x.dstOwn && !words.isEmpty then [0] else []) m
  | 2 => s.writeEnd f (decodePair x.far d) (decodedWords x.far words) m
  | 3 => (s.atomicEnd f d words).2
  | 4 =>
    let (old, s) := s.atomicEnd f d words
    s.writeEnd { f with x := { x with dst := x.src, dstOwn := x.srcOwn } } old [] (backOutcome m)
  | 5 =>
    match s.target x.dst 256 with
    | .lpddr o => (s.unitAtomic o x.arg d m (x.entry.getD noEntry)).2.2
    | _ => s
  | _ => s.writeEnd f d words (s.writeOutcome x m)

/-- A load of a stream's state, which an uncorrectable read faults (R275). -/
def isLoad (k : BKind) : Bool := match k with | .stateLoad _ => true | .initialLoad => true | .initCopy => true | _ => false

/-- The effect of a transfer within this chip; also whether its read was uncorrectable. -/
def perform (s : State) (f : Flight) (kind : Option BKind) (m : MemOutcome) : State × Bool :=
  let x := f.x
  let n := match x.comp with | some bs => bs.length | none => srcBytes x
  let (d, words, s) := s.readEnd x n m
  (if !words.isEmpty && kind.any isLoad then s else s.landData f d words m, !words.isEmpty)

/-- The initial copy takes its bytes (R168). -/
def fillInitial (s : State) (f : Flight) (m : MemOutcome) : State × Bool :=
  let (d, words, s) := s.readEnd f.x f.x.bytes m
  (match f.x.entry with
   | none => s
   | some e => if words.isEmpty then s.setStream e fun t => { t with initCopy := putBytes t.initCopy f.x.dst d } else s, !words.isEmpty)

/-- A weight load has landed whole: its blocks are checked, read again up to twice, or the image fails (R247). -/
def weightLanded (s : State) (b : BuiltIn) (region : Nat) : State :=
  match s.image b.image, s.regionOf b.image region with
  | some m, some r =>
    let bad := s.failingBlocks m region r.start r.srcLen
    if bad.isEmpty then (s.dropBuiltIn b.id).setRegion m.id region fun r => { r with loaded := true }
    else if b.tries < 2 then
      let s := bad.foldl (fun s x => s.count Fd.GTH_CRC_RETRY_CNT (benchOf (r.start + x.1))) s
      let todo := bad.flatMap fun x => copyXfers (m.addr + r.srcOff + x.1) (r.start + x.1) x.2
      { s with builtIns := s.builtIns.map fun (c : BuiltIn) => if c.id == b.id then { c with todo := todo, tries := c.tries + 1 } else c }
    else (s.dropBuiltIn b.id).weightFails m region bad.length
  | _, _ => s.dropBuiltIn b.id

/-- The header counters that the copy at ARMED zeroes (R152). -/
def zeroCounters (s : State) (a : Nat) : State :=
  let s := s.lpNarrowPut (a + 0x0C) (List.replicate 4 0)
  let s := s.lpNarrowPut (a + 0x10) (List.replicate 8 0)
  let s := s.lpNarrowPut (a + 0x18) (List.replicate 4 0)
  s.lpNarrowPut (a + 0x20) (List.replicate 8 0)

/-- The last transfer of a built-in has ended. -/
def builtDone (s : State) (b : BuiltIn) : State :=
  let e := b.entry.getD 0
  match b.kind with
  | .weightLoad r => s.weightLanded b r
  | k =>
    let s := s.dropBuiltIn b.id
    match k with
    | .stateLoad _ => s.setStream e fun t => { t with loaded := true }
    | .initialLoad => s.setStream e fun t => { t with initReady := true }
    | .initCopy =>
      match s.stream e with
      | none => s
      | some t => (s.zeroCounters t.statePtr).setStream e fun t => { t with copied := true }
    | .stateWrite => (s.puntyStart e).settleWatch
    | .kvWrite => (s.puntyStart e).settleWatch
    | .punty j => s.puntyDone e j
    | .ringRotation _ => s.rotationDone b.image e
    | _ => s

/-- The end of a built-in of the kind ends a wait at the boundary (R71, R73, R154, R155, R247). -/
def builtWakes (s : State) (k : BKind) : Bool :=
  match k with
  | .hostRing _ | .replay | .retire => false
  | .stateWrite | .punty _ => s.rd Fd.GAF_STATUS_Starved == 1
  | _ => true

/-- A transfer that has been performed is outstanding no more, and counts. -/
def leaveFlight (s : State) (f : Flight) : State :=
  let s := { s with flights := s.flights.filter fun (g : Flight) => g.id != f.id }
  ((s.count64 Fd.GTH_XFER_LO Fd.GTH_XFER_HI f.bench).evtCount f.bench 0x08).syncGth f.bench

/-- What may go on once a transfer of an item has ended. `poison` says that its read was uncorrectable. -/
def flightOver (s : State) (f : Flight) (poison : Bool) : State :=
  match f.owner with
  | .program id ix =>
    let s := s.setWalk id ix fun w => { w with fill := if f.x.xform = 0 then tabPut w.fill f.x.dst f.x.src else w.fill }
    s.pumpPrograms
  | .builtIn id =>
    match s.builtIns.find? fun b => b.id == id with
    | none => s
    | some b =>
      if poison && isLoad b.kind then (s.dropBuiltIn id).streamFault (b.entry.getD 0) 6
      else if poison ∧ b.kind = .stateWrite then (s.dropBuiltIn id).streamFault (b.entry.getD 0) 2
      else if b.todo.isEmpty && !s.builtFlights id then
        let t := s.builtDone b
        if t.builtWakes b.kind then t.choose else t
      else s

/-- A transfer has ended: counters, its item, and what may go on. -/
def endFlight (s : State) (f : Flight) (poison : Bool) : State := (s.leaveFlight f).flightOver f poison

/-- An outstanding transfer turns out to be unmapped: it is not performed (R274). -/
def failFlight (s : State) (f : Flight) : State :=
  (({ s with flights := s.flights.filter fun (g : Flight) => g.id != f.id } : State).syncGth f.bench).xferFault f.bench 1 f.owner f.x

/-- An end of an outstanding transfer in this chip's LPDDR lies at a site that has been disabled since it was issued (R297). -/
def darkX (s : State) (x : Xfer) (load : Bool) : Bool :=
  let dark (a n : Nat) : Bool := match s.target a n with | .lpddr o => s.anyOff o n | _ => false
  (x.comp.isNone && dark x.src (srcBytes x)) || (!load && dark x.dst (dstBytes x))

/-- TRANSFER_LAND within this chip: a deferred transfer waits while a round is open. -/
def landFlight (s : State) (f : Flight) (m : MemOutcome) : State :=
  let kind := s.flightKind f
  if f.x.bad || s.darkX f.x (kind == some .initialLoad) then s.failFlight f
  else
  let lp : Bool := match s.target f.x.src 1 with | .lpddr _ => f.x.comp.isNone | _ => false
  let s := if lp && decide (s.rd Fd.GTH_LAT_MAX_Ns f.bench < s.now - f.issued) then s.wr Fd.GTH_LAT_MAX_Ns (Nat.min 65535 (s.now - f.issued)) f.bench else s
  let (s, poison) := if kind = some .initialLoad then s.fillInitial f m else s.perform f kind m
  s.endFlight f poison

end State

/-- GATHER_TRANSFER_ISSUE (R271): an issue opportunity of a bench's engine. -/
def execGatherTransferIssue (bench : Nat) (s : State) : Result :=
  let s := s.begin_
  .next (if s.rd Fd.GTH_PAGE_CTL_Enable bench = 0 ∨ s.failStopped ∨ !s.pow.powered then s else s.gatherIssue bench)

/-- TRANSFER_LAND (R258). -/
def execTransferLand (id : Nat) (m : MemOutcome) (s : State) : Result :=
  let s := s.begin_
  .next <|
    match s.flights.find? fun f => f.id == id with
    | none => s
    | some f => if f.remote ∨ (f.deferred.isSome && s.roundOpen) ∨ !s.working then s else (s.noteSoft m.soft).landFlight f m

/-- LPDDR_DEFER_EXPIRE (R328): a deferred transfer is released. -/
def execLpddrDeferExpire (id : Nat) (s : State) : Result :=
  let s := s.begin_
  .next { s with flights := s.flights.map fun (f : Flight) => if f.id == id then { f with deferred := none } else f }

end Sys2Proof.Machine
end

