-- ==== Sys2Proof/Machine/CheckRegs.lean ====
section
/-! DEFINITION. What a CHECK asks of staged register fields (02 R43, R44; 03 R52, R63, R83; 10 R235; 11 R258; 12 R298; 13 R302,
R332; 14 R349; 15 R350 to R353, R373; 16 R387, R394, R395; 17 R419; 18 R425; 19 R437, R446, R454). -/
namespace Sys2Proof.Machine
open Sys2Proof

/-- How a CHECK fails (R43, R50): code, and what CTL_COMMIT_WHERE and CTL_COMMIT_AUX name. -/
structure Refuse where
  code   : Nat
  kind   : Nat
  where_ : Nat
  aux    : Nat := 0
  deriving DecidableEq, Repr

/-- A rule over register fields: the fields that it involves, whether the staged values break it, the code, and what is named
where a rule names something other than the register at which it is visited. -/
structure RegRule where
  deps  : List (Field × Nat × Nat)
  fails : Bool
  code  : Nat
  named : Option (Nat × Nat × Nat) := none

/-- Codes of R50 that many rules share. -/
def codeRange : Nat := 4
def codeConflict : Nat := 5
def codeInUse : Nat := 0xD

/-- Code of the first condition that fails. -/
def firstCode (xs : List (Bool × Nat)) : Option Nat := (xs.find? (·.1)).map (·.2)

namespace State

/-- A staged copy differs from its live copy. -/
def isStaged (s : State) (d : Field × Nat × Nat) : Bool := s.rdSh d.1 d.2.1 d.2.2 != s.rdAt d.1 d.2.1 d.2.2

/-- BAR0 offset of the first staged field of a rule, in ascending order (R43). -/
def ruleAt (s : State) (r : RegRule) : Option Nat :=
  match (r.deps.filter s.isStaged).map fun d => bar0Of (d.1.addr d.2.1 d.2.2) with
  | [] => none
  | a :: as => some (as.foldl Nat.min a)

/-- A rule that only bounds one staged field. -/
def bound (s : State) (f : Field) (inst lo hi : Nat) (ix : Nat := 0) : RegRule :=
  { deps := [(f, inst, ix)], fails := decide (s.rdSh f inst ix < lo ∨ hi < s.rdSh f inst ix), code := codeRange }

/-- A staged table address must lie in LPDDR. -/
def baseRule (s : State) (lo hi : Field) (inst len : Nat) : RegRule :=
  { deps := [(lo, inst, 0), (hi, inst, 0)], fails := !s.inLpddr (s.baseSh lo hi inst) len, code := codeRange }

/-! Clocks of the audio ports (R350, R351). A rate is a fraction of Hz. -/

end State

/-- f_g / BclkDiv of a port. -/
def bclkHz (v : Field → Nat → Nat → Nat) (p : Nat) : Nat × Nat :=
  let g := genHz v (v Fd.APT_MODE_GenSel p 0)
  (g.1, g.2 * Nat.max 1 (v Fd.APT_CLK_BclkDiv p 0))

/-- f_s of a port. -/
def streamHz (v : Field → Nat → Nat → Nat) (p : Nat) : Nat × Nat :=
  if v Fd.APT_MODE_Mode p 0 = 3 then
    let b := bclkHz v p
    (b.1, b.2 * pdmRatio (v Fd.APT_PDM_Ratio p 0))
  else (fsHz (v Fd.APT_MODE_FsCode p 0), 2 ^ v Fd.APT_MODE_RateDiv p 0)

/-- Slots of a port that streams may use (R373). -/
def portSlots (v : Field → Nat → Nat → Nat) (p : Nat) : Nat :=
  match v Fd.APT_MODE_Mode p 0 with
  | 1 => v Fd.APT_FRAME_Slots p 0 + 1
  | 3 => v Fd.APT_PDM_Mics p 0 + 1
  | _ => 2

/-- A rate within 10 ppm of a number of Hz. -/
def within10ppm (x : Nat × Nat) (hz : Nat) : Bool :=
  let t := hz * x.2
  decide ((x.1 - t) * 100000 ≤ t ∧ (t - x.1) * 100000 ≤ t)

namespace State

/-- Readers of staged and of live fields. -/
def staged (s : State) : Field → Nat → Nat → Nat := fun f i x => s.rdSh f i x
def inForce (s : State) : Field → Nat → Nat → Nat := s.rdAt

/-- Some entry that is not IDLE names an audio port. -/
def audioNamed (s : State) (p : Nat) : Bool :=
  s.streams.any fun (t : Stream) =>
    (epKind t.source == 1 && epPort t.source == p) || (epKind t.sink == 1 && epPort t.sink == p)

/-- Raw bytes of an entry as the parison would leave it: the staged entry where it is staged, else the live one. -/
def entryRaw (s : State) (e : Nat) : List Byte :=
  if s.par.staged.contains e then s.shadowRaw e
  else match s.stream e with
    | some t => t.raw
    | none => if s.gaf.table then s.liveRaw e else List.replicate 256 0

def aptModeFields : List Field :=
  [Fd.APT_MODE_Mode, Fd.APT_MODE_Target, Fd.APT_MODE_InEn, Fd.APT_MODE_OutEn, Fd.APT_MODE_FsCode, Fd.APT_MODE_RateDiv,
   Fd.APT_MODE_GenSel, Fd.APT_FRAME_Slots, Fd.APT_FRAME_SlotBits, Fd.APT_FRAME_SampleBits, Fd.APT_FRAME_Delay, Fd.APT_FRAME_FsPulse,
   Fd.APT_FRAME_FsInv, Fd.APT_FRAME_BclkInv, Fd.APT_CLK_BclkDiv, Fd.APT_CLK_MclkDiv, Fd.APT_PDM_Mics, Fd.APT_PDM_Raw,
   Fd.APT_PDM_Ratio, Fd.APT_PDM_HistWords]

def aptIecFields : List Field := [Fd.APT_IEC_CrcAuto, Fd.APT_IEC_VPolicy, Fd.APT_IEC_UserSrc]

/-- Fields of one port, and the fields of its bit clock with those of its staged generator. -/
def aptDeps (p : Nat) (fs : List Field) : List (Field × Nat × Nat) := fs.map fun f => (f, p, 0)
def aptClockDeps (s : State) (p : Nat) (fs : List Field) : List (Field × Nat × Nat) :=
  let g := s.rdSh Fd.APT_MODE_GenSel p
  aptDeps p ([Fd.APT_MODE_Mode, Fd.APT_MODE_Target, Fd.APT_MODE_GenSel, Fd.APT_CLK_BclkDiv] ++ fs) ++
    [(Fd.APT_GEN_DIV_LO, 0, g), (Fd.APT_GEN_DIV_HI_Int, 0, g)]

/-- A block holds no less time than the deadline quantum (R373). -/
def quantumOk (s : State) (p : Nat) : Bool :=
  let v := s.staged
  let r := streamHz v p
  v Fd.APT_MODE_Mode p 0 == 0 ||
    decide (2 ^ v Fd.GAF_SCHED_DlQuantum 0 0 * r.1 ≤ 2 ^ v Fd.APT_BLOCK_BlockLog2 p 0 * 1000000 * r.2)

/-- The rules of one audio port (R350, R353, R373). -/
def aptRules (s : State) (p : Nat) : List RegRule :=
  let v := s.staged
  let mode := v Fd.APT_MODE_Mode p 0
  let target := v Fd.APT_MODE_Target p 0
  let n := (v Fd.APT_FRAME_Slots p 0 + 1) * slotWidth (v Fd.APT_FRAME_SlotBits p 0)
  let b := bclkHz v p
  let fp := fsHz (v Fd.APT_MODE_FsCode p 0)
  let g := v Fd.APT_MODE_GenSel p 0
  [{ deps := (aptModeFields ++ aptIecFields).map fun f => (f, p, 0)
     fails := s.rd Fd.APT_STATUS_State p != 0 || s.audioNamed p, code := codeConflict },
   { deps := s.aptClockDeps p [Fd.APT_MODE_FsCode, Fd.APT_FRAME_Slots, Fd.APT_FRAME_SlotBits], code := codeRange
     fails := (mode == 1 || mode == 2) &&
       (if target = 0 then !within10ppm b (fp * n) || decide (49152000 * b.2 < b.1) else decide (49152000 < fp * n)) },
   { deps := s.aptClockDeps p [Fd.APT_MODE_RateDiv], code := codeRange
     fails := mode == 3 && (decide (b.1 < 768000 * b.2) || decide (6144000 * b.2 < b.1) || target != 0 || v Fd.APT_MODE_RateDiv p 0 != 0) },
   { deps := s.aptClockDeps p [Fd.APT_MODE_FsCode], code := codeRange
     fails := mode == 4 && ((target == 0 && !within10ppm b (128 * fp)) || decide (v Fd.APT_MODE_FsCode p 0 < 2)) },
   { deps := aptDeps p [Fd.APT_MODE_Mode, Fd.APT_FRAME_Slots, Fd.APT_FRAME_FsPulse, Fd.APT_FRAME_FsInv, Fd.APT_FRAME_Delay], code := codeRange
     fails := mode == 2 && (v Fd.APT_FRAME_Slots p 0 != 1 || v Fd.APT_FRAME_FsPulse p 0 != 0 || v Fd.APT_FRAME_FsInv p 0 != 1
       || v Fd.APT_FRAME_Delay p 0 != 1) },
   { deps := aptDeps p [Fd.APT_FRAME_SlotBits, Fd.APT_FRAME_SampleBits], code := codeRange
     fails := decide (v Fd.APT_FRAME_SlotBits p 0 < v Fd.APT_FRAME_SampleBits p 0) },
   { deps := aptDeps p [Fd.APT_MODE_Mode, Fd.APT_MODE_Target, Fd.APT_MODE_GenSel] ++ [(Fd.APT_GEN_DIV_HI_Enable, 0, g)], code := codeConflict
     fails := usesGen v p && v Fd.APT_GEN_DIV_HI_Enable 0 g == 0 },
   { deps := (Fd.GAF_SCHED_DlQuantum, 0, 0) ::
       s.aptClockDeps p [Fd.APT_BLOCK_BlockLog2, Fd.APT_MODE_FsCode, Fd.APT_MODE_RateDiv, Fd.APT_PDM_Ratio], code := codeConflict
     fails := !s.quantumOk p, named := some (1, Fd.APT_BLOCK_BlockLog2.addr p 0, 0) },
   { deps := [(Fd.APT_BLOCK_BlockLog2, p, 0)], code := codeConflict
     fails := s.streams.any fun (t : Stream) =>
       ((epKind t.source == 1 && epPort t.source == p) || (epKind t.sink == 1 && epPort t.sink == p)) &&
         t.chunkLen % 2 ^ v Fd.APT_BLOCK_BlockLog2 p 0 != 0 }]

/-- A stream endpoint is an audio port on a generator in controller mode (R373). -/
def onGen (v : Field → Nat → Nat → Nat) (ep i : Nat) : Bool :=
  epKind ep == 1 && usesGen v (epPort ep) && v Fd.APT_MODE_GenSel (epPort ep) 0 == i

/-- The rules of one generator (R371, R373, R376). -/
def genRules (s : State) (i : Nat) : List RegRule :=
  let v := s.staged
  let raw := s.entryRaw (v Fd.APT_GEN_REF_RefStream 0 i)
  let src := leAt raw 0x14 4
  let snk := leAt raw 0x18 4
  let rp := v Fd.APT_GEN_REF_RefPort 0 i
  let refDeps : List (Field × Nat × Nat) :=
    [(Fd.APT_GEN_REF_RefKind, 0, i), (Fd.APT_GEN_REF_RefStream, 0, i), (Fd.APT_GEN_REF_RefPort, 0, i)]
  let portDeps (p : Nat) : List (Field × Nat × Nat) := aptDeps p [Fd.APT_MODE_Mode, Fd.APT_MODE_Target, Fd.APT_MODE_GenSel]
  let endDeps (ep : Nat) : List (Field × Nat × Nat) := if epKind ep = 1 then portDeps (epPort ep) else []
  [s.bound Fd.APT_GEN_DIV_HI_Int 0 100 2000 i,
   s.bound Fd.APT_GEN_LOOP_UpdateLog2 0 4 12 i, s.bound Fd.APT_GEN_LOOP_KpLog2 0 8 40 i, s.bound Fd.APT_GEN_LOOP_KiLog2 0 16 48 i,
   { deps := [(Fd.APT_GEN_LOOP_KpLog2, 0, i), (Fd.APT_GEN_LOOP_KiLog2, 0, i)], code := codeRange
     fails := decide (v Fd.APT_GEN_LOOP_KiLog2 0 i < v Fd.APT_GEN_LOOP_KpLog2 0 i) },
   s.bound Fd.APT_GEN_LOOP_TrimMaxPpm 0 1 1000 i,
   { deps := refDeps ++ endDeps snk ++ endDeps src, code := codeConflict
     fails := v Fd.APT_GEN_REF_RefKind 0 i == 1 && (!onGen v snk i || onGen v src i) },
   { deps := refDeps ++ portDeps rp, code := codeConflict
     fails := v Fd.APT_GEN_REF_RefKind 0 i == 2 && !(usesGen v rp && v Fd.APT_MODE_GenSel rp 0 == i) }]

/-- The rules of one link port (R302, R332). -/
def lnkRules (s : State) (p : Nat) : List RegRule :=
  let inRoute := s.lnk.routes.any fun r => bitAt r.2 10 && (slice r.2 0 5 == p || (bitAt r.2 11 && slice r.2 5 5 == p))
  let inStream := s.streams.any fun (t : Stream) =>
    (epKind t.source == 3 && epPort t.source == p) || (epKind t.sink == 3 && epPort t.sink == p)
  [{ deps := [(Fd.LNK_CTL_PacketMode, p, 0)], fails := inRoute || inStream, code := codeConflict },
   s.bound Fd.LNK_REPLAY_ReplayMax p 1 15, s.bound Fd.LNK_REPLAY_LaneFailMax p 1 255, s.bound Fd.LNK_REPLAY_RetrainMax p 1 15,
   s.bound Fd.LNK_KEY_RekeyLog2 p 30 40, s.bound Fd.LNK_KEY_RekeySec p 60 3600]

/-- The device-wide link rules. -/
def lnkDevRules (s : State) : List RegRule :=
  let groupDeps : List (Field × Nat × Nat) := [(Fd.LNK_GROUP_BASE_LO, 0, 0), (Fd.LNK_GROUP_BASE_HI, 0, 0)]
  [s.bound Fd.LNK_HOPS_MaxHops 0 1 15, s.bound Fd.LNK_SLOW_ExtendUs 0 10 65535, s.bound Fd.LNK_SLOW_DeferMaxUs 0 10 65535,
   s.baseRule Fd.LNK_GROUP_BASE_LO Fd.LNK_GROUP_BASE_HI 0 4096,
   { deps := groupDeps, code := codeInUse
     fails := s.gaf.images.any fun (m : Image) => m.descs.any fun d => d.kind == 0x0D }] ++
  (List.range 7).map fun i =>
    ({ deps := [(Fd.LNK_APER_BaseGiB, 0, i)], code := codeRange
       fails := decide (s.rd Fd.CTL_CAP_MEM_LpddrGiB < s.rdSh Fd.LNK_APER_BaseGiB 0 i + 8) } : RegRule)

/-- The rules of one packet port (R349). -/
def pktRules (s : State) (p : Nat) : List RegRule :=
  [s.bound Fd.PKT_CFG_Hops p 1 255, s.baseRule Fd.PKT_SESSION_BASE_LO Fd.PKT_SESSION_BASE_HI p 0x80000,
   { deps := [(Fd.PKT_SESSION_BASE_LO, p, 0), (Fd.PKT_SESSION_BASE_HI, p, 0)], code := codeInUse
     fails := s.liveSessions.any (onPort p) }]

/-- Cap of R386 under staged values, in units of 10 pJ. -/
def stagedCap (s : State) : Nat := s.rdSh Fd.DMP_BUDGET_CapWindows * s.rdSh Fd.DMP_BUDGET_PkgWatts * 1000000

/-- The first descriptor of a dialogue image whose energy estimate exceeds Cap (R387). -/
def overEnergy (s : State) (m : Image) : Option Nat :=
  if m.cls ≠ 1 then none
  else
    let n := m.maxBatch * 2 ^ s.largestStretch m.id m.cls
    (m.descs.zipIdx.find? fun d => decide (s.stagedCap < d.1.energyFixed + n * d.1.energyPerStream)).map (·.2)

/-- Lowest entry that names a loaded image. -/
def entryOf (s : State) (id : Nat) : Nat := ((s.streams.find? fun (t : Stream) => t.image == id).map (·.entry)).getD 0

/-- The damper's rules (R387, R394). -/
def dmpRules (s : State) : List RegRule :=
  let v := s.staged
  let th : List Field := [Fd.DMP_THERM_A_ThrottleC, Fd.DMP_THERM_A_StretchC, Fd.DMP_THERM_A_DivC, Fd.DMP_THERM_A_GateC, Fd.DMP_THERM_B_LimitC]
  let t (f : Field) : Nat := v f 0 0
  let budget : List (Field × Nat × Nat) := [(Fd.DMP_BUDGET_PkgWatts, 0, 0), (Fd.DMP_BUDGET_CapWindows, 0, 0)]
  let overs := s.gaf.images.findSome? fun m => (s.overEnergy m).map fun d => (m.id, d)
  [s.bound Fd.DMP_BUDGET_PkgWatts 0 100 1500, s.bound Fd.DMP_BUDGET_CapWindows 0 1 8,
   { deps := [(Fd.DMP_BUDGET_PkgWatts, 0, 0), (Fd.DMP_RESERVE_ReserveUnits, 0, 0)], code := codeRange
     fails := decide (v Fd.DMP_BUDGET_PkgWatts 0 0 * 500000 < v Fd.DMP_RESERVE_ReserveUnits 0 0) },
   { deps := budget, code := 0x28, fails := overs.isSome
     named := overs.map fun x => (4, x.2, s.entryOf x.1) },
   { deps := th.map fun f => (f, 0, 0), code := codeRange
     fails := !decide (t Fd.DMP_THERM_A_ThrottleC < t Fd.DMP_THERM_A_StretchC ∧ t Fd.DMP_THERM_A_StretchC ≤ t Fd.DMP_THERM_A_DivC ∧
       t Fd.DMP_THERM_A_DivC < t Fd.DMP_THERM_A_GateC ∧ t Fd.DMP_THERM_A_GateC < t Fd.DMP_THERM_B_LimitC ∧ t Fd.DMP_THERM_B_LimitC < 115) },
   s.bound Fd.DMP_THERM_B_StretchStep 0 1 15, s.bound Fd.DMP_THERM_B_MemStretch 0 0 5, s.bound Fd.DMP_THERM_B_StretchMax 0 0 5,
   s.bound Fd.DMP_FLOOR_SFloor 0 0 1920]

/-- A list of digests of 32 bytes in strictly ascending bytewise order (R446). -/
def ascending : List (List Byte) → Bool
  | a :: b :: rest => decide (ofBe a < ofBe b) && ascending (b :: rest)
  | _ => true

def fleetList (s : State) (base count : Nat) : List (List Byte) := (List.range count).map fun i => s.devBytes (base + 32 * i) 32

/-- The rules of the security, tally, log, counter, scratchpad, failover and gather pages. -/
def otherRules (s : State) : List RegRule :=
  let v := s.staged
  let fleet : List (Field × Nat × Nat) :=
    [(Fd.SEC_FLEET_BASE_LO, 0, 0), (Fd.SEC_FLEET_BASE_HI, 0, 0), (Fd.SEC_FLEET_CFG_Count, 0, 0), (Fd.SEC_FLEET_CFG_Enable, 0, 0)]
  let fb := s.baseSh Fd.SEC_FLEET_BASE_LO Fd.SEC_FLEET_BASE_HI
  let fc := v Fd.SEC_FLEET_CFG_Count 0 0
  let tly : List (Field × Nat × Nat) :=
    [(Fd.TLY_PARAM_IntervalSec, 0, 0), (Fd.TLY_PARAM_Instrument, 0, 0), (Fd.TLY_PARAM_Dialogue, 0, 0), (Fd.TLY_PARAM_Skipped, 0, 0),
     (Fd.TLY_PARAM_Rotate, 0, 0)]
  [{ deps := [(Fd.SEC_FLEET_BASE_LO, 0, 0), (Fd.SEC_FLEET_BASE_HI, 0, 0)], code := codeRange
     fails := !s.inLpddr fb (Nat.max 32 (32 * fc)) },
   s.bound Fd.SEC_FLEET_CFG_Count 0 0 4096,
   { deps := fleet, code := codeConflict, fails := decide (fc ≤ 4096) && !ascending (s.fleetList fb fc) },
   s.bound Fd.SEC_TRING_CFG_SizeLog2 0 20 30, s.bound Fd.LOG_RING_CFG_SizeLog2 0 12 24, s.bound Fd.CNT_CTL_SyncLog2 0 14 26,
   { deps := tly, code := 7, fails := !s.windowOpen },
   { deps := tly, code := 6, fails := s.sealedShut },
   s.bound Fd.TLY_PARAM_IntervalSec 0 1 3600,
   { deps := [(Fd.TLY_PARAM_Rotate, 0, 0)], code := codeRange
     fails := v Fd.TLY_PARAM_Rotate 0 0 == 1 && decide (7 ≤ s.rd Fd.TLY_KEY_TallyGen) },
   s.baseRule Fd.PNT_TABLE_BASE_LO Fd.PNT_TABLE_BASE_HI 0 0x40000,
   s.baseRule Fd.PNT_STANDBY_BASE_LO Fd.PNT_STANDBY_BASE_HI 0 0x200000, s.bound Fd.PNT_CFG_ProbeUs 0 20 65535,
   { deps := [(Fd.SPD_MODE_Partitioned, 0, 0)], code := codeConflict
     fails := s.rd Fd.GAF_PAGE_CTL_Enable == 1 || !s.allIdle },
   { deps := [(Fd.PKT_PTP_CTL_Port, 0, 0), (Fd.PKT_PTP_CTL_Enable, 0, 0)], code := codeConflict
     fails := v Fd.LNK_CTL_PacketMode (v Fd.PKT_PTP_CTL_Port 0 0) 0 == 0 },
   { deps := [(Fd.LNK_CTL_PacketMode, v Fd.PKT_PTP_CTL_Port 0 0, 0)], code := codeConflict
     fails := v Fd.PKT_PTP_CTL_Enable 0 0 == 1 && v Fd.LNK_CTL_PacketMode (v Fd.PKT_PTP_CTL_Port 0 0) 0 == 0 },
   s.bound Fd.PKT_PTP_CTL_HoldoverSec 0 1 65535] ++
  ((List.range 16).map fun b => s.bound Fd.GTH_LIMIT_MaxOut b 16 512) ++
  ((List.range 16).map fun i =>
    ({ deps := [(Fd.XMC_MAPOUT_Request, i, 0), (Fd.XMC_MAPOUT_Reinstate, i, 0)], code := codeConflict
       fails := v Fd.XMC_MAPOUT_Request i 0 &&& v Fd.XMC_MAPOUT_Reinstate i 0 != 0 } : RegRule)) ++
  (List.range 16).flatMap fun r =>
    [s.bound Fd.CTL_RING_SizeLog2 0 16 30 r,
     ({ deps := [(Fd.CTL_RING_Enable, 0, r)], code := codeConflict
        fails := v Fd.CTL_RING_Enable 0 r == 0 && s.streams.any fun (t : Stream) => epKind t.sink == 4 && epPort t.sink == r } : RegRule)]

/-- The gaffer's rules (R52, R63, R83). -/
def gafRules (s : State) : List RegRule :=
  let base : List (Field × Nat × Nat) := [(Fd.GAF_STREAM_BASE_LO_BaseLo, 0, 0), (Fd.GAF_STREAM_BASE_HI_BaseHi, 0, 0)]
  let dir : List (Field × Nat × Nat) := [(Fd.GAF_IMAGE_DIR_LO_DirLo, 0, 0), (Fd.GAF_IMAGE_DIR_HI_DirHi, 0, 0)]
  let moves := base.any s.isStaged
  let baseBad := !s.inLpddr (s.baseSh Fd.GAF_STREAM_BASE_LO_BaseLo Fd.GAF_STREAM_BASE_HI_BaseHi) 0x200000
  [{ deps := base, code := codeRange, fails := baseBad },
   { deps := base, code := codeConflict, fails := !s.allIdle || !s.par.staged.isEmpty },
   { deps := dir, code := codeConflict, fails := !s.gaf.table && (!moves || baseBad) },
   { deps := dir, code := codeRange
     fails := !s.inLpddr (s.baseSh Fd.GAF_IMAGE_DIR_LO_DirLo Fd.GAF_IMAGE_DIR_HI_DirHi) 4096 },
   { deps := dir, code := codeInUse, fails := !s.gaf.images.isEmpty }]

/-- Every rule over registers. -/
def regRules (s : State) : List RegRule :=
  s.gafRules ++ s.dmpRules ++ s.otherRules ++ (List.range 32).flatMap s.lnkRules ++ s.lnkDevRules ++
    (List.range 8).flatMap s.pktRules ++ (List.range 16).flatMap s.aptRules ++ (List.range 4).flatMap s.genRules

/-- The first failure among staged registers, in ascending BAR0 offset (R43). -/
def checkRegs (s : State) : Option Refuse :=
  let hits := s.regRules.filterMap fun r => if r.fails then (s.ruleAt r).map fun a => (a, r) else none
  match hits with
  | [] => none
  | h :: hs =>
    let (a, r) := hs.foldl (fun (x y : Nat × RegRule) => if y.1 < x.1 then y else x) h
    match r.named with
    | some (k, w, e) => some ⟨r.code, k, w, e⟩
    | none => some ⟨r.code, 1, a, 0⟩

end State

end Sys2Proof.Machine
end

