-- ==== Sys2Proof/Machine/Audio.lean ====
section
/-! DEFINITION. Audio ports: blocks, takes, start and stop, lock, IEC 60958, the steering loop (15_audio_ports.md). -/
namespace Sys2Proof.Machine
open Sys2Proof

/-- FP32 nearest to n / d. -/
def f32OfRat (n : Int) (d : Nat) : Nat :=
  let q := quotSticky n.natAbs (Nat.max 1 d) 0
  fp32.round .even (decide (n < 0)) q.1 q.2

/-- The bits of a PDM sample as ±1, in arrival order (R357). -/
def pdmBits (n w : Nat) : List Int := (List.range n).map fun i => if bitAt w i then 1 else -1

/-- FP32 sample out of a decimator whose latest inputs are `h`, latest first: codes of `b` bits, or bits of a microphone,
scaled so that a steady input settles to 2p − 1 (R358). -/
def decimated (code b : Nat) (h : List Int) : Nat :=
  if code < 16 then f32OfInt (dotTaps code 0 1 h) (1 - (b : Int) - 40) else f32OfRat (pdmSum code h) (2 ^ 40 * code)

/-- Samples of one slot from its codes, and the filter's history after them. -/
def decimate (code b n : Nat) : Nat → List Int → List Int → List Nat × List Int
  | 0, _, h => ([], h)
  | k + 1, xs, h =>
    let h := ((xs.take n).reverse ++ h).take (filterOrder code + 1)
    let r := decimate code b n k (xs.drop n) h
    (decimated code b h :: r.1, r.2)

namespace State

/-- The port's input follows a clock that it can lose (R362). -/
def needsLock (s : State) (p : Nat) : Bool :=
  s.aptMode p == 4 || ((s.aptMode p == 1 || s.aptMode p == 2) && s.rd Fd.APT_MODE_Target p == 1)

/-- The port captures samples (R350, R362, R367, R368). -/
def captures (s : State) (p : Nat) : Bool :=
  !s.failStopped && s.aptState p == 2 && s.rd Fd.APT_MODE_InEn p == 1 && !(s.needsLock p && s.rd Fd.APT_STATUS_Locked p == 0)

/-! Start and stop (R367, R368). -/

/-- The port starts: clocks, then pre-roll. -/
def aptBegin (s : State) (p : Nat) : State :=
  let s := s.setAport p fun _ =>
    { pin := s.now, pre := s.rd Fd.APT_START_PrerollFrames p, ramp := s.rd Fd.APT_STOP_RampFrames p
      hold := s.rd Fd.APT_STOP_HoldFrames p, blk := s.rd Fd.APT_BLOCK_BlockLog2 p }
  let s := ((s.wr Fd.APT_PAGE_CTL_Enable 1 p).wr Fd.APT_STATUS_State 1 p).wr Fd.APT_STATUS_Locked 0 p
  let s := (s.wr Fd.APT_FRAMES_LO 0 p).wr Fd.APT_FRAMES_HI 0 p
  let s := s.setAport p fun a => { a with txSets := [(0, s.txStatusNow p, s.txUserNow p)] }
  (s.driveClocks p).idleSlots p none

/-- A write of PAGE_CTL.Enable. -/
def aptEnable (s : State) (p v : Nat) : State :=
  let st := s.aptState p
  if v = 0 then (s.wr Fd.APT_PAGE_CTL_Enable 0 p).aptHalt p
  else if st = 0 then (if s.aptMode p = 0 then s else s.aptBegin p)
  else if st = 3 then s.wr Fd.APT_PAGE_CTL_Enable 1 p
  else s

/-- The frames of the pre-roll have passed: PrerollFrames of them, for an IEC 60958 transmitter in complete blocks (R367). A port on an
outside clock may run 1,000 ppm faster than nominal (R362). -/
def prerolled (s : State) (p : Nat) : Bool :=
  let a := s.aport p
  let hz := s.frameHz p
  let n := if s.aptMode p = 4 ∧ s.rd Fd.APT_MODE_OutEn p = 1 then roundUp a.pre 192 else a.pre
  if usesGen s.rdAt p then decide ((n : Int) ≤ s.frameBegun p s.now)
  else decide (n * 1000000000000 * hz.2 ≤ (s.now - a.pin) * hz.1 * 1001)

def aptPrerollEnd (s : State) (p : Nat) : State :=
  if s.aptState p ≠ 1 ∨ !s.prerolled p then s
  else if s.aptMode p = 4 ∧ s.rd Fd.APT_MODE_OutEn p = 0 ∧ s.rd Fd.APT_STATUS_Locked p = 0 then s
  else
    let s := (s.wr Fd.APT_STATUS_State 2 p).setAport p fun a => { a with frame := 0, pin := s.now, shown := 0, data := true }
    s.idleSlots p (some 0)

/-- Data frames since the start: those begun. A port on an outside clock has had, since its last frame with a known pin time, a free
number of frames that its band of 1,000 ppm allows (R362, R364; notes/assumptions/88.md). -/
def framesShown (s : State) (p : Nat) : Nat :=
  let a := s.aport p
  if !a.data then 0
  else if usesGen s.rdAt p then (s.frameBegun p s.now).toNat
  else
    let hz := s.frameHz p
    let since (ppm : Int) : Int := (((s.now : Int) - (a.pin : Int)) * hz.1 * (1000000 + ppm)).fdiv (hz.2 * 1000000000000000)
    let lo := Nat.max a.shown (a.frame + min (since (-1000)) (since 1000)).toNat
    lo + s.fresh [0x144, p] % ((a.frame + max (since (-1000)) (since 1000)).toNat - lo + 1)

/-- First frame and pin time of the latest block of B stream samples of a port that only transmits (R364, R365). -/
def txStamp (s : State) (p : Nat) : Nat × Nat :=
  let a := s.aport p
  let div := s.aptDiv p
  let n := (s.frameBegun p s.now).toNat / div
  let change := ceilDiv (s.frameAt p a.frame a.pin a.blkWas.2) (16 * div) * 16
  let blk := 2 ^ (if n < change then a.blkWas.1 else s.rd Fd.APT_BLOCK_BlockLog2 p)
  let f := n / blk * blk * div
  (f, s.framePin p f)

/-- APT_STAMP follows the output blocks: the port is sending, and does not receive. -/
def stampsOutput (s : State) (p : Nat) : Bool :=
  (s.aport p).data && decide (2 ≤ s.aptState p) && s.rd Fd.APT_MODE_InEn p == 0 && s.rd Fd.APT_MODE_OutEn p == 1

/-- The stamp registers take the latest output block, and the counter its frames, as the port stops. -/
def keepStamp (s : State) (p : Nat) : State :=
  let n := s.framesShown p
  let s := (s.wr Fd.APT_FRAMES_LO n p).wr Fd.APT_FRAMES_HI (n / 2 ^ 32) p
  if !s.stampsOutput p then s
  else
    let x := s.txStamp p
    ((s.wr Fd.APT_STAMP_LO x.2 p).wr Fd.APT_STAMP_HI (x.2 / 2 ^ 32) p).wr Fd.APT_STAMP_FRAME x.1 p

def aptStopEnd (s : State) (p : Nat) : State :=
  if s.aptState p ≠ 3 ∨ s.now < (s.aport p).stopEnd then s
  else
    let s := (((s.keepStamp p).wr Fd.APT_STATUS_State 0 p).wr Fd.APT_STATUS_Locked 0 p).put (.audioLow p)
    if s.rd Fd.APT_PAGE_CTL_Enable p = 1 ∧ s.aptMode p ≠ 0 then s.aptBegin p else s

/-! Input (R356 to R359, R361, R363 to R365, R369). -/

/-- A code as it stands in its slot (R353, R360): the first SampleBits bits, or the 24 bits of a subframe. -/
def slotCode (s : State) (p w : Nat) : Int :=
  let b := s.aptBits p
  if s.aptMode p = 4 then toSigned 24 (w % 2 ^ 24)
  else toSigned b (w / 2 ^ (slotWidth (s.rd Fd.APT_FRAME_SlotBits p) - b) % 2 ^ b)

/-- Codes of one slot, with the validity policy of R361: bit 24 of a subframe is V, bit 25 a parity failure. Answers the codes,
the last valid one, and how many failed parity and how many were not valid. -/
def policed (s : State) (p : Nat) (last : Int) (ws : List Nat) : List Int × Int × Nat × Nat :=
  if s.aptMode p ≠ 4 then (ws.map (s.slotCode p), last, 0, 0)
  else
    ws.foldl (fun (acc : List Int × Int × Nat × Nat) w =>
      let par := bitAt w 25
      let bad := par || bitAt w 24
      let c := s.slotCode p w
      let use := if bad && s.rd Fd.APT_IEC_VPolicy p == 1 then acc.2.1 else c
      (acc.1 ++ [use], if bad then acc.2.1 else c, acc.2.2.1 + b2n par, acc.2.2.2 + b2n bad)) ([], last, 0, 0)

/-- FP32 samples of every slot of some frames; histories, counts of R361. -/
def aptSamples (s : State) (p : Nat) (frames : List (List Nat)) : State × List (List Nat) :=
  let slots := portSlots s.inForce p
  let div := s.aptDiv p
  let n := frames.length / div
  let a := s.aport p
  let code := if s.aptMode p = 3 then pdmRatio (s.rd Fd.APT_PDM_Ratio p) else s.rd Fd.APT_MODE_RateDiv p
  let one (acc : State × List (List Nat) × List Int × List (List Int)) (i : Nat) : State × List (List Nat) × List Int × List (List Int) :=
    let (s, out, lasts, hists) := acc
    let ws := frames.map fun f => f.getD i 0
    let h := a.hist.getD i []
    if s.aptMode p = 3 then
      let bits := ws.flatMap (pdmBits code)
      let r := decimate code 1 code n bits h
      (s, out ++ [r.1], lasts ++ [0], hists ++ [r.2])
    else
      let (cs, last, par, inv) := s.policed p (a.lastIn.getD i 0) ws
      let s := if par = 0 then s else s.count Fd.APT_IEC_PAR_CNT p par
      let s := if inv = 0 then s else s.count Fd.APT_IEC_INVALID_CNT p inv
      let b := s.aptBits p
      if div = 1 then (s, out ++ [cs.map (sampleOf b)], lasts ++ [last], hists ++ [[]])
      else
        let r := decimate code b div n cs h
        (s, out ++ [r.1], lasts ++ [last], hists ++ [r.2])
  let (s, out, lasts, hists) := (List.range slots).foldl one (s, [], [], [])
  (s.setAport p fun a => { a with lastIn := lasts, hist := hists }, out)

/-- Streams that a port feeds. -/
def fedBy (s : State) (p : Nat) : List Stream := s.streams.filter fun (t : Stream) => epKind t.source == 1 && epPort t.source == p

/-- What a stream takes of some frames: FP32 samples of its channels, or the bits of its microphone. -/
def streamFrames (s : State) (t : Stream) (samples frames : List (List Nat)) (n : Nat) : List (List Nat) :=
  let i := epIndex t.source
  match s.rawPdm t with
  | some x => frames.map fun f => (List.range x.1).map fun k => f.getD i 0 / 2 ^ (8 * k) % 256
  | none => (List.range n).map fun k => (List.range t.channels).map fun c => (samples.getD (i + c) []).getD k 0

/-- An overrun is counted, and stamped with the pin time of its first discarded frame (R369). -/
def noteOverrun (s : State) (p n pin : Nat) (first : Bool) : State :=
  let s := (s.count Fd.APT_ORUN_CNT p n).setErr Fd.APT_PAGE_ERR_Overrun p
  if first then s.wr64 Fd.APT_ORUN_TIME pin p else s

/-- Some frames land for the streams of a port: the block stamped `stamp`, whose first frame has pin time `pin`. -/
def landFrames (s : State) (p : Nat) (frames : List (List Nat)) (pin stamp : Nat) : State :=
  let n := frames.length / s.aptDiv p
  let no := (s.aport p).sampleNo
  let (s, samples) := s.aptSamples p frames
  let hz := streamHz s.inForce p
  let one (s : State) (t : Stream) : State :=
    let s := if t.state = 1 then s else s.fillMissing t.entry
    let was := s.missingOf t.entry
    let s := s.landBlock t.entry stamp (decide (t.startTime ≤ pin ∧ no % 16 = 0)) (s.streamFrames t samples frames n)
    let s := if t.state = 1 ∧ s.entryState t.entry = 2 then s.setStream t.entry fun t => { t with src0 := no } else s
    let lost := s.missingOf t.entry - was
    if lost = 0 then s else s.noteOverrun p lost (pin + (n - lost) * 1000000000 * hz.2 / Nat.max 1 hz.1) (was == 0)
  let s := (s.fedBy p).foldl one s
  s.setAport p fun a => { a with sampleNo := no + n }

/-- A block of B stream samples, or what is left of one after a gap, lands at P_end + 20 µs (R364). -/
def inputBlock (s : State) (p : Nat) (frames : List (List Nat)) (pin pend : Nat) : State :=
  let a := s.aport p
  let blk := if a.sampleNo % 16 ≠ 0 then a.blk else if pin < a.blkWas.2 then a.blkWas.1 else s.rd Fd.APT_BLOCK_BlockLog2 p
  let n := 2 ^ blk - a.sampleNo % 2 ^ blk
  if !s.captures p || frames.length != n * s.aptDiv p then s
  else
    let was := s
    let s := (s.setAport p fun a => { a with blk := blk }).knowFrame p (a.sampleNo * s.aptDiv p) pin
    let s := s.landFrames p frames pin (pend + 20000)
    let s := (s.wr Fd.APT_STAMP_LO pin p).wr Fd.APT_STAMP_HI (pin / 2 ^ 32) p
    ((s.wr Fd.APT_STAMP_FRAME (a.sampleNo * s.aptDiv p) p).settleWatch).chooseIfReady was

/-! Lock (R362, R369, R374). -/

/-- Lock is lost; the frames captured since the last block land as they are. -/
def loseLock (s : State) (p : Nat) (frames : List (List Nat)) (pin pend : Nat) : State :=
  if !s.needsLock p || s.aptState p == 0 || s.rd Fd.APT_STATUS_Locked p == 0 then s
  else
    let a := s.aport p
    let room := 2 ^ a.blk - a.sampleNo % 2 ^ a.blk
    let live := s.captures p
    let s := if live && decide (frames.length < room * s.aptDiv p) then s.landFrames p frames pin s.now else s
    let s := (s.wr Fd.APT_STATUS_Locked 0 p).count Fd.APT_UNLOCK_CNT p
    let s := s.setErr Fd.APT_PAGE_ERR_Interrupted p
    s.setAport p fun a => { a with lost := live, lastEnd := pend }

/-- Lock comes back; the gap is filled once (R369). -/
def gainLock (s : State) (p gap : Nat) : State :=
  if !s.needsLock p || s.aptState p == 0 || s.rd Fd.APT_STATUS_Locked p == 1 then s
  else
    let s := s.wr Fd.APT_STATUS_Locked 1 p
    let a := s.aport p
    let was := s
    if !a.lost then
      if s.aptState p < 2 then s
      else s.setAport p fun a => { a with sampleNo := Nat.max a.sampleNo (((s.frameBegun p s.now).toNat + 1) / s.aptDiv p) }
    else
      let one (s : State) (t : Stream) : State :=
        let n := gap * rateHz t.rate / 1000000000
        if t.state < 2 ∨ 4 < t.state ∨ n = 0 ∨ 8 * t.chunkLen ≤ n then s
        else
          let first := t.missing.isEmpty
          let s := s.landRun t.entry s.now n (List.replicate n (s.repeatOf t))
          if t.discard then s
          else
            let s := (s.count Fd.APT_ORUN_CNT p n).setErr Fd.APT_PAGE_ERR_Interrupted p
            if first then s.wr64 Fd.APT_ORUN_TIME a.lastEnd p else s
      let hz := streamHz s.inForce p
      let s := if s.aptState p = 2 then (s.fedBy p).foldl one s else s
      (s.setAport p fun a => { a with lost := false, sampleNo := a.sampleNo + gap * hz.1 / Nat.max 1 (1000000000 * hz.2) }).settleWatch.chooseIfReady was

/-- A complete block's channel status and user bits, in subframe order (R361). -/
def iecBlock (s : State) (p : Nat) (status user : List Bool) : State :=
  if s.aptMode p ≠ 4 ∨ !s.captures p ∨ status.length ≠ 384 ∨ user.length ≠ 384 then s
  else
    let bytes (ch : Nat) : List Byte := (List.range 24).map fun k =>
      BitVec.ofNat 8 (packBits ((List.range 8).map fun b => status.getD (2 * (8 * k + b) + ch) false))
    let bad (bs : List Byte) : Bool := bitAt (leAt bs 0 1) 0 && iecCrc bs != leAt bs 23 1
    let s := (List.range 12).foldl (fun s w => s.wrAt Fd.APT_IEC_URX p w (packBits ((user.drop (32 * w)).take 32))) s
    if bad (bytes 0) || bad (bytes 1) then (s.count Fd.APT_IEC_CRC_CNT p).setErr Fd.APT_PAGE_ERR_IecCrc p
    else
      (List.range 6).foldl (fun s w =>
        (s.wrAt Fd.APT_IEC_CSRX_A p w (leAt (bytes 0) (4 * w) 4)).wrAt Fd.APT_IEC_CSRX_B p w (leAt (bytes 1) (4 * w) 4)) s

/-! Output (R353, R360, R361, R363, R366, R368, R369). -/

/-- The take of a chunk whose first frame has pin time `pin` comes 2 µs to 20 µs before it (R366). -/
def takeInTime (s : State) (pin : Nat) : Bool := decide (s.now + 2000 ≤ pin ∧ pin ≤ s.now + 20000)

/-- The first frame, at or after the sink's first stream sample since the stream entered RUNNING whose number is a multiple of 16
(R366). -/
def firstSlot (s : State) (t : Stream) (p : Nat) : Nat :=
  let a := s.aport p
  let step := 16 * s.aptDiv p
  if !a.data then 0 else ceilDiv (s.frameAt p a.frame a.pin t.runAt) step * step

/-- The frame whose take is now is F₀: it is not before that frame, its take time is at or after d₀, and that of the frame before it is
not both (R366). -/
def fixesF0 (s : State) (t : Stream) (p frame : Nat) : Bool :=
  match t.arrive with
  | none => false
  | some tr =>
    let d0 := tr + t.dlOff
    let hz := s.frameHz p
    let first := s.firstSlot t p
    decide (first ≤ frame ∧ d0 ≤ s.now ∧ (frame = first ∨ s.now < d0 + ceilDiv (1000000000 * hz.2) hz.1))

/-- The sink takes the next chunk of a stream; port frame `frame` is its first when it fixes F₀, and `pin` that frame's pin
time. -/
def takeChunk (s : State) (t : Stream) (frame pin : Nat) : State :=
  let j := t.taken
  let ent := t.outputs.find? fun o => o.1 == j
  let sink := (ent.map (·.2)).getD t.sink
  let p := epPort sink
  if s.failStopped ∨ epKind sink ≠ 1 ∨ s.aptState p = 0 ∨ t.state < 2 ∨ !s.takeInTime pin ∨
      !(t.f0.isSome || s.fixesF0 t p frame) then s
  else
    let len := ((t.spans.find? fun o => o.1 == j).map (·.2)).getD (t.samplesAt t.curK)
    let ch := epChans sink
    let i := epIndex sink
    let f := (t.f0.getD frame) + (if t.f0.isNone then 0 else t.outAt * s.aptDiv p)
    let last := if t.lastOut.isEmpty then List.replicate ch 0 else t.lastOut
    let got := if ent.isSome then s.outSlot t j else none
    let rep := got.isNone && t.state != 3
    let (fs, s) := match got with
      | some (a, _) =>
        let (d, s) := s.narrowRead a (len * ch * 4)
        ((List.range len).map fun k => (List.range ch).map fun c => leAt d ((k * ch + c) * 4) 4, s)
      | none => (List.replicate len (if rep then last else List.replicate ch 0), s)
    let s := if !rep then s
      else ((s.count Fd.APT_URUN_CNT p len).wr64 Fd.APT_URUN_TIME pin p).setErr Fd.APT_PAGE_ERR_Underrun p
    let a := s.aport p
    let s := if usesGen s.rdAt p || !a.data then s else s.knowFrame p f pin
    let x : Ahead := { entry := t.entry, frame := f, pin := pin, slot := i, rep := rep
                       cols := (List.range ch).map fun c => (fs.map fun y => y.getD c 0, a.histOut.getD (i + c) []) }
    let out := s.aheadWords p x
    let s := s.setAport p fun a =>
      { a with histOut := (List.range (Nat.max a.histOut.length (i + ch))).map fun k =>
                 if i ≤ k ∧ k < i + ch then out.2.getD (k - i) [] else a.histOut.getD k []
               ahead := (a.ahead.filter fun (y : Ahead) => y.entry != t.entry) ++
                 ((a.ahead.filter fun (y : Ahead) => y.entry == t.entry).reverse.take 1) ++ [x] }
    let s := s.setStream t.entry fun t =>
      { t with f0 := some (t.f0.getD frame), taken := j + 1, outAt := t.outAt + len, lastOut := fs.getLastD last
               spans := t.spans.filter fun o => decide (j < o.1), outputs := t.outputs.filter fun o => decide (j < o.1) }
    if t.state = 3 then s.sendAhead p true x f else s.put (.audio p f i out.1)

/-! The steering loop (R370 to R372). -/

/-- RefValid of R371. -/
def refValid (s : State) (i : Nat) : Bool :=
  match s.rdAt Fd.APT_GEN_REF_RefKind 0 i with
  | 1 =>
    match s.stream (s.rdAt Fd.APT_GEN_REF_RefStream 0 i) with
    | some t => t.state == 2 && !(epKind t.source == 1 && s.needsLock (epPort t.source) && s.rd Fd.APT_STATUS_Locked (epPort t.source) == 0)
    | none => false
  | 2 => s.rd Fd.PKT_PTP_STATE_State == 2
  | _ => false

/-- Frames of a port from frame `f0` on, one in `div`, whose pin time has come, in units of 1/256 frame with the fraction since the
latest at the nominal period (R370). -/
def framesFrom (s : State) (p f0 div : Nat) : Nat :=
  let at_ := s.frameBegun p s.now
  if at_ < (f0 : Int) ∨ !(s.aport p).data then 0
  else
    let k := (at_.toNat - f0) / div
    let hz := streamHz s.inForce p
    256 * (k + 1) + Nat.min 255 ((s.now - s.framePin p (f0 + k * div)) * 256 * hz.1 / (hz.2 * 1000000000))

/-- Samples of a stream captured at its source, in units of 1/256 (R370). -/
def captured (s : State) (t : Stream) : Nat :=
  if epKind t.source = 1 then s.framesFrom (epPort t.source) (t.src0 * s.aptDiv (epPort t.source)) (s.aptDiv (epPort t.source))
  else 256 * t.sampleIndex + Nat.min 255 ((s.now - t.lastLand) * 256 * rateHz t.rate / 1000000000)

/-- OutCount of a loop: stream samples emitted at the sink port, or those of RefPort (R370). -/
def outCount (s : State) (i : Nat) : Nat :=
  if s.rdAt Fd.APT_GEN_REF_RefKind 0 i = 1 then
    match s.stream (s.rdAt Fd.APT_GEN_REF_RefStream 0 i) with
    | none => 0
    | some t => (t.f0.map fun f => s.framesFrom (epPort t.sink) f (s.aptDiv (epPort t.sink))).getD 0
  else
    let p := s.rdAt Fd.APT_GEN_REF_RefPort 0 i
    s.framesFrom p 0 (s.aptDiv p)

/-- RefCount of a loop whose first update is `t1` (R370). -/
def refCount (s : State) (i : Nat) (t1 : Int × Nat) : Int :=
  if s.rdAt Fd.APT_GEN_REF_RefKind 0 i = 1 then (((s.stream (s.rdAt Fd.APT_GEN_REF_RefStream 0 i)).map s.captured).getD 0 : Nat)
  else
    let hz := streamHz s.inForce (s.rdAt Fd.APT_GEN_REF_RefPort 0 i)
    (256 * (hz.1 : Int) * (s.ptpScaled s.now 1 - t1.1)).fdiv (hz.2 * 1000000000 * 2 ^ 40) + t1.2

/-- A generator's Trim takes a value: its running ports follow from here on (R351, R371, R374). -/
def setTrim (s : State) (i : Nat) (trim : Int) : State :=
  let ports := (List.range 16).filter fun p => usesGen s.rdAt p && s.rd Fd.APT_MODE_GenSel p == i && s.aptState p != 0
  let s := ports.foldl (fun s p => s.rebase p) s
  let was := s.rdAt Fd.APT_GEN_TRIM 0 i
  let s := s.wrAt Fd.APT_GEN_TRIM 0 i (ofSigned 32 trim)
  if s.rdAt Fd.APT_GEN_TRIM 0 i = was then s else (ports.foldl (fun s p => s.driveClocks p) s).retimeStops

/-- Data frames that the pins of ports on an outside clock have had, as (port, frame, pin time): R370 counts frames by their pin
times (notes/assumptions/38.md). -/
def seePins (s : State) (pins : List (Nat × Nat × Nat)) : State :=
  pins.foldl (fun s x =>
    if usesGen s.rdAt x.1 ∨ !(s.aport x.1).data ∨ s.now < x.2.2 ∨ x.2.2 < (s.aport x.1).pin then s else s.knowFrame x.1 x.2.1 x.2.2) s

/-- 2^UpdateLog2 frames of the counted output have passed since the last update, or the output started anew (R371). -/
def updateDue (s : State) (i : Nat) : Bool :=
  match (s.gens.getD i {}).last with
  | none => true
  | some l => decide (l + 2 ^ s.rdAt Fd.APT_GEN_LOOP_UpdateLog2 0 i ≤ s.outCount i / 256 ∨ s.outCount i / 256 < l)

/-- The procedure SteerUpdate (R371). -/
def steer (s : State) (i : Nat) : State :=
  let g := s.gens.getD i {}
  if 4 ≤ i ∨ !s.updateDue i then s
  else
  let s := s.setGen i fun g => { g with last := some (s.outCount i / 256) }
  if !s.refValid i then
    (s.wrAt Fd.APT_GEN_STATUS_Holding 0 i 1).setGen i fun g => { g with first := true }
  else
    let t1 := g.t1.getD (s.ptpScaled s.now 1, s.outCount i)
    let f := s.refCount i t1 - s.outCount i
    let setFill := s.rdAt Fd.APT_GEN_SETFILL 0 i
    let target : Int := if g.first then (if setFill = 0 then f else setFill) else g.target
    let e := f - target
    let tMax : Int := ((s.rdAt Fd.APT_GEN_LOOP_TrimMaxPpm 0 i * 2 ^ 32 / 1000000 : Nat) : Int)
    let p := e * 2 ^ (48 - s.rdAt Fd.APT_GEN_LOOP_KpLog2 0 i)
    let ki : Int := 2 ^ (48 - s.rdAt Fd.APT_GEN_LOOP_KiLog2 0 i)
    let t := (p + (g.acc + e) * ki).tdiv (2 ^ 24)
    let clamped := decide (tMax < t.natAbs)
    let acc := if clamped then g.acc else g.acc + e
    let trim := clampInt (-tMax) tMax ((p + acc * ki).tdiv (2 ^ 24))
    let lock := if !clamped && decide (e.natAbs ≤ 256) then g.lock + 1 else 0
    let s := s.setGen i fun g => { g with t1 := some t1, first := false, target := target, acc := acc, lock := lock }
    let s := (s.setTrim i trim).wrAt Fd.APT_GEN_FILL 0 i (ofSigned 32 f)
    let s := (s.wrAt Fd.APT_GEN_STATUS_Target 0 i (ofSigned 24 target)).wrAt Fd.APT_GEN_STATUS_Locked 0 i (b2n (decide (16 ≤ lock)))
    (s.wrAt Fd.APT_GEN_STATUS_Holding 0 i 0).wrAt Fd.APT_GEN_STATUS_Clamped 0 i (b2n clamped)

end State

/-- INPUT_BLOCK_LAND (R364). -/
def execInputBlockLand (port : Nat) (codes : List (List Nat)) (pinTime lastEnd : Nat) (s : State) : Result :=
  .next (s.begin_.inputBlock port codes pinTime lastEnd)

/-- OUTPUT_TAKE (R366). -/
def execOutputTake (entry frame pin : Nat) (s : State) : Result :=
  let s := s.begin_
  .next (match s.stream entry with
    | some t => s.takeChunk t frame pin
    | none => s)

/-- IEC_BLOCK_RECEIVE (R361). -/
def execIecBlockReceive (port : Nat) (status user : List Bool) (s : State) : Result := .next (s.begin_.iecBlock port status user)

/-- LOCK_LOSS (R362). -/
def execLockLoss (port : Nat) (codes : List (List Nat)) (pinTime lastEnd : Nat) (s : State) : Result :=
  .next (s.begin_.loseLock port codes pinTime lastEnd)

/-- LOCK_ACQUIRE (R362, R369). -/
def execLockAcquire (port gap : Nat) (s : State) : Result := .next (s.begin_.gainLock port gap)

/-- APT_START (R367). -/
def execAptStart (port : Nat) (s : State) : Result := .next (s.begin_.gated .apt (port % 16) fun s => s.aptEnable (port % 16) 1)

/-- APT_STOP (R368). -/
def execAptStop (port : Nat) (s : State) : Result := .next (s.begin_.gated .apt (port % 16) fun s => s.aptEnable (port % 16) 0)

/-- PREROLL_END (R367). -/
def execPrerollEnd (port : Nat) (s : State) : Result := .next (s.begin_.aptPrerollEnd port)

/-- STOP_END (R368). -/
def execStopEnd (port : Nat) (s : State) : Result := .next (s.begin_.aptStopEnd port)

/-- STEER_UPDATE (R370, R371). -/
def execSteerUpdate (gen : Nat) (pins : List (Nat × Nat × Nat)) (s : State) : Result :=
  .next ((s.begin_.seePins pins).steer gen)

end Sys2Proof.Machine
end

