-- ==== Sys2Proof/Machine/CheckImage.lean ====
section
/-! DEFINITION. What a CHECK asks of a sweep image (01 R26 to R30; 03 R65 to R68, R474, R475; 04 R91, R101, R103, R111;
05 R125 to R147; 06 R153 to R158, R165; 07 R171 to R175, R185; 08 R196, R207; 09 R211 to R219, R225; 10 R236 to R240;
11 R263, R265, R266; 12 R287; 13 R320, R321; 16 R387). -/
namespace Sys2Proof.Machine
open Sys2Proof

/-! Requirement records (R26 to R31). -/

/-- Capability fields by offset: (lsb, width, kind), kind 0 Min, 1 Mask, 2 Info (R31). -/
def capFields : List (Nat × List (Nat × Nat × Nat)) :=
  [(0x400, [(0, 8, 2), (8, 8, 2)]),
   (0x404, [(0, 8, 2), (8, 8, 2), (16, 8, 2), (24, 8, 2)]),
   (0x408, [(0, 8, 2), (8, 8, 2)]),
   (0x40C, [(0, 16, 2), (16, 16, 2)]),
   (0x410, [(0, 9, 1), (16, 3, 1), (20, 4, 1)]),
   (0x414, [(0, 6, 1), (8, 8, 0), (16, 4, 0)]),
   (0x418, [(0, 16, 0), (16, 8, 2), (24, 8, 2)]),
   (0x41C, [(0, 8, 0), (8, 12, 0), (20, 12, 0)]),
   (0x420, [(0, 10, 2), (10, 7, 0), (17, 6, 0), (23, 3, 0)]),
   (0x424, [(0, 11, 0), (16, 5, 2), (24, 5, 0)]),
   (0x428, [(0, 16, 0), (16, 16, 2)]),
   (0x42C, [(0, 9, 1), (9, 1, 1), (10, 1, 1), (11, 3, 1), (14, 2, 1)]),
   (0x430, [(0, 8, 1), (8, 16, 0)]),
   (0x434, [(0, 10, 1)]),
   (0x438, [(0, 16, 0), (16, 8, 2), (24, 8, 2)]),
   (0x43C, [(0, 16, 2), (16, 16, 2)]),
   (0x440, [(0, 8, 0), (8, 8, 0), (16, 8, 0), (24, 3, 1)]),
   (0x444, [(0, 6, 1)])]

/-- A record that is well formed: Min or Mask, on exactly one such field (R26, R29). -/
def recordFormed (off lsb width kind : Nat) : Bool :=
  if 0x448 ≤ off ∧ off ≤ 0x4FC then off % 4 == 0 && decide (lsb + width ≤ 32) && decide (kind ≤ 1)
  else decide (kind ≤ 1) && ((tabGet capFields off).getD []).contains (lsb, width, kind)

/-- The code with which a record fails, its form before its value (R30); bit 5 of byte 3 is not tested. -/
def recordFails (s : State) (r : List Byte) : Option Nat :=
  let off := leAt r 0 2
  let lsb := leAt r 2 1
  let width := leAt r 3 1 % 32 + 1
  let kind := leAt r 3 1 / 64
  let want := leAt r 4 4
  let have_ := if 0x448 ≤ off then 0 else slice (s.word off).toNat lsb width
  if !recordFormed off lsb width kind then some 0xA
  else if kind = 0 then (if have_ < want then some 9 else none)
  else if have_ &&& want ≠ want then some 9
  else none

/-! The image under test. -/

/-- What the rules of one image read: image, header, region entries, ring entries, raw descriptors, stretch, the staged entries
that name it and do not request IDLE, group entries by number, LNK_CHIP. -/
structure ImgView where
  m       : Image
  h       : Header
  ents    : List RegEnt
  raws    : List (List Byte)
  stretch : Nat
  staged  : List Stream
  group   : Nat → List Byte
  chip    : Nat
  cores   : Nat
  /-- A source's bits per sample when it is a raw PDM port (R145). -/
  pdmBits : Stream → Option Nat
  /-- Group sizes (log2) of the weight blocks that the image brings to a region (R91). -/
  wGroups : Nat → List Nat

namespace ImgView

def slots (v : ImgView) : Nat := v.m.streamSlots
def depth (v : ImgView) : Nat := v.m.depth
def kv (v : ImgView) : List Byte := v.m.kv.getD []
def ent (v : ImgView) (d : Desc) (i : Nat) : Option RegEnt := (d.ref i).bind fun e => v.ents[e]?
def lens (v : ImgView) (p : Nat → Bool) : Bool := v.staged.all fun t => p t.chunkLen

/-- Section `i` of the image's list: format and elements. -/
def sec (v : ImgView) (i : Nat) : Option (Nat × Nat) :=
  if i < v.m.numSections then some (leAt v.m.sections (16 * i + 4) 1, leAt v.m.sections (16 * i + 8) 4) else none

end ImgView

def zeroAt (raw : List Byte) (o n : Nat) : Bool := leAt raw o n == 0
def inRange (lo x hi : Nat) : Bool := decide (lo ≤ x ∧ x ≤ hi)

/-- FP32 patterns that are at least 0, and greater than 0. -/
def f32NonNeg (x : Nat) : Bool := !isNan32 x && (!bitAt x 31 || x == 0x80000000)
def f32Pos (x : Nat) : Bool := !isNan32 x && !bitAt x 31 && x != 0

/-! Cycle formula (R23, R28, R68, R125, R158, R173). -/

/-- A pair of weight and activation formats that the grid multiplies (R23, R127). -/
def pairOk (w a : Nat) : Bool :=
  (decide (w ≤ 2) && (a == 6 || a == 7)) || ((w == 3 || w == 4) && (a == 3 || a == 4)) || (w == 5 && a == 5) || (w == 2 && a == 8)

def attnPairOk (kv q : Nat) : Bool := (kv == 3 && (q == 3 || q == 4 || q == 5)) || (kv == 6 && q == 6)

/-- The descriptor's kind and format define a U (R30). -/
def Desc.hasRate (d : Desc) : Bool :=
  match d.kind with
  | 0x01 => pairOk d.wFmt d.aFmt
  | 0x02 => inRange 1 (d.b 0x50 1) 0x13
  | 0x06 => if d.b 0x50 1 ≤ 1 then pairOk d.wFmt d.aFmt else decide (d.b 0x50 1 ≤ 6)
  | 0x07 => decide (d.b 0x50 1 ≤ 3)
  | 0x08 => attnPairOk d.wFmt d.aFmt
  | 0x09 => decide (d.b 0x50 1 ≤ 2)
  | 0x0A => pairOk d.wFmt d.aFmt
  | 0x0D => decide (d.b 0x50 1 ≤ 4)
  | _ => true

/-- Condition 4 of R28 with the tests of R30 before it: the code with which a descriptor fails. -/
def opFails (v : ImgView) (maxCycles : Nat) (d : Desc) : Option Nat :=
  if d.kind = 0 ∨ 0x0D < d.kind then some 0xA
  else if d.granule = 0 ∨ !d.hasRate then some 5
  else if maxCycles < d.cycles v.cores (v.m.maxBatch * 2 ^ v.stretch) then some 0xB
  else none

/-! Rules that every kind shares. -/

/-- The kind writes an output under a conversion word (R101). -/
def Desc.converts (d : Desc) : Bool := [0x01, 0x02, 0x05, 0x06, 0x07, 0x08, 0x0A, 0x0B].contains d.kind

/-- Reserved bits and bytes of header and Body that hold a value (R66, R474), kind by kind. -/
def reservedSet (raw : List Byte) (d : Desc) : Bool :=
  let b := d.b
  let body : Bool := match d.kind with
    | 0x01 => !zeroAt raw 0x68 15
    | 0x02 => slice (b 0x51 1) 2 6 != 0 || !zeroAt raw 0x52 2 || !zeroAt raw 0x68 15 || d.aFmt != 0
    | 0x03 => slice (b 0x50 1) 3 5 != 0 || !zeroAt raw 0x5D 27
    | 0x04 => !zeroAt raw 0x53 1 || !zeroAt raw 0x5C 27
    | 0x05 => !zeroAt raw 0x51 3 || !zeroAt raw 0x5C 28
    | 0x06 => slice (b 0x51 1) 2 6 != 0 || !zeroAt raw 0x5F 1 || !zeroAt raw 0x66 17
    | 0x07 => !zeroAt raw 0x51 1 || !zeroAt raw 0x59 3 || !zeroAt raw 0x5E 25
    | 0x08 => slice (b 0x50 1) 5 3 != 0 || !zeroAt raw 0x6B 1 || !zeroAt raw 0x70 7
    | 0x09 => !zeroAt raw 0x56 33
    | 0x0A => slice (b 0x50 1) 6 2 != 0 || slice (b 0x51 1) 4 4 != 0 || !zeroAt raw 0x6B 1 || !zeroAt raw 0x70 7
    | 0x0B => slice (b 0x50 1) 6 2 != 0 || slice (b 0x51 1) 4 4 != 0 || !zeroAt raw 0x6B 1 || !zeroAt raw 0x70 7 || d.aFmt != 0
    | 0x0C => slice (b 0x56 1) 4 4 != 0 || !zeroAt raw 0x57 1 || !zeroAt raw 0x64 19
    | _ => !zeroAt raw 0x5B 28
  slice d.flags 5 3 != 0 || !zeroAt raw 5 3 || body || slice d.maskByte 5 3 != 0 || decide (2 ≤ slice d.maskByte 3 2) ||
    (!d.converts && b 0x78 8 != 0) || d.rings.any fun r => slice r 20 12 != 0

/-- Reserved encodings of the output conversion word (R101, R474) and the rules of R91 and R111 on it. -/
def convFails (v : ImgView) (d : Desc) : Bool :=
  d.converts &&
    (let w := d.b 0x78 8
     let fmt := slice w 0 4
     let carried := bitAt w 10
     !([3, 4, 5, 6, 7, 9, 0xF].contains fmt) || slice w 4 2 == 3 || slice w 11 5 != 0 ||
       ((slice w 6 2 != 0 || carried) && fmt != 6 && fmt != 7) ||
       (carried && ((d.ref 6).isNone || (d.ref 7).isNone || v.m.cls == 1)))

/-- Bad region references (R240). -/
def refsBad (v : ImgView) (d : Desc) : Bool :=
  d.regions.any fun r =>
    if bitAt r 31 then
      slice r 15 16 != 0 || (match v.ents[r % 4096]? with
        | some e => e.cls != slice r 12 3
        | none => true)
    else r != 0

/-- Bad ring references (R266). -/
def ringRefsBad (v : ImgView) (d : Desc) : Bool :=
  d.ringRefs.any fun r => match v.m.rings[r.1]? with
    | some g => !inRange 1 r.2 (g.slots - 1)
    | none => true

/-- The rules of mask slots (R139). -/
def maskFails (v : ImgView) (i : Nat) (d : Desc) : Bool :=
  let reads := d.gateAware || d.exitPoint
  let gates := v.m.descs.zipIdx.filter fun x => x.1.kind == 3 && slice (x.1.b 0x50 1) 0 3 == d.maskSlot
  if !reads then d.maskByte != 0
  else
    d.kind == 3 || d.kind == 5 || gates.isEmpty || gates.any fun x =>
      decide (d.chunkLag < x.1.chunkLag ∨ x.1.chunkLag + 3 < d.chunkLag) || (d.chunkLag == x.1.chunkLag && decide (i ≤ x.2))

/-! Rules of one kind each. Lists of (fails, code), in the order of the rules. -/

/-- Nearest Expert routing descriptor before `i` (R144). -/
def routerOf (m : Image) (i : Nat) : Option Desc := ((m.descs.take i).filter fun x => x.kind == 4).getLast?

def groupOk (g : Nat) : Bool := inRange 5 g 7
/-- GroupWLog2 and GroupALog2 fit the pair (R128, R129). -/
def groupsFail (w a gw ga : Nat) : Bool :=
  if w ≤ 2 ∧ a ≠ 8 then !groupOk gw || !groupOk ga || (a == 7 && decide (ga < gw)) else gw != 0 || ga != 0

/-- Whether compression on a side breaks R135: format, elements, group exponent. -/
def compFails (on : Bool) (fmt elems glog : Nat) : Bool := on && (fmt != 6 || elems % 64 != 0 || decide (glog < 6))

def convGroup (d : Desc) : Nat := 5 + slice (d.b 0x78 8) 4 2
def Desc.outElems (d : Desc) : Nat := d.b 0x7C 4

/-- Rules R125 to R137, R144, R145. -/
def matrixFails (v : ImgView) (i : Nat) (d : Desc) : List (Bool × Nat) :=
  let rows := d.b 0x50 2
  let k := d.b 0x54 4
  let nout := d.b 0x58 4
  let gw := d.b 0x5C 1
  let ga := d.b 0x5D 1
  let hop := d.b 0x5E 2
  let sparse := d.mflag 6 || d.mflag 7
  let a1 := d.aFmt == 8
  let u := d.unitRate 8
  let kp := roundUp k (Nat.max 128 (u.1 / u.2 / 64))
  let np := roundUp nout 64
  let table := ((v.ent d 2).map (·.sparse)).getD 0
  let present := leAt v.m.layout (table + 4 * (np / 32 - 1)) 4
  let router := routerOf v.m i
  let topK := (router.map fun r => r.b 0x51 1).getD 0
  let work := if d.experts ≠ 0 then rows * topK * kp * np else if d.mflag 7 then rows * 32 * present else rows * kp * np
  let capsDiffer : Bool := d.mflag 2 && v.m.descs.any fun (x : Desc) =>
    (x.ref 1).isSome && x.ref 1 == d.ref 0 &&
      ((x.kind == 1 && x.mflag 3 && x.mflag 5 != d.mflag 4) || (x.kind == 2 && bitAt (x.b 0x51 1) 0 && bitAt (x.b 0x51 1) 1 != d.mflag 4))
  [(!pairOk d.wFmt d.aFmt, 5), (!inRange 1 rows 4096 || decide (64 < d.experts), 5),
   (d.granule * u.2 != u.1, 5), (k == 0, 5), (nout == 0, 0xC),
   (d.mflag 0 && d.mflag 1, 5), (d.experts != 0 && (d.mflag 0 || d.mflag 1), 5), (groupsFail d.wFmt d.aFmt gw ga, 5),
   (d.experts == 0 && d.b 0x60 8 != 0, 5), (!a1 && hop != 0, 5),
   ((sparse && decide (2 < d.wFmt)) || (d.mflag 6 && a1), 5), (d.mflag 2 && sparse, 5),
   (compFails (d.mflag 2) d.aFmt (rows * k) ga || compFails (d.mflag 3) d.conv.outFmt d.outElems (convGroup d), 5), (capsDiffer, 5),
   (d.experts != 0 && !(router.any fun r => r.lag == d.lag && r.lagUnit == d.lagUnit && r.b 0x50 1 == d.experts), 5),
   (d.workPerStream != work, 5), (d.outElems != rows * nout, 5),
   (a1 && !inRange 1 hop k, 5),
   (a1 && v.staged.any (fun t => match v.pdmBits t with
      | some r => t.chunkLen * r != rows * hop
      | none => false), 5)]

def Desc.rowOp (d : Desc) : Bool := inRange 0x0F (d.b 0x50 1) 0x13

/-- Rules R146 and R147. -/
def vectorFails (d : Desc) : List (Bool × Nat) :=
  let elems := d.b 0x54 4
  let feat := d.b 0x58 4
  let out := if d.b 0x50 1 = 0x0F ∨ d.b 0x50 1 = 0x10 then elems / Nat.max 1 feat else elems
  [(!([5, 6, 7, 9].contains d.wFmt) || !inRange 1 (d.b 0x50 1) 0x13, 5),
   (if d.rowOp then !inRange 1 feat 65536 || d.granule != feat || elems % Nat.max 1 feat != 0
    else feat != 0 || d.granule != (d.unitRate 8).1, 5),
   (d.outElems != out, 5), (!f32NonNeg (d.b 0x64 4), 5),
   (compFails (bitAt (d.b 0x51 1) 0) d.conv.outFmt d.outElems (convGroup d), 5)]

/-- Rules R125 and R138. -/
def gateFails (v : ImgView) (d : Desc) : List (Bool × Nat) :=
  let secOk : Bool := match v.sec (d.b 0x5C 1) with
    | some x => x.1 == 2 && decide (4 ≤ x.2)
    | none => false
  [(d.format != 9 || decide (1 < d.b 0x51 1), 5), (d.granule != 1 || d.workPerStream != 1, 5),
   (d.b 0x51 1 == 1 && (!((v.ent d 1).any fun e => e.cls == 2) || !secOk), 5),
   (d.b 0x51 1 == 0 && (d.regions.getD 1 0 != 0 || d.b 0x5C 1 != 0xFF), 5)]

/-- Rules R125 and R142. -/
def routingFails (s : State) (d : Desc) : List (Bool × Nat) :=
  let n := d.b 0x50 1
  let k := d.b 0x51 1
  [(d.format != 9, 5), (!inRange 1 n 64 || decide (s.rd Fd.CTL_CAP_SPARSE_MaxExperts < n), 5),
   (!inRange 1 k 8 || decide (s.rd Fd.CTL_CAP_SPARSE_MaxTopK < k ∨ n < k), 5), (decide (2 < d.b 0x52 1), 5), (d.granule != n, 5)]

/-- Rules R103 and R125. -/
def conversionFails (d : Desc) : List (Bool × Nat) :=
  [(!([3, 4, 5, 9, 0xA, 0xB].contains (d.b 0x50 1)), 5), (d.b 0x54 4 != d.outElems, 5),
   (d.granule != 64 || d.workPerStream != d.outElems, 5)]

/-- State sections that a descriptor writes, with its AnnealM1 (R157). -/
def Desc.anneals (d : Desc) : List (Nat × Nat) :=
  if d.kind = 6 then (d.b 0x5C 1, d.b 0x64 2) :: (if d.b 0x50 1 = 0 then [(d.b 0x5D 1, d.b 0x64 2)] else [])
  else if d.kind = 7 then [(d.b 0x58 1, d.b 0x5C 2)]
  else []

def annealsDiffer (v : ImgView) (d : Desc) : Bool :=
  d.anneals.any fun a => v.m.descs.any fun x => x.anneals.any fun b => a.1 == b.1 && a.2 != b.2

def stretchesRecurrence (v : ImgView) : Bool := v.staged.any fun t => t.cls == 1 && decide (t.chunkLen < t.chunkMax)

/-- Rules R156 to R158. -/
def recurrenceFails (v : ImgView) (d : Desc) : List (Bool × Nat) :=
  let cell := d.b 0x50 1
  let gated := decide (cell ≤ 1)
  let h := d.b 0x52 2
  let inf := d.b 0x54 2
  let steps := d.b 0x56 2
  let col := d.b 0x58 2
  let hop := d.b 0x5A 2
  let proj := bitAt (d.b 0x51 1) 0
  let u := d.unitRate 8
  let g := if cell = 0 then 4 else 3
  [(decide (6 < cell), 5),
   (if gated then !pairOk d.wFmt d.aFmt else d.wFmt != 9 || !([5, 6, 9].contains d.aFmt), 5),
   (!inRange 1 h 4096 || !inRange 1 steps 4096 || !inRange 1 hop 4096 || (if proj then !inRange 1 inf 4096 else inf != 0), 5),
   (cell == 6 && (decide (3 < d.b 0x5E 1) || (d.b 0x5E 1 == 2 && !f32Pos (d.b 0x60 4))), 5),
   (decide (1 < steps) && gated, 5), (!v.lens fun n => n % Nat.max 1 hop == 0, 5),
   (decide (col < d.lag) || !v.lens (fun n => decide (col - d.lag + steps ≤ n / Nat.max 1 hop)), 5),
   (d.lagUnit == 0 && d.chunkScaled, 5), (cell != 0 && d.b 0x5D 1 != 0xFF, 5), (annealsDiffer v d, 5), (stretchesRecurrence v, 5),
   (gated && d.aFmt == 7 && (d.ref 2).any fun e => (v.wGroups e).any fun gw => decide (convGroup d < gw), 5),
   (gated && decide (d.cycFixed < ceilDiv (g * (h + inf) * u.2) (Nat.max 1 u.1)), 5)]

/-- Rules of R165. -/
def scanFails (v : ImgView) (d : Desc) : List (Bool × Nat) :=
  [(decide (3 < d.b 0x50 1), 5), (!inRange 1 (d.b 0x52 2) 4096, 5), (!v.lens fun n => n == d.b 0x54 2 * d.b 0x56 2, 5),
   (annealsDiffer v d, 5), (stretchesRecurrence v, 5)]

/-- Bytes that a region entry holds (R239). -/
def RegEnt.bytes (e : RegEnt) (slots : Nat) : Nat := e.total slots * 256

/-- Rules R171 to R175 and R185. -/
def attentionFails (v : ImgView) (i : Nat) (d : Desc) : List (Bool × Nat) :=
  let fl := d.b 0x50 1
  let gq := d.b 0x51 1
  let dim := d.b 0x52 2
  let n := d.b 0x55 1
  let rows := d.b 0x56 2
  let keys := d.b 0x58 4
  let win := d.b 0x5C 4
  let hop := d.b 0x68 2
  let ga := d.b 0x6A 1
  let heads := Kv.heads v.kv
  let qr := Nat.max (gq * rows) 8
  let partialOut := bitAt fl 3
  let layer := v.m.layerOf i
  let covered (h : Nat) : Bool := v.m.descs.zipIdx.any fun x =>
    x.1.kind == 8 && v.m.layerOf x.2 == layer && decide (x.1.b 0x54 1 ≤ h ∧ h < x.1.b 0x54 1 + x.1.b 0x55 1)
  let out := if partialOut then rows * gq * n * (dim + 4) else rows * gq * n * dim
  let room := ((v.ent d 4).map fun e => e.bytes v.slots / (4 * dim + 16)).getD 0
  [(!attnPairOk d.wFmt d.aFmt, 5),
   (slice fl 0 2 == 3 || !inRange 1 gq 64 || !inRange 32 dim 256 || dim % 32 != 0 || !inRange 1 n 64 || !inRange 1 rows 4096 ||
     !inRange 64 keys 1048576 || keys % 64 != 0 || hop == 0, 5),
   (if slice fl 0 2 = 2 then !inRange 1 win keys else win != 0, 5), (d.b 0x64 4 != 0 && !f32Pos (d.b 0x64 4), 5),
   (decide (heads < d.b 0x54 1 + n), 5), (!v.lens fun x => x == rows * hop, 5),
   (partialOut && (bitAt fl 4 || d.conv.outFmt != 0xF), 5), (bitAt (d.b 0x78 8) 10, 5),
   (if d.aFmt = 6 then !groupOk ga || dim % 2 ^ ga != 0 else ga != 0, 5),
   (d.granule != 64 * qr || d.workPerStream != n * keys * qr, 5), (d.outElems != out, 5),
   (v.m.cls == 0 && (bitAt fl 2 || partialOut || !(List.range heads).all covered), 5),
   (decide (room < 2 * (v.cores - 1) * (gq * rows) * 2 ^ v.stretch), 4)]

/-- Attention descriptors of a layer. -/
def layerAttn (v : ImgView) (l : Nat) : List Desc :=
  (v.m.descs.zipIdx.filter fun x => x.1.kind == 8 && v.m.layerOf x.2 == l).map (·.1)

/-- Place of a descriptor in the order of R207: 0 Append, 1 Stage, 2 to 5 Attention by MergeIn and PartialOut, 6 rotation. -/
def ringPlace (v : ImgView) (l i : Nat) (d : Desc) : Option Nat :=
  if d.kind = 9 ∧ d.b 0x51 1 = l then some (d.b 0x50 1 + (if d.b 0x50 1 = 2 then 6 else 0))
  else if d.kind = 8 ∧ v.m.layerOf i = l then some (2 + b2n (bitAt (d.b 0x50 1) 2) + 2 * b2n (bitAt (d.b 0x50 1) 3))
  else if d.kind = 0x0D ∧ d.b 0x50 1 = 4 ∧ d.b 0x5A 1 = l then some 6
  else none

/-- The descriptors of a layer, by index, with their places. -/
def ringRow (v : ImgView) (l : Nat) : List (Nat × Nat) :=
  v.m.descs.zipIdx.filterMap fun x => (ringPlace v l x.2 x.1).map fun p => (x.2, p)

/-- The order of a layer on G chips. -/
def ringOrder (g : Nat) : List Nat := [0, 1, 4] ++ (List.replicate (g - 2) [6, 5]).flatten ++ [6, 3]

/-- A descriptor stands outside the order of R207. -/
def ringFails (v : ImgView) (i : Nat) (d : Desc) : Bool :=
  let g := Kv.ring v.kv
  let l := if d.kind = 9 then d.b 0x51 1 else if d.kind = 0x0D then d.b 0x5A 1 else v.m.layerOf i
  if d.kind = 8 ∨ d.kind = 9 ∨ (d.kind = 0x0D ∧ d.b 0x50 1 = 4) then
    if g = 0 then d.kind == 0x0D
    else
      let row := ringRow v l
      let want := ringOrder g
      (match (row.zipIdx.find? fun x => x.1.1 == i) with
       | some x => want[x.2]? != some x.1.2 || (x.2 + 1 == row.length && row.length != want.length)
       | none => true)
  else false

/-- Rules of R196. -/
def kvMoveFails (v : ImgView) (d : Desc) : List (Bool × Nat) :=
  let op := d.b 0x50 1
  let l := d.b 0x51 1
  let rows := d.b 0x52 2
  let hop := d.b 0x54 2
  let tok := 2 * Kv.heads v.kv * Kv.dim v.kv
  let attn := layerAttn v l
  [(decide (2 < op ∨ Kv.layers v.kv ≤ l), 5),
   (if op = 0 then rows != Kv.tokPerBase v.kv || attn.any fun a => a.b 0x68 2 != hop || a.chunkScaled != d.chunkScaled
    else hop != 0 || (op == 1 && rows != 0), 5),
   (if op = 1 then d.format != 0 else d.wFmt != 5 && d.wFmt != 9, 5),
   (if op = 1 then d.granule != 1 || d.workPerStream != 0 else d.granule != tok || d.workPerStream != rows * tok, 5)]

/-- Cycles that a cane's halo takes (R219). -/
def haloCyc (d : Desc) : Nat :=
  let n := (d.dilT * (d.kt - 1) + 1) * d.fin * d.cin
  if d.sflag 3 then ceilDiv (n * d.tileBytes) (64 * 256)
  else
    let b := if d.mapFmt = 5 then 2 else if d.mapFmt = 9 then 4 else 1
    ceilDiv (n * b) 256

/-- Rules R211 to R216, R219. -/
def spectralFails (v : ImgView) (d : Desc) : List (Bool × Nat) :=
  let conv := d.kind == 0x0A
  let gr := d.b 0x5C 2
  let gw := d.b 0x69 1
  let ga := d.b 0x6A 1
  let hist := d.history
  let secHist := d.b 0x68 1
  let tout := d.tout.toNat
  let fout := d.fout.toNat
  let frame := fout * d.cout * d.kt * d.kf * (if conv then d.cin / Nat.max 1 gr else 1)
  let secOk : Bool := match v.sec secHist with
    | some x => x.1 == 2 && decide (4 * d.padAT * d.fin * d.cin ≤ x.2)
    | none => false
  let fmtBad :=
    if conv then !pairOk d.wFmt d.aFmt || d.aFmt == 7 || d.aFmt == 8 || (d.sflag 3 && d.aFmt != 5)
    else !([5, 6, 9].contains d.wFmt) || (d.sflag 3 && d.wFmt != 5 && d.wFmt != 9)
  [(!conv && (d.sflag 2 || gw != 0 || d.b 0x6C 4 != 0), 5), (d.padT == 3 || decide (2 ≤ d.padF), 5),
   (d.frameHop == 0 || !inRange 1 d.tin 4096 || !inRange 1 d.fin 4096 || !inRange 1 d.cin 4096 || !inRange 1 d.cout 4096, 5),
   (if conv then !inRange 1 gr d.cin || d.cin % Nat.max 1 gr != 0 || d.cout % Nat.max 1 gr != 0 || (gr == 1 && d.b 0x6C 4 != 0)
    else gr != 1 || d.cout != d.cin, 5),
   ([d.kt, d.kf, d.strideT, d.strideF, d.dilT, d.dilF].contains 0, 5), (fmtBad, 5),
   (if conv then groupsFail d.wFmt d.aFmt gw ga else if d.wFmt = 6 then !groupOk ga else ga != 0, 5),
   (decide (d.tout ≤ 0 ∨ d.fout ≤ 0), 0xC), (d.outElems != tout * fout * d.cout, 5),
   (!v.lens fun n => n == d.tin * d.frameHop, 5),
   (hist && (d.padAT != d.dilT * (d.kt - 1) || d.b 0x65 1 != 0 || d.tin % d.strideT != 0), 5),
   (if hist then secHist == 0xFF || !secOk else secHist != 0xFF, 5),
   (d.granule != frame || d.workPerStream != tout * frame || decide (d.cycFixed < haloCyc d), 5),
   (d.sflag 4 && d.conv.outFmt != 0xF, 5), ((d.sflag 3 && d.tin * d.fin * d.cin % 64 != 0) || (d.sflag 4 && d.outElems % 64 != 0), 5)]

/-- Rules of R216 and R225. -/
def eventFails (d : Desc) : List (Bool × Nat) :=
  let work := d.b 0x50 2 * (d.b 0x52 2 + d.b 0x54 2 + 4)
  let iou := d.b 0x5C 4
  [(d.format != 9 || d.chunkScaled, 5),
   (!inRange 1 (d.b 0x50 2) 4096 || !inRange 1 (d.b 0x52 2) 1024 || !inRange 1 (d.b 0x54 2) 256 || d.b 0x60 2 == 0, 5),
   (d.granule != work || d.workPerStream != work, 5), (!f32NonNeg iou || (decide (0x3F800000 < iou) && iou != 0x80000000), 4)]

/-- A group entry that fails (R320). -/
def groupBad (chip : Nat) (g : List Byte) : Bool :=
  let n := leAt g 0 1
  let rank := leAt g 1 1
  let members := (List.range n).map fun i => leAt g (8 + 2 * i) 2 % 1024
  !inRange 2 n 16 || decide (n ≤ rank) || members.getD rank 1024 != chip || (dedup members).length != members.length

/-- Rules R320 and R321. -/
def collectiveFails (v : ImgView) (d : Desc) : List (Bool × Nat) :=
  let op := d.b 0x50 1
  let red := d.b 0x51 1
  let p := d.b 0x54 4
  let entry := v.group (d.b 0x52 1)
  let g := leAt entry 0 1
  let units := match op with
    | 1 => p / Nat.max 1 g
    | 2 => p * g
    | _ => p
  let cls := if op ≤ 1 then 3 else 0
  let ref1 := (v.ent d 1).any fun e => e.level == 1 && e.perStream && e.cls == cls && decide (v.depth * units ≤ e.units)
  let ref2 := (v.ent d 2).any fun e => e.level == 1 && e.perStream && e.cls == 0 && e.versioned && e.units == v.depth * p
  [(d.format != 0 || decide (4 < op) || decide (63 < d.b 0x52 1), 5), (groupBad v.chip entry, 5),
   (if op ≤ 1 then decide (4 < red) else red != 0, 5), (op == 3 && decide (g ≤ d.b 0x53 1), 5),
   (if op = 4 then p != 0 else (v.ent d 0).isNone || !ref1 || !ref2, 5), (op == 1 && p % Nat.max 1 g != 0, 5), (d.chunkScaled, 5)]

/-- The code with which a descriptor fails its kind's rules. -/
def descFails (s : State) (v : ImgView) (i : Nat) (d : Desc) : Option Nat :=
  firstCode ([(reservedSet (v.raws.getD i []) d, 5), (refsBad v d, 5), (ringRefsBad v d, 5), (convFails v d, 5), (maskFails v i d, 5)] ++
    (match d.kind with
     | 0x01 => matrixFails v i d
     | 0x02 => vectorFails d
     | 0x03 => gateFails v d
     | 0x04 => routingFails s d
     | 0x05 => conversionFails d
     | 0x06 => recurrenceFails v d
     | 0x07 => scanFails v d
     | 0x08 => attentionFails v i d
     | 0x09 => kvMoveFails v d
     | 0x0C => eventFails d
     | 0x0D => collectiveFails v d
     | _ => spectralFails v d) ++ [(ringFails v i d, 5)])

/-! Region entries (R153, R238). -/

/-- A region entry breaks R238. `before` are the entries ahead of it. -/
def regionBad (s : State) (v : ImgView) (before : List RegEnt) (e : RegEnt) : Bool :=
  let all := before ++ [e]
  let shared := sumNat ((all.filter fun x => x.cls == 3).map fun x => x.bytes v.slots)
  let contents := e.srcOff != 0 || e.srcLen != 0 || e.sparse != 0
  decide (1 < e.level ∨ 5 < e.cls) || slice e.eflags 3 5 != 0 || !zeroAt e.raw 3 1 || !zeroAt e.raw 0x1C 4 || e.units == 0 ||
    (e.level == 0 && (e.cls != 0 || e.perStream)) ||
    (if e.circular then e.slotBytes == 0 || e.slotBytes % 256 != 0 || e.units * 256 % Nat.max 1 e.slotBytes != 0 else e.slotBytes != 0) ||
    (e.versioned && ((e.cls != 0 && e.cls != 2) || e.units % v.depth != 0)) ||
    (if e.cls = 1 then decide (e.units * 256 < e.srcLen ∨ v.m.len < e.srcOff + e.srcLen) else contents) ||
    (e.cls == 3 && decide (s.rd Fd.CTL_CAP_REGION_SharedMaxMiB * 2 ^ 20 < shared)) ||
    decide (64 < (all.filter fun x => x.level == 0).length) || decide (256 < (all.filter fun x => x.level == 1).length)

def regionsFail (s : State) (v : ImgView) : Option Nat :=
  match (v.ents.zipIdx.find? fun x => regionBad s v (v.ents.take x.2) x.1) with
  | some x => some x.2
  | none =>
    let st := v.ents.zipIdx.filter fun x => x.1.cls == 2
    let ok : Bool := match st with
      | [] => v.m.numSections == 0
      | [x] => v.m.numSections != 0 && x.1.level == 1 && x.1.perStream && x.1.versioned
      | _ => false
    if ok then none else some ((st.head?.map (·.2)).getD 0)

/-! Rings and gather programs (R260 to R266, R287). -/

def instrOp (i : List Byte) : Nat := leAt i 0 1
def instrLevel (i : List Byte) : Nat := slice (leAt i 1 1) 4 3
def usesStreams (p : List Byte) : Bool := (gatherInstrs p).any fun i => instrOp i == 5

/-- References that a descriptor writes through. -/
def Desc.writes (d : Desc) : List Nat :=
  if d.kind = 9 then [2, 4] else if d.kind = 0x0D then [1, 2] else if d.kind = 8 then [1, 4, 5, 7] else [1, 5, 6, 7]

def ringBad (v : ImgView) (lay : List Byte) (i : Nat) (r : Ring) : Bool :=
  let raw := bytesAt lay (leAt lay 8 4 + 32 * i) 32
  let prog := v.m.programs[r.program]?
  slice (leAt raw 3 1) 1 7 != 0 || !zeroAt raw 7 25 || !inRange 3 r.slots 16 || decide (r.slots ≤ r.minFill) ||
  (match v.ents[r.region]? with
   | none => true
   | some e => e.level != 1 || !e.circular || e.perStream || e.units * 256 != r.slots * e.slotBytes ||
      (e.cls == 1 && (r.egress || v.m.descs.any fun d => d.writes.any fun q => d.ref q == some r.region))) ||
  (match prog with
   | none => true
   | some p => leAt p 0 2 != i || v.m.programs.zipIdx.any (fun y => y.2 != r.program && leAt y.1 0 2 == i) || (usesStreams p && (r.minFill != 0 || (v.m.descs.head?.any fun d => d.ringRefs.any fun x => x.1 == i))))

/-- What a program's rules carry along it: open levels with whether STREAMS opened them, whether STREAMS has appeared, the
selector and offset of each generator, SLOTs so far, MOVEs since the last SLOT, whether a rule is broken. -/
structure ProgWalk where
  opens : List (Nat × Bool) := []
  seen  : Bool := false
  base  : List (Nat × Int) := [(0, 0), (0, 0)]
  slots : Nat := 0
  moves : Nat := 0
  bad   : Bool := false

/-- A generator's base lies in scratchpad (R263). -/
def baseInSpad (b : Nat × Int) : Bool := b.1 == 2 || b.1 == 3 || (b.1 == 0 && decide (0 ≤ b.2 ∧ b.2 < (2 ^ 33 : Nat)))

/-- The ends of a MOVE break R263 or R287. -/
def moveBad (egress weight : Bool) (base : List (Nat × Int)) (i : List Byte) : Bool :=
  let src := base.getD 0 (0, 0)
  let dst := base.getD 1 (0, 0)
  let xf := leAt i 1 1 % 16
  decide (5 < xf) || (baseInSpad src == baseInSpad dst) || (if egress then src.1 != 3 else dst.1 != 3) ||
    (weight && (xf != 0 || src.1 != 1)) || (xf == 5 && decide (4 ≤ leAt i 1 1 / 16))

/-- Some MOVE breaks R263 on a later pass of the loops about it: each body that runs more than once is walked twice, with the bases
that its first pass leaves; the open levels are their bodies, each with whether a pass is still to come. -/
def laterPassBad (egress weight : Bool) (is : List (List Byte)) : Nat → Nat → List (Nat × Bool) → List (Nat × Int) → Bool
  | 0, _, _, _ => false
  | fuel + 1, pc, opens, base =>
    match is[pc]? with
    | none => false
    | some i =>
      let on := laterPassBad egress weight is fuel (pc + 1)
      match instrOp i with
      | 1 => on opens (listSet base (leAt i 1 1 % 2) (leAt i 1 1 / 16, toSigned 48 (leAt i 8 6)))
      | 4 => on ((pc + 1, decide (slice (leAt i 4 4) 0 24 ≠ 0)) :: opens) base
      | 5 => on ((pc + 1, true) :: opens) base
      | 6 =>
        match opens with
        | (body, true) :: os => laterPassBad egress weight is fuel body ((body, false) :: os) base
        | _ :: os => on os base
        | [] => false
      | 7 => moveBad egress weight base i || on opens base
      | _ => on opens base

/-- One instruction of a program under R263 and R287. -/
def ProgWalk.step (v : ImgView) (egress weight last : Bool) (w : ProgWalk) (i : List Byte) : ProgWalk :=
  let fail (c : Bool) (w : ProgWalk) : ProgWalk := { w with bad := w.bad || c }
  let level := instrLevel i
  let inStreams := w.opens.any (·.2)
  let opens (st : Bool) : ProgWalk :=
    fail (decide (5 < level) || w.opens.any (fun o => o.1 == level)) { w with opens := (level, st) :: w.opens }
  match instrOp i with
  | 1 =>
    let gen := leAt i 1 1 % 2
    let sel := leAt i 1 1 / 16
    let ent := v.ents[leAt i 2 2 % 4096]?
    let entBad : Bool := sel == 2 && (match ent with
      | some e => e.level != 1 || e.cls == 1 || (e.perStream && !inStreams)
      | none => true)
    fail (decide (7 < sel) || (decide (4 ≤ sel) && !inStreams) || entBad)
      { w with base := listSet w.base gen (sel, toSigned 48 (leAt i 8 6)) }
  | 2 => fail (decide (5 < level)) w
  | 3 =>
    let md := toSigned 48 (leAt i 8 6)
    fail (decide (md < 0 ∨ md % 256 ≠ 0)) w
  | 4 => opens false
  | 5 =>
    let x := opens true
    fail w.seen { x with seen := true }
  | 6 =>
    match w.opens with
    | o :: os => fail (o.1 != level) { w with opens := os }
    | [] => fail true w
  | 7 => fail (moveBad egress weight w.base i) { w with moves := w.moves + 1 }
  | 8 => { w with slots := w.slots + 1, moves := 0 }
  | 9 => w
  | 10 => fail (!last) w
  | _ => fail true w

def programBad (v : ImgView) (p : List Byte) : Bool :=
  let is := gatherInstrs p
  let ring := v.m.rings[leAt p 0 2]?
  let egress := ring.any (·.egress)
  let weight := ring.any fun r => (v.ents[r.region]?).any fun e => e.cls == 1
  let w := is.zipIdx.foldl (fun (w : ProgWalk) x => w.step v egress weight (x.2 + 1 == is.length) x.1) {}
  ring.isNone || !inRange 1 is.length 32 || laterPassBad egress weight is 4096 0 [] [(0, 0), (0, 0)] || (is.getLast?.any fun i => instrOp i != 10) || w.bad || !w.opens.isEmpty || w.slots == 0 || w.moves != 0

/-! Test 1 of R65 and R236. -/

/-- Bytes that the gather records take, none where a record runs beyond `room`. -/
def gatherLen : Nat → List Byte → Option Nat
  | 0, _ => some 0
  | n + 1, bs =>
    let len := 16 + 16 * leAt bs 2 1
    if bs.length < len then none else (gatherLen n (bs.drop len)).map (· + len)

/-- Bytes of the count table that a descriptor reads with BlockSparse (R134). -/
def countBytes (ds : List Desc) (entry : Nat) : Nat :=
  maxNat ((ds.filter fun d => d.kind == 1 && d.mflag 7 && d.ref 2 == some entry).map fun d =>
    4 * (roundUp (d.b 0x58 4) 64 / 32))

namespace State

/-- Directory base under staged values. -/
def stagedDir (s : State) : Nat := s.baseSh Fd.GAF_IMAGE_DIR_LO_DirLo Fd.GAF_IMAGE_DIR_HI_DirHi

/-- The image's header and layout can be read (R65 test 1 without its digest, R236). -/
def imageFormed (s : State) (id : Nat) : Bool :=
  let (addr, len, valid) := s.dirEntry s.stagedDir id
  let hb := s.devBytes addr 128
  let h := parseHeader hb
  let fits (o n : Nat) : Bool := decide (o + n ≤ len)
  let lay := if fits h.layoutOff 16 then s.devBytes (addr + h.layoutOff) (layoutEnd h len - h.layoutOff) else []
  let inLay (o n : Nat) : Bool := decide (h.layoutOff + o + n ≤ len)
  let ents := layoutRegions lay
  valid == 1 && addr % 4096 == 0 && decide (128 ≤ len) && s.inLpddr addr len && h.magic == 0x53505943 && decide (h.cls ≤ 1) &&
    zeroAt hb 0x4B 21 && fits h.reqOff (8 * h.numReq) && fits h.opOff (128 * h.numOps) && fits h.weightOff h.weightLen &&
    decide (h.gatherOff ≤ len) && (gatherLen h.numGather (s.devBytes (addr + h.gatherOff) (len - h.gatherOff))).isSome &&
    fits h.layoutOff 16 && inRange 1 (leAt lay 0 2) 320 && inRange 1 (leAt lay 4 2) 4096 && inLay 0x10 (32 * leAt lay 0 2) &&
    inLay (leAt lay 8 4) (32 * leAt lay 2 2) &&
    (if h.usesKv = 1 then inLay (leAt lay 0xC 4) 64 else leAt lay 0xC 4 == 0) &&
    (let ds := (List.range h.numOps).map fun i => parseDesc (s.devBytes (addr + h.opOff + 128 * i) 128)
     ents.zipIdx.all fun x => x.1.sparse == 0 || inLay x.1.sparse (countBytes ds x.2))

/-- Digest of the image's bytes from 0x80 on (R64, R65). -/
def digestOk (s : State) (id : Nat) : Bool :=
  let (addr, len, _) := s.dirEntry s.stagedDir id
  shake256 (s.devBytes (addr + 128) (len - 128)) == s.devBytes (addr + 0x60) 32

/-- What the rules of an image read, for the staged entries that name it. -/
def imgView (s : State) (id : Nat) (staged : List Stream) : ImgView :=
  let m := (s.image id).getD (s.readImage s.stagedDir id)
  let h := parseHeader m.header
  let groups := s.baseSh Fd.LNK_GROUP_BASE_LO Fd.LNK_GROUP_BASE_HI
  let v := s.staged
  { m := m, h := h, ents := layoutRegions m.layout
    raws := (List.range m.descs.length).map fun i => s.devBytes (m.addr + h.opOff + 128 * i) 128
    stretch := s.largestStretch id m.cls, staged := staged
    group := fun g => if (s.image id).isSome then m.groupOf g else s.devBytes (groups + 64 * g) 64, chip := s.rdSh Fd.LNK_CHIP_ChipId, cores := 32 * s.rd Fd.CTL_CAP_ARRAY_Benches
    pdmBits := fun t =>
      let p := epPort t.source
      if epKind t.source = 1 ∧ v Fd.APT_MODE_Mode p 0 = 3 ∧ v Fd.APT_PDM_Raw p 0 = 1 then some (pdmRatio (v Fd.APT_PDM_Ratio p 0))
      else none
    wGroups := fun e => ((s.imageContents m).filter fun x => x.1 == e).flatMap fun x =>
      ((blocksOf x.2).filter (·.2.2)).map fun b => leAt x.2 (b.1 + 1) 1 }

/-- Conditions 1 to 4 of R28 in the order of R30. -/
def capFails (s : State) (v : ImgView) (entry : Nat) : Option Refuse :=
  if v.h.opset < s.rd Fd.CTL_CAP_OPSET_OpSetOldest ∨ s.rd Fd.CTL_CAP_OPSET_OpSetRev < v.h.opset then some ⟨8, 2, entry, 0⟩
  else
    let recs := (List.range v.h.numReq).findSome? fun i =>
      (recordFails s (s.devBytes (v.m.addr + v.h.reqOff + 8 * i) 8)).map fun c => (⟨c, 3, i, entry⟩ : Refuse)
    recs.or (v.m.descs.zipIdx.findSome? fun x =>
      (opFails v (s.rd Fd.CTL_CAP_STREAM_MaxOpCycles) x.1).map fun c => (⟨c, 4, x.2, entry⟩ : Refuse))

/-- Kind rules of an image's descriptors, and OP_ENERGY (R387). -/
def descsFail (s : State) (v : ImgView) (entry : Nat) : Option Refuse :=
  (v.m.descs.zipIdx.findSome? fun x => (descFails s v x.2 x.1).map fun c => (⟨c, 4, x.2, entry⟩ : Refuse)).or
    ((s.overEnergy v.m).map fun i => ⟨0x28, 4, i, entry⟩)

/-- An image is still loaded right after the application: an entry that names it does not go to IDLE at once, or one arms on it (R56,
R65). -/
def staysLoaded (s : State) (m : Image) : Bool :=
  (s.streams.any fun (t : Stream) =>
    let req := leAt (s.shadowRaw t.entry) 5 1
    t.image == m.id &&
      !(s.par.staged.contains t.entry && (req == 0 && (t.state == 1 || t.state == 5) || req == 4 && t.state == 3))) ||
  s.par.staged.any fun e => leAt (s.shadowRaw e) 5 1 == 1 && leAt (s.shadowRaw e) 8 1 == m.id

/-- The tests of an image to be loaded after those of `before` (R65, R238, R239, R266): the state in which its regions are
placed, or what fails. -/
def loadFails (s : State) (before : List Image) (id entry : Nat) (staged : List Stream) (placed : State) : Except Refuse (State × Image) :=
  if !s.imageFormed id || !s.digestOk id then .error ⟨0x20, 2, entry, 0⟩
  else
    let v := s.imgView id staged
    let others := s.gaf.images ++ before
    if 32768 < sumNat (others.map fun m => m.descs.length) + v.m.descs.length then .error ⟨0x21, 2, entry, 0⟩
    else
      let rule : Option Refuse :=
        (s.capFails v entry).or <|
        ((regionsFail s v).map fun i => (⟨5, 5, i, entry⟩ : Refuse)).or <|
        ((v.m.rings.zipIdx.find? fun x => ringBad v v.m.layout x.2 x.1).map fun x => (⟨5, 7, x.2, entry⟩ : Refuse)).or <|
        ((v.m.programs.zipIdx.find? fun x => programBad v x.1).map fun x => (⟨5, 6, x.2, entry⟩ : Refuse)).or <|
        s.descsFail v entry
      match rule with
      | some r => .error r
      | none =>
        match placed.placeAll (imageRegions v.m) with
        | .error (c, e) => .error ⟨c, 5, e, entry⟩
        | .ok t =>
          let after := (s.gaf.images.filter s.staysLoaded) ++ before
          let progs := sumNat (after.map fun m => m.programs.length)
          let rings := sumNat (after.map fun m => m.rings.length)
          let maxR := s.rd Fd.CTL_CAP_RING_RingsPerBench
          if 64 < progs + v.m.programs.length then .error ⟨0x26, 6, 64 - progs, entry⟩
          else if maxR < rings + v.m.rings.length then .error ⟨0x27, 7, maxR - rings, entry⟩
          else .ok (t, v.m)

end State

end Sys2Proof.Machine
end

