-- ==== Sys2Proof/Machine/CheckEntry.lean ====
section
/-! DEFINITION. What a CHECK asks of staged stream entries, and CHECK as a whole (02 R43; 03 R55 to R57; 04 R111; 06 R152;
08 R191 to R195; 10 R238; 14 R336, R340; 15 R363, R373; 17 R401, R414; 18 R425). -/
namespace Sys2Proof.Machine
open Sys2Proof

/-- A stream record over the 256 bytes of an entry. -/
def entryStream (e : Nat) (raw : List Byte) : Stream := { entry := e, raw := raw, state := leAt raw 5 1, image := leAt raw 8 1, slot := 0 }

/-- Transitions that a request may ask for, none standing for a change of fields only (R56). -/
def moveOk (live req : Nat) : Bool :=
  live == req ||
    (match live with
     | 0 => req == 1
     | 1 => req == 0
     | 2 => req == 3 || req == 4 || req == 0
     | 3 => req == 2 || req == 4 || req == 0
     | _ => req == 0)

/-- Host fields that differ and may not change outside IDLE (R57). -/
def fixedFieldsDiffer (live new : List Byte) : Bool :=
  ([(0x00, 5), (0x08, 4), (0x14, 4), (0x1C, 36), (0x48, 8)] : List (Nat × Nat)).any (fun f => bytesAt live f.1 f.2 != bytesAt new f.1 f.2) ||
    bitAt (leAt live 6 1) 1 != bitAt (leAt new 6 1) 1

namespace Stream

/-- The rate and length conditions of an instrument entry, and of a dialogue entry (R55). -/
def instrumentOk (t : Stream) : Bool :=
  let fs := rateHz t.rate
  inRange 3 t.rate 5 && inRange 16 t.chunkLen 256 && t.chunkLen % 8 == 0 && t.chunkMax == t.chunkLen &&
    decide (50000 ≤ t.dlOff ∧ t.dlOff * fs ≤ t.chunkLen * 1000000000)

def dialogueOk (t : Stream) : Bool :=
  let fs := rateHz t.rate
  decide (fs ≤ t.chunkLen * 100 ∧ t.chunkLen * 1000 ≤ 320 * fs) &&
    (List.range 6).any (fun m => t.chunkMax == t.chunkLen * 2 ^ m) && decide (t.chunkMax * 1000 ≤ 320 * fs) &&
    decide (1000000 ≤ t.dlOff ∧ t.dlOff * fs ≤ 8 * t.chunkMax * 1000000000)

end Stream

/-- Audio slots that an endpoint takes overlap those of another (R55). -/
def slotsMeet (a b : Nat) : Bool :=
  epPort a == epPort b && decide (epIndex a < epIndex b + epChans b ∧ epIndex b < epIndex a + epChans a)

/-- Two sinks name the same audio slot, packet session or link channel (R55). -/
def sinksMeet (a b : Nat) : Bool :=
  epKind a == epKind b &&
    (match epKind a with
     | 1 => slotsMeet a b
     | 2 => epPort a == epPort b && epIndex a == epIndex b
     | 3 => epPort a == epPort b && epIndex a == epIndex b
     | _ => false)

def sourcesMeet (a b : Nat) : Bool := epKind a == epKind b && epPort a == epPort b && epIndex a == epIndex b

namespace State

/-- The session entry behind a packet endpoint, under staged bases. -/
def stagedSession (s : State) (ep : Nat) : List Byte :=
  s.devBytes (s.baseSh Fd.PKT_SESSION_BASE_LO Fd.PKT_SESSION_BASE_HI (epPort ep) + 128 * epIndex ep) 128

/-- The session entry of a live end of another entry as the device has read it, or of a staged or a standby one as the table holds
it. -/
def otherSession (s : State) (ep : Nat) : List Byte :=
  match s.liveSessions.find? fun x => x.1 == epPort ep && x.2.1 == epIndex ep with
  | some x => x.2.2
  | none => s.stagedSession ep

/-- Endpoint pairs that other entries name in their live or in their requested state (R55). -/
def otherEnds (s : State) (e : Nat) : List (Nat × Nat) :=
  ((s.streams.filter fun (t : Stream) => t.entry != e).map fun t =>
    let t := entryStream t.entry (s.liveRaw t.entry)
    (t.source, t.sink)) ++
    (s.par.staged.filter (· != e)).filterMap fun x =>
      let t := entryStream x (s.shadowRaw x)
      if t.state = 0 then none else some (t.source, t.sink)

/-- Entries that name an image and are not IDLE in their live or in their requested state, ascending (R238). -/
def namers (s : State) (id : Nat) : List Nat :=
  let live := (s.streams.filter fun (t : Stream) => t.image == id).map (·.entry)
  let req := s.par.staged.filter fun e =>
    let t := entryStream e (s.shadowRaw e)
    t.state != 0 && t.image == id
  dedup (sortBy (fun a b => a ≤ b) (live ++ req))

/-- An endpoint exists (R55, R319). -/
def epExists (s : State) (sink : Bool) (ep : Nat) : Bool :=
  slice ep 25 7 == 0 &&
    (match epKind ep with
     | 1 => decide (epPort ep < 16 ∧ epIndex ep < 16)
     | 2 => decide (epPort ep < 8)
     | 3 => s.rdSh Fd.LNK_CTL_PacketMode (epPort ep) == 0
     | 4 => sink && decide (epPort ep < 16) && epIndex ep == 0
     | _ => false)

/-- R336 and R340 for one endpoint; the sessions of Valid standby entries are live too (R409). -/
def sessionFails (s : State) (t : Stream) (sink : Bool) (ep : Nat) : List (Bool × Nat) :=
  if epKind ep ≠ 2 then []
  else
    let x := s.stagedSession ep
    let p := epPort ep
    let ch := epChans ep
    let pm (q : Nat) : Bool := s.rdSh Fd.LNK_CTL_PacketMode q == 1
    let fs := rateHz t.rate
    let per := Session.per x
    let bytes := per * ch * Session.width x
    let sizes := if t.rate = 4 then [6, 12, 48] else [12, 24, 96]
    let others := ((s.otherEnds t.entry).flatMap fun y => [y.1, y.2]) ++ s.standbySources
    [(!pm p || (Session.pathB x && (decide (7 < Session.portB x) || !pm (Session.portB x) || Session.portB x == p)) ||
        !(Session.pathA x || Session.pathB x), 5),
     (Session.dir x != b2n sink || Session.rate x != t.rate, 5), (Session.proto x == 1 && sink && t.cls != 0, 5),
     (Session.proto x != 1 && Session.proto x != 2, 4),
     (Session.proto x == 1 && (!(t.rate == 4 || t.rate == 5) || decide (1 < Session.enc x) || !sizes.contains per || decide (1440 < bytes)), 4),
     (Session.proto x == 2 && (!inRange 1 (Session.enc x) 2 || per == 0 || decide (8912 < 40 + bytes)), 4),
     (sink && t.cls == 0 && decide (t.chunkLen * 1000000 < Session.jitterUs x * fs + per * 1000000), 4),
     (others.any fun o => epKind o == 2 && Session.overlap x p (s.otherSession o) (epPort o), 5)]

/-- The last row of R373 for a staged entry that a generator's loop follows. -/
def loopFails (s : State) (t : Stream) : List (Bool × Nat) :=
  let v := s.staged
  (List.range 4).map fun i =>
    (v Fd.APT_GEN_REF_RefKind 0 i == 1 && v Fd.APT_GEN_REF_RefStream 0 i == t.entry && (!onGen v t.sink i || onGen v t.source i), 5)

/-- R373 for one endpoint. -/
def audioFails (s : State) (t : Stream) (v : Option ImgView) (sink : Bool) (ep : Nat) : List (Bool × Nat) :=
  if epKind ep ≠ 1 then []
  else
    let r := s.staged
    let p := epPort ep
    let mode := r Fd.APT_MODE_Mode p 0
    let hz := streamHz r p
    let b := 2 ^ r Fd.APT_BLOCK_BlockLog2 p 0
    let raw := mode == 3 && r Fd.APT_PDM_Raw p 0 == 1 && !sink
    let a1 := v.bind fun v => v.m.descs.find? fun d => d.kind == 1 && d.wFmt == 2 && d.aFmt == 8
    [(if sink then r Fd.APT_MODE_OutEn p 0 == 0 || mode == 3 else r Fd.APT_MODE_InEn p 0 == 0, 5),
     (decide (portSlots r p < epIndex ep + epChans ep), 4),
     (if mode = 3 then !within10ppm hz (rateHz t.rate) else hz.1 != rateHz t.rate * hz.2, 5),
     (t.chunkLen % b != 0, 5),
     (raw && (epChans ep != 1 || (match a1 with
        | some d => 32 * r Fd.APT_PDM_HistWords p 0 != d.b 0x54 4 - d.b 0x5E 2
        | none => v.isSome)), 5)]

/-- R401. -/
def puntyFails (s : State) (t : Stream) (v : Option ImgView) : List (Bool × Nat) :=
  if t.interval = 0 then []
  else
    let tb := s.baseSh Fd.PNT_TABLE_BASE_LO Fd.PNT_TABLE_BASE_HI
    let rec_ := s.devBytes (tb + 64 * t.entry) 64
    let mirror := leAt rec_ 0 8 % 2 ^ 36
    let k := (v.map fun v => v.kv).getD []
    let kv := (v.map fun v => v.m.kv.isSome).getD false
    let block := (v.map fun v => s.blockLen v.m t).getD 0
    let pool := s.devLe (t.kvPtr + 0x10) 4
    let a := Kv.tokPerBase k * 2 ^ t.kMax
    [(t.cls != 1 || t.twin, 5), (decide (1023 < t.partner) || t.partner == s.rdSh Fd.LNK_CHIP_ChipId || s.rdSh Fd.LNK_CHIP_IdValid != 1, 5),
     (v.any fun v => decide (1 < v.m.maxLag) || v.m.descs.any fun d => d.kind == 0x0D, 5),
     (!s.inLpddr tb 0x40000 || mirror % 4096 != 0 || decide (mirror < 0x200000000), 4),
     (decide (leAt rec_ 8 4 < roundUp block 256 + (if kv then Kv.tableBytes k pool else 0)), 4),
     (kv && decide (pool < Kv.layers k * (Kv.listLen k + 1 + ceilDiv ((t.interval + 1) * a) (Kv.perPage k))), 4)]

/-- R414. -/
def twinFails (s : State) (t : Stream) : List (Bool × Nat) :=
  if !t.twin then []
  else
    let x := s.stagedSession t.sink
    [(epKind t.source != 2 || epKind t.sink != 2 || Session.pathA x == Session.pathB x, 5), (t.interval != 0, 5), (t.startTime == 0, 4)]

/-- The initial state block does not fit the image's list (R152). -/
def stateBlockBad (s : State) (t : Stream) (v : ImgView) : Bool :=
  let n := v.m.numSections
  if n = 0 then false
  else
    let hd := s.devBytes t.initPtr (0x40 + 16 * n)
    let list := v.m.sections
    let ends := (List.range n).map fun i => leAt list (16 * i) 4 + secBytes (leAt list (16 * i + 4) 1) (leAt list (16 * i + 8) 4)
    let tooLong := (v.ents.find? fun e => e.cls == 2).any fun e => decide (e.units * 256 / v.depth < leAt hd 8 4)
    leAt hd 0 4 != 0x4B4C4253 || leAt hd 4 1 != 1 || leAt hd 5 1 != n || decide (leAt hd 8 4 < maxNat ends) || tooLong ||
      (List.range n).any fun i =>
        let o := 0x40 + 16 * i
        leAt hd o 4 != leAt list (16 * i) 4 || leAt hd (o + 4) 1 != leAt list (16 * i + 4) 1 || leAt hd (o + 8) 4 != leAt list (16 * i + 8) 4

/-- The layout of KV pages breaks R191 or R192 for an entry. -/
def kvLayoutBad (s : State) (t : Stream) (v : ImgView) : Bool :=
  let k := v.kv
  let p := Kv.perPage k
  let h := Kv.hot k
  let g := Kv.ring k
  let a := Kv.tokPerBase k * 2 ^ t.kMax
  let uMax := (v.m.maxLag + 1) * a
  let lg := 1 + ceilDiv (Kv.window k + uMax - 1) p
  let need := if g = 0 then lg else 1 + ceilDiv lg g
  let ent := v.ents[Kv.region k]?
  let region := (ent.map fun e => e.bytes v.slots).getD 0
  let page := 64 + Kv.scaleBytes k + Kv.posBytes k + 2 * Kv.heads k * p * Kv.dim k
  let fmtBad := v.m.descs.any fun d =>
    (d.kind == 8 && (d.wFmt != Kv.storeFmt k || d.b 0x52 2 != Kv.dim k)) || (d.kind == 9 && d.b 0x50 1 != 1 && d.aFmt != Kv.storeFmt k)
  !inRange 4 (Kv.pageLog2 k) 12 || !bitAt (s.rd Fd.CTL_CAP_KV_KvPageSizes) (Kv.pageLog2 k - 4) ||
    !(Kv.storeFmt k == 3 || Kv.storeFmt k == 6) || !bitAt (s.rd Fd.CTL_CAP_KV_KvStoreFmts) (if Kv.storeFmt k = 3 then 0 else 1) ||
    !inRange 1 (Kv.heads k) 64 || Kv.layers k == 0 || !inRange 32 (Kv.dim k) 256 || Kv.dim k % 32 != 0 || decide (16 < h) ||
    decide (1 < Kv.mode k) || !inRange 1 (Kv.window k) 16777215 || !inRange 1 (Kv.tokPerBase k) 4096 || decide (7 < Kv.headroom k) ||
    decide (Kv.minExp k < -126 ∨ 0 < Kv.minExp k) || (g != 0 && !inRange 2 g 16) ||
    decide (p < a) || Kv.pageBytes k != page || h == 1 || (decide (2 ≤ h) && decide (p * (h - 1) < uMax)) ||
    decide (Kv.listLen k < need) ||
    (decide (h < Kv.listLen k) && decide (Kv.stageFrames k < v.m.maxBatch * (Kv.listLen k - (h - 1)))) ||
    !(ent.any fun e => e.level == 1 && e.cls == 5) || decide (region < Kv.sets k * Kv.stageFrames k * Kv.pageBytes k) ||
    (v.m.cls == 0 && (decide (h < Kv.listLen k) || Kv.mode k != 0 || g != 0)) ||
    (Kv.mode k == 1 && (v.h.opset != 2 || decide (h < 2))) ||
    (g != 0 && (v.m.cls != 1 || h != 0 || Kv.mode k != 0 || s.rd Fd.CTL_CAP_KV_KvRing == 0)) || fmtBad

/-- The KV page table of an entry that arms (R195). -/
def kvTableFails (s : State) (t : Stream) (v : ImgView) : List (Bool × Nat) :=
  let k := v.kv
  let tb := s.devBytes t.kvPtr 64
  let g := Kv.ring k
  let next := leAt tb 0x18 2
  let prev := leAt tb 0x1A 2
  let pages := leAt tb 0x10 4
  let pool := leAt tb 8 8
  [(leAt tb 0 4 != 0x4B565054 || leAt tb 4 1 != Kv.layers k || leAt tb 5 1 != Kv.pageLog2 k || leAt tb 0x1C 4 != Kv.listLen k, 5),
   (if g = 0 then leAt tb 6 1 != 0 || next != 0xFFFF || prev != 0xFFFF
    else decide (g ≤ leAt tb 6 1 ∨ 1023 < next ∨ 1023 < prev), 5),
   (pool % 256 != 0 || !s.inLpddr pool (Nat.max 1 (pages * Kv.pageBytes k)) || !inRange 1 pages 16777215 ||
     decide (pages < Kv.layers k * Nat.max (Kv.hot k) 1), 4)]

/-- Hot-frame blocks that the KV page region holds after the stage sets (R193); none where streams need none. -/
def hotBlocks (v : ImgView) : Option Nat :=
  let k := v.kv
  let per := Kv.layers k * Kv.hot k * Kv.pageBytes k
  if per = 0 then none
  else
    let region := ((v.ents[Kv.region k]?).map fun e => e.bytes v.slots).getD 0
    some ((region - Kv.sets k * Kv.stageFrames k * Kv.pageBytes k) / per)

/-- The entry beyond a number of entries that an image can take. -/
def beyond (es : List Nat) (n : Option Nat) : Option Nat := n.bind fun n => es[n]?

/-- Bytes in force of a live entry. -/
def entryRawLive (s : State) (e : Nat) : List Byte := ((s.stream e).map (·.raw)).getD (s.liveRaw e)

/-- The rules of a staged entry itself, in order: the code of its failure. `v` is its image, where the image can be read.
A resumption (R411) tests its template without the rules of a request and of a stream that arms. -/
def entryCode (s : State) (e : Nat) (v : Option ImgView) (resume : Bool := false) : Option Nat :=
  let raw := s.shadowRaw e
  let t := entryStream e raw
  let live := s.entryState e
  let kv := v.any fun v => v.m.kv.isSome
  let moves : List (Bool × Nat) := if resume then [] else [(decide (5 < t.state) || !moveOk live t.state, 5), (live != 0 && fixedFieldsDiffer (s.entryRawLive e) raw, 5)]
  let ptrBad (a : Nat) : Bool := a % 256 != 0 || !s.inLpddr a 1
  let others := s.otherEnds e
  let ends := [(false, t.source), (true, t.sink)]
  let sinkRing := epKind t.sink == 4
  let ringOn := s.rdSh Fd.CTL_RING_Enable 0 (epPort t.sink)
  let outSlot := ((v.bind fun v => (v.ents.filter fun x => x.cls == 4)[1]?).map (·.slotBytes)).getD 0
  let base : List (Bool × Nat) :=
    [(decide (1 < t.cls ∨ 5 < t.rate), 4), (if t.cls = 0 then !t.instrumentOk else !t.dialogueOk, 4),
     (v.any fun v => v.m.cls != t.cls, 5),
     (ptrBad t.statePtr || ptrBad t.initPtr || ptrBad t.replayBase || (t.kvPtr != 0 && ptrBad t.kvPtr) ||
       v.any fun v => (v.h.usesKv == 1) != (t.kvPtr != 0), 4),
     (decide (t.replayLen < (t.interval + 2) * t.chunkMax * t.channels * 4), 4),
     (!s.epExists false t.source || !s.epExists true t.sink ||
       others.any fun o => sourcesMeet t.source o.1 || sinksMeet t.sink o.2, 5),
     (v.any fun v => decide ((v.ents.filter fun x => x.cls == 4).length < 2), 5), (t.cls == 1 && t.carried, 5)] ++
    (ends.flatMap fun x => s.audioFails t v x.1 x.2) ++ s.loopFails t ++ (ends.flatMap fun x => s.sessionFails t x.1 x.2) ++
    [(sinkRing && ringOn == 0, 5),
     (sinkRing && decide (2 ^ (s.rdSh Fd.CTL_RING_SizeLog2 0 (epPort t.sink) - 1) < outSlot + 64), 4)] ++
    s.puntyFails t v ++ s.twinFails t
  let img : List (Bool × Nat) := match v with
    | none => []
    | some v =>
      (if t.state = 1 ∨ resume then [(s.stateBlockBad t v, 5)] else []) ++ (if kv then [(s.kvLayoutBad t v, 5)] else []) ++
        (if kv && t.state == 1 then s.kvTableFails t v else [])
  firstCode (if t.state = 0 then moves ++ [(t.cls == 1 && t.carried, 5)] else moves ++ base ++ img)

/-- How a staged entry fails: by its own rules, or for want of a stream slot (R238) or a hot-frame block (R193). -/
def entryFails (s : State) (e : Nat) (v : Option ImgView) : Option Refuse :=
  let t := entryStream e (s.shadowRaw e)
  match s.entryCode e v with
  | some c => some ⟨c, 2, e, 0⟩
  | none =>
    if t.state = 0 then none
    else
      match v with
      | none => none
      | some v =>
        let es := s.namers t.image
        match beyond es (some v.slots) with
        | some x => some ⟨4, 2, x, 0⟩
        | none => if v.m.kv.isSome then (beyond es (hotBlocks v)).map fun x => ⟨0x22, 2, x, 0⟩ else none

/-- Staged entries that name an image and do not request IDLE. -/
def stagedFor (s : State) (id : Nat) : List Stream :=
  (s.par.staged.map fun e => entryStream e (s.shadowRaw e)).filter fun t => t.state != 0 && t.image == id

/-- What the entry rules read of an image: none where it is neither loaded nor well formed. -/
def viewOf (s : State) (id : Nat) : Option ImgView :=
  if (s.image id).isSome || s.imageFormed id then some (s.imgView id (s.stagedFor id)) else none

/-- Staged entries in ascending order (R43). -/
def stagedAsc (s : State) : List Nat := sortBy (fun a b => a ≤ b) s.par.staged

def checkEntries (s : State) : Option Refuse :=
  s.stagedAsc.findSome? fun e => s.entryFails e (s.viewOf (leAt (s.shadowRaw e) 8 1))

/-- A staged entry sets its image, or stages a new ChunkMaxLen (R28). -/
def setsImage (s : State) (e : Nat) : Bool :=
  leAt (s.shadowRaw e) 8 1 != leAt (s.liveRaw e) 8 1 || leAt (s.shadowRaw e) 0xC 2 != leAt (s.liveRaw e) 0xC 2

/-- Images to test, in the order of the entries, each with the first entry: those of entries that do not request IDLE, and those that
an entry on its way to IDLE sets or stages a ChunkMaxLen for, where the image can be read (R28, R43). -/
def imagesNamed (s : State) : List (Nat × Nat) :=
  (s.stagedAsc.foldl (fun (acc : List (Nat × Nat)) e =>
    let t := entryStream e (s.shadowRaw e)
    if acc.any (fun x => x.1 == t.image) then acc
    else if t.state ≠ 0 ∨ s.setsImage e ∧ ((s.image t.image).isSome ∨ s.imageFormed t.image && s.digestOk t.image) then
      acc ++ [(t.image, e)]
    else acc) [])

/-- Test the images: the images to load, and the state in which their regions are placed. -/
def checkImages (s : State) : List (Nat × Nat) → State → List Image → Except Refuse (List Image × State)
  | [], placed, ms => .ok (ms, placed)
  | (id, e) :: rest, placed, ms =>
    let staged := s.stagedFor id
    let v := s.imgView id staged
    if (s.image id).isSome then
      match (s.capFails v e).or (s.descsFail v e) with
      | some r => .error r
      | none => s.checkImages rest placed ms
    else if staged.isEmpty then
      match s.capFails v e with
      | some r => .error r
      | none => s.checkImages rest placed ms
    else
      match s.loadFails ms id e staged placed with
      | .error r => .error r
      | .ok (t, m) => s.checkImages rest t (ms ++ [m])

/-- CHECK (R43): the first failure, or the images that an application loads and where it puts their regions. -/
def checkAll (s : State) : Except Refuse (List Image × State) :=
  match s.checkRegs with
  | some r => .error r
  | none =>
    match s.checkEntries with
    | some r => .error r
    | none => s.checkImages s.imagesNamed s []

end State

end Sys2Proof.Machine
end

