-- ==== Sys2Proof/Machine/Parison.lean ====
section
/-! DEFINITION. The parison: CHECK, APPLY, ABANDON and the application (02 R41 to R49; 03 R52 to R57, R62, R65, R78, R79, R83,
R473; 10 R235; 12 R299; 14 R347; 15 R372; 19 R444, R446, R449, R454). -/
namespace Sys2Proof.Machine
open Sys2Proof

namespace State

/-! Commands (R41, R42, R45, R47). -/

/-- The common gate of a CTL_COMMIT write. -/
def commitGate (s : State) (f : State → State) : State :=
  s.gated .ctl 0 fun s => if s.rd Fd.CTL_COMMIT_STATUS_Busy = 1 then s.setErr Fd.CTL_PAGE_ERR_CommitBusy else f s

def setWhere (s : State) (kind where_ entry : Nat) : State :=
  ((s.wr Fd.CTL_COMMIT_WHERE_Kind kind).wr Fd.CTL_COMMIT_WHERE_Where where_).wr Fd.CTL_COMMIT_AUX_Entry entry

/-- A CHECK starts. -/
def startCheck (s : State) : State :=
  s.commitGate fun s =>
    if s.parState = 0 then s.setCode 0
    else if s.parState = 3 then s.setCode 1
    else s.wr Fd.CTL_COMMIT_STATUS_Busy 1

/-- What a CHECK leaves: its first failing test, or the images it will load and where it placed their regions (R43, R121). -/
def checkResult (s : State) (r : Except Refuse (List Image × State)) : State :=
  match r with
  | .error r =>
    let s := { s with par := { s.par with loads := [], plan := [], books := [] } }
    ((s.setParState 1).setCode r.code).setWhere r.kind r.where_ r.aux
  | .ok ((ms : List Image), (placed : State)) =>
    let plan := placed.regions.drop s.regions.length
    let s := ({ s with par := { s.par with loads := ms.map (fun (m : Image) => m.id), plan := plan, books := ms.map fun (m : Image) => (m.id, m.codebook) } }).setClaims (ms.flatMap fun (m : Image) => m.codebook)
    ((s.setParState 2).setCode 0).setWhere 0 0 0

/-- A CHECK's reads of what a staged entry that is to arm names: its punty record, its initial state block's header and its KV page table
(R20, R152, R195, R401). -/
def checkArm (s : State) (e : Nat) : State :=
  let raw := s.shadowRaw e
  let t : Stream := { entry := e, raw := raw, state := 0, image := leAt raw 8 1, slot := 0 }
  if leAt raw 5 1 ≠ 1 then s
  else
    let m := (s.image t.image).getD (s.readImage s.stagedDir t.image)
    let s := if t.interval = 0 then s else (s.devRead .pnt 0 (s.baseSh Fd.PNT_TABLE_BASE_LO Fd.PNT_TABLE_BASE_HI + 64 * e) 64 e).2
    let s := if m.numSections = 0 then s else (s.devRead .gaf 0 t.initPtr (0x40 + 16 * m.numSections) e).2
    if m.kv.isNone then s else (s.devRead .gaf 0 t.kvPtr 64 e).2

/-- A CHECK's read of an image that is to load, whole (R65, R291, R297). -/
def checkImage (s : State) (id : Nat) : State :=
  let (addr, len, valid) := s.dirEntry s.stagedDir id
  if valid ≠ 1 ∨ (s.image id).isSome then s else s.bulkRead .gaf 0 addr len

/-- The gaffer's narrow reads of a CHECK: staged entries, and the image directory's entry of each image that one names (R284, R291);
then what the entries that arm name, and the images. -/
def checkReads (s : State) : State :=
  let s := s.stagedAsc.foldl (fun s e =>
    let s := s.gafRead e (s.shadowEntry e) 256
    (s.devRead .gaf 0 (s.stagedDir + 16 * leAt (s.shadowRaw e) 8 1) 16).2.checkArm e) s
  (dedup ((s.stagedAsc.filter fun e => leAt (s.shadowRaw e) 5 1 == 1).map fun e => leAt (s.shadowRaw e) 8 1)).foldl checkImage s

/-- The running CHECK ends (R43). -/
def endCheck_ (s : State) : State :=
  let s := (s.wr Fd.CTL_COMMIT_STATUS_Busy 0).checkReads
  s.checkResult s.checkAll

/-- T of CTL_COMMIT_TIME. -/
def commitTime (s : State) : Nat := s.rd Fd.CTL_COMMIT_TIME_LO + 2 ^ 32 * s.rd Fd.CTL_COMMIT_TIME_HI

/-- An APPLY arrives (R45). -/
def startApply (s : State) (whenBit : Nat) : State :=
  s.commitGate fun s =>
    if s.parState ≠ 2 then s.setCode 1
    else
      let t := s.commitTime
      if whenBit % 2 = 0 ∧ t < s.now + 2000 then s.setCode 2
      else if whenBit % 2 = 0 ∧ s.now + 60000000000 < t then s.setCode 3
      else
        let s := { s with par := { s.par with whenBit := whenBit % 2, time := t, due := false, dueAt := none, dueAtBarrier := false } }
        ((s.setParState 3).setCode 0).parWatch

/-! Application of register fields (R46). -/

/-- Every live ST field takes its staged value. -/
def takeStaged (s : State) : State :=
  let s := s.stagedWords.foldl (fun s a =>
    s.setWord a (BitVec.ofNat 32 (copyFields (stFields a) (s.word (a + 0x700)).toNat (s.word a).toNat))) s
  if s.lnk.staged.isEmpty then s
  else
    let s := { s with lnk := { s.lnk with routes := s.lnk.staged.foldl (fun rs (x : Nat × Nat) => tabPut rs x.1 x.2) s.lnk.routes, staged := [] } }
    s.reroute

/-- A staged field of a page, by its first word. -/
def anyStaged (s : State) (fs : List (Field × Nat × Nat)) : Bool := fs.any s.isStaged

def tallyFields : List (Field × Nat × Nat) :=
  [(Fd.TLY_PARAM_IntervalSec, 0, 0), (Fd.TLY_PARAM_Instrument, 0, 0), (Fd.TLY_PARAM_Dialogue, 0, 0), (Fd.TLY_PARAM_Skipped, 0, 0),
   (Fd.TLY_PARAM_Rotate, 0, 0)]

def fleetFields : List (Field × Nat × Nat) :=
  [(Fd.SEC_FLEET_BASE_LO, 0, 0), (Fd.SEC_FLEET_BASE_HI, 0, 0), (Fd.SEC_FLEET_CFG_Count, 0, 0), (Fd.SEC_FLEET_CFG_Enable, 0, 0)]

def baseFields : List (Field × Nat × Nat) := [(Fd.GAF_STREAM_BASE_LO_BaseLo, 0, 0), (Fd.GAF_STREAM_BASE_HI_BaseHi, 0, 0)]

/-- Tally parameters apply: the open interval has closed under the old ones; Rotate advances the generation and reads 0 again;
M6 takes the parameter digest (R444, R449, R452, R454). -/
def applyTally (s : State) : State :=
  let rotate := s.rd Fd.TLY_PARAM_Rotate == 1
  let s := s.wr Fd.TLY_PARAM_Rotate 0
  let s := s.wrSh Fd.TLY_PARAM_Rotate 0
  let s := if rotate then
      { s with tly := { s.tly with gen := s.tly.gen + 1 } }
    else s
  let s := if rotate then s.wr Fd.TLY_KEY_KeyExhausted 0 else s
  let s := { s with tly := { s.tly with param := s.tallyParamWord, flags := s.tly.flags ||| 2 } }
  ((s.extendM 6 (shake256 (leBytes 4 s.tallyParamWord))).syncTally).tallyCarry

/-- The security block takes the fleet list into its own memory; M5 takes it too where the list has changed (R444, R446). -/
def applyFleet (s : State) : State :=
  let list := s.fleetList (s.base Fd.SEC_FLEET_BASE_LO Fd.SEC_FLEET_BASE_HI) (s.rd Fd.SEC_FLEET_CFG_Count)
  let s := (s.devRead .sec 0 (s.base Fd.SEC_FLEET_BASE_LO Fd.SEC_FLEET_BASE_HI) (32 * s.rd Fd.SEC_FLEET_CFG_Count)).2
  if list = s.sec.fleet then s else ({ s with sec := { s.sec with fleet := list } }).extendM 5 list.flatten

/-- The gaffer's zeros over a stream table: narrow writes, counted at their sites; what lies at a site disabled for margining stays and is
recorded (R20, R52, R284, R297). -/
def zeroTable (s : State) (b : Nat) : State :=
  let o := b - lpBase
  let sl := s.serviceList
  let nc := Nat.max 1 sl.length
  let upTo (k u : Nat) : Nat := (u + nc - 1 - k) / nc
  let parts := (sl.zipIdx).map fun x => (x.1.1, upTo x.2 (o / 256 + 8192) - upTo x.2 (o / 256))
  let dark (x : Nat × Nat) : Bool := s.rd Fd.XMC_PAGE_CTL_Enable x.1 == 0
  let t := (parts.filter fun x => !dark x).foldl (fun s x => (s.count Fd.XMC_NARROW_CNT x.1 (8 * x.2)).evtDev 0x28 x.2) (s.zeroLp o 0x200000)
  if parts.any fun x => dark x && x.2 != 0 then t.unmappedErr .gaf 0 else t

/-- A new stream table: 8,192 entries of zeros; a base is in force (R52, R83). -/
def applyBase (s : State) : State :=
  let b := s.tableBase
  let s := s.zeroTable b
  { s with gaf := { s.gaf with table := true } }

/-- The MP takes Request and Reinstate into the flash record (R299). -/
def applyMapout (s : State) (i : Nat) : State :=
  let rec_ := s.rd Fd.XMC_MAPOUT_Recorded i ||| s.rd Fd.XMC_MAPOUT_Request i
  s.wr Fd.XMC_MAPOUT_Recorded (rec_ - (rec_ &&& s.rd Fd.XMC_MAPOUT_Reinstate i)) i

/-- A generator's reference changes (R371, R372). -/
def applyGen (s : State) (i : Nat) : State :=
  let off := s.rdAt Fd.APT_GEN_REF_RefKind 0 i == 0
  let s := s.setGen i fun g => { g with first := true, t1 := none, last := none, acc := if off then 0 else g.acc }
  if off then s.wrAt Fd.APT_GEN_TRIM 0 i 0 else s

/-- The PTP servo follows PKT_PTP_CTL.Enable (R347). -/
def applyPtp (s : State) : State :=
  let st := s.rd Fd.PKT_PTP_STATE_State
  if s.rd Fd.PKT_PTP_CTL_Enable = 0 then
    let s := if st = 2 then s.setErrLog Fd.PKT_PAGE_ERR_PtpUnlocked 0 noEntry 0 else s
    let s := if st = 0 then s else s.publish 0 0
    { s.wr Fd.PKT_PTP_STATE_State 0 with servo := { s.servo with good := 0, holdUntil := 0 } }
  else if st = 0 then s.wr Fd.PKT_PTP_STATE_State 1
  else s

/-- A port's mode changes: the links of the old mode end, and a port that returns to Ranratre trains (R300, R333). -/
def applyMode (s : State) (p : Nat) : State :=
  if s.rd Fd.LNK_CTL_PacketMode p = 1 then (s.portToDown p).wr Fd.PKT_STATUS_State 1 p
  else
    let s := s.wr Fd.PKT_STATUS_State 0 p
    if s.rd Fd.LNK_PAGE_CTL_Enable p = 1 then s.startTraining p else s

/-- The register half of an application. -/
def applyRegs (s : State) : State :=
  let tally := s.anyStaged tallyFields
  let fleet := s.anyStaged fleetFields
  let base := s.anyStaged baseFields
  let ptp := s.isStaged (Fd.PKT_PTP_CTL_Enable, 0, 0)
  let role := s.rd Fd.CNT_CTL_Role
  let gens := (List.range 4).filter fun i =>
    s.anyStaged [(Fd.APT_GEN_REF_RefKind, 0, i), (Fd.APT_GEN_REF_RefStream, 0, i), (Fd.APT_GEN_REF_RefPort, 0, i)]
  let modes := (List.range 8).filter fun i => s.isStaged (Fd.LNK_CTL_PacketMode, i, 0)
  let maps := (List.range 16).filter fun i => s.anyStaged [(Fd.XMC_MAPOUT_Request, i, 0), (Fd.XMC_MAPOUT_Reinstate, i, 0)]
  let blocks := (List.range 16).filter fun i => s.isStaged (Fd.APT_BLOCK_BlockLog2, i, 0)
  let tx := (List.range 16).filter fun i =>
    s.anyStaged (((List.range 6).map fun w => (Fd.APT_IEC_CSTX, i, w)) ++ ((List.range 12).map fun w => (Fd.APT_IEC_UTX, i, w)))
  let s := (List.range 16).foldl (fun s p => s.rebase p) s
  let clocks := (List.range 16).map s.bclkNow
  let s := if tally then s.closeInterval 3 s.applyTick s.tallyEnergy else s
  let s := blocks.foldl (fun s p => s.setAport p fun a => { a with blkWas := (s.rd Fd.APT_BLOCK_BlockLog2 p, s.now) }) s
  let s := s.takeStaged
  let s := s.wr Fd.SPD_STATUS_B_Partitioned (s.rd Fd.SPD_MODE_Partitioned)
  let s := if tally then s.applyTally else s
  let s := if fleet then s.applyFleet else s
  let s := if base then s.applyBase else s
  let s := if ptp then s.applyPtp else s
  let s := modes.foldl (fun s p => s.applyMode p) s
  let s := gens.foldl (fun s i => s.applyGen i) s
  let s := tx.foldl (fun s p => s.txChange p) s
  let s := maps.foldl (fun s i => s.applyMapout i) s
  let s := (List.range 16).foldl (fun s p =>
    if s.aptState p != 0 && usesGen s.rdAt p && clocks.getD p (0, 1) != s.bclkNow p then s.driveClocks p else s) s
  (s.retimeStops.syncRole role).syncDamper

/-! Application of stream entries (R53, R56, R57). -/

/-- The staged host fields go into the live entry (R53, R54). -/
def copyHost (s : State) (e : Nat) : State :=
  let raw := s.shadowRaw e
  ([(0x00, 5), (0x06, 1), (0x08, 6), (0x0F, 0x71)] : List (Nat × Nat)).foldl
    (fun s f => s.lpNarrowPut (s.liveAddr e + f.1) (bytesAt raw f.1 f.2)) s

/-- Lowest stream slot of an image that no entry holds (R237). -/
def freeSlot (s : State) (m : Image) : Nat :=
  let used := (s.streams.filter fun (t : Stream) => t.image == m.id).map (·.slot)
  ((List.range m.streamSlots).find? fun i => !used.contains i).getD 0

/-- An entry becomes ARMED on an image: it takes a slot, its records open, and its initial copy starts (R56). -/
def armOn (s : State) (e : Nat) (raw : List Byte) (m : Image) : State :=
  let lists := m.numSections != 0
  let t : Stream :=
    { entry := e, raw := raw, state := 1, image := leAt raw 8 1, slot := s.freeSlot m, copied := !lists, loaded := false, lastLand := s.now }
  let t := s.readSessions t
  let s := (s.putStream t).setState e 1
  let s := t.sess.foldl (fun s x => s.announceSession (epPort x.1) x.2) s
  let s := ((s.kvArm e).tallyArm e)
  let s := if t.isPunty then s.storePunty t else s
  let s := if lists then
      (s.addBuiltIn .initCopy (leAt raw 8 1) (some e) 0 (copyXfers t.initPtr t.statePtr (s.blockLen m t))).gafRead e t.initPtr 64
    else s
  let s := if m.kv.isSome then s.gafRead e t.kvPtr 64 else s
  s.gafRead e (s.liveAddr e) 256

def armImage (s : State) (e : Nat) (raw : List Byte) : State :=
  match s.image (leAt raw 8 1) with
  | none => s
  | some m => s.armOn e raw m

/-- A stream enters ARMED (R54, R56, R152, R194, R402, R448); LastCommitTime and WorstLatency are cleared with the counters
(notes/assumptions/108.md). -/
def arm (s : State) (e : Nat) : State :=
  let s := s.lpNarrowPut (s.liveAddr e + 0x0E) [0]
  let s := s.lpNarrowPut (s.liveAddr e + 0x80) (List.replicate 0x38 0)
  s.armImage e (s.liveRaw e)

/-- A pause request: the chunks not admitted are discarded (R56, R62, R79). -/
def askPause (s : State) (e : Nat) : State :=
  s.setStream e fun t =>
    { t with pauseReq := true, ready := t.ready.filter fun (c : Chunk) => c.replayed, discard := true, resume := false }

/-- A request for RUNNING out of PAUSED (R56, R58, R62, R113). -/
def askRun (s : State) (e : Nat) : State :=
  let s := (s.setState e 2).silence e false
  s.setStream e fun t => { t with discard := t.discard && t.filled != 0, resume := true, fresh := true, lastLand := s.now, ready := [], lastIn := [] }

/-- A drain request (R56, R79). -/
def askDrain (s : State) (e live : Nat) : State :=
  if live = 3 then s.toIdle e
  else (s.setStream e fun t => { t with pauseReq := false }).setState e 4

/-- A mark that the staged entry brings (R77, R78); one that does not change is no new mark (notes/assumptions/60.md). -/
def newMark (old new : List Byte) : Bool :=
  bitAt (leAt new 6 1) 2 && (!bitAt (leAt old 6 1) 2 || leAt old 0x40 8 != leAt new 0x40 8)

/-- The staged host fields and the requested state of one entry. -/
def applyEntry (s : State) (e : Nat) : State :=
  let live := s.entryState e
  let new := s.shadowRaw e
  let old := s.liveRaw e
  let req := leAt new 5 1
  let s := s.copyHost e
  let s := s.setStream e fun t =>
    { t with
      markNew := if newMark old new then true else t.markNew && bitAt (leAt new 6 1) 2
      markHeld := if newMark old new then none else t.markHeld }
  if req = live then s
  else
    match req with
    | 1 => s.arm e
    | 2 => s.askRun e
    | 3 => s.askPause e
    | 4 => s.askDrain e live
    | _ => if live = 1 ∨ live = 5 then s.toIdle e else s.setStream e fun t => { t with idleReq := true }

/-- An entry applies; its staged copy that reads as uncorrectable faults the stream (R291). -/
def readApply (s : State) (e : Nat) : State := (s.applyEntry e).gafRead e (s.shadowEntry e) 256

/-- Requests that arm come first, so that an image named anew in the same instant stays loaded (R65). -/
def applyEntries (s : State) (es : List Nat) : State :=
  let arms (e : Nat) : Bool := leAt (s.shadowRaw e) 5 1 == 1
  ((es.filter arms) ++ (es.filter fun e => !arms e)).foldl (fun s e => s.readApply e) s

/-! The instant of application (R44, R46, R235, R473). -/

/-- A condition tested again at application fails: code, and what is named. -/
def applyFails (s : State) : Option Refuse :=
  let tally := s.anyStaged tallyFields
  if tally && !s.windowOpen then some ⟨7, 1, Fd.TLY_PARAM_IntervalSec.addr 0 0, 0⟩
  else if tally && s.sealedShut then some ⟨6, 1, Fd.TLY_PARAM_IntervalSec.addr 0 0, 0⟩
  else if s.isStaged (Fd.SPD_MODE_Partitioned, 0, 0) && (s.rd Fd.GAF_PAGE_CTL_Enable == 1 || !s.allIdle) then
    some ⟨5, 1, Fd.SPD_MODE_Partitioned.addr 0 0, 0⟩
  else (s.stagedAsc.find? fun e => !moveOk (s.entryState e) (leAt (s.shadowRaw e) 5 1)).map fun e => ⟨5, 2, e, 0⟩

/-- Images that entries arm on and that were loaded at the CHECK, but are not any more: the application loads them (R56, R65). -/
def lostImages (s : State) (es : List Nat) : List Nat :=
  dedup (es.filterMap fun e =>
    let t := entryStream e (s.shadowRaw e)
    if t.state = 1 ∧ (s.image t.image).isNone ∧ !s.par.loads.contains t.image then some t.image else none)

/-- The parison applies. -/
def applyAll (s : State) : State :=
  match s.applyFails with
  | some r => s.reopen r.code r.kind r.where_
  | none =>
    let es := s.stagedAsc
    let t := s.applyTick
    let seq := s.rd Fd.CTL_COMMIT_SEQ
    let loads := s.par.loads ++ s.lostImages es
    let s := s.applyRegs
    let s := loads.foldl (fun s id => s.loadImage id) s
    let s := s.applyEntries es
    let s := ((({ s with par := {} }).syncStaged).setClaims []).syncCodebooks
    let s := (s.wr Fd.CTL_COMMIT_DONE_LO t).wr Fd.CTL_COMMIT_DONE_HI (t / 2 ^ 32)
    ((s.wr Fd.CTL_COMMIT_SEQ (seq + 1)).setParState 0).setCode 0

/-- ABANDON (R47): one that arrives at the instant of the application or later finds the parison applied. -/
def abandonCmd (s : State) : State :=
  s.commitGate fun s =>
    if s.parState = 0 then s
    else if s.applyDue then s.applyAll.settle.choose
    else s.abandonAll.setCode 0x10

end State

/-- CHECK (R41 to R43): a write of CTL_COMMIT with Cmd 1. -/
def execCheck (s : State) : Result := .next s.begin_.startCheck

/-- CHECK_COMPLETE (R43): the CHECK that runs ends. -/
def execCheckComplete (s : State) : Result :=
  let s := s.begin_
  .next (if s.rd Fd.CTL_COMMIT_STATUS_Busy = 0 then s else s.endCheck_)

/-- APPLY (R41, R45): a write of CTL_COMMIT with Cmd 2. -/
def execApply (whenBit : Nat) (s : State) : Result := .next (s.begin_.startApply whenBit)

/-- ABANDON (R41, R47): a write of CTL_COMMIT with Cmd 3. -/
def execAbandon (s : State) : Result := .next s.begin_.abandonCmd

/-- PARISON_APPLICATION (R46): the instant of application. -/
def execParisonApplication (s : State) : Result :=
  let s := s.begin_
  .next (if s.applyDue then s.applyAll.settle.choose else s)

end Sys2Proof.Machine
end

