-- ==== Sys2Proof/Machine/Failover.lean ====
section
/-! DEFINITION. Causes of fail-stop, standby entries and their activation (17_failover.md, R397, R409 to R412, R417, R418). -/
namespace Sys2Proof.Machine
open Sys2Proof

/-! A seal (R403), over its bytes. -/

namespace Seal
def magicOk (x : List Byte) : Bool := leAt x 0 4 == 0x4C504E54
def set (x : List Byte) : Nat := leAt x 4 1
def chip (x : List Byte) : Nat := leAt x 6 2
def entry (x : List Byte) : Nat := leAt x 8 2
def chunk (x : List Byte) : Nat := leAt x 0x10 8
def next (x : List Byte) : Nat := leAt x 0x18 8
def anchor (x : List Byte) : Nat := leAt x 0x20 8
def mark (x : List Byte) : Nat := leAt x 0x28 8
end Seal

/-- The seal is that of a complete copy of the entry's origin (R411). -/
def sealGood (e sl : List Byte) : Bool :=
  Seal.magicOk sl && decide (Seal.set sl ≤ 1) && Seal.chip sl == Standby.origin e && Seal.entry sl == Standby.originEntry e

namespace State

/-- Valid standby entries that an automatic activation of an origin takes, ascending (R410). -/
def standbysOf (s : State) (origin : Nat) : List Nat :=
  (List.range 4096).filter fun k =>
    let e := s.standbyRaw k
    Standby.valid e && Standby.auto_ e && Standby.origin e == origin

/-- PNT_STATUS.Standbys takes what a scan found. -/
def scanStandbys (s : State) : State :=
  s.wr Fd.PNT_STATUS_Standbys ((List.range 4096).filter fun k => Standby.valid (s.standbyRaw k)).length

/-- PNT_LAST_RESUME takes a result (R411). -/
def lastResume (s : State) (k code origin : Nat) : State :=
  ((s.wr Fd.PNT_LAST_RESUME_Index k).wr Fd.PNT_LAST_RESUME_Code code).wr Fd.PNT_LAST_RESUME_Origin origin

/-- An activation has failed. -/
def resumeFails (s : State) (k code : Nat) (e : List Byte) : State :=
  ((s.lastResume k code (Standby.origin e)).count Fd.PNT_RESUME_FAIL_CNT).setErrLog Fd.PNT_PAGE_ERR_ResumeFail 0 (Standby.local_ e) 0

/-! The stream that a copy gives (R411, R412). -/

/-- The template with its places in the mirror: the entry x of R411. A copy set of an image without state sections (`secs`) begins with its KV
page table (R403; notes/assumptions/81.md). -/
def resumedEntry (s : State) (e sl : List Byte) (kv : Bool) (secs : Bool := true) : List Byte :=
  let base := Standby.mirror e + 0x1000 + Seal.set sl * Standby.stride e
  let x := putBytes (Standby.template e) 0x20 (leBytes 8 base)
  let x := if kv then putBytes x 0x30 (leBytes 8 (base + (if secs then roundUp (s.devLe (base + 8) 4) 256 else 0))) else x
  let x := putBytes x 0x38 (leBytes 8 (Standby.mirror e + Standby.replayOff e))
  if Seal.mark sl = 2 ^ 64 - 1 then x
  else putBytes (putBytes x 0x40 (leBytes 8 (Seal.mark sl))) 6 (leBytes 1 (leAt x 6 1 ||| 4))

/-- MeetsR54 of R411: the rules of a stream entry hold for the template. -/
def meetsR54 (s : State) (entry : Nat) (x : List Byte) : Bool :=
  let t := s.abandonAll
  let t := t.devPut (t.shadowEntry entry) (putBytes x 5 (leBytes 1 2))
  (t.entryCode entry (t.viewOf (leAt x 8 1)) true).isNone

/-- Room of R411: a stream slot (R238), and hot frames (R193). -/
def roomFor (s : State) (m : Image) : Bool :=
  let n := (s.streams.filter fun (t : Stream) => t.image == m.id).length
  decide (n < m.streamSlots) && (m.kv.isNone || (hotBlocks (s.imgView m.id [])).all fun b => decide (n < b))

/-- A layer's record of a copied KV page table (R194), with the pages it lists. What the table and the pages do not hold, the
position of a cullet page's first token, is free (R412, notes/assumptions/32.md). -/
def resumedLayer (s : State) (k : List Byte) (ptr pool chunk l : Nat) : KvLay :=
  let rec_ := ptr + 0x40 + 32 * l
  let head := s.devLe (rec_ + 8) 4
  let n := s.devLe (rec_ + 12) 4
  let next := s.devLe (rec_ + 16) 4
  let newest := s.devLe (rec_ + 20) 2
  let list := ptr + Kv.listOff k + 4 * Kv.listLen k * l
  let page (i : Nat) : KvPage :=
    let w := s.devLe (list + 4 * ((head + i) % Nat.max 1 (Kv.listLen k))) 4
    let q := next - n + i
    let toks := if i + 1 = n then newest else Kv.perPage k
    if bitAt w 31 then
      let b := s.fresh [32, l, i]
      { q := q, base := b, toks := (List.range toks).map fun z => (b + z, chunk), done := toks, cullet := true, framed := false }
    else
      let a := pool + (w % 2 ^ 24) * Kv.pageBytes k
      let b := s.devLe a 8
      let exp (o : Nat) : Int := (s.devLe (a + o) 4 / 2 ^ 23 % 256 : Nat) - 127
      { q := q, pool := some (w % 2 ^ 24), base := b
        toks := (List.range toks).map fun z => (b + s.devLe (a + Kv.posOff k z) 4, chunk)
        done := toks, scales := (List.range (Kv.heads k)).map fun h => (exp (Kv.scaleOff h), exp (Kv.scaleOff h + 4))
        framed := Kv.hot k != 0 && decide (next ≤ q + Kv.hot k), spilled := true }
  { floor := s.devLe rec_ 8, head := head, nextSeq := next, pages := (List.range n).map page }

/-- The copied KV history becomes the entry's (R411, R412): the working records from the committed table, and the pages that
stay in hot frames from the pool. -/
def kvResume (s : State) (entry chunk pool : Nat) : State :=
  match s.stream entry with
  | none => s
  | some t =>
    match s.image t.image with
    | none => s
    | some m =>
      if m.kv.isNone then s
      else
        let k := m.kvRec
        let s := s.lpNarrowPut (t.kvPtr + 8) (leBytes 8 pool)
        let others := (s.streams.filter fun (x : Stream) => x.image == t.image && x.entry != entry).map (·.hot)
        let hot := ((List.range 4096).find? fun i => !others.contains i).getD 0
        let lays := (List.range (Kv.layers k)).map fun l => s.resumedLayer k t.kvPtr pool chunk l
        let t : Stream := { t with hot := hot, kvw := lays }
        let s := s.putStream t
        let pools := lays.flatMap fun y => y.pages.filter fun p => p.pool.isSome
        let s := pools.foldl (fun s p =>
          let a := s.poolAddr m t (p.pool.getD 0)
          if p.framed then s.bulkRead .gaf 0 a (Kv.pageBytes k) entry else (s.devRead .gaf 0 a (0x40 + Kv.scaleBytes k + Kv.posBytes k) entry).2) s
        let framed := (lays.zipIdx).flatMap fun y => (y.1.pages.filter fun p => p.framed).map fun p => (y.2, p)
        let s := framed.foldl (fun s x =>
          s.narrowWrite (s.hotAddr m t x.1 x.2.q) (s.devBytes (s.poolAddr m t (x.2.pool.getD 0)) (Kv.pageBytes k))) s
        s.setImage t.image fun m => { m with tables := if m.tables.contains t.kvPtr then m.tables else m.tables ++ [t.kvPtr] }

/-- Chunks held whole in the replay mirror from the stream's present boundary on: the stamp record of each holds its number. The
stretch of a chunk that this device did not land itself is free (R407, R412, notes/assumptions/31.md). -/
def mirrorChunks (s : State) (own : List Chunk) : Nat → Stream → Stream
  | 0, t => t
  | fuel + 1, t =>
    let a := t.replayBase + t.replayLen + 16 * (t.nextJ % stampQ t)
    if t.replayLen = 0 ∨ s.devLe a 8 ≠ t.nextJ then t
    else
      let k := match own.find? fun c => c.j == t.nextJ with
        | some c => c.k
        | none => t.nextK (s.fresh [31, t.nextJ] % (t.kMax + 1))
      let n := t.samplesAt k
      let tr := s.devLe (a + 8) 8
      let c : Chunk := { j := t.nextJ, first := t.nextFirst, len := n, k := k, tr := tr, mirror := true }
      s.mirrorChunks own fuel { t with ready := t.ready ++ [c], nextJ := t.nextJ + 1, nextFirst := t.nextFirst + n, curK := k, lastTr := tr }

/-- The chunks that the mirror holds whole: none where the newest samples in it have overwritten some of the first one's (R407, R412);
`newest` is the sample after the newest that the device has landed there itself. -/
def heldChunks (s : State) (own : List Chunk) (newest : Nat) (t : Stream) : Stream :=
  let u := s.mirrorChunks own (stampQ t) t
  if t.nextFirst + t.replayLen / Nat.max 1 (t.channels * 4) < Nat.max u.nextFirst newest then t else u

/-- Resume of R411 and R412: the entry goes from IDLE straight to RUNNING. -/
def resumeStream (s : State) (k : Nat) (e sl x : List Byte) (m : Image) : State :=
  let entry := Standby.local_ e
  let raw := putBytes (putBytes (putBytes (putBytes x 5 [2]) 7 [0]) 0x0E [0]) 0x80 (List.replicate 128 0)
  let own : Option Stream := tabGet s.fo.standby k
  let packet := epKind (leAt x 0x14 4) == 2
  let t : Stream :=
    { entry := entry, raw := raw, state := 2, image := m.id, slot := s.freeSlot m, nextJ := Seal.chunk sl + 1, nextFirst := Seal.next sl,
      loaded := false, lastLand := s.now, runAt := s.now, committed := Seal.chunk sl + 1, lastTr := s.now,
      x0 := if packet then some (Seal.anchor sl) else none }
  let t := s.heldChunks ((own.map (·.ready)).getD []) (maxNat ((own.map fun p => p.landed.map (· + 1)).getD [])) t
  let t : Stream := { t with arrive := (t.ready.getLast?).map fun c => c.tr - c.j * (t.chunkLen * 1000000000 / rateHz t.rate) }
  let t : Stream := match own with
    | some p => if p.nextJ = t.nextJ then { t with curK := p.curK, filled := p.filled, landed := p.landed, early := p.early, arrive := p.arrive }
                else { t with landed := p.landed }
    | none => t
  let t := s.readSessions t
  let s := (s.lpNarrowPut (s.liveAddr entry) raw).putStream t
  let s := t.sess.foldl (fun s x => s.announceSession (epPort x.1) x.2) s
  let s := s.kvResume entry (Seal.chunk sl) (Standby.mirror e + Standby.poolOff e)
  let s := s.storeEntry entry
  let s := if m.kv.isSome then s.gafRead entry t.kvPtr (Kv.tableBytes m.kvRec (s.kvPoolPages t)) else s
  if t.isPunty then s.storePunty t else s

/-- Activate of R411. An entry that is not Valid is left alone (R418). -/
def activate (s : State) (k : Nat) : State :=
  let e := s.standbyRaw k
  let s := (s.devRead .pnt 0 (s.standbyAddr k) 512).2
  if !Standby.valid e then s
  else
    let s := (s.devRead .pnt 0 (Standby.mirror e) 256).2
    let s := s.lpNarrowPut (s.standbyAddr k) (leBytes 1 (leAt e 0 1 &&& 0xFE)) .pnt
    let sl := s.devBytes (Standby.mirror e) 256
    let id := leAt (Standby.template e) 8 1
    let done (s : State) : State := { s with fo := { s.fo with standby := tabDel s.fo.standby k } }
    if !sealGood e sl then done (s.resumeFails k 1 e)
    else if s.entryState (Standby.local_ e) ≠ 0 then done (s.resumeFails k 2 e)
    else
      match s.image id with
      | none => done (s.resumeFails k 3 e)
      | some m =>
        let x := s.resumedEntry e sl m.kv.isSome (m.numSections != 0)
        if !s.meetsR54 (Standby.local_ e) x then done (s.resumeFails k 4 e)
        else if !s.roomFor m then done (s.resumeFails k 5 e)
        else
          let s := s.resumeStream k e sl x m
          done (((s.lastResume k 0 (Standby.origin e)).count Fd.PNT_RESUME_CNT).setErrLog Fd.PNT_PAGE_ERR_Resumed 0 (Standby.local_ e) 0)

/-- Every Valid entry of an origin with AutoResume, in ascending order (R410). -/
def activateAll (s : State) (origin : Nat) : State :=
  let s := s.scanStandbys
  (s.standbysOf origin).foldl (fun s k => s.activate k) s

/-! The probe (R410, R417). -/

/-- The first copy of a link-down report has come: the MP reads the first 256 bytes of the suspect's window. -/
def probeOrigin (s : State) (suspect : Nat) : State :=
  if s.rd Fd.PNT_CFG_AutoResume = 0 ∨ s.rd Fd.PNT_PAGE_CTL_Enable = 0 ∨ s.fo.probes.any (fun p => p.1 == suspect) then s
  else
    let s := s.scanStandbys
    if (s.standbysOf suspect).isEmpty then s
    else
      let tag := s.nextId % 65536
      let m : Msg := { op := 0, vc := 0, poison := false, skip := false, hops := 0, code := 0, dest := suspect, src := 0, tag := tag,
                       addr := 0, returnOld := false, data := [] }
      match s.sendMsg m with
      | none => s.activateAll suspect
      | some t =>
        { t with
          nextId := s.nextId + 1
          fo := { t.fo with probes := t.fo.probes ++ [(suspect, tag, s.now + s.rd Fd.PNT_CFG_ProbeUs * 1000)] } }

/-- The origin has answered: Alive is recorded and logged. -/
def probeAlive (s : State) (suspect : Nat) : State :=
  let k := (s.standbysOf suspect).headD 0
  let s := { s with fo := { s.fo with probes := s.fo.probes.filter fun p => p.1 != suspect } }
  let s := s.lastResume k 6 suspect
  s.logPlain .pnt (s.word (Fd.PNT_LAST_RESUME_Index.addr 0 0)).toNat

/-- A standby's session is ended with its entry; a record of one that is no longer Valid is dropped (R409). -/
def tidyStandby (s : State) : State :=
  { s with fo := { s.fo with standby := s.fo.standby.filter fun x => Standby.valid (s.standbyRaw x.1) } }

/-! Causes of fail-stop (R397). -/

end State

/-- A write of PNT_CMD (R419). -/
def State.pntCmdWrite (s : State) (word : Nat) : State :=
  if slice word 16 16 ≠ 0xF5A1 ∨ slice word 1 15 ≠ 0 ∨ 2 ^ 32 ≤ word then s.badWrite .pnt 0
  else if bitAt word 0 then s.failStop 0x0B else s

/-- PNT_FAILSTOP_CMD (R397, R419). -/
def execPntFailstopCmd (word : Nat) (s : State) : Result := .next (s.begin_.gated .pnt 0 fun s => s.pntCmdWrite word)

/-- MP_WATCHDOG_EXPIRE (R397, R441): cause 0x0A; before the first DEVICE_READY after a slot change, the next start-up boots
the other slot. -/
def execMpWatchdogExpire (s : State) : Result :=
  let s := s.begin_
  if s.started && decide (3 ≤ s.pow.row) then
    let s := if s.sec.changed then { s with sec := { s.sec with fallBack := true } } else s
    .next (s.failStop 0x0A)
  else .next s

/-- BENCH_POWER_LOSS (R397): cause 0x05, on a bench of the active mask. -/
def execBenchPowerLoss (bench : Nat) (s : State) : Result :=
  let s := s.begin_
  .next (if s.started && s.usesBench bench then s.failStop 0x05 bench else s)

/-- CLOCK_FAULT (R397): cause 0x06, the root PLL or a bench divider. -/
def execClockFault (bench : Option Nat) (s : State) : Result :=
  let s := s.begin_
  .next (if s.started then s.failStop 0x06 (match bench with | some b => b % 16 | none => 31) else s)

/-- RAIL_FAULT (R397, R461): cause 0x08; another rail that leaves its range is an unannounced loss of power. An excursion of the
core rail that the device does not detect has no specified behaviour. -/
def execRailFault (kind : RailKind) (s : State) : Result :=
  let s := s.begin_
  if !s.started then .next s
  else
    match kind with
    | .coreLow | .coreHigh | .overcurrent _ => .next (s.failStop 0x08)
    | .coreExcursion => .fault .railUnspecified
    | .other _ => let t := s.wipe; .next { t with pow := { t.pow with powered := false } }

/-- CONTROL_STATE_ERROR (R397): cause 0x04, or 0x09 for the device fabric. -/
def execControlStateError (fabric : Bool) (s : State) : Result :=
  let s := s.begin_
  .next (if s.started then s.failStop (if fabric then 0x09 else 0x04) else s)

/-- PROBE_TIMEOUT (R410): no response within ProbeUs; the oldest probe's origin is taken as dead. -/
def execProbeTimeout (s : State) : Result :=
  let s := s.begin_
  .next (match s.fo.probes with
    | [] => s
    | p :: rest =>
      if s.failStopped then s
      else
        let s : State := { s with fo := { s.fo with probes := rest } }
        if s.rd Fd.PNT_PAGE_CTL_Enable = 0 then s else (s.activateAll p.1).choose)

/-- A write of PNT_RESUME (R410, R419). -/
def State.resumeWrite (s : State) (word : Nat) : State :=
  if slice word 12 19 ≠ 0 ∨ 2 ^ 32 ≤ word then s.badWrite .pnt 0
  else if bitAt word 31 ∧ s.rd Fd.PNT_PAGE_CTL_Enable = 1 then (s.activate (word % 4096)).choose else s

/-- STANDBY_RESUME (R410). -/
def execStandbyResume (word : Nat) (s : State) : Result := .next (s.begin_.gated .pnt 0 fun s => s.resumeWrite word)

end Sys2Proof.Machine
end

