-- ==== Sys2Proof/Machine/Messages.lean ====
section
/-! DEFINITION. Messages of the links at their destination (13_links.md, R315 to R331): the remote window, answers, stream samples,
collectives, notices, reports; accesses that arrive at a memory controller (12_lpddr.md, R284 to R291), temperature polls. -/
namespace Sys2Proof.Machine
open Sys2Proof

namespace State

/-! Taking a message (R306, R317; notes/assumptions/33.md). -/

/-- The chip is in service under its number, and the message is for it. -/
def msgHere (s : State) (m : Msg) : Bool := s.started && !s.failStopped && s.idValid && m.dest == s.chipId

/-- No earlier message of its source and VC waits in the port's buffer, a contribution that waits for its round among them. -/
def msgFirst (s : State) (p : Nat) (m : Msg) : Bool :=
  let lane := (s.port p).inbox.filter fun x => x.src == m.src && x.vc == m.vc
  !(s.gaf.held.any fun h => h.1 == p && h.2.src == m.src && h.2.vc == m.vc) && (lane.isEmpty || lane.head? == some m)

/-- The message may be acted on. -/
def msgDue (s : State) (p : Nat) (m : Msg) : Bool := s.msgHere m && s.msgFirst p m

/-- A message stays in the port's buffer, where one that has just come takes its place behind the earlier ones (R306, R317). -/
def keepMsg (s : State) (p : Nat) (m : Msg) : State :=
  if (s.port p).inbox.contains m then s else s.setPort p fun l => { l with inbox := l.inbox ++ [m] }

/-- Run `f` on a message of the expected Op once it is its turn. -/
def onTurn (s : State) (p : Nat) (m : Msg) (op : Nat) (f : State → State) : State :=
  if !s.msgHere m || m.op != op then s
  else if s.msgFirst p m then f s
  else s.keepMsg p m

/-- Act on a message of the expected Op: it leaves its buffer and its credit is owed. -/
def onMsg (s : State) (p : Nat) (m : Msg) (op : Nat) (f : State → State) : State := s.onTurn p m op fun s => f (s.takeInbox p m)

/-- An answer on VC 1; one without a route is lost. -/
def reply (s : State) (m : Msg) (g : Msg) : State := (s.sendMsg { g with dest := m.src, tag := m.tag }).getD s

/-- The mark in an answer to an access that is handled as unmapped; its value is not stated (notes/assumptions/30.md). -/
def refusal (s : State) : Nat := 1 + s.fresh [30] % 15

def answerMsg (vc : Nat) (data : Option (List Byte)) (poison : Bool) (code : Nat) : Msg :=
  { op := if data.isSome then 1 else 3, vc := vc, poison := poison, skip := false, hops := 0, code := code, dest := 0, src := 0, tag := 0,
    addr := 0, returnOld := false, data := data.getD [] }

end State

namespace State

/-- The access of a message through the window: `write` and `atomic` say what it would do. -/
def throughWindow (s : State) (m : Msg) (write atomic : Bool) (n : Nat := 256) : Window := s.windowAt (m.addr % 2 ^ 36) m.src write atomic n

/-- READ_REQUEST of the window (R316, R318). -/
def serveRead (s : State) (m : Msg) (mem : MemOutcome) : State :=
  let zeros : List Byte := List.replicate 256 0
  match s.throughWindow m false false with
  | .refused => s.reply m (answerMsg 1 (some zeros) false s.refusal)
  | .lpddr o =>
    let (d, bad, s) := (s.narrow o 256).memReads o 256 mem noEntry
    s.reply m (answerMsg 1 (some d) bad 0)
  | .spad a =>
    match s.spadCheck a 256 false false with
    | .ok =>
      let bad := !(s.spadBadIn a 256).isEmpty
      let (d, s) := s.narrowRead a 256
      s.reply m (answerMsg 1 (some d) bad 0)
    | .sealed => s.sealedErr.reply m (answerMsg 1 (some zeros) false 0)
    | _ => s.reply m (answerMsg 1 (some zeros) false s.refusal)

/-- The image and the stage copy that a pull reads: copy `n` of the entry in a set that RingNext still pulls for it under the CollId
(R208, R325). -/
def pulledCopy (s : State) (coll entry unit : Nat) : Option (Image × StageCopy × Nat) :=
  s.gaf.images.findSome? fun (m : Image) =>
    let per := Nat.max 1 (ceilDiv (Kv.pageBytes m.kvRec) 256)
    (m.stage.find? fun (g : StageSet) => g.pulled.contains entry && g.coll == coll).bind fun g =>
      ((g.copies.filter fun c => c.entry == entry)[unit / per]?).map fun c => (m, c, unit % per)

/-- A ring rotation's read of a unit of a frame, answered on VC 2 (R306, R325). -/
def servePull (s : State) (p : Nat) (m : Msg) : State :=
  match s.pulledCopy (slice m.addr 0 16) (slice m.addr 16 12) (slice m.addr 28 20) with
  | none => s.keepMsg p m
  | some (im, c, u) =>
    let k := im.kvRec
    let a := s.frameAddr im c.frame + 256 * u
    let n := Nat.min 256 (Kv.pageBytes k - 256 * u)
    let s := s.takeInbox p m
    let bad := !(s.spadBadIn a n).isEmpty
    let (d, s) := s.narrowRead a n
    s.reply m (answerMsg 2 (some (bytesAt d 0 256)) bad 0)

/-- WRITE through the window (R275, R316), of the bytes that the message carries. -/
def serveWrite (s : State) (m : Msg) (mem : MemOutcome) : State :=
  let n := if m.short % 256 = 0 then 256 else m.short % 256
  let d := bytesAt m.data 0 n
  match s.throughWindow m true false n with
  | .refused => s.reply m (answerMsg 1 none false s.refusal)
  | .lpddr o =>
    let s := (s.narrow o n).memWrites o d mem noEntry
    let s := if m.poison then s.spoilLp ((List.range (ceilDiv (o % 32 + n) 32)).map fun i => o / 32 * 32 + 32 * i) false else s
    s.reply m (answerMsg 1 none false 0)
  | .spad a =>
    match s.spadCheck a n true false with
    | .ok =>
      let s := s.narrowWrite a d
      (if m.poison then s.poisonSpad a n else s).reply m (answerMsg 1 none false 0)
    | .sealed => s.sealedErr.reply m (answerMsg 1 none false 0)
    | _ => s.reply m (answerMsg 1 none false s.refusal)

/-- The answer to an atomic: the old bytes where ReturnOld is set, an acknowledgement otherwise. -/
def answerAtomic (s : State) (m : Msg) (old : List Byte) (bad : Bool) (code : Nat) : State :=
  s.reply m (answerMsg 1 (if m.returnOld then some (bytesAt old 0 256) else none) (m.returnOld && bad) code)

/-- REMOTE_SCRATCHPAD_ATOMIC: on this chip's shared-region adders (R253, R316); old words that are uncorrectable poison the answer (R318). -/
def serveSpadAtomic (s : State) (m : Msg) : State :=
  match s.throughWindow m true true with
  | .spad a =>
    if (s.regionAt a 256).isNone then s.answerAtomic m [] false s.refusal
    else
      let bad := (s.regionAt a 256).any (fun (r : Region) => !r.shut) && !(s.spadBadIn a 256).isEmpty
      let (old, s) := s.spadAtomic a m.code (bytesAt m.data 0 256)
      s.answerAtomic m old bad 0
  | _ => s.answerAtomic m [] false s.refusal

/-- REMOTE_MEMORY_ATOMIC: on this chip's memory-side adders (R287, R316); a reserved code has no effect. -/
def serveMemAtomic (s : State) (m : Msg) (mem : MemOutcome) : State :=
  match s.throughWindow m false true with
  | .lpddr o =>
    if 4 ≤ m.code then s.answerAtomic m [] false s.refusal
    else
      let (old, bad, s) := (s.narrow o 256).unitAtomic o m.code (bytesAt m.data 0 256) mem noEntry
      s.answerAtomic m old bad 0
  | _ => s.answerAtomic m [] false s.refusal

/-! Answers at the issuer (R20, R258, R275, R318, R410). -/

def answered (s : State) (m : Msg) : Option Flight := s.flights.find? fun f => f.remote && f.id % 65536 == m.tag

/-- The far end of a transfer is the one that was read. -/
def readsFar (s : State) (x : Xfer) : Bool :=
  decide (2 ^ 60 ≤ x.src) || (x.comp.isNone && (match s.target x.src (srcBytes x) with | .remote _ _ => true | _ => false))

/-- Data of a read from another chip lands. -/
def landRemote (s : State) (f : Flight) (m : Msg) (mem : MemOutcome) : State :=
  let x := f.x
  let n := if 2 ^ 60 ≤ x.src then x.bytes else srcBytes x
  let o := x.src - (if 2 ^ 60 ≤ x.src then x.src else farAddr x.src n)
  let words := if m.poison then (List.range (ceilDiv n 8)).map (8 * ·) else []
  if m.poison && (s.flightKind f).any isLoad then s else s.landData f (bytesAt (m.data.drop o) 0 n) words mem

/-- The operands of an AtomicRet come from another chip: the old values go back over them, and their acknowledgement ends the
transfer (R264, R307); whether a message was sent. -/
def atomicBack (s : State) (f : Flight) (m : Msg) : Bool × State :=
  let x := f.x
  let (old, s) := s.atomicEnd f (bytesAt m.data 0 256) (if m.poison then (List.range 32).map (8 * ·) else [])
  match s.target x.src 256 with
  | .remote c o =>
    match s.sendMsg { op := 2, vc := 0, poison := false, skip := false, hops := 0, code := 0, dest := c, src := 0, tag := f.id % 65536,
                      addr := o, returnOld := false, data := old } with
    | some t => (true, t)
    | none => (false, s)
  | _ => (false, s)

/-- A read response: the probe's, or that of an outstanding transfer. One that the far chip handled as unmapped is not performed and
faults, a punty copy is missed (R20, R274, R316, R405); so does one whose end here has been disabled (R297). Poisoned data land so (R318). -/
def takeResponse (s : State) (m : Msg) (mem : MemOutcome) : State :=
  match s.fo.probes.find? fun p => p.2.1 == m.tag && p.1 == m.src with
  | some p => s.probeAlive p.1
  | none =>
    match s.answered m with
    | none => s
    | some f =>
      if m.code ≠ 0 || s.darkX f.x (s.flightKind f == some .initialLoad) then (s.unmappedErr .gth f.bench).failFlight f
      else
        let far := s.readsFar f.x
        let (waits, s) := if far ∧ f.x.xform = 4 then s.atomicBack f m
          else if far then (false, s.landRemote f m mem)
          else (false, s.writeEnd { f with x := { f.x with dst := f.x.src, dstOwn := f.x.srcOwn } } (bytesAt m.data 0 (srcBytes f.x))
            (if m.poison then (List.range (ceilDiv (srcBytes f.x) 8)).map (8 * ·) else []) mem true)
        if waits then s else s.endFlight f m.poison

def takeAckMsg (s : State) (m : Msg) : State :=
  match s.answered m with
  | none => s
  | some f => if m.code ≠ 0 then (s.unmappedErr .gth f.bench).failFlight f else s.endFlight f false

/-! Stream samples (R319). -/

/-- The stream whose Source names the port and channel. -/
def channelStream (s : State) (p ch : Nat) : Option Stream :=
  s.streams.find? fun (t : Stream) => epKind t.source == 3 && epPort t.source == p && epIndex t.source == ch

/-- Bytes of a unit at a chunk's place go to the input buffer and the replay buffer (R363, R407). -/
def writeUnit (s : State) (t : Stream) (u : Nat) (bs : List Byte) (poison : Bool) : State :=
  match s.inBuf t.image with
  | none => s.streamFault t.entry 3
  | some r =>
    let a := r.start + t.slot * (r.units * 256) + (if r.slots = 0 then 0 else t.nextJ % r.slots) * r.slotBytes + 256 * u
    let s := if t.mirroring then s else s.narrowWrite a bs
    let s := if poison ∧ !t.mirroring then s.poisonSpad a bs.length else s
    if t.replayLen = 0 then s
    else
      let o := (t.nextFirst * t.channels * 4 + 256 * u) % t.replayLen
      let n := Nat.min bs.length (t.replayLen - o)
      let s := s.replayPut t (t.replayBase + o) (bs.take n)
      let s := if n < bs.length then s.replayPut t t.replayBase (bs.drop n) else s
      if !t.isPunty ∨ s.rd Fd.PNT_PAGE_CTL_Enable = 0 then s
      else
        let base := s.mirrorBase t.entry + s.devLe (s.pntRecord t.entry + 0x18) 8
        s.addBuiltIn .replay t.image (some t.entry) 0
          (compXfers (remoteAddr t.partner (base + o)) (bs.take n) ++ compXfers (remoteAddr t.partner base) (bs.drop n))

/-- A unit of the chunk being filled lands at `now`. -/
def landUnit (s : State) (t0 : Stream) (u : Nat) (m : Msg) : State :=
  let t := if t0.landed.isEmpty then { t0 with curK := t0.nextK s.stretchLevel } else t0
  let len := t.samplesAt t.curK
  let total := len * t.channels * 4
  if total ≤ 256 * u then s
  else
    let bs := (bytesAt m.data 0 256).take (total - 256 * u)
    let got := if t.landed.contains u then t.landed else t.landed ++ [u]
    let s := s.putStream t
    let s := if t.discard then s else s.writeUnit t u bs m.poison
    let s := s.setStream t.entry fun t =>
      { t with landed := got, lastLand := s.now, filled := Nat.min (len - 1) (got.length * 256 / Nat.max 1 (t.channels * 4)) }
    if total ≤ 256 * got.length then s.chunkDone t.entry s.now else s

/-- The sample unit must wait: its chunk's slot still holds another uncommitted chunk. -/
def unitWaits (s : State) (t : Stream) : Bool := (t.state == 2 || t.state == 4) && !t.discard && s.slotTaken t t.nextJ

/-- Arrival of a unit at its stream: an ARMED stream starts with unit 0 once StartTime has come (R56). -/
def arriveUnit (s : State) (t : Stream) (u : Nat) (m : Msg) : State :=
  if t.state = 1 then
    if u = 0 ∧ t.startTime ≤ s.now then
      let s := s.setStream t.entry fun t => { t with nextJ := 0, nextFirst := 0, filled := 0, landed := [] }
      let s := s.setState t.entry 2
      match s.stream t.entry with
      | some t => s.landUnit t u m
      | none => s
    else s
  else if t.state = 2 ∨ t.state = 3 ∨ t.state = 4 then s.landUnit t u m
  else s

def takeSamples (s : State) (p : Nat) (m : Msg) : State :=
  match s.channelStream p (slice m.addr 0 12) with
  | none => (s.takeInbox p m).count Fd.LNK_CHAN_DROP_CNT p
  | some t => if s.unitWaits t then s.keepMsg p m else (((s.takeInbox p m).arriveUnit t (slice m.addr 12 24) m).settleWatch).chooseIfReady s

/-! Collectives, notices, reports (R322 to R329, R331). -/

/-- A contribution: applied to its open round, dropped for an IDLE stream, held in its buffer otherwise (R323, R331). -/
def takeContribution (s : State) (p : Nat) (m : Msg) : State :=
  match s.roundFor m with
  | some r => ((s.takeInbox p m).applyUnit r m).choose
  | none =>
    if s.entryState (slice m.addr 16 12) = 0 then (s.takeInbox p m).count Fd.LNK_CHAN_DROP_CNT p
    else
      let s := s.setPort p fun l => { l with inbox := l.inbox.erase m }
      { s with gaf := { s.gaf with held := s.gaf.held ++ [(p, m)] } }

/-- Chips whose contribution an open round still lacks (R326). -/
def missingChips (s : State) (r : Round) : List Nat :=
  match s.image r.image with
  | none => []
  | some m =>
    match m.descs[r.desc]? with
    | none => []
    | some d =>
      if d.collOp = 4 then [s.pullChip r.entry]
      else
        let g := m.groupOf d.group
        ((expectedRanks d g).filter fun k => decide ((tabGet r.got k).getD 0 < (partOf d g (groupRank g)).2)).map
          fun k => (groupMembers g).getD k 0

/-- Slow from a member: every open round that still waits for it lasts at least ExtendUs more (R328). -/
def takeSlow (s : State) (m : Msg) : State :=
  let t := s.now + slice m.addr 0 16 * 1000
  { s with gaf := { s.gaf with rounds := s.gaf.rounds.map fun (r : Round) =>
      if !r.complete && (s.missingChips r).contains m.src then { r with limit := Nat.max r.limit t } else r } }

/-- Done: RingNext has pulled the stream's copies (R325). -/
def takeDone (s : State) (m : Msg) : State :=
  let e := slice m.addr 16 12
  let coll := slice m.addr 0 16
  let free (g : StageSet) : StageSet := if g.coll = coll then { g with pulled := g.pulled.filter (· != e) } else g
  ({ s with gaf := { s.gaf with images := s.gaf.images.map fun (im : Image) => { im with stage := im.stage.map free } } }).choose

/-- A suspect report (R329, R410). -/
def takeReport (s : State) (p : Nat) (m : Msg) : State :=
  let suspect := slice m.addr 0 10
  let kind := slice m.addr 10 2
  let epoch := slice m.addr 12 32
  let seen := s.seenReports.any fun (k : Nat × Nat × Nat × Nat × Nat) => k.1 == suspect && k.2.1 == epoch && k.2.2.1 == m.src && k.2.2.2.1 == kind
  if epoch < s.reportEpoch ∨ seen then s
  else
    let s := s.noteReport suspect kind epoch m.src
    let s := s.seeReport suspect epoch m.src kind
    let s := s.flood (some p) m
    if kind = 1 then (s.probeOrigin suspect).choose else s

/-- Members of the groups that have an open round, this chip left out, each once. -/
def slowChips (s : State) : List Nat :=
  dedup ((s.gaf.rounds.filter fun (r : Round) => !r.complete).flatMap fun (r : Round) =>
    match s.image r.image with
    | none => []
    | some m =>
      match m.descs[r.desc]? with
      | none => []
      | some d => (groupMembers (m.groupOf d.group)).filter (· != s.chipId))

/-- Slow goes to them (R328). -/
def sendSlow (s : State) : State :=
  let ext := s.rd Fd.LNK_SLOW_ExtendUs
  let s := { s with lnk := { s.lnk with slowDue := s.now + ext * 500 } }
  s.slowChips.foldl (fun s c =>
    let m : Msg := { op := 8, vc := 3, poison := false, skip := false, hops := 0, code := 1, dest := c, src := 0, tag := 0, addr := ext,
                     returnOld := false, data := [] }
    match s.sendMsg m with
    | some t => t.count Fd.LNK_SLOW_CNT
    | none => s) s

/-- Some site is at refresh step 2. -/
def siteHot (s : State) : Bool := (List.range 16).any fun i => s.rd Fd.XMC_TEMP_RefreshStep i == 2

/-! Accesses that arrive at a memory controller (R20, R284, R291). -/

/-- The agent's page records an unmapped access. -/
def agentErr (s : State) (a : MemAgent) : State :=
  match a with
  | .gather b => s.unmappedErr .gth b
  | .gaffer _ => s.unmappedErr .gaf 0
  | .link p => s.unmappedErr .lnk p
  | _ => s.unmappedErr .ctl 0

def agentEntry (a : MemAgent) : Nat := match a with | .gaffer (some e) => e | _ => noEntry

/-- An access of the gather engines is wide; every other is narrow. -/
def agentNarrow (s : State) (a : MemAgent) (o n : Nat) : State := match a with | .gather _ => s | _ => s.narrow o n

/-- Serve an access at LPDDR offset `o`: data, whether uncorrectable, state. -/
def serveAccess (s : State) (a : MemAgent) (o n : Nat) (write : Option (List Byte)) (m : MemOutcome) : List Byte × Bool × State :=
  let s := s.agentNarrow a o n
  match write with
  | some bs =>
    ([], false, s.memWrites o (bytesAt bs 0 n) m (agentEntry a))
  | none => s.memReads o n m (agentEntry a)

end State

/-- READ_REQUEST (R316, R318, R325). -/
def execReadRequest (port : Nat) (m : Msg) (mem : MemOutcome) (s : State) : Result :=
  let s := s.begin_
  let s := if s.working then s.noteSoft mem.soft else s
  .next (s.onTurn port m 0 fun s => if m.vc = 2 then s.servePull port m else (s.takeInbox port m).serveRead m mem)

/-- READ_RESPONSE (R258, R410). -/
def execReadResponse (port : Nat) (m : Msg) (s : State) (mem : MemOutcome := goodMem) : Result :=
  .next (s.begin_.onMsg port m 1 fun s => s.takeResponse m mem)

/-- WRITE (R316). -/
def execWrite (port : Nat) (m : Msg) (mem : MemOutcome) (s : State) : Result :=
  .next (s.begin_.onMsg port m 2 fun s => s.serveWrite m mem)

/-- WRITE_ACKNOWLEDGEMENT (R258, R405). -/
def execWriteAcknowledgement (port : Nat) (m : Msg) (s : State) : Result :=
  .next (s.begin_.onMsg port m 3 fun s => s.takeAckMsg m)

/-- REMOTE_SCRATCHPAD_ATOMIC (R316). -/
def execRemoteScratchpadAtomic (port : Nat) (m : Msg) (s : State) : Result :=
  .next (s.begin_.onMsg port m 4 fun s => s.serveSpadAtomic m)

/-- REMOTE_MEMORY_ATOMIC (R316). -/
def execRemoteMemoryAtomic (port : Nat) (m : Msg) (mem : MemOutcome) (s : State) : Result :=
  .next (s.begin_.onMsg port m 5 fun s => s.serveMemAtomic m mem)

/-- STREAM_SAMPLES (R319). -/
def execStreamSamples (port : Nat) (m : Msg) (s : State) : Result :=
  let s := s.begin_
  .next (s.onTurn port m 6 fun s => s.takeSamples port m)

/-- COLLECTIVE (R323). -/
def execCollective (port : Nat) (m : Msg) (s : State) : Result :=
  let s := s.begin_
  .next (s.onTurn port m 7 fun s => s.takeContribution port m)

/-- SLOW_NOTICE (R328). -/
def execSlowNotice (port : Nat) (m : Msg) (s : State) : Result :=
  .next (s.begin_.onMsg port m 8 fun s => if m.code = 1 then s.takeSlow m else s)

/-- DONE_NOTICE (R325). -/
def execDoneNotice (port : Nat) (m : Msg) (s : State) : Result :=
  .next (s.begin_.onMsg port m 8 fun s => if m.code = 2 then s.takeDone m else s)

/-- SUSPECT_REPORT (R329, R410). -/
def execSuspectReport (port : Nat) (m : Msg) (s : State) : Result :=
  .next (s.begin_.onMsg port m 8 fun s => if m.code = 3 then s.takeReport port m else s)

/-- SLOW_NOTICE_SEND (R328). -/
def execSlowNoticeSend (s : State) : Result :=
  let s := s.begin_
  .next (if !s.failStopped && s.siteHot && s.roundOpen then s.sendSlow else s)

/-- ROUND_TIMEOUT (R326, R328, R329): a round still open at its limit, extended by what Slow asked, is counted, reported against each missing
member, and kept open. -/
def execRoundTimeout (image collId entry chunk : Nat) (s : State) : Result :=
  let s := s.begin_
  .next <|
    match s.gaf.rounds.find? fun r => State.roundIs image collId entry chunk r && !r.complete with
    | none => s
    | some r =>
      if s.failStopped ∨ s.now < r.limit then s
      else
        let t := s.count Fd.LNK_TIMEOUT_CNT
        (s.missingChips r).foldl (fun t c => t.originate c 2) t

/-- LPDDR_ACCESS (R281, R284, R289 to R291): an access of an agent at an LPDDR offset. -/
def execLpddrAccess (agent : MemAgent) (addr len : Nat) (write : Option (List Byte)) (m : MemOutcome) (s : State) : Result :=
  let s := s.begin_
  let n := match write with | some bs => bs.length | none => len
  if n = 0 ∨ s.failStopped ∨ !s.started then .next s
  else if s.lpSize < addr + n ∨ s.anyOff addr n then
    .next ((s.agentErr agent).put (.data (if write.isSome then [] else List.replicate n 0) false))
  else
    let (d, bad, s) := s.serveAccess agent addr n write m
    if write.isSome then .next s
    else
      match agent with
      | .bar2 => .next (s.put (.bar2 d bad))
      | .gaffer (some e) => .next (if bad then s.streamFault e 6 else s.put (.data d false))
      | _ => .next (s.put (.data d bad))

/-- LPDDR_ATOMIC (R287, R288): a narrow atomic on one burst, or a unit's eight. A reserved code has no effect. -/
def execLpddrAtomic (agent : MemAgent) (addr code : Nat) (data : List Byte) (returnOld : Bool) (m : MemOutcome) (s : State) : Result :=
  let s := s.begin_
  let wide : Bool := match agent with | .gather _ => true | _ => false
  let n := if wide then 256 else 32
  if s.failStopped ∨ !s.started ∨ 4 ≤ code then .next s
  else
    let a := addr / n * n
    if s.lpSize < a + n ∨ s.siteOff a then
      let s := s.agentErr agent
      .next (if returnOld ∧ !wide then s.put (.data (List.replicate n 0) false) else s)
    else if wide then .next (s.unitAtomic a code (bytesAt data 0 256) m State.noEntry).2.2
    else
      let (old, bad, s) := (((s.agentNarrow agent a 32).evtDev 0x27).evtDev 0x28).burstAtomic a code (bytesAt data 0 32) m (State.agentEntry agent)
      .next (if returnOld then s.put (.data old bad) else s)

/-- STACK_TEMP_READ (R294, R295): a second reading at or above 105 °C fail-stops the device. -/
def execStackTempRead (site : Nat) (reading : Reading) (s : State) : Result :=
  let s := s.begin_
  if !s.started ∨ s.failStopped ∨ 16 ≤ site then .next s
  else
    let s := s.pollTemp site reading
    .next (if 2 ≤ (s.sites.getD site {}).hotRun then s.failStop 0x02 else s)

end Sys2Proof.Machine
end

