-- ==== Sys2Proof/Machine/Ports.lean ====
section
/-! DEFINITION. Training, keys, lanes and port states of the links (13_links.md, R301, R310, R313, R314, R330 to R332;
17_failover.md, R400). The Key frames that carry a handshake have no layout in the spec: the messages stand for them
(notes/assumptions/10.md). -/
namespace Sys2Proof.Machine
open Sys2Proof

/-- A Hello as bytes (R313; the layout is a DESIGN CHOICE, notes/assumptions/10.md). -/
def helloBytes (h : HelloIn) : List Byte :=
  bytesAt h.nonce 0 32 ++ leBytes 2 (h.chip % 1024 + 2 ^ 15 * b2n h.idValid) ++ h.pub ++ h.kem

/-- Bytewise order of identity keys (R313). -/
def bytesLt : List Byte → List Byte → Bool
  | [], [] => false
  | [], _ :: _ => true
  | _ :: _, [] => false
  | a :: as, b :: bs => decide (a.toNat < b.toNat) || (a == b && bytesLt as bs)

/-- The ASCII string of R313. -/
def ranratreName : List Byte := [0x52, 0x41, 0x4E, 0x52, 0x41, 0x54, 0x52, 0x45, 0x33]

/-- The 72 key bytes of R313, step 4. -/
def sessionBytes (small large : HelloIn) (toSmall toLarge : Nat) : List Byte :=
  shakeLanes 9 (ranratreName ++ leBytes 32 toSmall ++ leBytes 32 toLarge ++ helloBytes small ++ helloBytes large)

namespace State

/-- The port may train and agree keys. -/
def lnkLive (s : State) (p : Nat) : Bool :=
  decide (p < 32) && s.started && !s.failStopped && s.rd Fd.LNK_CTL_PacketMode p == 0 && s.rd Fd.LNK_PAGE_CTL_Enable p == 1

/-! Up, Down. -/

/-- The port carries frames now. One that comes from Down starts its counts and credits anew (R305, R306). -/
def comeUp (s : State) (p : Nat) (fresh : Bool) : State :=
  let s := s.wr Fd.LNK_STATUS_State (if (s.port p).lanes.length < 2 then 3 else 2) p
  let s := s.setPort p fun l => { l with txLanes := [{}, {}], rxLanes := [{}, {}] }
  let s := if fresh then
      s.setPort p fun l =>
        { l with txSeq := 0, rxSeq := 0, txCount := 0, rxCount := 0, nak := false, nakAt := none, unacked := [], keyQueue := [], replays := 0, partials := []
                 credits := (List.range 4).map Config.vcBuffers, owed := [0, 0, 0, 0], txEpoch := 0, rxEpoch := 0 }
    else s
  s.pump p

/-- A handshake fails or is over: the port keeps its old keys or goes Down (R313). -/
def keysFail (s : State) (p code : Nat) : State :=
  let s := s.setPort p fun l => { l with stage := 0, mine := none, peer := none }
  let s := { s with sec := { s.sec with hsWait := s.sec.hsWait.filter (· != p) } }
  let s := s.wr Fd.LNK_KEY_STATUS_Fail code p
  let s := s.setErrLog Fd.LNK_PAGE_ERR_AuthFail p noEntry (s.word (Fd.LNK_KEY_STATUS_Fail.addr p 0)).toNat
  if (s.port p).keys.isSome then s else s.portToDown p

/-! The handshake (R313). -/

/-- Hello goes out; one handshake runs at a time. -/
def startHandshake (s : State) (p : Nat) : State :=
  if (s.port p).stage ≠ 0 then s
  else
    let secret := s.fresh [35, p]
    let mine : HelloIn :=
      { nonce := (List.range 32).map fun i => BitVec.ofNat 8 (s.fresh [34, p, i]), chip := s.chipId, idValid := s.idValid
        pub := Config.xmssPublic s.sec.idGen, kem := Config.mlKemPublic secret }
    let s := s.setPort p fun l => { l with stage := 1, secret := secret, gen := s.sec.idGen, mine := some mine, peer := none, started := s.now, rekeyAfter := false }
    (s.emitKeys p 1 (helloBytes mine)).put (.hello p mine)

/-- Both halves are there: the keys of R313 come into use, at once on a port that comes from Down, under the other KeyEpoch on
one that already has keys (R314). -/
def finishKeys (s : State) (p : Nat) : State :=
  let l := s.port p
  match l.mine, l.peer with
  | some mine, some peer =>
    if l.stage ≠ 3 ∨ s.sec.hsWait.contains p then s
    else
      let small := bytesLt mine.pub peer.pub
      let bs := if small then sessionBytes mine peer l.secret l.sharedOut else sessionBytes peer mine l.sharedOut l.secret
      let a := (ofLe (bytesAt bs 0 32), ofBe (bytesAt bs 32 4))
      let b := (ofLe (bytesAt bs 36 32), ofBe (bytesAt bs 68 4))
      let k : PortKeys := if small then ⟨a.1, a.2, b.1, b.2⟩ else ⟨b.1, b.2, a.1, a.2⟩
      let s := s.count Fd.LNK_KEY_STATUS_Handshakes p
      let done (l : LinkPort) : LinkPort := { l with stage := 0, mine := none, peer := none, txFrames := 0, rxFrames := 0 }
      match l.keys with
      | none => ((s.setPort p fun l => { done l with keys := some k, next := none }).comeUp p true).wr Fd.LNK_KEY_STATUS_Epoch 0 p
      | some old =>
        let s := s.setPort p fun l =>
          { done l with keys := some { old with txKey := k.txKey, txSalt := k.txSalt }, next := some k, txEpoch := 1 - l.txEpoch }
        (s.wr Fd.LNK_KEY_STATUS_Epoch (s.port p).txEpoch p).pump p
  | _, _ => s

/-- The key message goes out once the identity key that the Hello named may sign (R313, R442, R443). -/
def sendKey (s : State) (p : Nat) : State :=
  let l := s.port p
  match l.mine, l.peer with
  | some mine, some peer =>
    if s.keyOut l.gen then s.noteExhausted l.gen
    else if !s.blockReady l.gen then
      { s with sec := { s.sec with hsWait := if s.sec.hsWait.contains p then s.sec.hsWait else s.sec.hsWait ++ [p] } }.askBlock l.gen
    else
      let s := { s with sec := { s.sec with hsWait := s.sec.hsWait.filter (· != p) } }
      let (sig, s) := s.signWith l.gen (shake256 (helloBytes mine ++ helloBytes peer ++ l.cipherOut))
      ((s.emitKeys p 2 (l.cipherOut ++ sig)).put (.keyMsg p l.cipherOut sig)).finishKeys p
  | _, _ => s

/-- The peer's Hello: its chip number is shown, a secret is encapsulated to its key (R313, R315). -/
def takeHello (s : State) (p : Nat) (h : HelloIn) : State :=
  let s := s.wr Fd.LNK_STATUS_PeerChip (h.chip % 1024) p
  let s := s.wr Fd.LNK_STATUS_PeerValid (b2n h.idValid) p
  let s := s.startHandshake p
  if (s.port p).stage ≠ 1 then s
  else
    let cipher := Config.mlKemEncaps h.kem (s.fresh [36, p])
    let s := s.setPort p fun l => { l with stage := 2, peer := some h, cipherOut := cipher, sharedOut := Config.mlKemShared h.kem cipher }
    s.sendKey p

/-- The peer's identity chains to the fused vendor root: not determined by what a Hello carries (notes/assumptions/10.md). -/
def chainsToRoot (pub : List Byte) : Bool := Config.free (37 :: pub.map (·.toNat)) % 2 == 1

/-- The peer's ciphertext and signature (R313, step 3). -/
def takeKey (s : State) (p : Nat) (cipher sig : List Byte) : State :=
  let l := s.port p
  match l.mine, l.peer with
  | some mine, some peer =>
    if l.stage ≠ 2 then s
    else if !Config.xmssVerify peer.pub (shake256 (helloBytes peer ++ helloBytes mine ++ cipher)) sig then s.keysFail p 1
    else if !chainsToRoot peer.pub || (s.rd Fd.SEC_FLEET_CFG_Enable == 1 && !(s.sec.fleet.contains (shake256 peer.pub))) then s.keysFail p 2
    else if cipher.length ≠ 1568 then s.keysFail p 3
    else (s.setPort p fun l => { l with stage := 3, secret := Config.mlKemDecaps l.secret cipher }).finishKeys p
  | _, _ => s

/-- A rekey is due: 2^RekeyLog2 frames in either direction, or RekeySec since the keys were agreed (R314). -/
def rekeyDue (s : State) (p : Nat) : Bool :=
  let l := s.port p
  let n := 2 ^ s.rd Fd.LNK_KEY_RekeyLog2 p
  decide (n ≤ l.txFrames ∨ n ≤ l.rxFrames ∨ l.started + s.rd Fd.LNK_KEY_RekeySec p * 1000000000 ≤ s.now)

/-- A rekey starts, or waits for the end of a retrain (R314, R331). -/
def rekeyPort (s : State) (p : Nat) : State :=
  if !s.lnkLive p ∨ (s.port p).keys = none then s
  else if s.rd Fd.LNK_STATUS_State p = 1 then s.setPort p fun l => { l with rekeyAfter := true }
  else s.startHandshake p

/-! Training (R301, R310, R330). -/

/-- A Retrain command: both lanes are tried again. -/
def retrainPort (s : State) (p : Nat) : State :=
  if !s.lnkLive p then s
  else (s.setPort p fun l => { l with lanes := [0, 1], retrains := 0, keepRate := false }).startTraining p

/-- Training has ended. A port that has been Down trains too (R301): it stays Down where that fails, and is in Training until its handshake
has ended where it does not (R313). The training of a lane degrade
keeps the rate or fails (R330). -/
def trained (s : State) (p : Nat) (t : TrainIn) : State :=
  let rate := Nat.min 3 (Nat.min t.rate (s.rd Fd.LNK_CTL_MaxRate p))
  let kept := (s.port p).keepRate && s.rd Fd.LNK_STATUS_Rate p != 0
  if !s.lnkLive p ∨ 1 < s.rd Fd.LNK_STATUS_State p ∨ (s.port p).stage ≠ 0 ∧ (s.port p).keys = none then s
  else if !t.ok ∨ t.rate = 0 ∨ kept ∧ rate < s.rd Fd.LNK_STATUS_Rate p then
    if s.rd Fd.LNK_STATUS_State p = 0 then s else
    let n := (s.port p).retrains + 1
    if s.rd Fd.LNK_REPLAY_RetrainMax p ≤ n then (s.setPort p fun l => { l with retrains := 0 }).portFails p
    else (s.setPort p fun l => { l with retrains := n }).startTraining p
  else
    let s := s.setPort p fun l => { l with retrains := 0, keepRate := false }
    let s := if kept then s else s.wr Fd.LNK_STATUS_Rate rate p
    let s := s.wr Fd.LNK_STATUS_Features (t.features % 8) p
    let s := if s.rd Fd.LNK_STATUS_State p = 0 then s.wr Fd.LNK_STATUS_State 1 p else s
    if s.rd Fd.LNK_CTL_Encrypt p = 1 ∧ t.features % 2 = 0 then (s.portToDown p).setErr Fd.LNK_PAGE_ERR_AuthFail p
    else if (s.port p).keys = none then s.startHandshake p
    else
      let s := s.comeUp p false
      if (s.port p).rekeyAfter then s.startHandshake p else s

/-- The stop sequence on a port's lanes (R400). -/
def sendStop (s : State) (p : Nat) : State := s.put (.stopMarker p)

/-- PAGE_CTL.Enable of a link port takes a value: 0 holds it Down and sends the stop sequence (R332, R400). -/
def lnkEnable (s : State) (p old new : Nat) : State :=
  if old = new ∨ s.rd Fd.LNK_CTL_PacketMode p = 1 then s
  else if new = 0 then (s.portToDown p).sendStop p
  else (s.setPort p fun l => { l with retrains := 0 }).startTraining p

end State

/-- HELLO (R313). -/
def execHello (port : Nat) (h : HelloIn) (s : State) : Result :=
  let s := s.begin_
  .next (if s.lnkLive port && s.rd Fd.LNK_STATUS_State port != 0 then s.takeHello port h else s)

/-- KEY_ENCAPSULATION (R313). -/
def execKeyEncapsulation (port : Nat) (cipher signature : List Byte) (s : State) : Result :=
  let s := s.begin_
  .next (if s.lnkLive port then s.takeKey port cipher signature else s)

/-- KEY_HANDSHAKE_TIMEOUT (R313): no end within 200 ms. -/
def execKeyHandshakeTimeout (port : Nat) (s : State) : Result :=
  let s := s.begin_
  .next (if s.lnkLive port && (s.port port).stage != 0 then s.keysFail port 4 else s)

/-- REKEY_DUE (R314, R331). -/
def execRekeyDue (port : Nat) (s : State) : Result :=
  .next (let s := s.begin_; if s.rekeyDue port then s.rekeyPort port else s)

/-- REKEY (R314): a write of LNK_CMD.Rekey. -/
def execRekey (port : Nat) (s : State) : Result := .next (s.begin_.gated .lnk (port % 32) fun s => s.rekeyPort (port % 32))

/-- RETRAIN (R301): a write of LNK_CMD.Retrain. -/
def execRetrain (port : Nat) (s : State) : Result := .next (s.begin_.gated .lnk (port % 32) fun s => s.retrainPort (port % 32))

/-- LINK_TRAIN_COMPLETE (R301, R310, R330). -/
def execLinkTrainComplete (port : Nat) (t : TrainIn) (s : State) : Result := .next (s.begin_.trained port t)

/-- STOP_MARKER_RECEIVE (R400): the port goes Down without a retrain. -/
def execStopMarkerReceive (port : Nat) (s : State) : Result :=
  let s := s.begin_
  .next (if s.lnkLive port && s.rd Fd.LNK_STATUS_State port != 0 then s.portFails port else s)

end Sys2Proof.Machine
end

