-- ==== Sys2Proof/Machine/Packet.lean ====
section
/-! DEFINITION. Packet ports: frames received, placing of samples, chunks filled, paced egress, network time, port states
(14_packet_ports.md, R333 to R349; 17_failover.md, R409, R415; 13_links.md, R330). -/
namespace Sys2Proof.Machine
open Sys2Proof

/-! Matching (R334, R340). -/

/-- A UDP datagram as far as a session looks at it. -/
structure Datagram where
  port : Nat
  vlan : Option Nat
  ipv6 : Bool
  dst  : List Byte
  src  : List Byte
  dstPort : Nat
  srcPort : Nat
  deriving DecidableEq, Repr

/-- The datagram matches an ingress session whose endpoint names port `a` (R340). -/
def Session.admits (x : List Byte) (a : Nat) (g : Datagram) : Bool :=
  Session.dir x == 0 && Session.dstUdp x == g.dstPort && Session.ipv6 x == g.ipv6 &&
    (Session.srcUdp x == 0 || Session.srcUdp x == g.srcPort) && (Session.sourceAny x || Session.srcFilter x == bytesAt g.src 0 16) &&
    (Session.paths x a).any fun b =>
      b.2 == g.port && Session.addr x b.1 == bytesAt g.dst 0 16 &&
        (match g.vlan with
         | some v => Session.tagged x && Session.vlan x b.1 % 4096 == v % 4096
         | none => !Session.tagged x)

/-- The body of an RTP packet after CSRC list, extension and padding, with its timestamp; none where the packet is bad (R337). -/
def rtpParse (x : List Byte) (want : Nat) (bs : List Byte) : Option (Nat × List Byte) :=
  let b0 := leAt bs 0 1
  let cc := b0 % 16
  let ext := if bitAt b0 4 then 4 + 4 * ofBe (bytesAt bs (12 + 4 * cc + 2) 2) else 0
  let head := 12 + 4 * cc + ext
  let pad := if bitAt b0 5 then leAt bs (bs.length - 1) 1 else 0
  if bs.length < 12 ∨ b0 / 64 ≠ 2 ∨ leAt bs 1 1 % 128 ≠ Session.payloadType x ∨
      (Session.ssrcCheck x && ofBe (bytesAt bs 8 4) != Session.ssrc x) ∨ bs.length ≠ head + want + pad then none
  else some (ofBe (bytesAt bs 4 4), bytesAt bs head want)

/-- The samples of a native datagram with their SampleIndex; none where the datagram is bad (R338). -/
def nativeParse (x : List Byte) (ch want : Nat) (bs : List Byte) : Option (Nat × List Byte) :=
  if bs.length ≠ 40 + want ∨ ofBe (bytesAt bs 0 2) ≠ 0x4952 ∨ leAt bs 2 1 ≠ 1 ∨ leAt bs 3 1 ≠ Session.enc x ∨ leAt bs 4 1 ≠ ch then none
  else some (ofBe (bytesAt bs 24 8), bytesAt bs 40 want)

/-- The index of a packet's first sample: X − X₀ unwrapped, for AES67 the value nearest the samples expected (R341). -/
def packetIndex (rtp : Bool) (x x0 expect : Nat) : Int :=
  if !rtp then (x : Int) - (x0 : Int)
  else
    let m : Int := 2 ^ 32
    let r : Int := ((x : Int) - (x0 : Int)) % m
    let c := (expect : Int) / m * m + r
    if (expect : Int) + 2 ^ 31 ≤ c then c - m else if c + 2 ^ 31 < (expect : Int) then c + m else c

namespace State

/-! Streams and standby entries that sessions feed (R335, R409). -/

/-- The ingress record of a Valid standby entry with a packet source, once its mirror holds a complete copy (R409). -/
def standbyStream (s : State) (k : Nat) : Option Stream :=
  let e := s.standbyRaw k
  let sl := s.devBytes (Standby.mirror e) 256
  let x := s.resumedEntry e sl false
  if !Standby.valid e || epKind (leAt x 0x14 4) != 2 || !sealGood e sl then none
  else
    let fresh : Stream :=
      { entry := k, raw := x, state := 2, image := leAt x 8 1, slot := 0, nextJ := Seal.chunk sl + 1, nextFirst := Seal.next sl
        x0 := some (Seal.anchor sl) }
    match tabGet s.fo.standby k with
    | none => some fresh
    | some t => if t.nextJ ≤ Seal.chunk sl then some { fresh with landed := t.landed.filter fun i => Seal.next sl ≤ i } else some t

/-- Ingress ends of the chip: streams, and standby entries by index. -/
def ingress (s : State) : List (Option Nat × Stream) :=
  ((s.streams.filter fun (t : Stream) => epKind t.source == 2).map fun t => (none, t)) ++
    (if s.base Fd.PNT_STANDBY_BASE_LO Fd.PNT_STANDBY_BASE_HI = 0 then []
     else (List.range 4096).filterMap fun k => (s.standbyStream k).map fun t => (some k, t))

/-- The datagram is one of a live session of a Valid standby entry, whose mirror holds no complete copy yet: it is neither landed nor one of
no session (R409). -/
def standbyWaits (s : State) (g : Datagram) : Bool := s.standbySources.any fun ep => Session.admits (s.readSession ep) (epPort ep) g

/-- Frames that the port accepts by their destination (R334). -/
def acceptsMac (s : State) (p mac : Nat) : Bool :=
  mac == s.portMac p || mac == 2 ^ 48 - 1 ||
    [false, true].any fun v6 => (s.liveGroups p v6).any fun a => groupMac a v6 == some mac

/-! Placing (R341, R348, R409). -/

def feed (s : State) (key : Option Nat) (e : Nat) : Option Stream :=
  match key with
  | none => s.stream e
  | some k => tabGet s.fo.standby k

def setFeed (s : State) (key : Option Nat) (e : Nat) (f : Stream → Stream) : State :=
  match key with
  | none => s.setStream e f
  | some k => { s with fo := { s.fo with standby := tabMod s.fo.standby k f } }

/-- One sample of every channel at its place: input buffer and replay buffer, or the replay mirror of a standby. A sample whose place
is not free yet waits for it (notes/assumptions/83.md). -/
def landSample (s : State) (key : Option Nat) (t : Stream) (d pos index : Nat) (f : List Nat) : State :=
  match key with
  | none =>
    if s.canLand t d index then s.writeInput t (t.nextJ + d) pos index [f]
    else s.setStream t.entry fun t => { t with held := t.held ++ [(index, f)] }
  | some _ =>
    if t.replayLen = 0 then s
    else s.lpNarrowPut (t.replayBase + (index * t.channels * 4) % t.replayLen) (f.flatMap (leBytes 4)) .pkt

/-- All samples of the chunk `d` ahead have landed. -/
def allLanded (t : Stream) (d : Nat) : Bool :=
  let len := t.samplesAt t.curK
  (List.range len).all fun i => t.landed.contains (t.nextFirst + d * len + i)

/-- Samples of the chunk being filled that have landed without a gap. -/
def landedRun (t : Stream) : Nat :=
  let len := t.samplesAt t.curK
  Nat.min (len - 1) ((List.range len).takeWhile fun i => t.landed.contains (t.nextFirst + i)).length

/-- The chunk being filled is ready at `tr`; what has landed ahead stays. -/
def closeChunk (s : State) (key : Option Nat) (e tr : Nat) : State :=
  match s.feed key e with
  | none => s
  | some t =>
    let len := t.samplesAt t.curK
    let keep := t.landed.filter fun i => decide (t.nextFirst + len ≤ i)
    let early := t.early.filter fun x => decide (t.nextJ < x.1)
    let s :=
      match key with
      | none =>
        let s := (s.flushHeld e t.nextJ t.nextFirst len false).chunkDone e tr
        s.setStream e fun u =>
          if u.ready.any fun c => c.j == t.nextJ then u else { u with held := u.held.filter fun x => decide (t.nextFirst + len ≤ x.1) }
      | some _ =>
        let s := s.lpNarrowPut (t.replayBase + t.replayLen + 16 * (t.nextJ % stampQ t)) (leBytes 8 t.nextJ ++ leBytes 8 tr) .pkt
        let c : Chunk := { j := t.nextJ, first := t.nextFirst, len := len, k := t.curK, tr := tr }
        s.setFeed key e fun t =>
          { t with ready := (t.ready ++ [c]).drop ((t.ready.length + 1) - stampQ t), nextJ := t.nextJ + 1, nextFirst := t.nextFirst + len
                   arrive := if t.arrive.isNone then some (tr - t.nextJ * t.chunkLen * 1000000000 / rateHz t.rate) else t.arrive }
    s.setFeed key e fun t =>
      let t := { t with landed := keep, early := early }
      let t := if keep.isEmpty then t else { t with curK := t.nextK s.stretchLevel }
      { t with filled := landedRun t }

/-- Chunks whose samples have all landed become ready, in order. -/
def closeFull (s : State) (key : Option Nat) (e : Nat) : Nat → State
  | 0 => s
  | n + 1 =>
    match s.feed key e with
    | none => s
    | some t =>
      if allLanded t 0 then (s.closeChunk key e ((tabGet t.early t.nextJ).getD s.now)).closeFull key e n else s

/-- Place a packet's samples (R341). -/
def placePacket (s : State) (p : Nat) (key : Option Nat) (e : Nat) (k : Int) (fs : List (List Nat)) : State :=
  match s.feed key e with
  | none => s
  | some t0 =>
    let starts := !(t0.landed.any fun i => decide (t0.nextFirst ≤ i))
    let t := if starts then { t0 with curK := t0.nextK s.stretchLevel } else t0
    let len := Nat.max 1 (t.samplesAt t.curK)
    if k + fs.length ≤ (t.nextFirst : Int) then s.count Fd.PKT_RX_LATE_CNT p
    else if (t.nextFirst : Int) + 9 * len ≤ k then s.count Fd.PKT_RX_BAD_CNT p
    else
      let s := s.setFeed key e fun u => { u with curK := t.curK }
      let step (acc : State × List Nat × Bool) (x : List Nat × Nat) : State × List Nat × Bool :=
        let at_ := (k + x.2).toNat
        if k + x.2 < (t.nextFirst : Int) ∨ acc.2.1.contains at_ then (acc.1, acc.2.1, true)
        else
          let d := (at_ - t.nextFirst) / len
          if 8 < d then acc
          else (acc.1.landSample key t d ((at_ - t.nextFirst) % len) at_ x.1, acc.2.1 ++ [at_], acc.2.2)
      let (s, landed, dup) := (fs.zipIdx).foldl step (s, t.landed, false)
      let s := if dup then s.count Fd.PKT_RX_DUP_CNT p else s
      if landed.length = t.landed.length then s
      else
        let s := s.setFeed key e fun u =>
          let u := { u with landed := landed, lastLand := s.now }
          let u := { u with filled := landedRun u }
          let more := ((List.range 9).filter fun d => 0 < d ∧ allLanded u d ∧ (tabGet u.early (u.nextJ + d)).isNone)
          { u with early := u.early ++ more.map fun d => (u.nextJ + d, s.now) }
        s.closeFull key e 10

/-- The samples of a datagram of a session: an ARMED stream starts with the first one accepted at or after StartTime (R56, R341);
`at_` is its RTP timestamp or first sample. -/
def takeFrames (s : State) (p : Nat) (key : Option Nat) (t : Stream) (rtp : Bool) (at_ : Nat) (fs : List (List Nat)) : State :=
  match key with
  | some k =>
    let s := { s with fo := { s.fo with standby := tabPut s.fo.standby k t } }
    s.placePacket p key t.entry (packetIndex rtp at_ (t.x0.getD 0) t.nextFirst) fs
  | none =>
    if t.state = 1 then
      if t.startTime ≤ s.now then
        let s := s.setStream t.entry fun t => { t with nextJ := 0, nextFirst := 0, filled := 0, landed := [], early := [], x0 := some at_, lastLand := s.now }
        (s.setState t.entry 2).placePacket p none t.entry 0 fs
      else s
    else if t.state = 2 ∨ t.state = 3 ∨ t.state = 4 then
      s.placePacket p none t.entry (packetIndex rtp at_ (t.x0.getD at_) t.nextFirst) fs
    else s

/-- A datagram as parsed: one that is not accepted is counted. -/
def takeParsed (s : State) (p : Nat) (key : Option Nat) (t : Stream) (x : List Byte) (parsed : Option (Nat × List Byte)) : State :=
  match parsed with
  | none => s.count Fd.PKT_RX_BAD_CNT p
  | some (at_, body) =>
    let ch := t.channels
    let w := Session.width x
    s.takeFrames p key t (Session.proto x == 1) at_ ((List.range (Session.per x)).map fun i => (List.range ch).map fun c =>
      readSample (Session.enc x) (bytesAt body ((i * ch + c) * w) w))

/-- A datagram of a session (R340, R341). -/
def takeDatagram (s : State) (p : Nat) (key : Option Nat) (t : Stream) (bs : List Byte) : State :=
  let x := s.session t t.source
  let want := Session.per x * t.channels * Session.width x
  s.takeParsed p key t x (if Session.proto x == 1 then rtpParse x want bs else nativeParse x t.channels want bs)

/-! Network time (R347). -/

/-- A new mapping at a Sync: what the servo computes is not stated (notes/assumptions/35.md). -/
def ptpMap (s : State) : State := s.publish (ofSigned 64 (s.agreed s.now)) (s.fresh [35, 1])

/-- The MP sends a delay request and has its egress stamp back (R346, R347). -/
def delayRequest (s : State) (p domain : Nat) : State := (s.put (.fromMp p (.delayReq domain))).put (.txStamp p (s.eventStamp 1))

/-- A Sync of the servo's port and domain. -/
def ptpSync (s : State) (p domain : Nat) (offset : Int) : State :=
  let st := s.rd Fd.PKT_PTP_STATE_State
  if st = 0 ∨ s.rd Fd.PKT_PTP_CTL_Port ≠ p ∨ s.rd Fd.PKT_PTP_CTL_Domain ≠ domain then s
  else
    let good := if offset.natAbs ≤ 100 then s.servo.good + 1 else 0
    let s := { s with servo := { s.servo with good := good } }
    let s := s.wr Fd.PKT_PTP_OFFSET (ofSigned 32 offset)
    let s := if st = 3 then s else s.ptpMap
    (if st ≠ 2 ∧ 8 ≤ good then s.wr Fd.PKT_PTP_STATE_State 2 else s).delayRequest p domain

/-! Frames (R334). -/

def pktDrop (s : State) (p : Nat) : State := s.count Fd.PKT_RX_DROP_CNT p
def pktBad (s : State) (p : Nat) : State := s.count Fd.PKT_RX_BAD_CNT p

/-- The port has the address: PKT_IPV4 or PKT_IPV6, where it is not zero. -/
def hasAddr (s : State) (p : Nat) (ipv6 : Bool) (addr : List Byte) : Bool :=
  addr == s.localAddr p ipv6 && (if ipv6 then addr.any (· != 0) else s.rd Fd.PKT_IPV4 p != 0)

/-- A received frame: dropped, terminated for a session, or passed to the MP, which answers (R334, R346, R347). -/
def takeFrame (s : State) (p : Nat) (f : EthFrame) : State :=
  match f.body with
  | .pause => s
  | body =>
    if !f.fcsOk then s.pktBad p
    else if 9018 < f.bytes ∨ !s.acceptsMac p f.dstMac then s.pktDrop p
    else if !f.sumsOk then s.pktBad p
    else
      match body with
      | .udp ipv6 dst src dstPort srcPort ipOk udpOk zeroSum payload =>
        if !ipOk ∨ !udpOk ∨ (zeroSum ∧ ipv6) then s.pktBad p
        else if dstPort = 319 then s.put (.toMp p (some (s.eventStamp 0)))
        else if dstPort = 320 then s.put (.toMp p none)
        else
          let g : Datagram := ⟨p, f.vlan, ipv6, dst, src, dstPort, srcPort⟩
          match s.ingress.find? fun i => Session.admits (s.session i.2 i.2.source) (epPort i.2.source) g with
          | none => if s.standbyWaits g then s else s.pktDrop p
          | some i => if s.rd Fd.PKT_PAGE_CTL_Enable p = 0 then s else ((s.takeDatagram p i.1 i.2 payload).settleWatch).chooseIfReady s
      | .ptpSync domain offset => (s.put (.toMp p (some (s.eventStamp 0)))).ptpSync p domain offset
      | .ptpEvent => s.put (.toMp p (some (s.eventStamp 0)))
      | .ptpGeneral => s.put (.toMp p none)
      | .whoHas v6 target _ mac =>
        let s := s.put (.toMp p none)
        if s.hasAddr p v6 target then s.put (.fromMp p (.isAt v6 target (s.portMac p) mac)) else s
      | .isAt addr mac =>
        { s.put (.toMp p none) with servo := { s.servo with macs := tabPut s.servo.macs (hopKey p addr) mac } }
      | .echo v6 dst src data =>
        let s := s.put (.toMp p none)
        if s.hasAddr p v6 dst then s.put (.fromMp p (.echoReply v6 src dst data)) else s
      | .groupQuery v6 => (s.put (.toMp p none)).reportGroups p v6
      | .control => s.put (.toMp p none)
      | _ => s.pktDrop p

/-- The port is in packet mode and Up. -/
def pktUp (s : State) (p : Nat) : Bool :=
  decide (p < 8) && s.started && !s.failStopped && s.rd Fd.LNK_CTL_PacketMode p == 1 && s.rd Fd.PKT_STATUS_State p == 2

/-! Fill (R341). -/

/-- The landed frame at a sample index, out of the held samples or the replay buffer. -/
def landedFrame (s : State) (t : Stream) (index : Nat) : List Nat :=
  match tabGet t.held index with
  | some f => f
  | none =>
  let n := t.channels * 4
  let bs := if t.replayLen = 0 then [] else s.devBytes (t.replayBase + (index * n) % t.replayLen) n
  (List.range t.channels).map fun c => leAt bs (4 * c) 4

/-- A_j + JitterUs of a chunk (R341). -/
def fillTime (s : State) (t : Stream) : Nat :=
  match t.arrive with
  | none => s.now
  | some a => a + t.nextJ * t.chunkLen * 1000000000 / rateHz t.rate + Session.jitterUs (s.session t t.source) * 1000

/-- Each missing sample becomes a repeat of the sample before it, and the chunk is ready; in the mirror of a standby entry too (R409). -/
def fillChunk (s : State) (t0 : Stream) (key : Option Nat := none) : State :=
  let t := if t0.landed.isEmpty then { t0 with curK := t0.nextK s.stretchLevel } else t0
  let len := t.samplesAt t.curK
  let missing := (List.range len).filter fun i => !t.landed.contains (t.nextFirst + i)
  let s := s.setFeed key t.entry fun _ => t
  let fill (acc : State × List Nat) (i : Nat) : State × List Nat :=
    if missing.contains i then (acc.1.landSample key t 0 i (t.nextFirst + i) acc.2, acc.2) else (acc.1, s.landedFrame t (t.nextFirst + i))
  let s := if t.discard then s else ((List.range len).foldl fill (s, s.landedFrame t (t.nextFirst - 1))).1
  let s := s.count Fd.PKT_FILL_CNT (epPort t.source) missing.length
  (s.closeChunk key t.entry (s.fillTime t)).closeFull key t.entry 10

/-! Paced egress (R342, R343, R345, R415). -/

/-- E₀ of a stream for a sink: d₀ + JitterUs, or the instant that a twin takes from network time (R342, R415). -/
def egressStart (s : State) (t : Stream) (sink : Nat) : Option Nat :=
  if t.e0.any fun e => e.1 == sink || t.twin then t.e0.map (·.2)
  else if t.twin then some (s.ptpSlot (t.startTime + s.rd Fd.PNT_TWIN_LeadUs * 1000))
  else (t.d0.or (t.arrive.map (· + t.dlOff))).map fun d => d + Session.jitterUs (s.session t sink) * 1000

/-- Frame `i` of a packet that starts at sample `k`: a committed sample, zeros while paused, else a repeat, counted (R342). The
frames so far, the last one, and the repeats go along. -/
def packetFrame (s : State) (t : Stream) (k ch len : Nat) (acc : List (List Nat) × List Nat × Nat) (i : Nat) :
    State × List (List Nat) × List Nat × Nat :=
  let (out, last, under) := acc
  let j := (k + i) / len
  if t.outputs.any fun o => o.1 == j then
    match s.outSlot t j with
    | none => (s, out ++ [last], last, under + 1)
    | some (a, _) =>
      let (d, s) := s.narrowRead (a + (k + i) % len * ch * 4) (ch * 4)
      let f := (List.range ch).map fun c => leAt d (4 * c) 4
      (s, out ++ [f], f, under)
  else if t.state = 3 then (s, out ++ [List.replicate ch 0], List.replicate ch 0, under)
  else (s, out ++ [last], last, under + 1)

/-- A packet's samples leave, `under` of them repeated (R342, R343); one that no port sends underruns nothing (R348). -/
def sendPacket (s : State) (t : Stream) (e0 sink : Nat) (frames : List (List Nat)) (last : List Nat) (under : Nat) : State :=
  let k := t.sent
  let x := s.session t sink
  let per := Nat.max 1 (Session.per x)
  let ch := epChans sink
  let fs := rateHz t.rate
  let len := Nat.max 1 t.chunkLen
  let live := (Session.paths x (epPort sink)).any fun a => s.pktLive a.2
  let s := if under = 0 ∨ !live then s else (s.count Fd.PKT_UNDERRUN_CNT (epPort sink) under).setErr Fd.PKT_PAGE_ERR_Underrun (epPort sink)
  let n : Int := (e0 : Int) * fs + (k : Int) * 1000000000
  let scaled := s.ptpScaled n fs
  let ptp := (scaled / ((fs : Int) * 2 ^ 40)).toNat
  let ts := (scaled / (1000000000 * 2 ^ 40)).toNat + Session.rtpOffset x
  let i := k / per
  let ends := t.outputs.any fun o => decide (k < (o.1 + 1) * len ∧ (o.1 + 1) * len ≤ k + per)
  let s := s.sendPaths x (epPort sink) fun b =>
    if Session.proto x = 1 then rtpPayload x ((Session.seqBase x + i) % 65536) (ts % 2 ^ 32) frames
    else nativePayload x (epIndex sink) t.tag ch ends b (under != 0) ((Session.seqBase x + i) % 2 ^ 32) k (ptp % 2 ^ 64) frames
  s.setStream t.entry fun t =>
    { t with e0 := some (sink, e0), sent := k + per, lastOut := last
             outputs := t.outputs.filter fun o => decide (k + per < (o.1 + 1) * len) }

/-- The sink of the chunk that the next packet starts in (R57). -/
def packetSink (t : Stream) : Nat := ((t.outputs.find? fun o => o.1 == t.sent / Nat.max 1 t.chunkLen).map (·.2)).getD t.sink

/-- The next packet of a stream, for the sink that its first sample goes to (R342, R348); the first packet of another session starts
at a multiple of that session's S (notes/assumptions/106.md). -/
def formPacket (s : State) (t0 : Stream) : State :=
  let sink := packetSink t0
  match s.egressStart t0 sink with
  | none => s
  | some e0 =>
    let ch := epChans sink
    let per := Nat.max 1 (Session.per (s.session t0 sink))
    let t := { t0 with sent := roundUp t0.sent per }
    let last := if t.lastOut.length ≠ ch then List.replicate ch 0 else t.lastOut
    let got := (List.range per).foldl (fun acc i => acc.1.packetFrame t t.sent ch (Nat.max 1 t.chunkLen) acc.2 i) (s, [], last, 0)
    got.1.sendPacket t e0 sink got.2.1 got.2.2.1 got.2.2.2

/-! Port states (R333, R348). -/

def pktDown (s : State) (p : Nat) : State := s.wr Fd.PKT_STATUS_State 0 p

/-- The port has come Up: the MP reports the groups of its live sessions and resolves the next hops of its egress sessions. -/
def pktComesUp (s : State) (p : Nat) : State :=
  let s := ((s.wr Fd.PKT_STATUS_State 2 p).reportGroups p false).reportGroups p true
  (s.liveSessions.filter fun x => Session.dir x.2.2 == 1).foldl (fun s x =>
    ((Session.paths x.2.2 x.1).filter fun b => b.2 == p).foldl
      (fun s b => s.resolveHop p (Session.ipv6 x.2.2) (Session.addr x.2.2 b.1)) s) s

end State

/-- PKT_FRAME_RECEIVE (R334). -/
def execPktFrameReceive (port : Nat) (f : EthFrame) (s : State) : Result :=
  let s := s.begin_
  .next (if s.pktUp port then s.takeFrame port f else s)

/-- PACKET_FILL_TIMEOUT (R341); `standby` says that the number is that of a standby entry, whose mirror the device fills (R409). -/
def execPacketFillTimeout (entry : Nat) (s : State) (standby : Bool := false) : Result :=
  let s := s.begin_
  .next <|
    match if standby then s.standbyStream entry else s.stream entry with
    | none => s
    | some t =>
      if standby then (if t.arrive.isSome ∧ s.working ∧ (s.feed (some entry) entry).isSome then s.fillChunk t (some entry) else s)
      else
      if epKind t.source = 2 ∧ (t.state = 2 ∨ t.state = 3 ∨ t.state = 4) ∧ 0 < t.nextJ ∧ !s.failStopped then
        ((s.fillChunk t).settleWatch).chooseIfReady s
      else s

/-- PACKET_FORM (R342, R343). -/
def execPacketForm (entry : Nat) (s : State) : Result :=
  let s := s.begin_
  .next <|
    match s.stream entry with
    | none => s
    | some t =>
      if t.cls = 0 ∧ epKind (State.packetSink t) = 2 ∧ 2 ≤ t.state ∧ t.state ≤ 5 ∧ !s.failStopped then s.formPacket t
      else s

/-- PTP_ANNOUNCE_TIMEOUT (R347). -/
def execPtpAnnounceTimeout (s : State) : Result :=
  let s := s.begin_
  if s.rd Fd.PKT_PTP_STATE_State = 2 ∧ s.working then
    let s := s.wr Fd.PKT_PTP_STATE_State 3
    let s := { s with servo := { s.servo with good := 0, holdUntil := s.now + s.rd Fd.PKT_PTP_CTL_HoldoverSec * 1000000000 } }
    .next (s.setErrLog Fd.PKT_PAGE_ERR_PtpUnlocked 0 State.noEntry 0)
  else .next s

/-- PTP_HOLDOVER_EXPIRE (R347). -/
def execPtpHoldoverExpire (s : State) : Result :=
  let s := s.begin_
  .next (if s.rd Fd.PKT_PTP_STATE_State = 3 then (s.wr Fd.PKT_PTP_STATE_State 1) else s)

/-- PACKET_PORT_DOWN (R333, R348). -/
def execPacketPortDown (port : Nat) (s : State) : Result :=
  let s := s.begin_
  .next (if s.pktUp port then s.pktDown port else s)

/-- PACKET_PORT_UP (R333). -/
def execPacketPortUp (port : Nat) (s : State) : Result :=
  let s := s.begin_
  .next (if port < 8 ∧ s.started ∧ !s.failStopped ∧ s.rd Fd.LNK_CTL_PacketMode port = 1 then s.pktComesUp port else s)

/-- LANE_FAIL (R330, R333): a packet port has no one-lane operation and goes Down. -/
def execLaneFail (port lane : Nat) (s : State) : Result :=
  let s := s.begin_
  .next (
    if s.pktUp port then s.pktDown port
    else if s.lnkLive port && decide (2 ≤ s.rd Fd.LNK_STATUS_State port) && (s.port port).lanes.contains lane then s.laneFails port lane
    else s)

end Sys2Proof.Machine
end

