-- ==== Sys2Proof/Machine/HostIf.lean ====
section
/-! DEFINITION. The host's interface: BAR0 reads and writes, BAR2, counters and the log (02_register_pages.md, R32 to R39, R41, R42;
03 R53, R65, R83; 04 R122; 10 R244, R256; 16 R395; 18 R421, R422, R432, R435). -/
namespace Sys2Proof.Machine
open Sys2Proof

/-! What the fields of a register may take (R35). -/

/-- Fields with reserved encodings, and the values that they may take. -/
def encodings : List (Field × Nat × Nat) :=
  [(Fd.CTL_COMMIT_Cmd, 1, 3), (Fd.CTL_POWER_Req, 0, 1), (Fd.SEC_CMD_Op, 1, 7), (Fd.GAF_SCHED_DlQuantum, 0, 10),
   (Fd.SPD_PATROL_PatrolLog2, 6, 14), (Fd.XMC_RETRY_ChanFailMax, 1, 255), (Fd.XMC_MARGIN_CTL_Axis, 0, 5), (Fd.LNK_CTL_MaxRate, 1, 3),
   (Fd.CNT_CTL_Role, 0, 2), (Fd.APT_MODE_Mode, 0, 4), (Fd.APT_MODE_FsCode, 0, 8), (Fd.APT_MODE_RateDiv, 0, 2),
   (Fd.APT_FRAME_SlotBits, 0, 2), (Fd.APT_FRAME_SampleBits, 0, 2), (Fd.APT_CLK_BclkDiv, 1, 255), (Fd.APT_PDM_Ratio, 0, 5),
   (Fd.APT_BLOCK_BlockLog2, 0, 4), (Fd.APT_GEN_REF_RefKind, 0, 2), (Fd.CTL_COMMIT_WHERE_Kind, 0, 7), (Fd.GTH_FAULT_Cause, 0, 4),
   (Fd.XMC_SITE_Gen, 0, 2), (Fd.XMC_TEMP_RefreshStep, 0, 2), (Fd.XMC_ERR_INFO_Kind, 0, 5), (Fd.PKT_STATUS_State, 0, 2)]

/-- The four entries of a codebook table word (R120). -/
def codebookFields : List Field :=
  [Fd.GAF_CB_TABLE_Entry0, Fd.GAF_CB_TABLE_Entry1, Fd.GAF_CB_TABLE_Entry2, Fd.GAF_CB_TABLE_Entry3]

/-- The value is a reserved encoding of the field in page instance `inst`. -/
def Field.reservedValue (f : Field) (inst v : Nat) : Bool :=
  (encodings.any fun e => e.1 == f && decide (v < e.2.1 ∨ e.2.2 < v)) ||
    (codebookFields.contains f && v == 0x80) ||
    (f == Fd.LNK_CTL_PacketMode && decide (8 ≤ inst) && v != 0) || (f == Fd.CTL_COMMIT_STATUS_Code && decide (0x11 ≤ v ∧ v ≤ 0x1F)) ||
    (f == Fd.EVT_SEL_Source_dev && !State.evtAllowed true v) || (f == Fd.EVT_SEL_Source_ben && !State.evtAllowed false v)

/-- Bits that some field of a word covers. -/
def coverOf (fs : List Field) : Nat := fs.foldl (fun m f => m ||| ((2 ^ f.width - 1) * 2 ^ f.lsb)) 0

/-- The write carries a non-zero reserved bit or a reserved encoding (R35). -/
def badValue (fs : List Field) (inst w : Nat) : Bool :=
  (w &&& coverOf fs) != w || fs.any fun f => f.reservedValue inst (slice w f.lsb f.width)

/-- Power domain of the block behind a page (R7, R383). -/
def PageKind.domain (k : PageKind) (i : Nat) : Nat :=
  match k with
  | .ben => 4 * i
  | .gth => 4 * i + 3
  | .cor => 4 * (i / 32) + 2
  | .gaf => 72
  | .xmc => 65 + 2 * (i / 4)
  | .lnk => 64 + 2 * (i / 8)
  | .pkt => 64
  | .apt => 75
  | .tly => 74
  | .spd => 79
  | .ctl => 78
  | .sec => 73
  | .cnt => 77
  | _ => 76

/-- A word of a region descriptor as the data registers show it (R244). -/
def Region.shown (r : Region) (w : Nat) : Nat :=
  match w with
  | 0 => r.base
  | 1 => r.len
  | 2 => r.head
  | 3 => r.tail
  | 4 => r.image + 2 ^ 8 * r.cls + 2 ^ 11 * b2n r.circular + 2 ^ 12 * b2n r.versioned + 2 ^ 13 * b2n r.shut + 2 ^ 14 * b2n r.valid +
      2 ^ 16 * (r.entry % 4096)
  | 5 => r.slotBytes
  | _ => 0

namespace State

/-! Reads of BAR0 (R34, R35, R39, R244, R395, R435). -/

/-- PAGE_STATUS. Ready of a page other than a site's comes with DEVICE_READY (R465; DEDUCED, notes/assumptions/22.md). -/
def pageStatus (s : State) (k : PageKind) (i : Nat) : Nat :=
  (if k = .xmc then s.rd (Fd.PAGE_STATUS_Ready .xmc) i else s.rd (Fd.PAGE_STATUS_Ready .ctl)) + 2 * b2n (!s.pow.domains.contains (k.domain i)) +
    4 * b2n (k == .tly && s.tly.closed) + 8 * b2n (s.pageStaged k i)

/-- The log entry that LOG_RD_SEQ names, if it is held (R434). -/
def logHeld (s : State) : Option LogEntry := s.log.entries.find? fun e => e.seq % 2 ^ 32 == s.rd Fd.LOG_RD_SEQ

/-- Live sessions of a packet port, as port A or port B (R335, R349). -/
def sessionCount (s : State) (p : Nat) : Nat := (dedup ((s.liveSessions.filter (onPort p)).map fun x => (x.1, x.2.1))).length

/-- The value of a word of which the register file holds no copy. -/
def computedWord (s : State) (k : PageKind) (i off : Nat) : Option Nat :=
  match k with
  | .log =>
    if off = 0x100 then some s.log.entries.length
    else if off = 0x104 then some (((s.log.entries.getLast?).map fun e => e.seq).getD 0)
    else if 0x110 ≤ off ∧ off < 0x130 then some ((s.logHeld.map fun e => leAt (State.logBytes e) (off - 0x110) 4).getD 0)
    else if off = 0x130 then some (b2n s.logHeld.isSome)
    else none
  | .sec =>
    if off = 0x100 then some (b2n s.windowOpen + 2 * (if s.windowOpen then (s.sec.openEnd - s.now) / 100000000 else 0))
    else if 0x200 ≤ off ∧ off < 0x300 then some (leAt (s.sec.measures.getD ((off - 0x200) / 32) []) (off % 32) 4)
    else none
  | .dmp =>
    if 0x1D0 ≤ off ∧ off < 0x1DC then
      let lo := 8 * (off - 0x1D0)
      some (packBits ((List.range (if off = 0x1D8 then 16 else 32)).map fun d => s.pow.domains.contains (lo + d)))
    else none
  | .gaf =>
    if off = 0x110 then
      let kind := (s.gaf.running.bind fun r => (s.image r.image).bind fun m => (m.descs[r.desc]?).map (·.kind)).getD 0
      some ((s.gaf.images.filter fun m => m.sweep.isSome).length + 2 ^ 8 * kind + 2 ^ 16 * b2n s.gaf.running.isSome +
        2 ^ 17 * s.rd Fd.GAF_STATUS_Starved + 2 ^ 18 * s.rd Fd.GAF_STATUS_CreditWait)
    else if off = 0x114 then
      some ((s.streams.filter fun (t : Stream) => t.state == 2).length + 2 ^ 13 * s.gaf.streams.length)
    else none
  | .evtDev => if 0x200 ≤ off ∧ off < 0x300 ∧ off % 8 = 0 then some ((tabGet s.evt (512 + (off - 0x200) / 8)).getD 0) else none
  | .evtB => if 0x200 ≤ off ∧ off < 0x240 ∧ off % 8 = 0 then some ((tabGet s.evt (32 * i + (off - 0x200) / 8)).getD 0) else none
  | .cnt => if off = 0x100 then some s.now else none
  | .spd =>
    if off = 0x104 then some (s.rd Fd.SPD_STATUS_B_SealedRows + 2 ^ 17 * s.rd Fd.SPD_MODE_Partitioned)
    else if 0x130 ≤ off ∧ off < 0x150 then
      some (((s.regions.find? fun r => r.level == 1 && r.desc == s.rd Fd.SPD_RGN_SEL).map fun r => r.shown ((off - 0x130) / 4)).getD 0)
    else none
  | .cor =>
    if 0x110 ≤ off ∧ off < 0x130 then
      some (((s.regions.find? fun r => r.level == 0 && r.desc == s.rd Fd.COR_RGN_SEL i).map fun r => r.shown ((off - 0x110) / 4)).getD 0)
    else none
  | .xmc =>
    if off = 0x15C then
      let m := (s.sites.getD i {}).margins.getD (s.rd Fd.XMC_TRAIN_SEL_SubChan i) []
      some (m.getD 0 0 + 2 ^ 8 * m.getD 1 0 + 2 ^ 16 * m.getD 2 0 + 2 ^ 20 * m.getD 3 0)
    else none
  | .lnk => if off = 0x20C ∧ i = 0 then some ((tabGet s.lnk.routes (s.rd Fd.LNK_ROUTE_SEL)).getD 0) else none
  | .pkt => if off = 0x100 then some (s.rd Fd.PKT_STATUS_State i + 4 * s.sessionCount i) else none
  | .apt =>
    if off = 0x140 then some (s.aptState i + 4 * s.rd Fd.APT_STATUS_Locked i + 8 * b2n (Config.bank3V3 (i / 4)))
    else if off = 0x144 ∧ 2 ≤ s.aptState i then some (s.framesShown i)
    else if s.stampsOutput i then
      if off = 0x150 then some (s.txStamp i).2 else if off = 0x158 then some (s.txStamp i).1 else none
    else none
  | _ => none

/-- A live word as a read returns it: write-only fields read 0 (R6). -/
def liveWord (s : State) (k : PageKind) (i off : Nat) : Nat :=
  let a := k.base + 0x1000 * i + off
  if (k.wordFields i off).isEmpty then 0
  else if off = 8 then s.pageStatus k i
  else if off = 0x18 then b2n (s.errEvt k i)
  else
    let v := (s.computedWord k i off).getD (s.word a).toNat
    v &&& coverOf ((k.wordFields i off).filter fun f => f.acc != .wo)

/-- A staged word (R38, R39). -/
def stagedWord (s : State) (k : PageKind) (i off : Nat) : Nat :=
  let a := k.base + 0x1000 * i + off
  if k = .lnk ∧ i = 0 ∧ off = 0x20C then
    let n := s.rd Fd.LNK_ROUTE_SEL
    (tabGet s.lnk.staged n).getD ((tabGet s.lnk.routes n).getD 0)
  else (s.word (a + 0x700)).toNat &&& coverOf (stFields a)

/-- A 32-bit read of BAR0, with the latches that it loads. -/
def readWord (s : State) (a : Nat) : Nat × State :=
  match bar0Page a with
  | none => (0, s)
  | some (k, i) =>
    let off := a % 0x1000
    if 0xF00 ≤ off then (if s.windowOpen then s.fresh [0xF00, a] % 2 ^ 32 else 0, s)
    else if 0x800 ≤ off then (s.stagedWord k i (off - 0x700), s)
    else
      let v := s.liveWord k i off
      let full := (s.computedWord k i off).getD 0
      let s :=
        if k = .cnt ∧ off = 0x100 then s.wr Fd.CNT_NOW_HI (full / 2 ^ 32)
        else if k = .evtDev ∧ 0x200 ≤ off ∧ off < 0x300 ∧ off % 8 = 0 then s.wrAt Fd.EVT_CNT_HI_dev 0 ((off - 0x200) / 8) (full / 2 ^ 32)
        else if k = .evtB ∧ 0x200 ≤ off ∧ off < 0x240 ∧ off % 8 = 0 then s.wrAt Fd.EVT_CNT_HI_ben i ((off - 0x200) / 8) (full / 2 ^ 32)
        else if k = .apt ∧ off = 0x144 ∧ 2 ≤ s.aptState i then
          (s.setAport i fun p => { p with shown := full }).wr Fd.APT_FRAMES_HI (full / 2 ^ 32) i
        else if k = .apt ∧ off = 0x150 ∧ s.stampsOutput i then s.wr Fd.APT_STAMP_HI (full / 2 ^ 32) i
        else s
      (v % 2 ^ 32, s)


/-- A word of BAR0 as the host meets it. -/
def servedWord (s : State) (a : Nat) : Nat × State :=
  if s.hostUp || (bar0Page a).any (fun x => x.1 == .ctl) then s.readWord a else (0, s)

/-- A read of `n` bytes of BAR0: every containing word is read, in ascending order, with its effects (R34). -/
def bar0Read (s : State) (a n : Nat) : List Byte × State :=
  let lo := a / 4 * 4
  let r := (List.range (ceilDiv (a + n - lo) 4)).foldl (fun (acc : List Byte × State) w =>
    let x := acc.2.servedWord (lo + 4 * w)
    (acc.1 ++ leBytes 4 x.1, x.2)) ([], s)
  (bytesAt r.1 (a - lo) n, r.2)

/-- A read of `n` bytes of BAR0 and what it returns (R34, R466). -/
def bar0Serve (s : State) (a n : Nat) : State :=
  if s.hostUp || s.romServes then
    let r := s.bar0Read a n
    r.2.put (.bar0 (ofLe r.1))
  else s

/-! Writes of BAR0 (R34, R35, R38, R41, R42). -/

/-- A write of a shadow word at live offset `off`. -/
def writeShadow (s : State) (k : PageKind) (i off w : Nat) : State :=
  let a := k.base + 0x1000 * i + off
  let fs := stFields a
  if fs.isEmpty || s.stageShut || badValue fs i w then s.badWrite k i
  else if k = .lnk ∧ off = 0x20C then
    let n := s.rd Fd.LNK_ROUTE_SEL
    let st := s.lnk.staged.filter fun e => e.1 != n
    ({ s with lnk := { s.lnk with
        staged := if (tabGet s.lnk.routes n).getD 0 = w then st else tabPut st n w } }).staging
  else (s.setWord (a + 0x700) (BitVec.ofNat 32 (copyFields fs w (s.word (a + 0x700)).toNat))).staging

/-- StageRevert of a page (R42); that of the TLY page is SR, so that a write of it is dropped (R454). -/
def stageRevert (s : State) (k : PageKind) (i : Nat) : State :=
  if s.stageShut || k == .tly then s.badWrite k i else (s.revertPage k i).staging

/-- A write of a site's PAGE_CTL: the site goes off only while no work can run (R297). -/
def siteCtl (s : State) (i w : Nat) : State :=
  if w % 2 = 0 ∧ (s.rd Fd.GAF_PAGE_CTL_Enable = 1 ∨ !s.allIdle) then s.badWrite .xmc i
  else
    let s := s.wr Fd.XMC_PAGE_CTL_Enable (w % 2) i
    if bitAt w 1 then s.stageRevert .xmc i else s

/-- A write of PAGE_CTL whose reserved bits are zero. -/
def writePageCtl (s : State) (k : PageKind) (i w : Nat) : State :=
  let en := w % 2
  let back (s : State) : State := if bitAt w 1 then s.stageRevert k i else s
  match k with
  | .dmp => if en = 0 then s.badWrite .dmp 0 else back s
  | .xmc => s.siteCtl i w
  | .lnk =>
    let old := s.rd Fd.LNK_PAGE_CTL_Enable i
    back ((s.wr Fd.LNK_PAGE_CTL_Enable en i).lnkEnable i old en)
  | .apt => back (s.aptEnable i en)
  | .gaf => back ((s.wr Fd.GAF_PAGE_CTL_Enable en).choose)
  | .ben => back (((s.wr Fd.BEN_PAGE_CTL_Enable en i).syncDamper).choose)
  | .gth => back (s.wr Fd.GTH_PAGE_CTL_Enable en i)
  | .pkt => back (s.wr Fd.PKT_PAGE_CTL_Enable en i)
  | .pnt => back (s.wr Fd.PNT_PAGE_CTL_Enable en)
  | _ => back s

/-- RW fields take the value, bits of RW1C fields that are written 1 clear; others keep theirs. -/
def writePlain (s : State) (k : PageKind) (i off w : Nat) : State :=
  let a := k.base + 0x1000 * i + off
  let fs := k.wordFields i off
  let rw := copyFields (fs.filter fun f => f.acc == .rw) w (s.word a).toNat
  let clear := w &&& coverOf (fs.filter fun f => f.acc == .rw1c)
  s.watchErr k i fun s => s.setWord a (BitVec.ofNat 32 (rw - (rw &&& clear)))

/-- A codebook table word is held while its slot is referenced or claimed (R122). -/
def codebookShut (s : State) (off : Nat) : Bool :=
  let q := (off - 0x400) / 0x20
  if (off - 0x400) / 0x10 % 2 = 0 then s.rdAt Fd.GAF_CB_REF_RefA 0 q != 0 || s.rdAt Fd.GAF_CB_REF_ClaimA 0 q == 1
  else s.rdAt Fd.GAF_CB_REF_RefB 0 q != 0 || s.rdAt Fd.GAF_CB_REF_ClaimB 0 q == 1

/-- The write of a register word whose value R35 accepts. -/
def writeTaken (s : State) (k : PageKind) (i off w : Nat) : State :=
  if off = 0xC then s.writePageCtl k i w
  else
    match k with
    | .ctl =>
      if off = 0x100 then
        (match w % 16 with
         | 1 => s.startCheck
         | 2 => s.startApply (w / 16 % 2)
         | _ => s.abandonCmd)
      else if off = 0x140 then s.softResetWrite w
      else if off = 0x144 then s.benchResetWrite w
      else if off = 0x148 then s.jobKillWrite w
      else if off = 0x150 then s.powerWrite w
      else if 0x200 ≤ off ∧ off < 0x400 ∧ off % 0x20 = 0x1C then s.consWrite ((off - 0x200) / 0x20) w
      else s.writePlain k i off w
    | .sec =>
      if off = 0x104 then (if bitAt w 0 then s.closeWindow else s)
      else if off = 0x110 then s.secStart (w % 16) (decide (w % 16 ≤ 3))
      else if off = 0x15C then s.consWrite 17 w
      else s.writePlain k i off w
    | .log => if off = 0x15C then s.consWrite 16 w else s.writePlain k i off w
    | .cnt =>
      if off = 0x110 then
        let s := if bitAt w 0 then s.cntAlignWrite else s
        if bitAt w 1 then s.cntSetWrite else s
      else s.writePlain k i off w
    | .gaf =>
      if 0x400 ≤ off ∧ off < 0x600 then (if s.codebookShut off then s.badWrite .gaf 0 else s.writePlain k i off w)
      else s.writePlain k i off w
    | .pnt =>
      if off = 0x10C then s.pntCmdWrite w
      else if off = 0x110 then s.resumeWrite w
      else s.writePlain k i off w
    | .evtDev =>
      if off = 0x300 then
        let s := s.writePlain k i off w
        if bitAt w 1 then { s with evt := [] } else s
      else s.writePlain k i off w
    | .xmc => if off = 0x150 then s.marginWrite i w else s.writePlain k i off w
    | .lnk =>
      if off = 0x108 then
        let s := if bitAt w 0 then s.retrainPort i else s
        if bitAt w 1 then s.rekeyPort i else s
      else s.writePlain k i off w
    | .spd =>
      if off = 0x118 then s.scrubHoldWrite w
      else if off = 0x120 then (if w % 2 ^ 20 = 0 then s.writePlain k i off w else s.badWrite .spd 0)
      else s.writePlain k i off w
    | _ => s.writePlain k i off w

/-- A write of a live register word that sets BadWrite and drops: no field, a reserved bit or encoding, a field that only a signed
request writes (R35). -/
def refuses (k : PageKind) (i off w : Nat) : Bool :=
  let fs := k.wordFields i off
  fs.isEmpty || badValue fs i w || fs.any (fun f => f.acc == .sr)

/-- A write of a live register word (R35, R42; notes/assumptions/87.md). -/
def writeLive (s : State) (k : PageKind) (i off w : Nat) : State :=
  if refuses k i off w then s.badWrite k i else s.writeTaken k i off w

/-- An aligned 32-bit write of BAR0; in fail-stop only RW1C bits of PAGE_ERR take one (R399). -/
def writeWord (s : State) (a w : Nat) : State :=
  match bar0Page a with
  | none => s
  | some (k, i) =>
    let off := a % 0x1000
    let w := w % 2 ^ 32
    if s.writesShut && off != 0x10 then s.badWrite k i
    else if 0xF00 ≤ off then (if s.windowOpen then s else s.badWrite k i)
    else if 0x800 ≤ off then s.writeShadow k i (off - 0x700) w
    else s.writeLive k i off w

/-- A write of `size` bytes at a BAR0 offset (R34). -/
def bar0Write (s : State) (a size value : Nat) : State :=
  if !s.hostUp then s
  else if size = 4 ∧ a % 4 = 0 then s.writeWord a value
  else if size = 8 ∧ a % 8 = 0 then (s.writeWord a (value % 2 ^ 32)).writeWord (a + 4) (value / 2 ^ 32)
  else
    match bar0Page a with
    | none => s
    | some (k, i) => s.badWrite k i

/-! BAR2 (R53, R65, R83, R256, R335, R421, R422). -/

/-- One aligned 64-byte block holds the access (R422). -/
def bar2Fits (off n : Nat) : Bool := decide (1 ≤ n ∧ n ≤ 64 ∧ off / 64 = (off + n - 1) / 64)

def touches (a n b m : Nat) : Bool := decide (a < b + m ∧ b < a + n)

/-- The bytes of a loaded image, or its directory entry (R65). -/
def imageHolds (s : State) (a n : Nat) : Bool :=
  s.gaf.images.any fun m => touches a n m.addr m.len || touches a n (s.imageDir + 16 * m.id) 16

/-- Port of a live session whose table entry the range meets (R335). -/
def sessionHolds (s : State) (a n : Nat) : Option Nat :=
  (s.heldEntries.find? fun x => touches a n (s.base Fd.PKT_SESSION_BASE_LO Fd.PKT_SESSION_BASE_HI x.1 + 128 * x.2) 128).map (·.1)

/-- A host write to LPDDR bytes at device address `a`. -/
def hostLpWrite (s : State) (a : Nat) (bs : List Byte) : State :=
  let n := bs.length
  let plain (s : State) : State := (s.serveAccess .bar2 (a - lpBase) n (some bs) goodMem).2.2
  if s.gaf.table && touches a n s.tableBase 0x100000 then s.setErr Fd.GAF_PAGE_ERR_LiveWrite
  else if s.gaf.table && touches a n (s.tableBase + 0x100000) 0x100000 then
    if s.stageShut then s.setErr Fd.GAF_PAGE_ERR_ShadowWrite
    else
      let e := (a - (s.tableBase + 0x100000)) / 256
      let s := plain s
      let st := if s.par.staged.contains e then s.par.staged else sortBy (fun x y => x ≤ y) (e :: s.par.staged)
      (({ s with par := { s.par with staged := st } }).staging).syncStaged
  else if s.imageHolds a n then s.setErr Fd.GAF_PAGE_ERR_LiveWrite
  else
    match s.sessionHolds a n with
    | some p => s.setErr Fd.PKT_PAGE_ERR_LiveWrite p
    | none => plain s

/-- An access to LPDDR through BAR2 at device address `a`; bytes at or beyond L, or at a disabled site, read zero and drop (R297,
R422). -/
def bar2Lp (s : State) (a n : Nat) (write : Option (List Byte)) : State :=
  let inn := if s.siteOff (a - lpBase) then 0 else Nat.min n (lpBase + s.lpSize - a)
  let s := if inn < n then s.unmappedErr .ctl 0 else s
  match write with
  | some bs => if inn = 0 then s else s.hostLpWrite a (bs.take inn)
  | none =>
    let r := if inn = 0 then ([], false, s) else s.serveAccess .bar2 (a - lpBase) inn none goodMem
    r.2.2.put (.bar2 (r.1 ++ List.replicate (n - inn) 0) r.2.1)

/-- Outside the windows: reads zero, writes drop. -/
def bar2None (s : State) (n : Nat) (write : Option (List Byte)) : State :=
  if write.isSome then s else s.put (.bar2 (List.replicate n 0) false)

/-- Some byte of the range lies in a region sealed for scrub. -/
def inSealed (s : State) (a n : Nat) : Bool :=
  (List.range n).any fun j => s.regions.any fun r => r.valid && r.shut && r.holds (a + j) 1

/-- The scratchpad debug window (R232, R256). -/
def debugAccess (s : State) (off n : Nat) (write : Option (List Byte)) : State :=
  let a := s.rd Fd.SPD_DBG_BASE_LO + 2 ^ 32 * s.rd Fd.SPD_DBG_BASE_HI + off
  if !s.windowOpen then (s.setErr Fd.SPD_PAGE_ERR_DebugClosed).bar2None n write
  else if spadSize < a + n then (s.unmappedErr .ctl 0).bar2None n write
  else if s.inSealed a n && (write.isSome || s.rd Fd.SPD_SCRUB_Hold == 0) then s.sealedErr.bar2None n write
  else
    match write with
    | some bs => if a % 4 = 0 ∧ n % 4 = 0 then s.narrowWrite a bs else s.badWrite .ctl 0
    | none =>
      let r := s.narrowRead a n
      r.2.put (.bar2 r.1 false)

/-- An access to BAR2 (R421, R422). -/
def bar2Access (s : State) (off n : Nat) (write : Option (List Byte)) : State :=
  if !s.hostUp then s
  else if s.writesShut ∨ 0x10000000 ≤ off then s.bar2None n write
  else if off < 0x200000 then
    if !bar2Fits off n then s.bar2None n write
    else if s.gaf.table then s.bar2Lp (s.tableBase + off) n write else (s.unmappedErr .ctl 0).bar2None n write
  else if off < 0x1000000 then (s.unmappedErr .ctl 0).bar2None n write
  else if off < 0xF000000 then
    if !bar2Fits off n then s.bar2None n write
    else s.bar2Lp (lpBase + s.rd Fd.CTL_BAR2_APER_Base * 2 ^ 24 + (off - 0x1000000)) n write
  else s.debugAccess (off - 0xF000000) n write

end State

/-- REGISTER_WRITE (R34, R35). -/
def execRegisterWrite (addr size value : Nat) (s : State) : Result := .next (s.begin_.bar0Write addr size value)

/-- SHADOW_WRITE (R38, R41): a write of a staged word. -/
def execShadowWrite (addr value : Nat) (s : State) : Result := .next (s.begin_.bar0Write addr 4 value)

/-- STAGE_REVERT (R42): a write of StageRevert in the PAGE_CTL of a page, numbered by its place in BAR0. -/
def execStageRevert (page : Nat) (s : State) : Result :=
  let s := s.begin_
  .next (match bar0Page (page * 0x1000) with
    | some (k, i) => s.gated k i fun s => s.stageRevert k i
    | none => s)

/-- CODEBOOK_WRITE (R120, R122): a write of word `word` of the codebook tables. -/
def execCodebookWrite (word value : Nat) (s : State) : Result :=
  .next (s.begin_.gated .gaf 0 fun s => s.writeLive .gaf 0 (0x400 + 4 * (word % 128)) (value % 2 ^ 32))

/-- LNK_PORT_ENABLE_WRITE (R332, R400): a write of a port's PAGE_CTL. -/
def execLnkPortEnableWrite (port word : Nat) (s : State) : Result :=
  .next (s.begin_.gated .lnk (port % 32) fun s => s.writeLive .lnk (port % 32) 0xC (word % 2 ^ 32))

/-- XMC_ENABLE_WRITE (R297): a write of a site's PAGE_CTL. -/
def execXmcEnableWrite (site value : Nat) (s : State) : Result :=
  let i := site % 16
  let w := value % 2 ^ 32
  .next (s.begin_.gated .xmc i fun s => if State.refuses .xmc i 0xC w then s.badWrite .xmc i else s.siteCtl i w)

/-- LOG_RD_SEQ_WRITE (R434). -/
def execLogRdSeqWrite (value : Nat) (s : State) : Result := .next (s.begin_.gated .log 0 fun s => s.wr Fd.LOG_RD_SEQ value)

/-- EVT_CLEAR (R435): every counter clears at one edge. -/
def execEvtClear (s : State) : Result := .next (s.begin_.gated .evtDev 0 fun s => { s with evt := [] })

/-- CNT_NOW_READ (R34, R395): a read of `size` bytes of the CNT page at `off`, the offset of CNT_NOW_LO or of any word that a
misaligned or 64-bit access takes with it. -/
def execCntNowRead (s : State) (off : Nat := 0x100) (size : Nat := 4) : Result :=
  .next (s.begin_.bar0Serve (PageKind.cnt.base + off % 0x1000) size)

/-- EVT_CNT_LO_READ (R34, R435): a read of `size` bytes at `off` of a bench's EVT page, or of the device's (page 16). -/
def execEvtCntLoRead (page off : Nat) (s : State) (size : Nat := 4) : Result :=
  .next (s.begin_.bar0Serve
    (if page < 16 then PageKind.evtB.base + 0x1000 * page + off % 0x1000 else PageKind.evtDev.base + off % 0x1000) size)

/-- BAR2_STREAM_WRITE (R53). -/
def execBar2StreamWrite (off : Nat) (data : List Byte) (s : State) : Result := .next (s.begin_.bar2Access off data.length (some data))

/-- BAR2_APERTURE_ACCESS (R421, R422). -/
def execBar2ApertureAccess (off len : Nat) (write : Option (List Byte)) (s : State) : Result :=
  .next (s.begin_.bar2Access off (match write with | some bs => bs.length | none => len) write)

/-- BAR2_DEBUG_ACCESS (R256, R421). -/
def execBar2DebugAccess (off len : Nat) (write : Option (List Byte)) (s : State) : Result :=
  .next (s.begin_.bar2Access off (match write with | some bs => bs.length | none => len) write)

end Sys2Proof.Machine
end

