-- ==== Sys2Proof/Machine/Boot.lean ====
section
/-! DEFINITION. Start-up, sideband and test (20_package_boot.md, R465 to R471; 12_lpddr.md, R277, R279, R282, R296;
19_presence_tally.md, R441 to R445). -/
namespace Sys2Proof.Machine
open Sys2Proof

namespace State

/-! The rows of R465. -/

/-- Row `n` is the one in progress. -/
def atRow (s : State) (n : Nat) : Bool :=
  s.pow.powered && !s.pow.perst && s.pow.row == n && !s.pow.stopped && !s.failStopped

/-- Row `n` comes next; CTL_BOOT.Phase shows it. -/
def toRow (s : State) (n : Nat) : State :=
  { s.wr Fd.CTL_BOOT_Phase n with pow := { s.pow with row := n } }

/-- The start-up stops at its row (R466). -/
def stopBoot (s : State) (fail detail : Nat) : State :=
  let s := s.wr Fd.CTL_BOOT_Fail fail
  let s := s.wr Fd.CTL_BOOT_Detail (detail % 2 ^ 16)
  { s with pow := { s.pow with stopped := true } }

/-- Registers that show fuses and flash take their values. -/
def loadFuses (s : State) : State :=
  let s := s.wr Fd.SEC_FW_MinSvn s.sec.minSvn
  let s := s.wr Fd.SEC_KEY_IdGen s.sec.idGen
  let s := s.wr Fd.TLY_STATUS_SealExhausted (b2n (decide (1024 ≤ s.tly.opens)))
  (s.wr Fd.SEC_BOOT_CNT s.sec.bootCount).syncTally

/-- Row 1: M0, M2, and after power-on M6, are extended (R444). -/
def fuseRow (s : State) : State :=
  let s := s.loadFuses
  let s := s.extendM 0 (Config.deviceDigest 0)
  let s := s.extendM 2 (Config.measured 2 [s.sec.minSvn, s.sec.idGen, s.tly.gen, (s.word 0x4).toNat])
  let s := if s.sec.measures.getD 6 [] = [] then s.extendM 6 (Config.deviceDigest 1) else s
  s.toRow 2

/-- PERST_N is deasserted, the root PLL locks: the system counter starts at 0. -/
def release (s : State) : State :=
  { s.wr Fd.CTL_BOOT_Phase 1 with clk := {}, pow := { s.pow with perst := false } }

/-! Firmware (R441). -/

/-- What R440, steps 1 to 3, say of a slot. Of a slot that nothing has written since the device was made, `code` says it. -/
def fwCode (s : State) (slot code : Nat) : Nat :=
  let f := s.sec.slots.getD slot {}
  if !f.valid then code
  else if !fwLayoutOk f.body then 2
  else if f.svn < s.sec.minSvn then 4
  else if !s.fwSigned f.body then 3
  else 0

/-- Digest of the slot that is booted. -/
def slotDigest (s : State) (slot : Nat) : List Byte :=
  let f := s.sec.slots.getD slot {}
  if f.valid then shake256 (f.body.take (0x40 + leAt f.body 8 4)) else Config.deviceDigest (2 + slot)

/-- A slot boots: it is the active one from here on, M1 is extended. -/
def bootSlot (s : State) (slot : Nat) : State :=
  let s := { s with sec := { s.sec with changed := s.sec.changed || slot != s.sec.active, active := slot, pending := none } }
  let s := s.wr Fd.SEC_FW_ActiveSvn (s.sec.slots.getD slot {}).svn
  let s := s.wr Fd.SEC_FW_ActiveSlot slot
  (s.extendM 1 (s.slotDigest slot)).toRow 3

/-- Row 2. -/
def fwRow (s : State) (codes : List Nat) : State :=
  let code (i : Nat) : Nat := s.fwCode i (codes.getD i 2)
  let s := if s.sec.fallBack then
      { s.wr Fd.SEC_FW_Fallback 1 with sec := { s.sec with active := 1 - s.sec.active, fallBack := false, changed := false } }
    else s
  match s.sec.pending with
  | some p =>
    if code p = 0 then s.bootSlot p
    else
      let s := ({ s with sec := { s.sec with pending := none } }).setErr Fd.SEC_PAGE_ERR_FwReject
      if code s.sec.active = 0 then s.bootSlot s.sec.active else s.stopBoot 2 (code 0 % 16 + 16 * (code 1 % 16))
  | none =>
    if code s.sec.active = 0 then s.bootSlot s.sec.active else s.stopBoot 2 (code 0 % 16 + 16 * (code 1 % 16))

/-! Memory training (R277, R279, R282, R296). -/

/-- Channels of a site that fail training: no stack, told so, or a lane below the limits of R296. -/
def trainFails (t : SiteTrain) : Nat :=
  packBits ((List.range 8).map fun c =>
    t.gen % 3 == 0 || bitAt t.fail c ||
      (List.range 2).any fun sub =>
        match t.margins[2 * c + sub]? with
        | some m => decide (m.getD 0 0 < 16 ∨ m.getD 1 0 < 10)
        | none => false)

/-- Channel data bandwidth in units of 1/360 MB/s (R279). -/
def channelRate (gen mbps : Nat) : Nat := if gen = 2 then mbps * 957 else if gen = 1 then mbps * 638 else 0

def ones (w : Nat) : Nat := (List.range 8).countP fun c => bitAt w c

/-- The site shows its training; a site that is not named answers as no stack. -/
def trainSite (s : State) (i : Nat) (t : SiteTrain) : State :=
  let fail := trainFails t
  let s := s.wr Fd.XMC_SITE_Gen (t.gen % 3) i
  let s := s.wr Fd.XMC_SITE_TrainFail fail i
  let s := s.wr Fd.XMC_SITE_InService (255 - (fail ||| s.rd Fd.XMC_MAPOUT_Recorded i)) i
  let s := s.wr Fd.XMC_RATE_RateMbps t.rateMbps i
  let s := s.wr Fd.XMC_RATE_ChanMBps ((channelRate (t.gen % 3) t.rateMbps + 180) / 360) i
  s.setSite i fun x => { x with margins := t.margins }

def inService (s : State) : Nat := sumNat ((List.range 16).map fun i => ones (s.rd Fd.XMC_SITE_InService i))

/-- CTL_CAP_MEMBW.LpddrGBps and NarrowMaps (R279). -/
def memRates (s : State) : Nat × Nat :=
  let n (i : Nat) : Nat := ones (s.rd Fd.XMC_SITE_InService i)
  let bw := sumNat ((List.range 16).map fun i => n i * channelRate (s.rd Fd.XMC_SITE_Gen i) (s.rd Fd.XMC_RATE_RateMbps i))
  let maps := sumNat ((List.range 16).map fun i => 2 * n i * (if s.rd Fd.XMC_SITE_Gen i = 2 then 375 else 250))
  ((bw + 180000) / 360000, maps / 16)

/-- Row 5. -/
def memRow (s : State) (sites : List SiteTrain) : State :=
  let s := (List.range 16).foldl (fun s i => s.trainSite i (sites.getD i ⟨0, 0, 255, []⟩)) s
  let out := 128 - s.inService
  if 32 < out then s.stopBoot 4 out
  else
    let r := s.memRates
    let shown := [3 * s.inService + 2 ^ 16 * s.inService + 2 ^ 24 * 16, r.1 + 2 ^ 16 * r.2]
    let s := s.extendM 3 (Config.measured 3 (shown ++ (List.range 16).map fun i => s.rd Fd.XMC_MAPOUT_Recorded i))
    let s := (List.range 32).foldl (fun s p => if s.lnkLive p then s.startTraining p else s) s
    s.toRow 6

/-- Row 6: a port that has not yet agreed keys takes its result; one without success keeps training. -/
def linkRow (s : State) (results : List TrainIn) : State :=
  let s := (List.range 32).foldl (fun s p =>
    match results[p]? with
    | some t => if t.ok && t.rate != 0 && (s.port p).keys.isNone then s.trained p t else s
    | none => s) s
  s.toRow 7

/-- Row 7. -/
def publishRow (s : State) : State :=
  let n := s.inService
  let r := s.memRates
  let s := s.wr Fd.CTL_CAP_MEM_LpddrGiB (3 * n)
  let s := s.wr Fd.CTL_CAP_MEM_Channels n
  let s := s.wr Fd.CTL_CAP_MEMBW_LpddrGBps r.1
  let s := s.wr Fd.CTL_CAP_MEMBW_NarrowMaps r.2
  let s := (List.range 16).foldl (fun s i => s.wr (Fd.PAGE_STATUS_Ready .xmc) (b2n (s.rd Fd.XMC_SITE_InService i != 0)) i) s
  s.toRow 8

/-- Row 8 (R445, R432). -/
def readyRow (s : State) : State :=
  let s := s.wr (Fd.PAGE_STATUS_Ready .ctl) 1
  let s := (s.wr Fd.CTL_BOOT_TIME_LO s.now).wr Fd.CTL_BOOT_TIME_HI (s.now / 2 ^ 32)
  let s := { s with sec := { s.sec with bootCount := s.sec.bootCount + 1, changed := false }, pow := { s.pow with row := 9 } }
  let s := s.wr Fd.SEC_BOOT_CNT s.sec.bootCount
  s.logAdd PageKind.ctl.pageType 4 0 (s.rd Fd.CTL_RESET_CAUSE_Last) 0 0 0

/-! Flash (R443). -/

/-- Everything that waits for a signature goes on. -/
def resumeSigning (s : State) : State :=
  let s := (s.signTally s.tly.waiting.length).syncTally
  let s := if s.sec.cmdWaits then ({ s with sec := { s.sec with cmdWaits := false } }).secFinish true else s
  s.sec.hsWait.foldl (fun s p => s.sendKey p) s

/-- The write of NextBlock is over. -/
def blockWritten (s : State) (ok : Bool) : State :=
  match s.sec.blockWait with
  | none => s
  | some k =>
    if ok then
      let next := s.keyIndex k / 256 + 1
      ({ s with sec := { s.sec with blockWait := none, nextBlock := listMod s.sec.nextBlock k fun _ => next } }).resumeSigning
    else
      let s := s.setErr Fd.SEC_PAGE_ERR_FlashFail
      let s := if 8 ≤ k ∧ !s.tly.waiting.isEmpty then s.setErr Fd.TLY_PAGE_ERR_SignFail else s
      let s := if s.sec.cmdWaits then s.secEnd 5 else s
      { s with sec := { s.sec with hsWait := [] } }

/-! Sideband (R469, R470). -/

/-- The byte of an SMBus Read Byte command; none for a command that is not acknowledged. -/
def smbusByte (s : State) (cmd : Nat) : Option Nat :=
  match cmd with
  | 0 => some (s.rd Fd.CTL_BOOT_Phase + 16 * s.rd Fd.CTL_BOOT_Fail)
  | 1 => some (s.rd Fd.DMP_TEMP_MAX_Tmax)
  | 2 =>
    let ts := (List.range 16).map fun i => toSigned 8 (s.rd Fd.XMC_TEMP_TempC i)
    some (ofSigned 8 (ts.foldl (fun m t => if m < t then t else m) (-128)))
  | 3 => some (s.rd Fd.PNT_FAILSTOP_Cause)
  | 4 => some (s.rd Fd.CTL_PAGE_CAP_PartCode % 256)
  | 5 => some (s.rd Fd.CTL_PAGE_CAP_PartCode / 256)
  | 6 => some (s.rd Fd.CTL_PAGE_CAP_Stepping)
  | _ => none

/-- A test-port instruction: 0 BYPASS, 1 IDCODE, 2 SAMPLE/PRELOAD, 3 EXTEST, 4 and 5 those of 1149.6, others those that need
debug unlock (the codes are a DESIGN CHOICE, notes/assumptions/36.md). What a boundary or debug chain shifts out is free. -/
def jtagAnswer (s : State) (ir : Nat) : Out :=
  if ir = 1 then .jtag 32 0x000963A7
  else if ir = 0 ∨ (ir = 3 ∧ s.rd (Fd.PAGE_STATUS_Ready .ctl) = 1) ∨ (6 ≤ ir ∧ s.rd Fd.SEC_DEBUG_Unlocked = 0) then .jtag 1 0
  else .jtag (s.fresh [38, 0]) (s.fresh [38, 1] % 2 ^ s.fresh [38, 0])

end State

/-- BOOT_FUSES (R465, row 1): PERST_N is deasserted and the fuses are read; `detail` is the bank of a read that fails. -/
def execBootFuses (ok : Bool) (detail : Nat) (s : State) : Result :=
  let s := s.begin_
  .next (
    if !s.pow.powered || !s.pow.perst || s.pow.row != 1 then s
    else
      let s := s.release
      if ok then s.fuseRow else s.stopBoot 1 detail)

/-- BOOT_FW_VERIFY (R465, row 2; R441): `codes` are the results of the slots whose contents date from manufacture. -/
def execBootFwVerify (codes : List Nat) (s : State) : Result :=
  let s := s.begin_
  .next (if s.atRow 2 then s.fwRow codes else s)

/-- MP_START (R465, row 3). -/
def execMpStart (s : State) : Result :=
  let s := s.begin_
  .next (if s.atRow 3 then s.toRow 4 else s)

/-- BIST (R465, row 4; R466): `detail` names the bank that cannot be repaired. -/
def execBist (failed : Bool) (detail : Nat) (s : State) : Result :=
  let s := s.begin_
  .next (if !s.atRow 4 then s else if failed then s.stopBoot 3 (detail % 2 ^ 15) else s.toRow 5)

/-- MEM_TRAIN (R465, row 5). -/
def execMemTrain (sites : List SiteTrain) (s : State) : Result :=
  let s := s.begin_
  .next (if s.atRow 5 then s.memRow sites else s)

/-- LINK_TRAIN (R465, row 6): it ends with the ports' results. -/
def execLinkTrain (results : List TrainIn) (s : State) : Result :=
  let s := s.begin_
  .next (if s.atRow 6 then s.linkRow results else s)

/-- PUBLISH (R465, row 7). -/
def execPublish (s : State) : Result :=
  let s := s.begin_
  .next (if s.atRow 7 then s.publishRow else s)

/-- DEVICE_READY (R465, row 8). -/
def execDeviceReady (s : State) : Result :=
  let s := s.begin_
  .next (if s.atRow 8 then s.readyRow else s)

/-- CONFIG_REQUEST (R467); one that completes normally may write Bus Master Enable (R420). -/
def execConfigRequest (s : State) (busMaster : Option Bool := none) : Result :=
  let s := s.begin_
  let ok := decide (4 ≤ s.pow.row) || s.romServes
  .next (if !s.started then s
    else
      let s := if ok then { s with pow := { s.pow with busMaster := busMaster.getD s.pow.busMaster } } else s
      s.put (.config ok))

/-- SMBUS_READ_BYTE (R469). -/
def execSmbusReadByte (cmd : Nat) (s : State) : Result :=
  let s := s.begin_
  .next (if !s.started then s else s.put (.smbus ((s.smbusByte cmd).toList.flatMap fun v => leBytes 1 v)))

/-- JTAG_INSTRUCTION (R470). -/
def execJtagInstruction (ir : Nat) (s : State) : Result :=
  let s := s.begin_
  .next (if !s.pow.powered then s else s.put (s.jtagAnswer ir))

/-- NEXTBLOCK_WRITE_DONE (R443). -/
def execNextblockWriteDone (ok : Bool) (s : State) : Result := .next (s.begin_.blockWritten ok)

end Sys2Proof.Machine
end

