-- ==== Sys2Proof/Machine/Dispatch.lean ====
section
/-! DEFINITION. The effect of each command on everything but the queue, one arm per constructor. -/
namespace Sys2Proof.Machine
open Sys2Proof

def exec (i : Instr) (s : State) : Host.Outcome State Fault Refusal :=
  match i with
  | .registerWrite addr size value => Sys2Proof.Machine.execRegisterWrite addr size value s
  | .shadowWrite addr value => Sys2Proof.Machine.execShadowWrite addr value s
  | .stageRevert page => Sys2Proof.Machine.execStageRevert page s
  | .check => Sys2Proof.Machine.execCheck s
  | .checkComplete => Sys2Proof.Machine.execCheckComplete s
  | .apply whenBit => Sys2Proof.Machine.execApply whenBit s
  | .abandon => Sys2Proof.Machine.execAbandon s
  | .parisonApplication => Sys2Proof.Machine.execParisonApplication s
  | .bar2StreamWrite off data => Sys2Proof.Machine.execBar2StreamWrite off data s
  | .bar2ApertureAccess off len write => Sys2Proof.Machine.execBar2ApertureAccess off len write s
  | .bar2DebugAccess off len write => Sys2Proof.Machine.execBar2DebugAccess off len write s
  | .cntNowRead off size => Sys2Proof.Machine.execCntNowRead s off size
  | .codebookWrite word value => Sys2Proof.Machine.execCodebookWrite word value s
  | .matrix b => Sys2Proof.Machine.execMatrix b s
  | .vector b => Sys2Proof.Machine.execVector b s
  | .gate b => Sys2Proof.Machine.execGate b s
  | .expertRouting b => Sys2Proof.Machine.execExpertRouting b s
  | .conversion b => Sys2Proof.Machine.execConversion b s
  | .recurrence b => Sys2Proof.Machine.execRecurrence b s
  | .parallelScan b => Sys2Proof.Machine.execParallelScan b s
  | .attention b => Sys2Proof.Machine.execAttention b s
  | .kvAppend b => Sys2Proof.Machine.execKvAppend b s
  | .kvStage b => Sys2Proof.Machine.execKvStage b s
  | .kvRestore b => Sys2Proof.Machine.execKvRestore b s
  | .convolution b => Sys2Proof.Machine.execConvolution b s
  | .pooling b => Sys2Proof.Machine.execPooling b s
  | .eventDecoding b => Sys2Proof.Machine.execEventDecoding b s
  | .allReduce b => Sys2Proof.Machine.execAllReduce b s
  | .reduceScatter b => Sys2Proof.Machine.execReduceScatter b s
  | .allGather b => Sys2Proof.Machine.execAllGather b s
  | .broadcast b => Sys2Proof.Machine.execBroadcast b s
  | .kvRingRotation b => Sys2Proof.Machine.execKvRingRotation b s
  | .secondChancePass b => Sys2Proof.Machine.execSecondChancePass b s
  | .attentionMergePass b => Sys2Proof.Machine.execAttentionMergePass b s
  | .weightReissue b => Sys2Proof.Machine.execWeightReissue b s
  | .sweepClose image => Sys2Proof.Machine.execSweepClose image s
  | .sourceTimeout entry => Sys2Proof.Machine.execSourceTimeout entry s
  | .barrierWatchdog => Sys2Proof.Machine.execBarrierWatchdog s
  | .windowOpen w => Sys2Proof.Machine.execWindowOpen w s
  | .benchPowerGood bench => Sys2Proof.Machine.execBenchPowerGood bench s
  | .gatherTransferIssue bench => Sys2Proof.Machine.execGatherTransferIssue bench s
  | .transferLand id m => Sys2Proof.Machine.execTransferLand id m s
  | .weightReloadComplete image => Sys2Proof.Machine.execWeightReloadComplete image s
  | .scratchpadAtomic bench addr code data returnOld => Sys2Proof.Machine.execScratchpadAtomic bench addr code data returnOld s
  | .scratchpadPatrol core corrected bad => Sys2Proof.Machine.execScratchpadPatrol core corrected bad s
  | .scrubComplete image region => Sys2Proof.Machine.execScrubComplete image s region
  | .scrubHold value => Sys2Proof.Machine.execScrubHold value s
  | .lpddrAccess agent addr len write m => Sys2Proof.Machine.execLpddrAccess agent addr len write m s
  | .lpddrAtomic agent addr code data returnOld m => Sys2Proof.Machine.execLpddrAtomic agent addr code data returnOld m s
  | .lpddrPatrol site corrected bad wrong => Sys2Proof.Machine.execLpddrPatrol site corrected bad s wrong
  | .stackTempRead site reading => Sys2Proof.Machine.execStackTempRead site reading s
  | .xmcEnableWrite site value => Sys2Proof.Machine.execXmcEnableWrite site value s
  | .marginGo site value => Sys2Proof.Machine.execMarginGo site value s
  | .marginDone site low high failed => Sys2Proof.Machine.execMarginDone site low high failed s
  | .lpddrDeferExpire id => Sys2Proof.Machine.execLpddrDeferExpire id s
  | .frameReceive port lines spoiled => Sys2Proof.Machine.execFrameReceive port lines s spoiled
  | .readRequest port m mem => Sys2Proof.Machine.execReadRequest port m mem s
  | .readResponse port m mem => Sys2Proof.Machine.execReadResponse port m s mem
  | .write port m mem => Sys2Proof.Machine.execWrite port m mem s
  | .writeAcknowledgement port m => Sys2Proof.Machine.execWriteAcknowledgement port m s
  | .remoteScratchpadAtomic port m => Sys2Proof.Machine.execRemoteScratchpadAtomic port m s
  | .remoteMemoryAtomic port m mem => Sys2Proof.Machine.execRemoteMemoryAtomic port m mem s
  | .streamSamples port m => Sys2Proof.Machine.execStreamSamples port m s
  | .collective port m => Sys2Proof.Machine.execCollective port m s
  | .slowNotice port m => Sys2Proof.Machine.execSlowNotice port m s
  | .doneNotice port m => Sys2Proof.Machine.execDoneNotice port m s
  | .suspectReport port m => Sys2Proof.Machine.execSuspectReport port m s
  | .slowNoticeSend => Sys2Proof.Machine.execSlowNoticeSend s
  | .roundTimeout image collId entry chunk => Sys2Proof.Machine.execRoundTimeout image collId entry chunk s
  | .hello port h => Sys2Proof.Machine.execHello port h s
  | .keyEncapsulation port cipher signature => Sys2Proof.Machine.execKeyEncapsulation port cipher signature s
  | .keyHandshakeTimeout port => Sys2Proof.Machine.execKeyHandshakeTimeout port s
  | .rekeyDue port => Sys2Proof.Machine.execRekeyDue port s
  | .rekey port => Sys2Proof.Machine.execRekey port s
  | .retrain port => Sys2Proof.Machine.execRetrain port s
  | .linkTrainComplete port t => Sys2Proof.Machine.execLinkTrainComplete port t s
  | .laneFail port lane => Sys2Proof.Machine.execLaneFail port lane s
  | .stopMarkerReceive port => Sys2Proof.Machine.execStopMarkerReceive port s
  | .pktFrameReceive port f => Sys2Proof.Machine.execPktFrameReceive port f s
  | .packetFillTimeout entry standby => Sys2Proof.Machine.execPacketFillTimeout entry s standby
  | .packetForm entry => Sys2Proof.Machine.execPacketForm entry s
  | .ptpAnnounceTimeout => Sys2Proof.Machine.execPtpAnnounceTimeout s
  | .ptpHoldoverExpire => Sys2Proof.Machine.execPtpHoldoverExpire s
  | .inputBlockLand port codes pinTime lastEnd => Sys2Proof.Machine.execInputBlockLand port codes pinTime lastEnd s
  | .outputTake entry frame pin => Sys2Proof.Machine.execOutputTake entry frame pin s
  | .iecBlockReceive port status user => Sys2Proof.Machine.execIecBlockReceive port status user s
  | .lockLoss port codes pinTime lastEnd => Sys2Proof.Machine.execLockLoss port codes pinTime lastEnd s
  | .lockAcquire port gap => Sys2Proof.Machine.execLockAcquire port gap s
  | .aptStart port => Sys2Proof.Machine.execAptStart port s
  | .prerollEnd port => Sys2Proof.Machine.execPrerollEnd port s
  | .aptStop port => Sys2Proof.Machine.execAptStop port s
  | .stopEnd port => Sys2Proof.Machine.execStopEnd port s
  | .steerUpdate gen pins => Sys2Proof.Machine.execSteerUpdate gen pins s
  | .syncPulse stamp => Sys2Proof.Machine.execSyncPulse stamp s
  | .syncHoldover => Sys2Proof.Machine.execSyncHoldover s
  | .cntSet => Sys2Proof.Machine.execCntSet s
  | .cntAlign => Sys2Proof.Machine.execCntAlign s
  | .pntFailstopCmd word => Sys2Proof.Machine.execPntFailstopCmd word s
  | .mpWatchdogExpire => Sys2Proof.Machine.execMpWatchdogExpire s
  | .benchPowerLoss bench => Sys2Proof.Machine.execBenchPowerLoss bench s
  | .clockFault bench => Sys2Proof.Machine.execClockFault bench s
  | .railFault kind => Sys2Proof.Machine.execRailFault kind s
  | .controlStateError fabric => Sys2Proof.Machine.execControlStateError fabric s
  | .probeTimeout => Sys2Proof.Machine.execProbeTimeout s
  | .standbyResume word => Sys2Proof.Machine.execStandbyResume word s
  | .powerOn => Sys2Proof.Machine.execPowerOn s
  | .coldReset => Sys2Proof.Machine.execColdReset s
  | .hotReset => Sys2Proof.Machine.execHotReset s
  | .softReset word => Sys2Proof.Machine.execSoftReset word s
  | .benchReset word => Sys2Proof.Machine.execBenchReset word s
  | .jobKill word => Sys2Proof.Machine.execJobKill word s
  | .dormantRequest word => Sys2Proof.Machine.execDormantRequest word s
  | .d3hotEnter => Sys2Proof.Machine.execD3hotEnter s
  | .d0Return => Sys2Proof.Machine.execD0Return s
  | .consWrite ring value => Sys2Proof.Machine.execConsWrite ring value s
  | .logMirror => Sys2Proof.Machine.execLogMirror s
  | .logRdSeqWrite value => Sys2Proof.Machine.execLogRdSeqWrite value s
  | .evtClear => Sys2Proof.Machine.execEvtClear s
  | .presenceOpen => Sys2Proof.Machine.execPresenceOpen s
  | .presenceExpire => Sys2Proof.Machine.execPresenceExpire s
  | .presenceClose => Sys2Proof.Machine.execPresenceClose s
  | .install => Sys2Proof.Machine.execInstall s
  | .rotate => Sys2Proof.Machine.execRotate s
  | .debugUnlock => Sys2Proof.Machine.execDebugUnlock s
  | .debugLock => Sys2Proof.Machine.execDebugLock s
  | .attest => Sys2Proof.Machine.execAttest s
  | .getIdentity => Sys2Proof.Machine.execGetIdentity s
  | .extendM7 => Sys2Proof.Machine.execExtendM7 s
  | .secCmdComplete flashOk => Sys2Proof.Machine.execSecCmdComplete flashOk s
  | .sealSample bit => Sys2Proof.Machine.execSealSample bit s
  | .tallyIntervalEnd energyUj => Sys2Proof.Machine.execTallyIntervalEnd energyUj s
  | .tallyRecordCopy => Sys2Proof.Machine.execTallyRecordCopy s
  | .bootFuses ok detail => Sys2Proof.Machine.execBootFuses ok detail s
  | .bootFwVerify codes => Sys2Proof.Machine.execBootFwVerify codes s
  | .mpStart => Sys2Proof.Machine.execMpStart s
  | .bist failed detail => Sys2Proof.Machine.execBist failed detail s
  | .memTrain sites => Sys2Proof.Machine.execMemTrain sites s
  | .linkTrain results => Sys2Proof.Machine.execLinkTrain results s
  | .publish => Sys2Proof.Machine.execPublish s
  | .deviceReady => Sys2Proof.Machine.execDeviceReady s
  | .configRequest bus => Sys2Proof.Machine.execConfigRequest s bus
  | .smbusReadByte cmd => Sys2Proof.Machine.execSmbusReadByte cmd s
  | .jtagInstruction ir => Sys2Proof.Machine.execJtagInstruction ir s
  | .presenceRelease => Sys2Proof.Machine.execPresenceRelease s
  | .powerLoss => Sys2Proof.Machine.execPowerLoss s
  | .dormantEntered => Sys2Proof.Machine.execDormantEntered s
  | .activeReached => Sys2Proof.Machine.execActiveReached s
  | .lnkPortEnableWrite port word => Sys2Proof.Machine.execLnkPortEnableWrite port word s
  | .evtCntLoRead page off size => Sys2Proof.Machine.execEvtCntLoRead page off s size
  | .packetPortDown port => Sys2Proof.Machine.execPacketPortDown port s
  | .packetPortUp port => Sys2Proof.Machine.execPacketPortUp port s
  | .nextblockWriteDone ok => Sys2Proof.Machine.execNextblockWriteDone ok s

end Sys2Proof.Machine
end

