-- ==== Sys2Proof/Machine/Core.lean ====
section
/-! DEFINITION. The block as the host's interface takes it. -/

/-- State, fault and refusal types, one step, the state after reset. -/
def Sys2Proof.core : Host.Core := { State := Sys2Proof.Machine.State, Fault := Sys2Proof.Machine.Fault, Refusal := Sys2Proof.Machine.Refusal, step := Sys2Proof.Machine.step, reset := Sys2Proof.Machine.State.reset }
end

