-- ==== Sys2Proof/WellFormed.lean ====
section
/-! DEFINITION. Operands that a command can carry: numbers of ports, entries and units that exist, values that fit the word they
travel in (01 R18, 02 R32, R33, 03 R52, 11 R258, 13 R300, R307, 14 R333, 15 R349, 18 R421). A command that is not well formed never
reaches the block; its meaning is still total. -/
namespace Sys2Proof

/-- `n` fits in `w` bits. -/
def fits (w n : Nat) : Bool := decide (n < 2 ^ w)

/-- Every burst or word address of a list lies below `top`. -/
def allBelow (top : Nat) (xs : List Nat) : Bool := xs.all fun x => decide (x < top)

/-- What a barrier met lies in the scratchpad. -/
def BarrierReads.wf (b : BarrierReads) : Bool := allBelow (2 ^ 33) b.corrected && allBelow (2 ^ 33) b.weightBad && allBelow (2 ^ 33) b.actBad

/-- The header fields of a message fit theirs; it carries 256 bytes of data or none (R307), of which a write may use fewer. -/
def Msg.wf (m : Msg) : Bool :=
  fits 4 m.op && fits 2 m.vc && fits 4 m.hops && fits 4 m.code && fits 10 m.dest && fits 10 m.src && fits 16 m.tag && fits 48 m.addr &&
    (m.short == 0 || (m.op == 2 && fits 8 m.short)) &&
    m.data.length == (if m.op == 0 || m.op == 3 || m.op == 8 || m.skip then 0 else 256)

/-- What the one or two lanes of a port bring of a frame: its eight codewords of 136 bytes, with or without an alignment marker
(R304). -/
def linesOk (lines : List (List Byte)) : Bool :=
  decide (lines.length = 1 ∨ lines.length = 2) &&
    lines.all fun b => decide (b.length = 1088 / lines.length ∨ b.length = 1088 / lines.length + 16)

def MemOutcome.wf (m : MemOutcome) : Bool := fits 8 m.retries && fits 8 m.parity && fits 8 m.backRetries && decide (m.burst ≤ 8) &&
  m.soft.all (fits 33)

def MemAgent.wf : MemAgent → Bool
  | .gather bench => decide (bench < 16)
  | .gaffer (some entry) => decide (entry < 4096)
  | .link port => decide (port < 32)
  | _ => true

/-- Operand bytes of one atomic: a unit from a gather engine, a burst from any other agent (R264, R287). -/
def MemAgent.atomicLen : MemAgent → Nat
  | .gather _ => 256
  | _ => 32

/-- A stream entry. -/
def entryOk (e : Nat) : Bool := decide (e < 4096)

namespace Instr

/-- The operands are ones the command can carry. -/
def wf : Instr → Bool
  | .registerWrite addr size value => decide (addr + size ≤ 2 ^ 24) && decide (1 ≤ size ∧ size ≤ 8) && fits (8 * size) value
  | .shadowWrite addr value => decide (addr + 4 ≤ 2 ^ 24) && decide (addr % 4 = 0) && decide (0x800 ≤ addr % 0x1000) && fits 32 value
  | .stageRevert page => fits 12 page
  | .apply whenBit => fits 1 whenBit
  | .bar2StreamWrite off data => decide (off + data.length ≤ 0x200000) && decide (1 ≤ data.length)
  | .bar2ApertureAccess off len data => decide (0x1000000 ≤ off ∧ off + len ≤ 0xF000000) && data.all fun bs => bs.length == len
  | .bar2DebugAccess off len data => decide (0xF000000 ≤ off ∧ off + len ≤ 0x10000000) && data.all fun bs => bs.length == len
  | .codebookWrite word value => decide (word < 128) && fits 32 value
  | .matrix b | .vector b | .gate b | .expertRouting b | .conversion b | .recurrence b | .parallelScan b | .attention b | .kvAppend b
  | .kvStage b | .kvRestore b | .convolution b | .pooling b | .eventDecoding b | .allReduce b | .reduceScatter b | .allGather b
  | .broadcast b | .kvRingRotation b | .secondChancePass b | .attentionMergePass b | .weightReissue b => b.wf
  | .sweepClose image | .weightReloadComplete image => fits 8 image
  | .scrubComplete image region => fits 8 image && fits 16 region
  | .sourceTimeout entry | .packetFillTimeout entry _ | .packetForm entry | .outputTake entry _ _ => entryOk entry
  | .windowOpen w =>
    decide (w.bench.length = 16) && w.bench.all (fun b => b.length == 8) && decide (w.ioDie.length = 4) &&
      w.ioDie.all (fun b => b.length == 2) && decide (w.device.length = 4)
  | .benchPowerGood bench | .gatherTransferIssue bench | .benchPowerLoss bench => decide (bench < 16)
  | .transferLand _ m => m.wf
  | .scratchpadAtomic bench addr code data _ => decide (bench < 16) && fits 33 addr && fits 4 code && decide (8 ≤ data.length ∧ data.length ≤ 256 ∧ data.length % 8 = 0)
  | .scratchpadPatrol core corrected bad => decide (core < 512) && allBelow (2 ^ 33) corrected && allBelow (2 ^ 33) bad
  | .scrubHold value => fits 32 value
  | .lpddrAccess agent _ len data m => agent.wf && decide (1 ≤ len ∧ len ≤ 256) && m.wf && data.all fun bs => bs.length == len
  | .lpddrAtomic agent addr code data _ m =>
    agent.wf && decide (addr % 32 = 0) && fits 4 code && decide (data.length = agent.atomicLen) && m.wf
  | .lpddrPatrol site _ _ _ | .stackTempRead site _ => decide (site < 16)
  | .xmcEnableWrite site value | .marginGo site value => decide (site < 16) && fits 32 value
  | .marginDone site low high _ => decide (site < 16) && fits 8 low && fits 8 high
  | .frameReceive port lines _ => decide (port < 32) && linesOk lines
  | .readRequest port m mem | .readResponse port m mem | .write port m mem | .remoteMemoryAtomic port m mem => decide (port < 32) && m.wf && mem.wf
  | .writeAcknowledgement port m | .remoteScratchpadAtomic port m | .streamSamples port m | .collective port m
  | .slowNotice port m | .doneNotice port m | .suspectReport port m => decide (port < 32) && m.wf
  | .roundTimeout image _ entry _ => fits 8 image && entryOk entry
  | .hello port h => decide (port < 32) && fits 10 h.chip && decide (h.nonce.length = 32)
  | .keyEncapsulation port _ _ | .keyHandshakeTimeout port | .rekeyDue port | .rekey port | .retrain port | .stopMarkerReceive port =>
    decide (port < 32)
  | .linkTrainComplete port t => decide (port < 32) && decide (t.rate ≤ 3) && fits 3 t.features
  | .laneFail port lane => decide (port < 32) && decide (lane < 2)
  | .pktFrameReceive port f => decide (port < 8) && fits 48 f.dstMac && f.vlan.all (fits 16)
  | .inputBlockLand port codes _ _ | .lockLoss port codes _ _ => decide (port < 16) && codes.all fun c => decide (c.length ≤ 64)
  | .iecBlockReceive port status user => decide (port < 16) && decide (status.length = 384 ∧ user.length = 384)
  | .lockAcquire port _ | .aptStart port | .prerollEnd port | .aptStop port | .stopEnd port => decide (port < 16)
  | .steerUpdate gen pins => decide (gen < 4) && pins.all fun x => decide (x.1 < 16)
  | .pntFailstopCmd word | .standbyResume word | .softReset word | .benchReset word | .jobKill word | .dormantRequest word => fits 32 word
  | .clockFault bench => bench.all fun b => decide (b < 16)
  | .consWrite ring value => decide (ring < 18) && fits 32 value
  | .logRdSeqWrite value => fits 32 value
  | .bootFuses _ detail | .bist _ detail => fits 16 detail
  | .bootFwVerify codes => decide (codes.length = 2) && codes.all (fits 4)
  | .memTrain sites => decide (sites.length = 16) && sites.all fun t => decide (t.gen < 3) && fits 16 t.rateMbps && fits 8 t.fail
  | .linkTrain results => decide (results.length = 32) && results.all fun t => decide (t.rate ≤ 3) && fits 3 t.features
  | .smbusReadByte cmd => fits 8 cmd
  | .lnkPortEnableWrite port word => decide (port < 32) && fits 32 word
  | .cntNowRead off size => decide (off + size ≤ 0x1000) && decide (1 ≤ size ∧ size ≤ 8)
  | .evtCntLoRead page off size => decide (page ≤ 16) && decide (off + size ≤ 0x1000) && decide (1 ≤ size ∧ size ≤ 8)
  | .packetPortDown port | .packetPortUp port => decide (port < 8)
  | .check | .checkComplete | .abandon | .parisonApplication | .barrierWatchdog | .lpddrDeferExpire _ | .slowNoticeSend
  | .ptpAnnounceTimeout | .ptpHoldoverExpire | .syncPulse _ | .syncHoldover | .cntSet | .cntAlign | .mpWatchdogExpire | .railFault _
  | .controlStateError _ | .probeTimeout | .powerOn | .coldReset | .hotReset | .d3hotEnter | .d0Return | .logMirror | .evtClear
  | .presenceOpen | .presenceExpire | .presenceClose | .install | .rotate | .debugUnlock | .debugLock | .attest | .getIdentity
  | .extendM7 | .secCmdComplete _ | .sealSample _ | .tallyIntervalEnd _ | .tallyRecordCopy | .mpStart | .publish | .deviceReady
  | .configRequest _ | .jtagInstruction _ | .presenceRelease | .powerLoss | .dormantEntered | .activeReached | .nextblockWriteDone _ =>
    true

end Instr

end Sys2Proof
end

