-- ==== Sys2Proof/Safety.lean ====
section
/-! DEFINITION. What a safe state and a safe step are, in the terms the statements use. -/
namespace Sys2Proof.Machine
open Sys2Proof

namespace State

/-- Registers and memories are in their canonical form, so that equal contents are equal data. -/
def canonical (s : State) : Bool := sparseWf resetWord s.regs && Memory.wf s.spad && Memory.wf s.lpddr && Memory.wf s.host

/-- The lists that stand for fixed sets of units have one element per unit (01 R8, 13 R300, 15 R349, 18 R423). -/
def unitsWhole (s : State) : Bool :=
  s.sites.length == 16 && s.lnk.ports.length == 32 && s.apt.length == 16 && s.gens.length == 4 && s.rings.length == 16 &&
    s.sec.measures.length == 8 && s.sec.slots.length == 2

/-- A host access reaches the registers: the function answers, and no write is dropped as a whole (R399, R466, R467). -/
def hostWrites (s : State) : Bool := s.hostUp && !s.writesShut

end State

/-- The step neither faults nor is refused. -/
def Outcome.runs (r : Result) : Bool :=
  match r with
  | .next _ => true
  | _ => false

/-- The words of a page whose write only sets their fields: no command of its own hangs on them (02_register_pages.md, R35; the words
left out start CHECK, APPLY and ABANDON, resets, kills and power states, take consumption counts, end windows, start security commands,
step the counter, load codebooks, resume, clear, margin, retrain, and hold scrubs; PAGE_CTL enables and reverts). -/
def plainWord (k : PageKind) (off : Nat) : Bool :=
  off != 0xC &&
    match k with
    | .ctl => !([0x100, 0x140, 0x144, 0x148, 0x150].contains off || decide (0x200 ≤ off ∧ off < 0x400 ∧ off % 0x20 = 0x1C))
    | .sec => !([0x104, 0x110, 0x15C].contains off)
    | .log => off != 0x15C
    | .cnt => off != 0x110
    | .gaf => !decide (0x400 ≤ off ∧ off < 0x600)
    | .pnt => !([0x10C, 0x110].contains off)
    | .evtDev => off != 0x300
    | .xmc => off != 0x150
    | .lnk => off != 0x108
    | .spd => !([0x118, 0x120].contains off)
    | _ => true

/-- What a field of a plain word holds after a write of `w`: a writable field the new value, a write-one-to-clear field what is left,
any other what it held. -/
def writtenField (f : Field) (old w : Nat) : Nat :=
  match f.acc with
  | .rw => slice w f.lsb f.width
  | .rw1c => slice (old - (old &&& w)) f.lsb f.width
  | _ => slice old f.lsb f.width

/-- The operation or pass whose barrier a command is (03_streams_and_sweeps.md, R76), and what its reads met. -/
def barrierOf : Instr → Option ((Running → Desc → Bool) × BarrierReads)
  | .matrix b => some (fun r d => r.pass == 0 && d.kind == 0x01, b)
  | .vector b => some (fun r d => r.pass == 0 && d.kind == 0x02, b)
  | .gate b => some (fun r d => r.pass == 0 && d.kind == 0x03, b)
  | .expertRouting b => some (fun r d => r.pass == 0 && d.kind == 0x04, b)
  | .conversion b => some (fun r d => r.pass == 0 && d.kind == 0x05, b)
  | .recurrence b => some (fun r d => r.pass == 0 && d.kind == 0x06, b)
  | .parallelScan b => some (fun r d => r.pass == 0 && d.kind == 0x07, b)
  | .attention b => some (fun r d => r.pass == 0 && d.kind == 0x08, b)
  | .kvAppend b => some (fun r d => r.pass == 0 && d.kind == 0x09 && d.b 0x50 1 == 0, b)
  | .kvStage b => some (fun r d => r.pass == 0 && d.kind == 0x09 && d.b 0x50 1 == 1, b)
  | .kvRestore b => some (fun r d => r.pass == 0 && d.kind == 0x09 && d.b 0x50 1 == 2, b)
  | .convolution b => some (fun r d => r.pass == 0 && d.kind == 0x0A, b)
  | .pooling b => some (fun r d => r.pass == 0 && d.kind == 0x0B, b)
  | .eventDecoding b => some (fun r d => r.pass == 0 && d.kind == 0x0C, b)
  | .allReduce b => some (fun r d => r.pass == 0 && d.kind == 0x0D && d.b 0x50 1 == 0, b)
  | .reduceScatter b => some (fun r d => r.pass == 0 && d.kind == 0x0D && d.b 0x50 1 == 1, b)
  | .allGather b => some (fun r d => r.pass == 0 && d.kind == 0x0D && d.b 0x50 1 == 2, b)
  | .broadcast b => some (fun r d => r.pass == 0 && d.kind == 0x0D && d.b 0x50 1 == 3, b)
  | .kvRingRotation b => some (fun r d => r.pass == 0 && d.kind == 0x0D && d.b 0x50 1 == 4, b)
  | .secondChancePass b => some (fun r _ => r.pass == 1, b)
  | .attentionMergePass b => some (fun r _ => r.pass == 2, b)
  | .weightReissue b => some (fun r _ => r.pass == 3, b)
  | _ => none

/-! What the operations and passes of the array store, each on the chunk of one stream alone. In each, `v` is the state whose operands the
operation reads, and the scratchpad that is left is `v`'s with the writes that are named. -/

/-- The reads of a barrier that met no error. -/
def clean : BarrierReads := ⟨[], [], []⟩

namespace State

/-- The state whose operands an operation that ends reads: its benches' busy cycles are counted. -/
def atEnd (s : State) (r : Running) : State := s.begin_.countBusy r

/-- What runs works on the chunk of one stream alone, which it does not leave out, and neither commits the chunk nor is its exit point;
no word of the scratchpad is uncorrectable or waits for correction, and the banks are not partitioned. -/
def runsAlone (s : State) (r : Running) (m : Image) (d : Desc) (w : Work) : Prop :=
  s.gaf.running = some r ∧ s.image r.image = some m ∧ m.descs[r.desc]? = some d ∧ s.partWorks d r.parts = [w] ∧
    w.left = false ∧ d.commit = false ∧ d.exitPoint = false ∧ s.failStopped = false ∧
    s.spadBad = [] ∧ s.spadSoft = [] ∧ (s.atEnd r).rd Fd.SPD_MODE_Partitioned = 0

/-- `c` is the barrier of the operation of a kind that runs: its own command `x`, or WEIGHT_REISSUE of the operation's reissue. -/
def opEnds (s : State) (x c : Instr) (r : Running) (m : Image) (d : Desc) (w : Work) (kind : Nat) : Prop :=
  s.runsAlone r m d w ∧ d.kind = kind ∧ (c = x ∧ r.pass = 0 ∨ c = .weightReissue clean ∧ r.pass = 3)

/-- `c` answers the boundary after a state in which nothing runs any more and `p` holds. -/
def endsWith (s : State) (c : Instr) (p : State → Prop) : Prop :=
  ∃ u : State, exec c s = .next u.boundary ∧ u.gaf.running = none ∧ p u

/-- `c` ends with the FP32 results `xs` converted and written. -/
def emits (s : State) (c : Instr) (r : Running) (m : Image) (d : Desc) (w : Work) (v : State) (xs : List Nat) : Prop :=
  s.endsWith c fun u => ∃ core : Nat → Nat, u.spad = (emitOut v m r.desc d w xs core).1.spad

/-- `v` after sections of the chunk's state version have been touched. -/
def touched (v : State) (m : Image) (w : Work) (secs : List Nat) (marked : Bool) : State :=
  secs.foldl (fun v sec => v.touchSec m w.entry w.j sec marked) v

end State

/-- Bytes written behind a reference lie at the item's addresses from the operation's step on, and nowhere else. -/
def itemStores : Prop :=
  ∀ (v : State) (m : Image) (d : Desc) (w : Work) (ref : Nat) (bs : List Byte) (rg : Region), v.rd Fd.SPD_MODE_Partitioned = 0 →
    v.refRegion m d ref = some rg →
    let b := itemAt m rg w.slot w.j
    let at_ (i : Nat) : Nat := rg.arrAddr (itemCore rg w.slot) (b.1 + stepOff b.2 w.step bs.length + i)
    let t := (putStep v m d w ref bs).2
    ((∀ i k, i < k → k < bs.length → at_ i ≠ at_ k) → ∀ i, i < bs.length → sparseGet State.zeroByte t.spad (at_ i) = bs.getD i 0) ∧
      ∀ a, (∀ i, i < bs.length → a ≠ at_ i) → sparseGet State.zeroByte t.spad a = sparseGet State.zeroByte v.spad a

/-- FP32 results go out as they are, as FP8 or BF16 codes behind a header, or as A8 codes and scale records (04 R96 to R117): under fresh
scales, or under the carried set, which each chunk leaves behind; where a value exceeds its carried scale the results are only kept. -/
def outputStores : Prop :=
  ∀ (v : State) (m : Image) (i : Nat) (d : Desc) (w : Work) (xs : List Nat) (core : Nat → Nat), v.rd Fd.SPD_MODE_Partitioned = 0 →
    let c := d.conv
    let u := (emitOut v m i d w xs core).1
    (c.outFmt = 9 → u.spad = (putStep v m d w 1 (xs.flatMap (leBytes 4))).2.spad) ∧
      (c.outFmt = 3 ∨ c.outFmt = 4 ∨ c.outFmt = 5 →
        u.spad = (putStep v m d w 1 (padTo16 (dataHeader w.tag c.outFmt 0 xs.length ++
          xs.flatMap fun x => leBytes (elemBits c.outFmt / 8) (convertFp c.outFmt c.rnd c.nanZero x)))).2.spad) ∧
      (c.outFmt = 6 ∨ c.outFmt = 7 → d.capOut = none → v.spadBad = [] →
        let groups := rowGroups c.glog d.outWidth xs
        let gs := if carriedOn d w then (groups.zip (readSet v m i d w).val).map fun g => carriedGroup g.1 c.e (c.outFmt == 6) c.rnd g.2.1 g.2.2
          else groups.map fun g => marver g c.e (c.outFmt == 6) c.rnd
        let kept := if c.carried then refPut v m d w 7 0 (xs.flatMap (leBytes 4)) else v
        let put := (putStep (putStep kept m d w 1 (a8Data w.tag c gs)).2 m d w 5 (a8Scales w.tag c gs)).2
        (gs.any (·.exceeds) = true → u.spad = kept.spad) ∧
          (gs.any (·.exceeds) = false → u.spad = (if c.carried then writeSet put m i d w (gs.map (·.next)) else put).spad))

/-- Matrix (05 R127 to R137, R144): every output is the sum of R105 to R108 over the feature's weights and the row's activations, with the
bias or the plane of reference 4 added; an expert matrix gives the weighted sum over the choices. -/
def matrixStores : Prop :=
  ∀ (s : State) (c : Instr) (r : Running) (m : Image) (d : Desc) (w : Work), s.opEnds (.matrix clean) c r m d w 0x01 →
    let v := s.atEnd r
    let acts := matrixActs v m d w
    let x := WMat.load v m d 0 d.kp
    let k := d.b 0x54 4
    let n := d.b 0x58 4
    let rows := w.n * d.b 0x50 2
    acts.mism = false →
      s.emits c r m d w v (matrixRows v m r.desc d w acts.val).1 ∧
      (d.experts = 0 → x.whole n = true →
        ∃ path : Nat → Nat → List Nat, (matrixRows v m r.desc d w acts.val).1 =
          (List.range rows).flatMap fun i => (List.range n).map fun f =>
            let y := x.dot (path i f) f k (acts.val i) (if d.b 0x5D 1 = 0 then 7 else d.b 0x5D 1)
            if d.mflag 0 then fadd y (leAt (sharedBytes v m d w 4 0 (4 * n)).val (4 * f) 4)
            else if d.mflag 1 then fadd y ((readF32 v m d w 4 0 (rows * n)).val.getD (i * n + f) 0)
            else y) ∧
      (let topK := ((m.routing r.desc).map fun y => y.2.b 0x51 1).getD 0
       let tab := (refBytes v m d w 4 0 (8 * rows * topK)).val
       let sets := (List.range d.experts).map fun e => WMat.load v m d (e * d.b 0x60 8) d.kp
       let expert (i q : Nat) : Nat := slice (leAt tab (8 * (i * topK + q)) 4) 0 6
       let weight (i q : Nat) : Nat := leAt tab (8 * (i * topK + q) + 4) 4
       let live (i : Nat) : List Nat := (List.range topK).filter fun q => !bitAt (leAt tab (8 * (i * topK + q)) 4) 6
       d.experts ≠ 0 → (∀ y, y ∈ sets → y.whole n = true) → (∀ i q, i < rows → q ∈ live i → expert i q < d.experts) →
         ∃ (path : Nat → Nat → List Nat) (paths : Nat → Nat → Nat → List Nat), (matrixRows v m r.desc d w acts.val).1 =
           (List.range rows).flatMap fun i => (List.range n).map fun f =>
             if (live i).all fun q => isZero32 (weight i q) then 0
             else fsum (path i f) ((live i).map fun q => fmul (weight i q)
               ((sets.getD (expert i q) x).dot (paths i f q) f k (acts.val i) (if d.b 0x5D 1 = 0 then 7 else d.b 0x5D 1))))

/-- Vector (05 R146 to R148): functions of one, two or three operands element by element, and of rows. -/
def vectorStores : Prop :=
  ∀ (s : State) (c : Instr) (r : Running) (m : Image) (d : Desc) (w : Work), s.opEnds (.vector clean) c r m d w 0x02 →
    let v := s.atEnd r
    let op := d.b 0x50 1
    let n := w.n * d.b 0x54 4
    let feat := d.b 0x58 4
    let a := readVals v m d w d.wFmt 4 n (if d.vecRow then feat else d.b 0x54 4)
    let alpha := d.b 0x5C 4
    let beta := d.b 0x60 4
    a.mism = false →
      (∀ f : Nat → Nat, (op, f) ∈ [(0x04, fun x => fadd (fmul x alpha) beta), (0x05, fun x => fmax x 0), (0x06, fun x => fmin (fmax x alpha) beta),
          (0x07, fsigmoid), (0x08, ftanh), (0x09, fswish), (0x0A, fgelu), (0x0B, fexp), (0x0C, fln), (0x0D, frecip), (0x0E, frsqrt)] →
        s.emits c r m d w v (a.val.map f)) ∧
      (op = 0x01 → s.emits c r m d w v (a.val.zipIdx.map fun x => fadd x.1 ((readF32 v m d w 2 0 n).val.getD x.2 0))) ∧
      (op = 0x02 → s.emits c r m d w v (a.val.zipIdx.map fun x => fmul x.1 ((readF32 v m d w 2 0 n).val.getD x.2 0))) ∧
      (op = 0x03 → s.emits c r m d w v (a.val.zipIdx.map fun x =>
        fma x.1 ((readF32 v m d w 2 0 n).val.getD x.2 0) ((readF32 v m d w 3 0 n).val.getD x.2 0))) ∧
      (d.vecRow = true → ∃ path : Nat → List Nat,
        let shared (ref i : Nat) : Nat := leAt (sharedBytes v m d w ref 0 (4 * feat)).val (4 * i) 4
        let row (i : Nat) : List Nat := (a.val.drop (i * feat)).take feat
        let count := f32OfInt feat
        n % Nat.max 1 feat = 0 → a.val.length = n → 0 < feat →
          s.emits c r m d w v ((List.range (n / feat)).flatMap fun i =>
            if op = 0x0F then [fsum (path i) (row i)]
            else if op = 0x10 then [(row i).foldl fmax ((row i).headD 0)]
            else if op = 0x11 then
              let den := fsqrt (fadd (fdiv (fsum (path i) ((row i).map fun x => fmul x x)) count) (d.b 0x64 4))
              (row i).zipIdx.map fun x => fdiv (fmul x.1 (shared 2 x.2)) den
            else if op = 0x12 then
              let mu := fdiv (fsum (1 :: path i) (row i)) count
              let ds := (row i).map fun x => fsub x mu
              let den := fsqrt (fadd (fdiv (fsum (2 :: path i) (ds.map fun x => fmul x x)) count) (d.b 0x64 4))
              ds.zipIdx.map fun x => fadd (fdiv (fmul x.1 (shared 2 x.2)) den) (shared 3 x.2)
            else softmaxRow (path i) (row i)))

/-- Gate (05 R138): the chunk is taken where the score is at or above the threshold or NaN, and with a hang-over while its counter lasts;
the counter is set to the hang-over or counts down in its section. -/
def gateStores : Prop :=
  ∀ (s : State) (c : Instr) (r : Running) (m : Image) (d : Desc) (w : Work), s.opEnds (.gate clean) c r m d w 0x03 →
    let v := s.atEnd r
    let x := (readF32 v m d w 0 (d.b 0x58 4) 1).val.getD 0 0
    let slot := slice (d.b 0x50 1) 0 3
    let beyond := fle (d.b 0x54 4) x || isNan32 x
    let masked (u : State) (take : Bool) : List (Nat × Stream) :=
      (u.setLive w.entry w.j fun l => { l with masks := (l.masks.filter fun y => y.1 != slot) ++ [(slot, take)] }).gaf.streams
    (d.b 0x51 1 = 0 → s.endsWith c fun u => u.spad = v.spad ∧ u.gaf.streams = masked v beyond) ∧
      (d.b 0x51 1 = 1 → ∀ a n,
        let v1 := v.touched m w [d.b 0x5C 1] true
        v1.versionAt m w.st (w.j + 1) = some (a, n) →
          let v2 := if w.live.mark.isSome then v1.putSecs a [d.b 0x5C 1] w.st.initCopy else v1
          let o := a + (v2.sectionAt a (d.b 0x5C 1)).1
          let h := ofLe (v2.arrBytes o 4)
          s.endsWith c fun u =>
            u.spad = (v2.arrPut o (leBytes 4 (if beyond then d.b 0x52 2 else if 0 < h then h - 1 else h))).spad ∧
              u.gaf.streams = masked v2 (beyond || decide (0 < h)))

/-- Expert routing (05 R142, R143): without a capacity, the table holds the ranked choices of each position with their weights. -/
def routingStores : Prop :=
  ∀ (s : State) (c : Instr) (r : Running) (m : Image) (d : Desc) (w : Work), s.opEnds (.expertRouting clean) c r m d w 0x04 →
    let v := s.atEnd r
    let n := d.b 0x50 1
    let rows := w.n * d.b 0x58 4
    let x := (readF32 v m d w 0 0 (rows * n)).val
    ∃ path : List Nat,
      let table := (routeRows path d x (List.range rows) (List.replicate n 0)).1
      (s.endsWith c fun u => u.spad = (putStep v m d w 1 table).2.spad) ∧
        (d.b 0x54 4 = 0 → table = (List.range rows).flatMap fun i =>
          let row := (x.drop (i * n)).take n
          let chosen := rankLogits row (d.b 0x51 1)
          (chosen.zip (routeWeights (i :: path) (d.b 0x52 1) row chosen)).flatMap fun y => leBytes 4 y.1 ++ leBytes 4 y.2)

/-- Conversion (04 R103): every element times Gain, rounded once, from FP32, PCM or a data block. -/
def conversionStores : Prop :=
  ∀ (s : State) (c : Instr) (r : Running) (m : Image) (d : Desc) (w : Work), s.opEnds (.conversion clean) c r m d w 0x05 →
    let v := s.atEnd r
    let fmt := d.b 0x50 1
    let elems := d.b 0x54 4
    let n := w.n * elems
    let scaled (x : FVal) : Nat := fp32.encode (fvProd x (fp32.decode (d.b 0x58 4)))
    (fmt = 9 → s.emits c r m d w v ((readF32 v m d w 0 0 n).val.map fun x => scaled (fp32.decode x))) ∧
      (fmt = 0xA → s.emits c r m d w v ((List.range n).map fun k => scaled (pcmVal fmt (leAt (refBytes v m d w 0 0 (n * 4)).val (4 * k) 4)))) ∧
      (fmt = 0xB → s.emits c r m d w v ((List.range n).map fun k => scaled (pcmVal fmt (leAt (refBytes v m d w 0 0 (n * 2)).val (2 * k) 2)))) ∧
      (fmt < 9 → (readBlock v m d w 0 3 fmt 0 n elems w.step 0).mism = false →
        s.emits c r m d w v ((List.range n).map fun k => scaled (fpCode fmt (codeAt (elemBits fmt) (readBlock v m d w 0 3 fmt 0 n elems w.step 0).val.codes k))))

/-- The cells of a Recurrence (06 R159). -/
def cellSteps : Prop :=
  (∀ (q : GateIn) (g k : Nat), q.whole = true → ∃ path : List Nat,
    let row := g * q.h + k
    let y := gateDot q.x path row 0 (q.h + q.inp) q.h (q.h + q.inp) q.rec_ q.xin q.hlog q.xlog
    q.z g k = if q.inp = 0 then fadd (q.pre.getD row 0) y else fadd y (q.bias.getD row 0)) ∧
  (∀ (q : GateIn) (cs : List Nat) (k : Nat), k < q.h →
    let c' := fma (fsigmoid (q.z 1 k)) (cs.getD k 0) (fmul (fsigmoid (q.z 0 k)) (ftanh (q.z 2 k)))
    (lstmStep q cs).1.getD k 0 = c' ∧ (lstmStep q cs).2.getD k 0 = fmul (fsigmoid (q.z 3 k)) (ftanh c')) ∧
  (∀ (q : GateIn) (hs : List Nat) (k : Nat), k < q.h → ∃ uh pn : Nat,
    let z := fsigmoid (q.z 0 k)
    let n := ftanh (fadd pn (fmul (fsigmoid (q.z 1 k)) (fadd uh (q.bias.getD (3 * q.h + k) 0))))
    let row := 2 * q.h + k
    (q.whole = true → ∃ path, uh = gateDot q.x path row 0 q.h q.h (q.h + q.inp) q.rec_ q.xin q.hlog q.xlog) ∧
    (q.inp = 0 → pn = q.pre.getD row 0) ∧
    (q.inp ≠ 0 → q.whole = true → ∃ path,
      pn = fadd (gateDot q.x path row q.h (q.h + q.inp) q.h (q.h + q.inp) q.rec_ q.xin q.hlog q.xlog) (q.bias.getD row 0)) ∧
    (gruStep q hs).getD k 0 = fma z (fsub (hs.getD k 0) n) n) ∧
  (∀ (d : Desc) (a a1 u u1 dl h h1 : Nat),
    (d.b 0x50 1 = 2 → elemStep d [a] [u] [dl] [h] = ([fma a h u], [fma a h u])) ∧
    (d.b 0x50 1 = 3 → (elemStep d [a, a1] [u, u1] [dl] [h, h1]).1 = [fma a h (fma (fneg a1) h1 u), fma a h1 (fma a1 h u1)]) ∧
    (d.b 0x50 1 = 4 → (elemStep d [a] [u] [dl] [h]).1 = [fma (fexp (fmul dl a)) h (fmul dl u)]) ∧
    (d.b 0x50 1 = 5 → (elemStep d [a, a1] [u, u1] [dl] [h, h1]).1 =
      let mag := fexp (fmul dl a)
      let cs := fcosSin (fmul dl a1)
      [fma (fmul mag cs.1) h (fma (fneg (fmul mag cs.2)) h1 (fmul dl u)), fma (fmul mag cs.1) h1 (fma (fmul mag cs.2) h (fmul dl u1))])) ∧
  (∀ (d : Desc) (b0 b1 b2 a1 a2 u h h1 : Nat), d.b 0x50 1 = 6 →
    let y := fma b0 u h
    let p := phiOf (d.b 0x5E 1) (d.b 0x60 4) y
    let fed := if bitAt (d.b 0x51 1) 1 then p else y
    elemStep d [b0, b1, b2, a1, a2] [u] [] [h, h1] =
      ([fadd (fsub (fmul b1 u) (fmul a1 fed)) h1, fsub (fmul b2 u) (fmul a2 fed)], [p]))

/-- Recurrence (06 R156 to R162): the steps of cells 2 to 6 store the section and write their outputs; a gated cell its new sections and h. -/
def recurrenceStores : Prop :=
  ∀ (s : State) (cmd : Instr) (r : Running) (m : Image) (d : Desc) (w : Work), s.opEnds (.recurrence clean) cmd r m d w 0x06 →
    let v := s.atEnd r
    let cell := d.b 0x50 1
    let h := d.b 0x52 2
    let sec := d.b 0x5C 1
    let t := stepCountAt v m w
    let v1 := v.touched m w (if cell = 0 then [sec, d.b 0x5D 1] else [sec]) ((w.markStep (d.b 0x5A 2)).any fun p => decide (p < w.step + d.b 0x56 2))
    ∀ a n, v1.versionAt m w.st (w.j + 1) = some (a, n) →
      (cell ≤ 1 →
        let proj := bitAt (d.b 0x51 1) 0
        let inp := if proj then d.b 0x54 2 else 0
        let gates := if cell = 0 then 4 else 3
        let x := WMat.load v1 m d 0 (roundUp (h + inp) (Nat.max 128 (pairMacs d.wFmt d.aFmt / 64)))
        let q := (gateInput r.desc v1 m d w a).val
        let keep (sec : Nat) (vs : List Nat) : Sec × SecLog := (oldSec v1 d w a sec).step (d.b 0x64 2) (v1.sectionAt a sec).2.2.2 t vs {}
        (q.x = x ∧ q.whole = x.whole (gates * h) ∧ q.h = h ∧ q.inp = inp ∧
          q.rec_ = (recurOperand v1 m d w (w.step == 0 || w.markStep (d.b 0x5A 2) == some w.step) (oldSec v1 d w a sec).vals).val ∧
          (proj = false → q.pre = (readF32 v1 m d w 0 (w.step * gates * h) (gates * h)).val ∧
            (cell = 1 → ∀ k, k < h → q.bias.getD (3 * h + k) 0 = leAt (sharedBytes v1 m d w 4 (12 * h) (4 * h)).val (4 * k) 4)) ∧
          (proj = true → q.xin = (readBlock v1 m d w 0 3 d.aFmt (blockGlog v1 m d w 0) inp inp w.step 0).val.act inp 0 ∧
            ∀ k, k < 4 * h → q.bias.getD k 0 = leAt (sharedBytes v1 m d w 4 0 (16 * h)).val (4 * k) 4)) ∧
        ((gateInput r.desc v1 m d w a).mism = false →
          (cell = 0 →
            let y := lstmStep q (oldSec v1 d w a (d.b 0x5D 1)).vals
            let c := keep (d.b 0x5D 1) y.1
            let z := keep sec y.2
            s.endsWith cmd fun u => ∃ store core : Nat → Nat,
              u.spad = (emitOut ((v1.putSec a (d.b 0x5D 1) c.1 c.2 store).putSec a sec z.1 z.2 store) m r.desc d w y.2 core).1.spad) ∧
          (cell = 1 →
            let y := gruStep q (oldSec v1 d w a sec).vals
            let z := keep sec y
            s.endsWith cmd fun u => ∃ store core : Nat → Nat,
              u.spad = (emitOut (v1.putSec a sec z.1 z.2 store) m r.desc d w y core).1.spad))) ∧
      (2 ≤ cell →
        let rows := readSteps v1 m d w (h * cellInput cell + (if cell = 4 ∨ cell = 5 then h else 0)) (d.b 0x56 2)
        let init := (w.markStep (d.b 0x5A 2)).map fun q => (q, blockSec w.st.initCopy sec)
        let q := runSteps d (readCoefs v1 m d w (h * cellCoef cell)).val init (v1.sectionAt a sec).2.2.2 w.step t rows.val (v1.getSec a sec).val {}
        rows.mism = false → s.endsWith cmd fun u =>
          ∃ store core : Nat → Nat, u.spad = (emitOut (v1.putSec a sec q.1 q.2.1 store) m r.desc d w q.2.2 core).1.spad)

/-- Parallel scan (06 R165, R166): the segmented scan of each element over the steps; the section takes the last position's values, the
output every position's. -/
def scanStores : Prop :=
  (∀ x y : Scan, x.comb y = if y.f then y else ⟨numMul x.a y.a, numAdd (numMul y.a x.b) y.b, x.f⟩) ∧
  (∀ (path : List Nat) (x : Scan) (hIn hInit : List Nat), segScan path [x] hIn hInit = [numAdd (numMul x.a (if x.f then hInit else hIn)) x.b]) ∧
  (∀ (path : List Nat) (x y : Scan) (hIn hInit : List Nat), segScan path [x, y] hIn hInit =
    [x, x.comb y].map fun z => numAdd (numMul z.a (if z.f then hInit else hIn)) z.b) ∧
  ∀ (s : State) (c : Instr) (r : Running) (m : Image) (d : Desc) (w : Work), s.opEnds (.parallelScan clean) c r m d w 0x07 →
    let v := s.atEnd r
    let cell := d.b 0x50 1
    let h := d.b 0x52 2
    let l := d.b 0x54 2
    let sec := d.b 0x58 1
    let t := stepCountAt v m w
    let v1 := v.touched m w [sec] w.live.mark.isSome
    ∀ a n, v1.versionAt m w.st (w.j + 1) = some (a, n) →
      let np := if cell % 2 = 1 then 2 else 1
      let rows := readSteps v1 m d w (h * np + (if 2 ≤ cell then h else 0)) l
      let co := (readCoefs v1 m d w (h * np)).val
      let old := (v1.getSec a sec).val
      let init := if w.live.mark.isSome then blockSec w.st.initCopy sec else old
      let base := if (w.markStep (d.b 0x56 2)).isSome then init else old
      let input (e : Nat) (row : List Nat) : List Nat := part (row.take (h * np)) np e
      let delta (e : Nat) (row : List Nat) : Nat := row.getD (h * np + e) 0
      let xs (e : Nat) : List Scan := rows.val.zipIdx.map fun y =>
        { a := if cell < 2 then part co np e
            else if np = 1 then [fexp (fmul (delta e y.1) ((part co np e).getD 0 0))]
            else
              let mag := fexp (fmul (delta e y.1) ((part co np e).getD 0 0))
              let cs := fcosSin (fmul (delta e y.1) ((part co np e).getD 1 0))
              [fmul mag cs.1, fmul mag cs.2]
          b := if 2 ≤ cell then (input e y.1).map (fmul (delta e y.1)) else input e y.1
          f := w.markStep (d.b 0x56 2) == some y.2 }
      rows.mism = false → ∃ path : Nat → List Nat,
        let hs := (List.range h).map fun e => segScan (path e) (xs e) (part old.vals np e) (part init.vals np e)
        let anneal := (List.range l).any fun p => (t + p + 1) % (d.b 0x5C 2 + 1) == 0
        let new := base.store anneal (hs.flatMap fun y => y.getD (l - 1) [])
        s.endsWith c fun u => ∃ (lg : SecLog) (store core : Nat → Nat),
          lg.nonFinite = new.2 ∧ lg.exceed = (if anneal && (new.1.drift (v1.sectionAt a sec).2.2.2).isSome then 1 else 0) ∧
            u.spad = (emitOut (v1.putSec a sec new.1 lg store) m r.desc d w
              ((List.range l).flatMap fun p => hs.flatMap fun y => y.getD p []) core).1.spad

/-- Attention (07 R176 to R186): keys that a query does not see add nothing, and a block with none of them leaves the row; a row whose
keys one core holds is written as FP32: o / l, zeros where no key is visible, NaN where the row is poisoned, with its log-sum-exp. -/
def attentionStores : Prop :=
  (∀ (path : List Nat) (d : Desc) (q : ABlock) (base : Nat) (vis : Key → Bool) (row : Row) (xs : List KeyRow),
    attendBlock path d q base vis row xs = attendBlock path d q base vis row (xs.filter fun x => vis x.key) ∧
      attendBlock path d q base vis row [] = row) ∧
  ∀ (s : State) (c : Instr) (r : Running) (m : Image) (d : Desc) (w : Work), s.opEnds (.attention clean) c r m d w 0x08 →
    let v := s.atEnd r
    let dim := d.headDim
    let q := readBlock v m d w 0 3 d.aFmt (d.b 0x6A 1) (w.n * d.qRows * d.qHeads * dim) dim w.step 0
    q.mism = false →
      (s.endsWith c fun u => u.spad = (attnOne v m r.desc d [] 0 w).1.spad) ∧
      (w.n = 1 → d.qRows = 1 → d.groupQ = 1 → d.kvCount = 1 → d.mergeIn = false → d.partialOut = false →
        d.conv.outFmt = 9 → splitsOf v m r.desc d w 0 = [] → (∀ x, x ∈ r.shares → x.1 < 512) →
        ∃ path : List Nat,
          let span := (keySpan d w 0 (v.storedKeys m w.st (m.layerOf r.desc))).1
          let row := attend path d q.val 0 (visible d (markPos d w) (queryStart d w 0))
            ((keyBlocks span).map fun b => b.map (keyRow v m.kvRec d.kvFirst)) (Row.empty dim)
          let out := if row.bad then row.o.map fun _ => fp32.nanBits
            else if flt 0 row.l then row.o.map fun y => fdiv y row.l
            else row.o.map fun _ => 0
          let lse := if row.bad then fp32.nanBits
            else if flt 0 row.l then (if (row.record d).l = f32One then row.m else fadd row.m (fln (row.record d).l))
            else 0xFF7FFFFF
          s.endsWith c fun u =>
            u.spad = (refPut (if d.lseOut then refPut v m d w 7 0 (leBytes 4 lse) else v) m d w 1 0 (out.flatMap (leBytes 4))).spad)

/-- KV append (08 R197): the tokens one after another; a token that the newest page has room for goes to the page's hot frame, or to its
pool page without one, its position less BasePos and its codes under the page's scales; otherwise it opens the next page with scales of
its own. -/
def appendStores : Prop :=
  ∀ (s : State) (c : Instr) (r : Running) (m : Image) (d : Desc) (w : Work), s.opEnds (.kvAppend clean) c r m d w 0x09 → d.b 0x50 1 = 0 →
    let v := s.atEnd r
    let k := m.kvRec
    let l := d.b 0x51 1
    let n := w.n * d.b 0x52 2
    let ks := readTokens v m d w 0 n
    let vs := readTokens v m d w 3 n
    let t0 := w.live.c.first / Nat.max 1 (d.b 0x54 2)
    ks.mism = false → vs.mism = false →
      (∀ t, v.kvAppendAll m.id w.entry l w.j ((List.range n).map fun i => (t0 + i, ks.val.getD i [], vs.val.getD i [])) = some t →
        s.endsWith c fun u => u.spad = t.spad ∧ u.builtIns = t.builtIns) ∧
      (∀ x p, n = 1 → v.stream w.entry = some x → (x.layer l).pages.getLast? = some p → p.toks.length < Kv.perPage k → t0 - p.base < 2 ^ 32 →
        p.cullet = false → p.own = true → Kv.hot k ≠ 0 →
        s.endsWith c fun u => u.spad = ((State.kvRows k p p.toks.length t0 (ks.val.getD 0 []) (vs.val.getD 0 [])).foldl
          (fun y z => State.putBytesAt y (v.hotAddr m x l p.q + z.1) z.2) v.spad)) ∧
      (∀ x p, n = 1 → v.stream w.entry = some x → x.entry = w.entry → (x.layer l).pages.getLast? = some p → p.toks.length < Kv.perPage k →
        t0 - p.base < 2 ^ 32 → p.cullet = false → p.own = true → Kv.hot k = 0 →
        s.endsWith c fun u => ∃ b, b ∈ u.builtIns ∧ b.kind = .kvWrite ∧ b.entry = some w.entry ∧
          b.todo = (State.kvRows k p p.toks.length t0 (ks.val.getD 0 []) (vs.val.getD 0 [])).flatMap fun z =>
            compXfers (v.poolAddr m x (p.pool.getD 0) + z.1) z.2) ∧
      (∀ x t, n = 1 → v.stream w.entry = some x → x.entry = w.entry →
        (∀ p, (x.layer l).pages.getLast? = some p → Kv.perPage k ≤ p.toks.length ∨ 2 ^ 32 ≤ t0 - p.base ∨ p.cullet = true) →
        Kv.ring k = 0 → Kv.hot k ≠ 0 → v.kvAppend m.id w.entry l t0 w.j (ks.val.getD 0 []) (vs.val.getD 0 []) = some t →
        let page : KvPage := { q := (x.layer l).nextSeq, own := true, pool := none, base := t0, framed := true,
                               scales := (List.range (Kv.heads k)).map fun i =>
                                 (Kv.scaleExp k ((ks.val.getD 0 []).getD i []), Kv.scaleExp k ((vs.val.getD 0 []).getD i [])) }
        s.endsWith c fun u => u.spad = ((State.kvHead k page l ++ State.kvRows k page 0 t0 (ks.val.getD 0 []) (vs.val.getD 0 [])).foldl
          (fun y z => State.putBytesAt y (v.hotAddr m x l page.q + z.1) z.2) v.spad))

/-- KV stage (08 R198, R204): every page below the newest hot ones gets a transfer that copies it into its frame; of a cullet page a
request record goes to reference 4. -/
def stageStores : Prop :=
  ∀ (s : State) (c : Instr) (r : Running) (m : Image) (d : Desc) (w : Work), s.opEnds (.kvStage clean) c r m d w 0x09 → d.b 0x50 1 = 1 →
    let v := s.atEnd r
    let k := m.kvRec
    let l := d.b 0x51 1
    ∀ x, v.stream w.entry = some x →
      (s.endsWith c fun u =>
        ∀ p i, (State.kvStaged k (x.layer l))[i]? = some p → p.cullet = false → 0 < Kv.pageBytes k →
          ∃ b, b ∈ u.builtIns ∧ b.kind = .kvStage l i ∧ b.entry = some w.entry ∧
            b.todo = copyXfers (if p.framed && Kv.hot k != 0 then v.hotAddr m x l p.q else v.poolAddr m x (p.pool.getD 0)) (v.frameAddr m i) (Kv.pageBytes k)) ∧
      (∀ rg, v.refRegion m d 4 = some rg → s.endsWith c fun u =>
        u.spad = ((((State.kvStaged k (x.layer l)).filter fun p => p.cullet).zipIdx).foldl (fun y p => regWrite y rg (itemCore rg 0) (16 * p.2)
          (leBytes 2 w.entry ++ leBytes 2 l ++ leBytes 2 p.1.toks.length ++ leBytes 2 0 ++ leBytes 8 p.1.base)) v).spad)

/-- KV restore (08 R205): the tokens go into the reserved frames in request order. -/
def restoreStores : Prop :=
  ∀ (s : State) (c : Instr) (r : Running) (m : Image) (d : Desc) (w : Work), s.opEnds (.kvRestore clean) c r m d w 0x09 → d.b 0x50 1 = 2 →
    let v := s.atEnd r
    let k := m.kvRec
    let l := d.b 0x51 1
    let n := w.n * d.b 0x52 2
    let ks := readTokens v m d w 0 n
    let vs := readTokens v m d w 3 n
    ks.mism = false → vs.mism = false →
      (s.endsWith c fun u => u.spad = (v.kvRestore m.id w.entry (d.b 0x51 1) (ks.val.zip vs.val)).spad) ∧
      (∀ x f p, n = 1 → v.stream w.entry = some x →
        ((m.stage.getD m.stageNow {}).copies.find? fun f => f.entry == w.entry && f.layer == l && f.cullet &&
          decide (f.tokens < (((x.layer l).pages.find? fun p => p.q == f.q).map fun p => p.toks.length).getD 0)) = some f →
        ((x.layer l).pages.find? fun p => p.q == f.q) = some p →
        let first : KvPage := { p with scales := (List.range (Kv.heads k)).map fun i =>
          (Kv.scaleExp k ((ks.val.getD 0 []).getD i []), Kv.scaleExp k ((vs.val.getD 0 []).getD i [])) }
        let page := if f.tokens = 0 then first else p
        s.endsWith c fun u => u.spad =
          ((if f.tokens = 0 then State.kvHead k page l else []) ++
            State.kvRows k page f.tokens (p.toks.getD f.tokens (0, 0)).1 (ks.val.getD 0 []) (vs.val.getD 0 [])).foldl
            (fun y z => State.putBytesAt y (v.frameAddr m f.frame + z.1) z.2) v.spad)

/-- Convolution (09 R210 to R217): every output position is the reduction of R216 over its window, with the bias added. -/
def convolutionStores : Prop :=
  (∀ (path : List Nat) (d : Desc) (w : Work) (x : Maps) (mats : List WMat) (b o f co : Nat),
    let per := d.cout / d.groups
    let cg := d.cin / d.groups
    let g := co / Nat.max 1 per
    let taps := (List.range d.kt).flatMap fun it => (List.range d.kf).flatMap fun jf => (List.range cg).map fun ch => (it, jf, ch)
    let src (t : Nat × Nat × Nat) : Src := srcAt d w b o t.1 f t.2.1 (g * cg + t.2.2)
    let wt (k : Nat) := (mats.getD g ⟨[], 128⟩).elem (co % Nat.max 1 per) k
    ∀ y : Nat × Nat × Nat → MapElem, (∀ t, t ∈ taps → x.get d.histFmt (src t) = some (y t)) →
      ∃ ids : List Nat, ids.length = taps.length ∧ convOne path d w x mats (b, o, f, co) =
        macSum path ((taps.zipIdx.zip ids).map fun e =>
          ({ w := (wt e.1.2).1, a := (y e.1.1).a, sw := (wt e.1.2).2.1, sa := (y e.1.1).s, g := e.2 } : MacTerm)) []) ∧
  ∀ (s : State) (c : Instr) (r : Running) (m : Image) (d : Desc) (w : Work), s.opEnds (.convolution clean) c r m d w 0x0A →
    let v := s.atEnd r
    let v1 := if d.history then v.touched m w [d.b 0x68 1] true else v
    let x := readMaps v1 m d w
    let mats := (List.range d.groups).map fun g => WMat.load v1 m d (g * d.b 0x6C 4)
      (roundUp (d.kt * d.kf * (d.cin / d.groups)) (Nat.max 128 (pairMacs d.wFmt d.aFmt / 64)))
    x.mism = false → (∀ y, y ∈ mats → y.whole (d.cout / d.groups) = true) →
      ∃ path : Nat → List Nat,
        let ys := (outPositions d w.n).zipIdx.map fun p =>
          let y := convOne (path p.2) d w x.val mats p.1
          if d.sflag 2 then fadd y (((List.range d.cout).map fun f => leAt (sharedBytes v1 m d w 4 0 (4 * d.cout)).val (4 * f) 4).getD p.1.2.2.2 0) else y
        (s.endsWith c fun u => u.spad = (emitMap (putHistory v1 d w x.val) m r.desc d w ys).1.spad) ∧
          (d.history = false → d.sflag 4 = false → s.emits c r m d w v ys)

/-- Pooling (09 R218): the maximum of a window's positions, the mean over the whole window, or the mean over what it admits. -/
def poolingStores : Prop :=
  (∀ (path : List Nat) (d : Desc) (w : Work) (x : Maps) (b o f ch : Nat),
    let taps := (List.range d.kt).flatMap fun it => (List.range d.kf).map fun jf => srcAt d w b o it f jf ch
    let val (y : Src) : Nat := ((x.get d.histFmt y).map MapElem.value).getD 0
    (d.sflag 0 = true → ∀ y ys, (taps.filter fun z => z != .pad).map val = y :: ys → (poolOne path d w x (b, o, f, ch)).1 = ys.foldl fmax y) ∧
    (d.sflag 0 = false → d.sflag 1 = true →
      (poolOne path d w x (b, o, f, ch)).1 = fdiv (fsum path (taps.map val)) (f32OfInt (d.kt * d.kf : Nat))) ∧
    (d.sflag 0 = false → d.sflag 1 = false →
      let at_ (it : Nat) : Int := ((o * d.strideT + it * d.dilT : Nat) : Int) - d.padAT
      let bin (jf : Nat) : Int := ((f * d.strideF + jf * d.dilF : Nat) : Int) - d.padAF
      let vs := (((List.range d.kt).flatMap fun it => (List.range d.kf).map fun jf => (it, jf)).filter fun z =>
        (d.history || (decide (0 ≤ at_ z.1) && decide (at_ z.1 < d.tin))) && decide (0 ≤ bin z.2) && decide (bin z.2 < d.fin)).map fun z =>
          val (srcAt d w b o z.1 f z.2 ch)
      poolOne path d w x (b, o, f, ch) = if vs.isEmpty then (0, true) else (fdiv (fsum path vs) (f32OfInt vs.length), false))) ∧
  ∀ (s : State) (c : Instr) (r : Running) (m : Image) (d : Desc) (w : Work), s.opEnds (.pooling clean) c r m d w 0x0B →
    let v := s.atEnd r
    let v1 := if d.history then v.touched m w [d.b 0x68 1] true else v
    let x := readMaps v1 m d w
    x.mism = false →
      ∃ path : Nat → List Nat,
        let ys := (outPositions d w.n).zipIdx.map fun p => (poolOne (path p.2) d w x.val p.1).1
        (s.endsWith c fun u => u.spad = (emitMap (putHistory v1 d w x.val) m r.desc d w ys).1.spad) ∧
          (d.history = false → d.sflag 4 = false → s.emits c r m d w v ys)

/-- Event decoding (09 R226 to R228): the candidates at or above the threshold with finite boxes, in order of score, go through
suppression; the kept ones are written. -/
def eventStores : Prop :=
  ∀ (s : State) (c : Instr) (r : Running) (m : Image) (d : Desc) (w : Work), s.opEnds (.eventDecoding clean) c r m d w 0x0C →
    let v := s.atEnd r
    let n := d.b 0x50 2
    let per := d.b 0x52 2 + 4
    let x := (readF32 v m d w 0 0 (n * per)).val
    let an := (sharedBytes v m d w 2 0 (16 * n)).val
    let cs := (List.range n).map fun i => decodeCand d i ((x.drop (per * i)).take per) ((List.range 4).map fun k => leAt an (16 * i + 4 * k) 4)
    let ok := (cs.filter fun y => !isNan32 y.score && !flt y.score (d.b 0x58 4)).filter Cand.finite
    let kept := (suppress d [] (sortBy (fun a b => fle b.score a.score) ok)).1
    s.endsWith c fun u => u.spad = (putStep v m d w 1
      (leBytes 1 w.tag ++ leBytes 1 0 ++ leBytes 2 kept.length ++ leBytes 4 ok.length ++ leBytes 8 w.live.c.first ++
        bytesAt (kept.zipIdx.flatMap fun y => candRecord d y.2 y.1) 0 (32 * d.b 0x54 2))).2.spad

/-- Collectives 0 to 3 (13 R321 to R323): the member's own part goes into the result, what it sends into its send region, and the
round is open, complete where no other member contributes. -/
def collectivesStore : Prop :=
  ∀ (s : State) (c x : Instr) (op : Nat) (r : Running) (m : Image) (d : Desc) (w : Work),
    (x, op) ∈ [(Instr.allReduce clean, 0), (.reduceScatter clean, 1), (.allGather clean, 2), (.broadcast clean, 3)] →
    s.opEnds x c r m d w 0x0D → d.collOp = op →
    let v := s.atEnd r
    let g := m.groupOf d.group
    let rank := groupRank g
    let bytes := (refBytes v m d w 0 0 (d.units * 256)).val
    let units (p : Nat × Nat) : List Byte := (bytes.drop (p.1 * 256)).take (p.2 * 256)
    v.gaf.held = [] → (v.gaf.rounds.any (State.roundIs m.id d.collId w.entry w.j)) = false →
      s.endsWith c fun u =>
        (∃ ρ, ρ ∈ u.gaf.rounds ∧ State.roundIs m.id d.collId w.entry w.j ρ = true ∧ ρ.desc = r.desc ∧
          (expectedRanks d g = [] → ρ.complete = true)) ∧
        ∀ a, v.resultAddr m d w.slot w.j (if op = 2 then rank * d.units else 0) = some a →
          let own := if op = 2 then bytes else units (partOf d g rank)
          let v1 := if op = 3 ∧ rank ≠ d.root then v else v.arrPut a own
          u.spad = ((dedup ((sendRanks d g).map (partOf d g))).foldl (fun y p =>
            match v.sendAddr m d w.slot w.j p.1 with
            | none => y
            | some o => y.arrPut o (units p)) v1).spad

/-- KV ring rotation (08 R207, 13 R325): the pages of the stream that RingPrev holds are pulled unit by unit into the other stage set;
with none the round is complete at once. -/
def rotationStores : Prop :=
  ∀ (s : State) (c : Instr) (r : Running) (m : Image) (d : Desc) (w : Work), s.opEnds (.kvRingRotation clean) c r m d w 0x0D → d.collOp = 4 →
    let v := s.atEnd r
    let k := m.kvRec
    let l := d.b 0x5A 1
    let ring := Nat.max 1 (Kv.ring k)
    let owner := (v.kvRingIndex w.st + Kv.ring k - m.rotationNo r.desc % ring) % ring
    let pages := (w.st.layer l).pages.filter fun p => p.q % ring == owner && p.toks.any fun z => decide ((w.st.layer l).floor ≤ z.1)
    let per := ceilDiv (Kv.pageBytes k) 256
    (v.gaf.rounds.any (State.roundIs m.id d.collId w.entry w.j)) = false →
      (pages = [] → s.endsWith c fun u => u.spad = v.spad ∧ u.builtIns = v.builtIns ∧
        ∃ ρ, ρ ∈ u.gaf.rounds ∧ State.roundIs m.id d.collId w.entry w.j ρ = true) ∧
      (pages ≠ [] → 0 < Kv.pageBytes k → s.endsWith c fun u =>
        (∃ ρ, ρ ∈ u.gaf.rounds ∧ State.roundIs m.id d.collId w.entry w.j ρ = true) ∧
        ∃ b, b ∈ u.builtIns ∧ b.kind = .ringRotation l ∧ b.entry = some w.entry ∧
          b.todo = (List.range pages.length).flatMap fun p => (List.range per).map fun q =>
            ({ src := pullAddr d.collId w.entry (p * per + q), dst := v.frameAddr m ((1 - m.stageNow) * Kv.stageFrames k + p) + 256 * q
               bytes := Nat.min 256 (Kv.pageBytes k - 256 * q), entry := some w.entry } : Xfer))

/-- Second-chance pass (04 R115): the FP32 results kept behind reference 7 are converted under fresh scales, and the carried set
takes them. -/
def secondChanceStores : Prop :=
  ∀ (s : State) (r : Running) (m : Image) (d : Desc) (w : Work), s.runsAlone r m d w → r.pass = 1 → d.capOut = none →
    let v := s.atEnd r
    let x := (readF32 v m d w 7 0 (w.n * d.conv.outElems)).val
    let gs := convertGroups d.conv (rowGroups d.conv.glog d.outWidth x) none
    let v1 := (putStep (putStep v m d w 1 (a8Data w.tag d.conv gs)).2 m d w 5 (a8Scales w.tag d.conv gs)).2
    s.endsWith (.secondChancePass clean) fun u =>
      u.spad = (if d.conv.carried then writeSet v1 m r.desc d w (gs.map (·.next)) else v1).spad

/-- Attention merge pass (07 R183, R184): of a row split over two cores the two records are merged, in either order, and the row is
written as FP32. -/
def mergeStores : Prop :=
  ∀ (s : State) (r : Running) (m : Image) (d : Desc) (w : Work), s.runsAlone r m d w → r.pass = 2 →
    let v := s.atEnd r
    let dim := d.headDim
    ∀ base n sp done, (unpackSplits d r.info.length r.info).find? (fun x => x.1 == w.entry) = some (w.entry, base, n, sp, done) →
      (s.endsWith (.attentionMergePass clean) fun u => u.spad = (mergeStream r.desc r.info v m d w).1.spad) ∧
      (∀ rg, v.refRegion m d 4 = some rg → n = 1 → d.qRows = 1 → d.qHeads = 1 → splitKeys d n sp = [(0, 0, 0), (0, 0, 1)] → done = [] →
        d.mergeIn = false → d.partialOut = false → d.lseOut = false → d.conv.outFmt = 9 → 0 < dim → (∀ x, x ∈ r.shares → x.1 < 512) →
        let rec_ (i : Nat) : Row := parseRecord dim (regRead v rg (itemCore rg 0) ((base + i) * recordLen dim) (recordLen dim))
        s.endsWith (.attentionMergePass clean) fun u =>
          ∃ z : Row, (z = (rec_ 0).merge (rec_ 1) ∨ z = (rec_ 1).merge (rec_ 0)) ∧
            u.spad = (refPut v m d w 1 0 ((if z.bad then z.o.map fun _ => fp32.nanBits
              else if flt 0 z.l then z.o.map fun y => fdiv y z.l
              else z.o.map fun _ => 0).flatMap (leBytes 4))).spad)

/-! What transfers, messages and windows store and change. -/

namespace State

/-- A transfer reads the bytes `bs` at this chip: composed data, or what lies at its source, none of it uncorrectable. -/
def carries (s : State) (x : Xfer) (bs : List Byte) : Prop :=
  x.comp = some bs ∨
    x.comp = none ∧ x.srcOwn = false ∧ bs.length = x.bytes ∧
      ((∃ a, s.target x.src x.bytes = .spad a ∧ s.rd Fd.SPD_MODE_Partitioned = 0 ∧ s.spadBadIn a x.bytes = [] ∧ bs = s.spadBytes a x.bytes) ∨
        (∃ o, s.target x.src x.bytes = .lpddr o ∧ s.lpBadIn o x.bytes = [] ∧ bs = s.lpBytes o x.bytes) ∨
        ∃ a, s.target x.src x.bytes = .host a ∧ bs = getBytes s.host a x.bytes)

/-- `u` holds `bs` at device address `dst`, and every other byte of that memory as `s` does; a region of the scratchpad is not sealed. -/
def landed (s u : State) (dst : Nat) (bs : List Byte) : Prop :=
  (∀ a r, s.target dst bs.length = .spad a → s.regionAt a bs.length = some r → r.shut = false → s.rd Fd.SPD_MODE_Partitioned = 0 →
    s.spadBadIn a bs.length = [] → u.spadBytes a bs.length = bs ∧
      ∀ b, b < a ∨ a + bs.length ≤ b → sparseGet zeroByte u.spad b = sparseGet zeroByte s.spad b) ∧
  (∀ o, s.target dst bs.length = .lpddr o → u.lpBytes o bs.length = bs ∧
    ∀ b, b < o ∨ o + bs.length ≤ b → sparseGet zeroByte u.lpddr b = sparseGet zeroByte s.lpddr b) ∧
  ∀ a, s.target dst bs.length = .host a → s.pow.busMaster = true → getBytes u.host a bs.length = bs ∧
    ∀ b, b < a ∨ a + bs.length ≤ b → sparseGet zeroByte u.host b = sparseGet zeroByte s.host b

end State

/-- A plain transfer within the chip that lands (11 R257, R258, R264; 12 R285): its bytes lie at its destination, it is outstanding no
more, and what waits for its end goes on. -/
def landingStores : Prop :=
  ∀ (s : State) (f : Flight) (bs : List Byte), s.working = true → (s.flights.find? fun g => g.id == f.id) = some f → f.bench < 16 →
    f.remote = false → (f.deferred = none ∨ s.roundOpen = false) → f.x.bad = false → f.x.xform = 0 → f.x.dstOwn = false → s.flightKind f ≠ some .initialLoad →
    s.darkX f.x false = false → s.carries f.x bs →
    ∃ u : State, exec (.transferLand f.id goodMem) s = .next (u.flightOver f false) ∧
      u.flights = s.flights.filter (fun g => g.id != f.id) ∧ u.builtIns = s.builtIns ∧ s.landed u f.x.dst bs

/-- An item is issued (11 R271, R274): one with a cause of a fault takes it; one with none within the chip is outstanding with its ends
resolved and is the only change; one with an end at another chip is outstanding too, or unmapped where it cannot be routed. -/
def issueAdds : Prop :=
  ∀ (s : State) (b : Nat) (it : WorkItem),
    let t := s.takeX it.owner it.x
    let x := t.ownXfer (s.issueOf it).1 (s.issueOf it).2.2
    (s.issueCause it ≠ 0 → s.launch b it = t.xferFault b (s.issueCause it) it.owner (s.issueOf it).2.2) ∧
    (s.issueCause it = 0 → State.isPull (s.issueOf it).1 = false → (∀ c o, s.target x.src (State.srcBytes x) ≠ .remote c o) →
      (∀ c o, s.target x.dst (State.dstBytes x) ≠ .remote c o) →
      ∃ g : Flight, s.launch b it = { t with nextId := s.nextId + 1, flights := s.flights ++ [g] } ∧ g.id = s.nextId ∧ g.bench = b ∧
        g.owner = it.owner ∧ g.image = it.image ∧ g.x = x ∧ g.issued = s.now ∧ g.remote = false ∧ (g.deferred.isSome = true → s.roundOpen = true)) ∧
    (s.issueCause it = 0 →
      (∃ g : Flight, (s.launch b it).flights = s.flights ++ [g] ∧ g.id = s.nextId ∧ g.bench = b ∧ g.owner = it.owner ∧ g.image = it.image ∧
        g.x = x ∧ g.issued = s.now ∧ (s.launch b it).nextId = s.nextId + 1) ∨
      ∃ (v : State) (m : Msg), v.sendMsg m = none ∧ s.launch b it = t.xferFault b 1 it.owner x)

/-- READ_REQUEST (13 R316): the answer carries the 256 bytes of the unit that the window leads to. -/
def windowReads : Prop :=
  ∀ (s : State) (p : Nat) (m : Msg), s.msgDue p m = true → m.op = 0 → m.vc ≠ 2 →
    let u := s.begin_.takeInbox p m
    (∀ o, u.throughWindow m false false = .lpddr o → s.lpBadIn o 256 = [] →
      ∃ w : State, exec (.readRequest p m goodMem) s = .next (w.reply m (State.answerMsg 1 (some (s.lpBytes o 256)) false 0)) ∧
        w.lnk = u.lnk ∧ w.lpddr = s.lpddr ∧ w.spad = s.spad) ∧
    (∀ a r, u.throughWindow m false false = .spad a → s.regionAt a 256 = some r → r.shut = false → s.rd Fd.SPD_MODE_Partitioned = 0 →
      s.spadBadIn a 256 = [] →
      ∃ w : State, exec (.readRequest p m goodMem) s = .next (w.reply m (State.answerMsg 1 (some (s.spadBytes a 256)) false 0)) ∧
        w.lnk = u.lnk ∧ w.lpddr = s.lpddr ∧ w.spad = s.spad)

/-- Atomics of another chip (10 R253; 12 R287; 13 R316): each element takes its result, and the answer has the old bytes where asked. -/
def windowAtomics : Prop :=
  ∀ (s : State) (p : Nat) (m : Msg), s.msgDue p m = true →
    let u := s.begin_.takeInbox p m
    let d := bytesAt m.data 0 256
    (m.op = 4 → ∀ a r, u.throughWindow m true true = .spad a → s.regionAt a 256 = some r → r.shut = false → r.cls = 3 → m.code < 5 →
      a % 8 = 0 → s.rd Fd.SPD_MODE_Partitioned = 0 → s.spadBadIn a 256 = [] →
      ∃ w : State, exec (.remoteScratchpadAtomic p m) s = .next (w.answerAtomic m (s.spadBytes a 256) false 0) ∧ w.lnk = u.lnk ∧
        (∀ k, 4 * k < 256 → ofLe (w.spadBytes (a + 4 * k) 4) = (atomicWord m.code (ofLe (s.spadBytes (a + 4 * k) 4)) (leAt d (4 * k) 4)).1 % 2 ^ 32) ∧
        ∀ b, b < a ∨ a + 256 ≤ b → sparseGet State.zeroByte w.spad b = sparseGet State.zeroByte s.spad b) ∧
    (m.op = 5 → ∀ o, u.throughWindow m false true = .lpddr o → m.code < 4 → o % 32 = 0 → s.lpBadIn o 256 = [] →
      ∃ w : State, exec (.remoteMemoryAtomic p m goodMem) s = .next (w.answerAtomic m (s.lpBytes o 256) false 0) ∧ w.lnk = u.lnk ∧
        (∀ k, memElem m.code * k < 256 → leAt (w.lpBytes o 256) (memElem m.code * k) (memElem m.code) =
          (memAdd m.code (leAt (s.lpBytes o 256) (memElem m.code * k) (memElem m.code)) (leAt d (memElem m.code * k) (memElem m.code))).1 %
            2 ^ (8 * memElem m.code)) ∧
        ∀ b, b < o ∨ o + 256 ≤ b → sparseGet State.zeroByte w.lpddr b = sparseGet State.zeroByte s.lpddr b)

/-- Answers of another chip (11 R258; 13 R307, R316): the data of a plain read land at its destination; either answer ends its transfer. -/
def answersLand : Prop :=
  ∀ (s : State) (p : Nat) (m : Msg) (f : Flight), s.msgDue p m = true → m.code = 0 →
    let u := s.begin_.takeInbox p m
    u.answered m = some f →
    (m.op = 1 → s.fo.probes = [] → u.readsFar f.x = true → s.darkX f.x (s.flightKind f == some .initialLoad) = false → m.poison = false →
      f.x.xform = 0 → f.x.dstOwn = false → f.x.src < 2 ^ 60 →
      ∃ v : State, exec (.readResponse p m) s = .next (v.flightOver f false) ∧ v.flights = s.flights.filter (fun g => g.id != f.id) ∧
        s.landed v f.x.dst (bytesAt (m.data.drop (f.x.src - State.farAddr f.x.src f.x.bytes)) 0 f.x.bytes)) ∧
    (m.op = 3 →
      ∃ v : State, exec (.writeAcknowledgement p m) s = .next (v.flightOver f false) ∧ v.flights = s.flights.filter (fun g => g.id != f.id) ∧
        v.spad = s.spad ∧ v.lpddr = s.lpddr ∧ v.host = s.host)

/-- STREAM_SAMPLES (13 R319; 15 R363): a unit of the chunk that a RUNNING stream fills lies at its place in the chunk's slot of the input
buffer, and is noted. -/
def samplesLand : Prop :=
  ∀ (s : State) (p : Nat) (m : Msg) (x : Stream) (r : Region), s.msgDue p m = true → m.op = 6 →
    s.channelStream p (slice m.addr 0 12) = some x → s.stream x.entry = some x → x.state = 2 → x.discard = false → s.unitWaits x = false →
    m.poison = false → x.mirroring = false → x.replayLen = 0 → x.landed ≠ [] → s.inBuf x.image = some r →
    let i := slice m.addr 12 24
    let total := x.samplesAt x.curK * x.channels * 4
    let got := if x.landed.contains i then x.landed else x.landed ++ [i]
    let bs := (bytesAt m.data 0 256).take (total - 256 * i)
    let a := r.start + x.slot * (r.units * 256) + (if r.slots = 0 then 0 else x.nextJ % r.slots) * r.slotBytes + 256 * i
    256 * i < total → 256 * got.length < total → s.rd Fd.SPD_MODE_Partitioned = 0 → s.spadBadIn a bs.length = [] →
    ∃ (u : State) (y : Stream), exec (.streamSamples p m) s = .next (u.settleWatch.chooseIfReady s.begin_) ∧ u.stream x.entry = some y ∧
      y.landed = got ∧ u.spadBytes a bs.length = bs ∧
      ∀ b, b < a ∨ a + bs.length ≤ b → sparseGet State.zeroByte u.spad b = sparseGet State.zeroByte s.spad b

/-- COLLECTIVE (13 R323): a unit of a contribution goes into the result, by the reduction's adders or as it is, and counts for its sender. -/
def contributionsLand : Prop :=
  ∀ (s : State) (p : Nat) (m : Msg) (ρ : Round) (im : Image) (t : Stream) (d : Desc) (a : Nat), s.msgDue p m = true → m.op = 7 →
    s.roundFor m = some ρ → s.image ρ.image = some im → s.stream ρ.entry = some t → im.descs[ρ.desc]? = some d → m.skip = false → m.poison = false →
    let g := im.groupOf d.group
    let rank := (groupMembers g).idxOf m.src
    let unit := slice m.addr 36 12
    let bs := bytesAt m.data 0 256
    (expectedRanks d g).contains rank = true →
    s.resultAddr im d t.slot ρ.chunk (if d.collOp = 1 then unit - (partOf d g (groupRank g)).1 else if d.collOp = 2 then rank * d.units + unit else unit) =
      some a →
    s.rd Fd.SPD_MODE_Partitioned = 0 → s.spadBadIn a 256 = [] →
    ∃ u : State, exec (.collective p m) s = .next u.choose ∧
      (∃ z, z ∈ u.gaf.rounds ∧ State.roundIs ρ.image ρ.collId ρ.entry ρ.chunk z = true ∧ tabGet z.got rank = some ((tabGet ρ.got rank).getD 0 + 1)) ∧
      (∀ b, b < a ∨ a + 256 ≤ b → sparseGet State.zeroByte u.spad b = sparseGet State.zeroByte s.spad b) ∧
      (2 ≤ d.collOp → u.spadBytes a 256 = bs) ∧
      (d.collOp < 2 → ∀ r, s.regionAt a 256 = some r → r.shut = false → r.cls = 3 → d.redOp < 5 → a % 8 = 0 →
        ∀ k, 4 * k < 256 → ofLe (u.spadBytes (a + 4 * k) 4) = (atomicWord d.redOp (ofLe (s.spadBytes (a + 4 * k) 4)) (leAt bs (4 * k) 4)).1 % 2 ^ 32)

/-- WINDOW_OPEN (16 R385, R386, R390) where no sensor trips: Tmax, both pools of credit, the base load and the stretch. -/
def windowRules : Prop :=
  ∀ (s : State) (w : WindowIn), s.started = true → (s.begin_.readSensors (State.sensorsOf w)).2 = none →
    let d := s.dmp
    let w0 : Int := s.rd Fd.DMP_BUDGET_PkgWatts * 1000000
    let base := d.base + ((w.energy : Int) - d.eOps - d.base).tdiv 16
    let units : Int := s.rd Fd.DMP_RESERVE_ReserveUnits
    let cap := s.rd Fd.DMP_BUDGET_CapWindows * w0
    let limit : Int := s.rd Fd.DMP_THERM_B_LimitC
    let low : Int := s.rd Fd.DMP_THERM_A_ThrottleC
    let stretch : Int := s.rd Fd.DMP_THERM_A_StretchC
    ∃ u : State, exec (.windowOpen w) s = .next u.choose ∧
      (∀ t, -128 ≤ t → t < 128 → maxInt ((((s.begin_.readSensors (State.sensorsOf w)).1.validReadings w).filter fun x => x.1 < 136).map (·.2)) = some t →
        u.tmax = t) ∧
      let tf := clampInt 0 256 ((256 * (limit - u.tmax)) / (limit - low))
      let kt := if u.tmax ≤ stretch then 0 else Nat.min 5 (1 + ((u.tmax - stretch) / (Nat.max 1 (s.rd Fd.DMP_THERM_B_StretchStep) : Nat)).toNat)
      let km := if (List.range 16).any fun i => s.rd Fd.XMC_TEMP_RefreshStep i == 2 then s.rd Fd.DMP_THERM_B_MemStretch else 0
      let target := Nat.min (s.rd Fd.DMP_THERM_B_StretchMax) (Nat.max kt km)
      u.dmp.base = base ∧ u.dmp.reserve = units ∧ u.dmp.eOps = 0 ∧
        u.dmp.general = clampInt (-cap) cap (d.general + ((max (w0 - max base 0) 0) * tf).tdiv 256 - units - max (-d.reserve) 0) ∧
        u.rd Fd.DMP_STATUS_Throttling = b2n (decide (tf < 256)) ∧
        u.rd Fd.DMP_WINDOW_CNT = (s.rd Fd.DMP_WINDOW_CNT + 1) % 2 ^ Fd.DMP_WINDOW_CNT.width ∧
        u.dmp.kd = if d.kd < target then target else if target < d.kd ∧ 10000 ≤ d.fall then d.kd - 1 else d.kd

/-- Division and gating of a bench at a window (16 R389, R391): one step slower after 1 ms above DivC, gated above GateC at the slowest, one
step faster after 10 ms at DivC - 3 or below; what would bring S below the floor is withheld. -/
def benchSteps : Prop :=
  ∀ (s : State) (b : Nat) (t : Int), b < 16 → s.dmp.divs.length = 16 → s.dmp.steps.length = 16 →
    let u := s.actBench b (some t)
    let divC : Int := s.rd Fd.DMP_THERM_A_DivC
    let gateC : Int := s.rd Fd.DMP_THERM_A_GateC
    let div := s.divCode b
    let since := s.dmp.steps.getD b 0
    let lost := s.inMask b && s.instrumentRuns
    (divC < t → div < 3 →
      (since < 100 → u = s) ∧
      (100 ≤ since → lost = false → u.divCode b = div + 1 ∧ u.dmp.steps.getD b 0 = 0 ∧ u.dmp.gated = s.dmp.gated ∧
        ∀ c, c ≠ b → u.divCode c = s.divCode c) ∧
      (100 ≤ since → lost = true → s.speedSum < s.rd Fd.DMP_FLOOR_SFloor + (speedOf div - speedOf (div + 1)) →
        u.dmp = s.dmp ∧ u.rd Fd.DMP_STATUS_AtFloor = 1 ∧ u.rd Fd.DMP_PAGE_ERR_FloorHeld = 1 ∧
          u.rd Fd.DMP_FLOOR_CNT = (s.rd Fd.DMP_FLOOR_CNT + 1) % 2 ^ Fd.DMP_FLOOR_CNT.width)) ∧
    (gateC < t → div = 3 →
      (lost = false → u.dmp.gated = s.dmp.gated ++ [b] ∧ u.dmp.divs = s.dmp.divs ∧ u.rd Fd.DMP_PAGE_ERR_Gated = 1) ∧
      (lost = true → s.speedSum < s.rd Fd.DMP_FLOOR_SFloor + speedOf 3 → u.dmp = s.dmp ∧ u.rd Fd.DMP_STATUS_AtFloor = 1)) ∧
    (t ≤ divC → ¬(gateC < t ∧ div = 3) →
      (t ≤ divC - 3 → 0 < div → 1000 ≤ since → u.divCode b = div - 1 ∧ u.dmp.gated = s.dmp.gated) ∧
      (divC - 3 < t ∨ div = 0 ∨ since < 1000 → u = s))

/-- The parts of the state that a frame tells apart; `out` and `freeTick` are the model's own and in none. -/
inductive Component where
  /-- The register file. -/
  | registers
  /-- Event counters. -/
  | counters
  /-- The log. -/
  | log
  /-- The system counter. -/
  | clock
  /-- The parison. -/
  | parison
  /-- Streams, images, the running operation, passes, rounds. -/
  | gaffer
  /-- The damper. -/
  | damper
  /-- Scratchpad bytes and their check state. -/
  | scratchpad
  /-- Region descriptors and scrubs. -/
  | regions
  /-- LPDDR bytes and their check state. -/
  | lpddr
  /-- Memory sites. -/
  | sites
  /-- Host memory. -/
  | hostMemory
  /-- Built-in transfers and transfers in flight. -/
  | transfers
  /-- Ranratre links, routes, keys. -/
  | links
  /-- The network-time servo. -/
  | servo
  /-- Audio ports and their generators. -/
  | audio
  /-- Standby entries and probes. -/
  | failover
  /-- Host, log and tally ring counts. -/
  | rings
  /-- The security block. -/
  | security
  /-- The tally and the seal loop. -/
  | tally
  /-- Power and start-up. -/
  | power
  deriving DecidableEq, Repr

/-- The part is in `t` as it is in `s`. -/
def Component.same (p : Component) (s t : State) : Prop :=
  match p with
  | .registers => t.regs = s.regs
  | .counters => t.evt = s.evt
  | .log => t.log = s.log
  | .clock => t.clk = s.clk
  | .parison => t.par = s.par
  | .gaffer => t.gaf = s.gaf
  | .damper => t.dmp = s.dmp
  | .scratchpad => t.spad = s.spad ∧ t.spadBad = s.spadBad ∧ t.spadSoft = s.spadSoft
  | .regions => t.regions = s.regions ∧ t.scrubs = s.scrubs
  | .lpddr => t.lpddr = s.lpddr ∧ t.lpBad = s.lpBad
  | .sites => t.sites = s.sites
  | .hostMemory => t.host = s.host
  | .transfers => t.builtIns = s.builtIns ∧ t.flights = s.flights ∧ t.nextId = s.nextId
  | .links => t.lnk = s.lnk
  | .servo => t.servo = s.servo
  | .audio => t.apt = s.apt ∧ t.gens = s.gens
  | .failover => t.fo = s.fo
  | .rings => t.rings = s.rings ∧ t.logRing = s.logRing ∧ t.tallyRing = s.tallyRing
  | .security => t.sec = s.sec
  | .tally => t.tly = s.tly
  | .power => t.pow = s.pow

/-- Every part but some. -/
def Component.allBut (xs : List Component) : List Component :=
  [.registers, .counters, .log, .clock, .parison, .gaffer, .damper, .scratchpad, .regions, .lpddr, .sites,
    .hostMemory, .transfers, .links, .servo, .audio, .failover, .rings, .security, .tally, .power].filter fun p => !xs.contains p

/-- The parts that a command may change (the frame of the commands). -/
def mayChange : Instr → List Component
  | .smbusReadByte .. | .jtagInstruction .. =>
    []
  | .marginDone .. | .ptpHoldoverExpire | .packetPortDown .. | .packetPortUp .. =>
    [.registers]
  | .lpddrDeferExpire .. =>
    [.transfers]
  | .rekeyDue .. =>
    [.links]
  | .configRequest .. =>
    [.power]
  | .check | .scrubHold .. | .marginGo .. | .iecBlockReceive .. | .syncHoldover | .cntAlign | .dormantRequest ..
  | .logRdSeqWrite .. =>
    [.registers, .log]
  | .slowNoticeSend =>
    [.registers, .links]
  | .cntNowRead .. | .prerollEnd .. | .stopEnd .. | .steerUpdate .. | .evtCntLoRead .. =>
    [.registers, .audio]
  | .d0Return | .mpStart | .bist .. | .publish | .dormantEntered | .activeReached =>
    [.registers, .power]
  | .slowNotice .. =>
    [.gaffer, .links]
  | .presenceRelease =>
    [.security, .power]
  | .evtClear =>
    [.registers, .counters, .log]
  | .apply .. =>
    [.registers, .log, .parison]
  | .roundTimeout .. | .rekey .. | .retrain .. =>
    [.registers, .log, .links]
  | .ptpAnnounceTimeout =>
    [.registers, .log, .servo]
  | .aptStart .. | .aptStop .. =>
    [.registers, .log, .audio]
  | .consWrite .. =>
    [.registers, .log, .rings]
  | .presenceExpire | .presenceClose | .install | .rotate | .debugUnlock | .debugLock | .attest | .getIdentity | .extendM7 =>
    [.registers, .log, .security]
  | .sealSample .. =>
    [.registers, .log, .tally]
  | .benchPowerGood .. =>
    [.registers, .damper, .power]
  | .hello .. =>
    [.registers, .links, .security]
  | .packetForm .. =>
    [.registers, .counters, .log, .gaffer]
  | .scratchpadAtomic .. =>
    [.registers, .counters, .log, .scratchpad]
  | .benchReset .. =>
    [.registers, .counters, .log, .power]
  | .stageRevert .. | .xmcEnableWrite .. =>
    [.registers, .log, .parison, .links]
  | .lpddrPatrol .. =>
    [.registers, .log, .lpddr, .sites]
  | .tallyIntervalEnd .. =>
    [.registers, .log, .security, .tally]
  | .presenceOpen | .bootFwVerify .. | .deviceReady =>
    [.registers, .log, .security, .power]
  | .bootFuses .. =>
    [.registers, .clock, .security, .power]
  | .memTrain .. =>
    [.registers, .sites, .security, .power]
  | .outputTake .. =>
    [.registers, .counters, .log, .gaffer, .audio]
  | .scratchpadPatrol .. =>
    [.registers, .counters, .log, .scratchpad, .transfers]
  | .remoteScratchpadAtomic .. =>
    [.registers, .counters, .log, .scratchpad, .links]
  | .lpddrAtomic .. =>
    [.registers, .counters, .log, .lpddr, .sites]
  | .logMirror =>
    [.registers, .counters, .log, .hostMemory, .rings]
  | .scrubComplete .. =>
    [.registers, .counters, .scratchpad, .regions, .lpddr]
  | .syncPulse .. | .cntSet =>
    [.registers, .log, .clock, .parison, .tally]
  | .keyEncapsulation .. | .keyHandshakeTimeout .. | .linkTrainComplete .. | .laneFail .. | .stopMarkerReceive .. =>
    [.registers, .log, .transfers, .links, .security]
  | .readRequest .. =>
    [.registers, .counters, .log, .scratchpad, .sites, .links]
  | .remoteMemoryAtomic .. =>
    [.registers, .counters, .log, .lpddr, .sites, .links]
  | .secCmdComplete .. =>
    [.registers, .counters, .log, .lpddr, .sites, .security]
  | .tallyRecordCopy =>
    [.registers, .counters, .log, .hostMemory, .rings, .tally]
  | .frameReceive .. =>
    [.registers, .counters, .log, .transfers, .links, .security]
  | .linkTrain .. =>
    [.registers, .log, .transfers, .links, .security, .power]
  | .bar2StreamWrite .. | .bar2ApertureAccess .. | .bar2DebugAccess .. =>
    [.registers, .counters, .log, .parison, .scratchpad, .lpddr, .sites]
  | .write .. =>
    [.registers, .counters, .log, .scratchpad, .lpddr, .sites, .links]
  | .lpddrAccess .. =>
    [.registers, .counters, .log, .gaffer, .lpddr, .sites, .transfers, .tally]
  | .nextblockWriteDone .. =>
    [.registers, .counters, .log, .lpddr, .sites, .links, .security, .tally]
  | .barrierWatchdog | .pntFailstopCmd .. | .mpWatchdogExpire | .benchPowerLoss .. | .clockFault .. | .controlStateError .. =>
    [.registers, .log, .gaffer, .links, .failover, .security, .tally, .power]
  | .checkComplete =>
    [.registers, .counters, .log, .parison, .gaffer, .lpddr, .sites, .transfers, .tally]
  | .stackTempRead .. =>
    [.registers, .log, .gaffer, .sites, .links, .failover, .security, .tally, .power]
  | .sourceTimeout .. | .jobKill .. =>
    [.registers, .counters, .log, .parison, .gaffer, .regions, .lpddr, .transfers, .audio, .tally]
  | .lockLoss .. =>
    [.registers, .counters, .log, .gaffer, .scratchpad, .lpddr, .transfers, .links, .audio, .tally]
  | .sweepClose .. | .gatherTransferIssue .. | .weightReloadComplete .. | .writeAcknowledgement .. | .streamSamples ..
  | .collective .. | .doneNotice .. | .inputBlockLand .. | .lockAcquire .. =>
    Component.allBut [.clock, .hostMemory, .servo, .failover]
  | .hotReset | .softReset .. | .d3hotEnter =>
    Component.allBut [.clock, .scratchpad, .sites, .hostMemory]
  | .transferLand .. =>
    Component.allBut [.clock, .servo, .failover]
  | .windowOpen .. | .suspectReport .. | .packetFillTimeout .. | .probeTimeout | .standbyResume .. =>
    Component.allBut [.clock, .hostMemory, .servo]
  | .abandon | .parisonApplication =>
    Component.allBut [.hostMemory, .failover]
  | .readResponse .. =>
    Component.allBut [.clock, .servo]
  | .matrix .. | .vector .. | .gate .. | .expertRouting .. | .conversion .. | .recurrence .. | .parallelScan ..
  | .attention .. | .kvAppend .. | .kvStage .. | .kvRestore .. | .convolution .. | .pooling .. | .eventDecoding ..
  | .allReduce .. | .reduceScatter .. | .allGather .. | .broadcast .. | .kvRingRotation .. | .secondChancePass ..
  | .attentionMergePass .. | .weightReissue .. | .pktFrameReceive .. =>
    Component.allBut [.clock, .hostMemory]
  | .registerWrite .. | .shadowWrite .. | .codebookWrite .. | .railFault .. | .powerOn | .coldReset | .powerLoss
  | .lnkPortEnableWrite .. =>
    Component.allBut [.hostMemory]

/-- Every register word but those at the addresses of `xs` is in `t` as it is in `s`. -/
def State.wordsKept (s t : State) (xs : List Nat) : Prop := ∀ a, a ∉ xs → t.word a = s.word a

/-- The register that a log entry can change beside the log itself: an entry lost before it was mirrored counts (R434). -/
def lostWord : Nat := Fd.LOG_LOST.addr 0 0

/-- A queue of commands that the block can be sent. -/
def queueWf (cs : List Instr) : Bool := cs.all Instr.wf

end Sys2Proof.Machine
end

