-- ==== Sys2Proof/Certificates/Slice0/Obligations.lean ====
section
/-! DEFINITION. The statements. Every command has its effect in some statement; `CommandFrames` says for all of them what they leave
as it was. -/
open Sys2Proof Sys2Proof.Machine

/-- O1. A step is exec on the front of the queue. 00_scope.md. With command c at the front of the queue, a step is exec of c on the
state with the rest of the queue. -/
def Obligations.StepRunsFront : Prop :=
  ∀ c s, step { s with pending := c :: s.pending } = exec c s

/-- O2. On an empty queue the block takes one tick of the system clock. 16_damper.md; notes/assumptions/2.md;
notes/assumptions/22.md; notes/assumptions/102.md. The model's choice (log entry 2): with nothing in the queue a step answers a next
state; while the device has no power or PERST_N is asserted nothing changes; otherwise, outside the Follower role, the counter
advances by 1 ns modulo 2^64 and keeps its fraction. Every word of the register file but the device page's EVT_OVF stays, unless the
end of a soft or hot reset is timed or a suspect report is owed. PAGE_STATUS.Ready of the CTL page comes back to 1 on the tick that
ends the reset, which each tick before it brings one nearer. That the end of a soft or hot reset brings Ready back, after a free
number of ticks, is log entry 22's; that a report that is owed goes out at a tick is log entry 102's. -/
def Obligations.EmptyQueueTicks : Prop :=
  ∀ s : State, s.pending = [] →
    (s.started = false → step s = .next s) ∧
    (s.started = true → s.rd Fd.CNT_CTL_Role ≠ 2 →
      ∃ t, step s = .next t ∧ t.pending = [] ∧ t.clk = { s.clk with now := (s.clk.now + (2 ^ 32 + s.clk.frac) / 2 ^ 32) % 2 ^ 64, frac := s.clk.frac % 2 ^ 32 } ∧
        (s.pow.readyIn = 0 → s.lnk.owedDown = [] → s.wordsKept t [Fd.EVT_OVF_dev.addr 0 0]) ∧
        (s.pow.readyIn = 1 → s.lnk.owedDown = [] → t.rd (Fd.PAGE_STATUS_Ready .ctl) = 1 ∧ t.pow.readyIn = 0) ∧
        (1 < s.pow.readyIn → t.pow.readyIn = s.pow.readyIn - 1))

/-- O3. Every register field reads its Reset column after reset, and PAGE_ID names its page. 02_register_pages.md;
notes/assumptions/1.md; notes/assumptions/39.md. In State.reset every field of every register page, in every instance and copy that
exists, reads the value of the spec's Reset column. A field for which the spec gives no reset value has the value that log entry 1
names. Every page that BAR0 reaches (log entry 39: an offset that R33 gives to a PKT page and to an LNK page reaches the PKT page)
answers a read of PAGE_ID with its page type, its instance and layout revision 1. -/
def Obligations.ResetRegisters : Prop :=
  (∀ (k : PageKind) (f : Field) (i x : Nat), f ∈ k.fields → i < k.count → x < Nat.max 1 f.count →
    (k.onlyFirst f.off = true → i = 0) → f.off ≠ 0 → State.reset.rdAt f i x = f.reset) ∧
  PageKind.all.map PageKind.pageType = [1, 2, 3, 4, 5, 6, 7, 8, 9, 0xA, 0xB, 9, 0xC, 0xE, 0xF, 0x10, 0x11, 0xD] ∧
  ∀ (k : PageKind) (i : Nat), i < k.count → bar0Page (bar0Of (k.base + 0x1000 * i)) = some (k, i) →
    (State.reset.readWord (bar0Of (k.base + 0x1000 * i))).1 = k.pageType + 256 * (if k = .evtDev then 16 else i) + 2 ^ 18

/-- O4. The reset state meets the invariant. 18_host_resets_log.md; notes/assumptions/1.md. State.reset holds its registers and
memories in canonical form, has one element for every unit, and has an empty queue. -/
def Obligations.ResetInvariant : Prop :=
  State.reset.canonical = true ∧ State.reset.unitsWhole = true ∧ State.reset.pending = []

/-- O5. Every step keeps the invariant. 01_architecture.md; 02_register_pages.md; 12_lpddr.md; 13_links.md; 15_audio_ports.md. From
every state whose register file and three memories are in canonical form and whose lists of sites, ports, generators, rings,
measurements and firmware slots have one element for each unit, whatever command is at the front of the queue, a step that answers a
next state answers one of the same kind. -/
def Obligations.StepKeepsInvariant : Prop :=
  ∀ s t : State, s.canonical = true → s.unitsWhole = true → step s = .next t → t.canonical = true ∧ t.unitsWhole = true

/-- O6. Commands are taken first in, first out. 00_scope.md. A step that answers a next state takes exactly the front command from
the queue, or leaves an empty queue empty; no command is added, dropped or reordered by the effect of another. -/
def Obligations.QueueIsFifo : Prop :=
  ∀ s t : State, step s = .next t → t.pending = s.pending.tail

/-- O7. Every command but an unspecified rail excursion answers a next state. 00_scope.md; 20_package_boot.md. On every state and
with every operand, exec answers a next state, with the queue as it was, for every command but RAIL_FAULT of a core-rail excursion
that R461 leaves unspecified. -/
def Obligations.CommandsAnswer : Prop :=
  ∀ (c : Instr) (s : State), c ≠ .railFault .coreExcursion → ∃ t, exec c s = .next t ∧ t.pending = s.pending

/-- O8. What every command leaves as it was. 01_architecture.md; 02_register_pages.md; 03_streams_and_sweeps.md; 10_scratchpad.md;
11_gather.md; 12_lpddr.md; 13_links.md; 14_packet_ports.md; 15_audio_ports.md; 17_failover.md; 18_host_resets_log.md;
19_presence_tally.md. When exec of a command answers a next state, every part of the state that the command's list does not name is
as before. The parts are the register file, the event counters, the log, the system counter, the parison, the gaffer, the damper,
the scratchpad, its region tables, LPDDR, the memory sites, host memory, transfers, links, the network-time servo, audio ports,
failover, ring counts, the security block, the tally, and power with start-up; a part not named keeps every byte and every field. -/
def Obligations.CommandFrames : Prop :=
  ∀ (c : Instr) (s t : State) (p : Component), exec c s = .next t → p ∉ mayChange c → p.same s t

/-- O9. CNT_SET steps the counter and returns an armed timed parison. 02_register_pages.md; 16_damper.md; notes/assumptions/56.md. A
CNT_SET that is taken (BAR0 writes are taken, GAF Enable is 0, every entry is IDLE, the chip is no Follower) loads CNT_SET into the
counter with fraction 0, marks the open tally interval and empties the model's list of its events at the latest tick, and returns an
ARMED parison whose APPLY has When 0 to CHECKED with Code TIME_STEPPED (0x0F); a parison armed with When 1, or in another state,
keeps its state and Code. That the tally keeps a list of the latest tick's events is log entry 56's. -/
def Obligations.CounterStepReturnsParison : Prop :=
  ∀ s : State, s.hostWrites = true → s.counterIdle = true → s.rd Fd.CNT_CTL_Role ≠ 2 →
    ∃ t, exec .cntSet s = .next t ∧
      t.clk = { s.clk with now := (s.rd Fd.CNT_SET_LO + 2 ^ 32 * s.rd Fd.CNT_SET_HI) % 2 ^ 64, frac := 0 } ∧
      t.tly = { s.tly with flags := s.tly.flags ||| 8, events := [] } ∧
      (s.rd Fd.CTL_COMMIT_STATUS_State = 3 → s.par.whenBit = 0 →
        t.rd Fd.CTL_COMMIT_STATUS_State = 2 ∧ t.rd Fd.CTL_COMMIT_STATUS_Code = 0x0F) ∧
      (s.rd Fd.CTL_COMMIT_STATUS_State ≠ 3 ∨ s.par.whenBit ≠ 0 → t.regs = s.regs) ∧
      s.wordsKept t [Fd.CTL_COMMIT_STATUS_State.addr 0 0]

/-- O10. CNT_ALIGN arms on an idle Follower. 16_damper.md. A CNT_ALIGN that is taken (BAR0 writes are taken, GAF Enable is 0, every
entry is IDLE, the chip is a Follower) sets AlignArmed and changes nothing else. On any other chip, or while work can run, Align and
Set are dropped: BadWrite is set in the CNT page and the counter and AlignArmed keep their values. -/
def Obligations.CounterAlignArms : Prop :=
  ∀ s : State, s.hostWrites = true →
    (s.counterIdle = true → s.rd Fd.CNT_CTL_Role = 2 → exec .cntAlign s = .next (s.begin_.wr Fd.CNT_STATUS_AlignArmed 1)) ∧
    (s.counterIdle = false ∨ s.rd Fd.CNT_CTL_Role ≠ 2 → exec .cntAlign s = .next (s.begin_.badWrite .cnt 0)) ∧
    (s.counterIdle = false ∨ s.rd Fd.CNT_CTL_Role = 2 → exec .cntSet s = .next (s.begin_.badWrite .cnt 0))

/-- O11. A pulse on a Follower that is not aligned steers without a step. 16_damper.md. On a Follower with AlignArmed 0 a SYNC_PULSE
reports its error e (the pulse less the cable delay, from the nearest whole period, in units of 100 ps) in CNT_SYNC_ERR, loads
CNT_ADJ from the loop with its clamp of 429,497, and steps nothing. In Locked state an |e| above 16 ns returns to Acquiring and any
other keeps Locked; in Acquiring state the eighth successive |e| of at most 2 ns locks. -/
def Obligations.SyncPulseLocks : Prop :=
  ∀ (s : State) (stamp : Nat), s.started = true → s.rd Fd.CNT_CTL_Role = 2 → s.rd Fd.CNT_STATUS_AlignArmed = 0 →
    let u : Int := (stamp : Int) - s.rd Fd.CNT_CABLE_CableDelay
    let period : Int := 10 * 2 ^ s.rd Fd.CNT_CTL_SyncLog2
    let e : Int := u - (u + period / 2) / period * period
    let unit : Int := e * 2 ^ (26 - s.rd Fd.CNT_CTL_SyncLog2)
    ∃ t, exec (.syncPulse stamp) s = .next t ∧ t.clk.now = s.clk.now ∧ t.clk.frac = s.clk.frac ∧
      t.clk.freq = s.clk.freq + unit ∧ t.rd Fd.CNT_SYNC_ERR = ofSigned 32 e ∧
      t.rd Fd.CNT_ADJ = ofSigned 32 (clampInt (-429497) 429497 (((-(s.clk.freq + unit) - 8 * unit) * 2).tdiv 5)) ∧
      (s.rd Fd.CNT_STATUS_SyncState = 2 → t.rd Fd.CNT_STATUS_SyncState = if 160 < e.natAbs then 1 else 2) ∧
      (s.rd Fd.CNT_STATUS_SyncState = 1 → t.rd Fd.CNT_STATUS_SyncState = if e.natAbs ≤ 20 ∧ 7 ≤ s.clk.good then 2 else 1) ∧
      s.wordsKept t [Fd.CNT_SYNC_ERR.addr 0 0, Fd.CNT_STATUS_SyncState.addr 0 0, Fd.CNT_ADJ.addr 0 0]

/-- O12. A Locked Follower without pulses enters Holdover. 16_damper.md. SYNC_HOLDOVER on a Locked Follower sets SyncState to
Holdover (3), adds one to CNT_SYNC_LOST_CNT, sets CNT PAGE_ERR.SyncLost, and leaves the counter and every register but those words
and LOG_LOST as they were. -/
def Obligations.SyncLossEntersHoldover : Prop :=
  ∀ s : State, s.rd Fd.CNT_CTL_Role = 2 → s.rd Fd.CNT_STATUS_SyncState = 2 →
    ∃ t, exec .syncHoldover s = .next t ∧ t.rd Fd.CNT_STATUS_SyncState = 3 ∧
      t.rd Fd.CNT_SYNC_LOST_CNT = (s.rd Fd.CNT_SYNC_LOST_CNT + 1) % 2 ^ Fd.CNT_SYNC_LOST_CNT.width ∧
      t.rd Fd.CNT_PAGE_ERR_SyncLost = 1 ∧ t.clk = s.clk ∧
      s.wordsKept t [Fd.CNT_STATUS_SyncState.addr 0 0, Fd.CNT_SYNC_LOST_CNT.addr 0 0, Fd.CNT_PAGE_ERR_SyncLost.addr 0 0, lostWord]

/-- O13. A BAR0 read returns its bytes, and one of CNT_NOW_LO latches CNT_NOW_HI. 16_damper.md; 02_register_pages.md;
18_host_resets_log.md; 20_package_boot.md. While the function answers, a read of one to four bytes of CNT_NOW_LO returns those bytes
of the counter's low half and leaves its high 32 bits in CNT_NOW_HI, whatever part of the word it reads; it changes no other
register. A 64-bit read returns the whole counter, and a read of CNT_NOW_HI the latched half. A read of one to eight bytes at any
place of the CNT page or of an EVT page, aligned or not, returns each byte from its containing word, the words read in ascending
order with the effects of those reads, and changes no register but the latches. A word that no page maps, or without a field, reads
zero; in the CTL, CNT, TLY, PNT, BEN and GTH pages a field reads its value, and a write-only one zero. -/
def Obligations.CounterReadLatches : Prop :=
  ∀ s : State, s.hostUp = true →
    (∀ j n, 0 < n → j + n ≤ 4 →
      ∃ t, exec (.cntNowRead (0x100 + j) n) s = .next t ∧ t.out = [.bar0 (s.clk.now % 2 ^ 32 / 2 ^ (8 * j) % 2 ^ (8 * n))] ∧
        t.rd Fd.CNT_NOW_HI = s.clk.now / 2 ^ 32 % 2 ^ 32 ∧ s.wordsKept t [Fd.CNT_NOW_HI.addr 0 0]) ∧
    (∃ t, exec (.cntNowRead 0x100 8) s = .next t ∧ t.out = [.bar0 (s.clk.now % 2 ^ 64)] ∧
      t.rd Fd.CNT_NOW_HI = s.clk.now / 2 ^ 32 % 2 ^ 32 ∧ s.wordsKept t [Fd.CNT_NOW_HI.addr 0 0]) ∧
    (∃ t, exec (.cntNowRead 0x104 4) s = .next t ∧ t.out = [.bar0 (s.rd Fd.CNT_NOW_HI)] ∧ t.regs = s.regs) ∧
    (∀ (c : Instr) (k : PageKind) (i off n : Nat),
      (c = .cntNowRead off n ∧ k = .cnt ∧ i = 0) ∨ (c = .evtCntLoRead i off n ∧ k = .evtB ∧ i < 16) ∨
        (c = .evtCntLoRead 16 off n ∧ k = .evtDev ∧ i = 0) →
      0 < n → n ≤ 8 → off + n ≤ 0x1000 →
      let a := k.base + 0x1000 * i + off / 4 * 4
      let x := s.begin_.readWord a
      let y := x.2.readWord (a + 4)
      let z := y.2.readWord (a + 8)
      ∃ t v, exec c s = .next t ∧ t.out = [.bar0 v] ∧ v < 2 ^ (8 * n) ∧
        (∀ j, j < n → slice v (8 * j) 8 = slice ([x.1, y.1, z.1].getD ((off % 4 + j) / 4) 0) (8 * ((off % 4 + j) % 4)) 8) ∧
        s.wordsKept t ([Fd.CNT_NOW_HI.addr 0 0] ++ (List.range 32).map (Fd.EVT_CNT_HI_dev.addr 0) ++
          (List.range 8).map (Fd.EVT_CNT_HI_ben.addr i))) ∧
    (∀ a, bar0Page a = none → s.readWord a = (0, s)) ∧
    (∀ a k i, bar0Page a = some (k, i) → a % 0x1000 < 0x800 →
      (k.wordFields i (a % 0x1000) = [] → (s.readWord a).1 = 0) ∧
      (k ∈ [PageKind.ctl, .cnt, .tly, .pnt, .ben, .gth] → a % 0x1000 ≠ 8 → a % 0x1000 ≠ 0x18 → ¬(k = .cnt ∧ a % 0x1000 = 0x100) →
        ∀ f, f ∈ k.wordFields i (a % 0x1000) → slice (s.readWord a).1 f.lsb f.width =
          if f.acc = .wo then 0 else slice (s.word (k.base + 0x1000 * i + a % 0x1000)).toNat f.lsb f.width))

/-- O14. The presence window opens, re-arms and closes. 19_presence_tally.md; notes/assumptions/56.md. While the device has power
and the button is re-armed with no window open, PRESENCE_OPEN opens a window of 60 s, counts it and disarms; PRESENCE_RELEASE
re-arms and does nothing else; PRESENCE_EXPIRE, and PRESENCE_CLOSE when BAR0 writes are taken, close an open window, count the
closing, and with it end Hold and debug unlock. No other register changes but LOG_LOST. That a closing counts as an opening does
follows R436 rather than the register's own line (log entry 56). -/
def Obligations.PresenceWindow : Prop :=
  ∀ s : State,
    (s.pow.powered = true → s.sec.armed = true → s.rd Fd.SEC_PRESENCE_Open = 0 →
      ∃ t, exec .presenceOpen s = .next t ∧ t.rd Fd.SEC_PRESENCE_Open = 1 ∧
        t.rd Fd.SEC_PRESENCE_CNT = (s.rd Fd.SEC_PRESENCE_CNT + 1) % 2 ^ Fd.SEC_PRESENCE_CNT.width ∧
        t.sec = { s.sec with armed := false, openEnd := s.clk.now + 60000000000 } ∧
        s.wordsKept t [Fd.SEC_PRESENCE_Open.addr 0 0, Fd.SEC_PRESENCE_CNT.addr 0 0, lostWord]) ∧
    exec .presenceRelease s =
      .next { s.begin_ with sec := { s.sec with armed := true }, pow := { s.pow with presenceN := true } } ∧
    (s.rd Fd.SEC_PRESENCE_Open = 1 → ∀ c : Instr, c = .presenceExpire ∨ (c = .presenceClose ∧ s.hostWrites = true) →
      ∃ t, exec c s = .next t ∧ t.rd Fd.SEC_PRESENCE_Open = 0 ∧ t.rd Fd.SPD_SCRUB_Hold = 0 ∧ t.rd Fd.SEC_DEBUG_Unlocked = 0 ∧
        t.rd Fd.SEC_PRESENCE_CNT = (s.rd Fd.SEC_PRESENCE_CNT + 1) % 2 ^ Fd.SEC_PRESENCE_CNT.width ∧
        t.sec = { s.sec with openEnd := 0 } ∧
        s.wordsKept t [Fd.SEC_PRESENCE_Open.addr 0 0, Fd.SEC_PRESENCE_CNT.addr 0 0, Fd.SPD_SCRUB_Hold.addr 0 0, Fd.SEC_DEBUG_Unlocked.addr 0 0,
          lostWord])

/-- O15. A security command starts, is refused, or is dropped. 19_presence_tally.md. While BAR0 writes are taken and no command
runs, DEBUG_LOCK, ATTEST, GET_IDENTITY and EXTEND_M7 set Busy and become the running command, and so do INSTALL, ROTATE and
DEBUG_UNLOCK inside a presence window; outside one these three end at once with Result NoPresence (1) and PresenceDenied set, and
run nothing. While Busy is 1 every one of the seven is dropped with BadWrite set. -/
def Obligations.SecurityCommandsStart : Prop :=
  ∀ (s : State) (c : Instr) (op : Nat),
    (c, op) ∈ [(Instr.install, 1), (.rotate, 2), (.debugUnlock, 3), (.debugLock, 4), (.attest, 5), (.getIdentity, 6), (.extendM7, 7)] →
    s.hostWrites = true →
    (s.rd Fd.SEC_CMD_STATUS_Busy = 0 → (3 < op ∨ s.rd Fd.SEC_PRESENCE_Open = 1) →
      ∃ t, exec c s = .next t ∧ t.rd Fd.SEC_CMD_STATUS_Busy = 1 ∧ t.sec = { s.sec with cmd := op } ∧
        s.wordsKept t [Fd.SEC_CMD_STATUS_Busy.addr 0 0]) ∧
    (s.rd Fd.SEC_CMD_STATUS_Busy = 0 → op ≤ 3 → s.rd Fd.SEC_PRESENCE_Open = 0 →
      ∃ t, exec c s = .next t ∧ t.rd Fd.SEC_CMD_STATUS_Busy = 0 ∧ t.rd Fd.SEC_CMD_STATUS_Result = 1 ∧
        t.rd Fd.SEC_PAGE_ERR_PresenceDenied = 1 ∧ t.sec = s.sec) ∧
    (s.rd Fd.SEC_CMD_STATUS_Busy = 1 → exec c s = .next (s.begin_.badWrite .sec 0))

/-- O16. A security command ends with its effect. 19_presence_tally.md; 12_lpddr.md; notes/assumptions/17.md. SEC_CMD_COMPLETE of
DEBUG_UNLOCK unlocks debug exactly while a presence window is open, of DEBUG_LOCK locks it, and of EXTEND_M7 over 32 bytes in LPDDR
at a 64-byte boundary replaces M7 by SHAKE256 of M7 followed by those bytes; each ends with Busy 0 and Result 0. INSTALL refuses, in
this order, an image out of range or out of form (2), one of a lower SVN than MinSvn (4) and one whose signature does not verify
(3), with FwReject set; it ends with 5 and FlashFail where the flash write fails, and otherwise the inactive slot holds the image
and is pending, and MinSvn rises where the image asks for it. ROTATE ends with 7 at generation 7 and 6 with an exhausted key, waits
while the next signature block is not in flash, and otherwise moves the generation on and appends the rotation certificate signed by
the old key. ATTEST writes the 352 bytes of the report and the signature over their digest at SEC_CMD_ADDR; GET_IDENTITY writes the
public key and the certificates there. A range that does not lie in LPDDR at a 64-byte boundary ends with 2 (log entry 17). -/
def Obligations.SecurityCommandsEnd : Prop :=
  ∀ (s : State) (flashOk : Bool), s.rd Fd.SEC_CMD_STATUS_Busy = 1 → s.sec.cmdWaits = false →
    (s.sec.cmd = 3 ∨ s.sec.cmd = 4 →
      ∃ t, exec (.secCmdComplete flashOk) s = .next t ∧ t.rd Fd.SEC_CMD_STATUS_Busy = 0 ∧ t.rd Fd.SEC_CMD_STATUS_Result = 0 ∧
        t.rd Fd.SEC_DEBUG_Unlocked = (if s.sec.cmd = 3 ∧ s.rd Fd.SEC_PRESENCE_Open = 1 then 1 else 0) ∧
        t.sec = { s.sec with cmd := 0 }) ∧
    (s.sec.cmd = 7 → s.secRange 32 = true → s.sec.measures.length = 8 →
      ∃ t, exec (.secCmdComplete flashOk) s = .next t ∧ t.rd Fd.SEC_CMD_STATUS_Busy = 0 ∧ t.rd Fd.SEC_CMD_STATUS_Result = 0 ∧
        t.measure 7 = shake256 (s.measure 7 ++ s.devBytes s.secAddr 32) ∧
        (∀ k, k ≠ 7 → t.measure k = s.measure k)) ∧
    (s.sec.cmd = 1 →
      let img := s.devBytes s.secAddr (s.rd Fd.SEC_CMD_LEN)
      let inForm := s.secRange (s.rd Fd.SEC_CMD_LEN) = true ∧ State.fwLayoutOk img = true
      ∃ t, exec (.secCmdComplete flashOk) s = .next t ∧ t.rd Fd.SEC_CMD_STATUS_Busy = 0 ∧ t.sec.active = s.sec.active ∧
        (¬inForm → t.rd Fd.SEC_CMD_STATUS_Result = 2 ∧ t.rd Fd.SEC_PAGE_ERR_FwReject = 1 ∧ t.sec = { s.sec with cmd := 0 }) ∧
        (inForm → leAt img 4 1 < s.rd Fd.SEC_FW_MinSvn →
          t.rd Fd.SEC_CMD_STATUS_Result = 4 ∧ t.rd Fd.SEC_PAGE_ERR_FwReject = 1 ∧ t.sec = { s.sec with cmd := 0 }) ∧
        (inForm → s.rd Fd.SEC_FW_MinSvn ≤ leAt img 4 1 → s.fwSigned img = false →
          t.rd Fd.SEC_CMD_STATUS_Result = 3 ∧ t.rd Fd.SEC_PAGE_ERR_FwReject = 1 ∧ t.sec = { s.sec with cmd := 0 }) ∧
        (inForm → s.rd Fd.SEC_FW_MinSvn ≤ leAt img 4 1 → s.fwSigned img = true →
          (flashOk = false →
            t.rd Fd.SEC_CMD_STATUS_Result = 5 ∧ t.rd Fd.SEC_PAGE_ERR_FlashFail = 1 ∧ t.sec = { s.sec with cmd := 0 }) ∧
          (flashOk = true →
            let min := if bitAt (leAt img 5 1) 0 = true then Nat.max s.sec.minSvn (leAt img 4 1) else s.sec.minSvn
            t.rd Fd.SEC_CMD_STATUS_Result = 0 ∧ t.rd Fd.SEC_FW_Pending = 1 ∧ t.rd Fd.SEC_FW_MinSvn = min % 2 ^ 6 ∧
              t.sec = { s.sec with
                slots := listMod s.sec.slots (1 - s.sec.active) fun _ => ⟨true, leAt img 4 1, img⟩
                pending := some (1 - s.sec.active), minSvn := min, cmd := 0 }))) ∧
    (s.sec.cmd = 2 →
      let g := s.sec.idGen
      let i := s.keyIndex g
      let ready := i % 256 ≠ 0 ∨ s.sec.nextBlock.getD g 0 = i / 256 + 1
      ∃ t, exec (.secCmdComplete flashOk) s = .next t ∧
        (7 ≤ g → t.rd Fd.SEC_CMD_STATUS_Busy = 0 ∧ t.rd Fd.SEC_CMD_STATUS_Result = 7 ∧ t.sec = { s.sec with cmd := 0 }) ∧
        (g < 7 → 2 ^ 40 - 256 ≤ i → t.rd Fd.SEC_CMD_STATUS_Busy = 0 ∧ t.rd Fd.SEC_CMD_STATUS_Result = 6 ∧ t.rd Fd.SEC_KEY_KeyExhausted = 1) ∧
        (g < 7 → i < 2 ^ 40 - 256 → ¬ready →
          t.rd Fd.SEC_CMD_STATUS_Busy = 1 ∧ t.sec.cmdWaits = true ∧ t.sec.blockWait.isSome = true ∧ t.sec.nextIndex = s.sec.nextIndex) ∧
        (g < 7 → i < 2 ^ 40 - 256 → ready → flashOk = false → t.rd Fd.SEC_CMD_STATUS_Busy = 0 ∧ t.rd Fd.SEC_CMD_STATUS_Result = 5 ∧
          t.rd Fd.SEC_PAGE_ERR_FlashFail = 1 ∧ t.sec = { s.sec with cmd := 0 }) ∧
        (g < 7 → i < 2 ^ 40 - 256 → ready → flashOk = true →
          let pub := bytesAt (Config.xmssPublic (g + 1)) 0 68
          t.rd Fd.SEC_CMD_STATUS_Busy = 0 ∧ t.rd Fd.SEC_CMD_STATUS_Result = 0 ∧ t.rd Fd.SEC_KEY_IdGen = g + 1 ∧
            t.rd Fd.SEC_KEY_KeyExhausted = 0 ∧
            t.sec = { s.sec with
              nextIndex := listMod s.sec.nextIndex g (· + 1), idGen := g + 1, cmd := 0
              certs := s.sec.certs ++ [Config.rotationCert pub (bytesAt (Config.xmssSign g i (shake256 pub)) 0 9893)] })) ∧
    (s.sec.cmd = 5 →
      let g := s.sec.idGen
      let i := s.keyIndex g
      let ready := i % 256 ≠ 0 ∨ s.sec.nextBlock.getD g 0 = i / 256 + 1
      let a := s.secAddr - State.lpBase
      let head := leBytes 4 0x54415452 ++ leBytes 1 1 ++ leBytes 1 g ++ leBytes 2 0 ++ s.devBytes s.secAddr 32 ++ leBytes 8 s.now ++
        leBytes 4 s.sec.bootCount ++ leBytes 1 (s.rd Fd.SEC_FW_ActiveSvn) ++ leBytes 1 0 ++ leBytes 2 s.tly.opens ++ leBytes 8 0 ++
        ((List.range 8).map s.measure).flatten ++ leBytes 4 (s.word 0x4).toNat ++ leBytes 4 (s.word (Fd.LNK_CHIP_ChipId.addr 0 0)).toNat ++
        leBytes 24 0
      ∃ t, exec (.secCmdComplete flashOk) s = .next t ∧
        (s.secRange 10245 = false → t.rd Fd.SEC_CMD_STATUS_Busy = 0 ∧ t.rd Fd.SEC_CMD_STATUS_Result = 2 ∧ t.lpddr = s.lpddr) ∧
        (s.secRange 10245 = true → i < 2 ^ 40 - 256 → ¬ready →
          t.rd Fd.SEC_CMD_STATUS_Busy = 1 ∧ t.sec.cmdWaits = true ∧ t.sec.blockWait.isSome = true ∧ t.lpddr = s.lpddr) ∧
        (s.secRange 10245 = true → i < 2 ^ 40 - 256 → ready → s.anyDark = false →
          t.rd Fd.SEC_CMD_STATUS_Busy = 0 ∧ t.rd Fd.SEC_CMD_STATUS_Result = 0 ∧
            t.sec = { s.sec with nextIndex := listMod s.sec.nextIndex g (· + 1), cmd := 0 } ∧ head.length = 352 ∧
            t.lpBytes a 10245 = head ++ bytesAt (Config.xmssSign g i (shake256 head)) 0 9893 ∧
            ∀ x, x < a ∨ a + 10245 ≤ x → sparseGet State.zeroByte t.lpddr x = sparseGet State.zeroByte s.lpddr x)) ∧
    (s.sec.cmd = 6 →
      let bs := bytesAt (Config.xmssPublic s.sec.idGen) 0 68 ++ Config.vendorCert ++ s.sec.certs.flatten
      let a := s.secAddr - State.lpBase
      ∃ t, exec (.secCmdComplete flashOk) s = .next t ∧ t.rd Fd.SEC_CMD_STATUS_Busy = 0 ∧ t.sec = { s.sec with cmd := 0 } ∧
        t.rd Fd.SEC_CMD_STATUS_Result = (if s.secRange bs.length then 0 else 2) ∧
        (s.secRange bs.length = true → s.anyDark = false → t.lpBytes a bs.length = bs) ∧
        ∀ x, (s.secRange bs.length = true → x < a ∨ a + bs.length ≤ x) →
          sparseGet State.zeroByte t.lpddr x = sparseGet State.zeroByte s.lpddr x)

/-- O17. Two successive mismatches open the seal loop, eight matches close it. 19_presence_tally.md. While the device has power, a
SEAL_SAMPLE moves the sequence x^15 + x^14 + 1 on by one. A second successive mismatch of a loop that is closed, or that has not
been judged since power-on, opens it: one more fuse blows up to 1,024, SEAL_Opens shows the count, SealClosed reads 0 and SealOpened
is set. An eighth successive match closes a loop that is not closed. Any other sample changes nothing but the two run lengths and
the sequence. -/
def Obligations.SealLoopOpens : Prop :=
  ∀ (s : State) (bit : Bool), s.pow.powered = true →
    let hit : Bool := bit == bitAt s.tly.lfsr 0
    ∃ t, exec (.sealSample bit) s = .next t ∧ t.tly.lfsr = State.sealNext s.tly.lfsr ∧
      t.tly.matchRun = (if hit then s.tly.matchRun + 1 else 0) ∧ t.tly.missRun = (if hit then 0 else s.tly.missRun + 1) ∧
      (hit = false → s.tly.missRun = 1 → (s.tly.closed = true ∨ s.tly.judged = false) →
        t.tly.closed = false ∧ t.tly.opens = Nat.min 1024 (s.tly.opens + 1) ∧ t.rd Fd.TLY_SEAL_Opens = Nat.min 1024 (s.tly.opens + 1) ∧
          t.rd Fd.TLY_STATUS_SealClosed = 0 ∧ t.rd Fd.TLY_PAGE_ERR_SealOpened = 1) ∧
      (hit = true → s.tly.closed = false → 7 ≤ s.tly.matchRun → t.tly.closed = true ∧ t.rd Fd.TLY_STATUS_SealClosed = 1) ∧
      ((hit = true → s.tly.closed = true ∨ s.tly.matchRun < 7) →
        (hit = false → s.tly.missRun ≠ 1 ∨ (s.tly.closed = false ∧ s.tly.judged = true)) →
        t.regs = s.regs ∧ t.tly.closed = s.tly.closed ∧ t.tly.opens = s.tly.opens)

/-- O18. Extending a measurement register hashes it with the data. 19_presence_tally.md. Extending register k, one of the eight,
with data x sets M_k to the 256-bit SHAKE256 of M_k followed by x; the other seven keep their values, and a device of eight
measurement registers still has eight. -/
def Obligations.MeasurementExtends : Prop :=
  ∀ (s : State) (k : Nat) (x : List Byte), s.sec.measures.length = 8 → k < 8 →
    (s.extendM k x).measure k = shake256 (s.measure k ++ x) ∧ (shake256 (s.measure k ++ x)).length = 32 ∧
      (∀ j, j ≠ k → (s.extendM k x).measure j = s.measure j) ∧ (s.extendM k x).sec.measures.length = 8

/-- O19. The tally closes its interval at End. 19_presence_tally.md. TALLY_INTERVAL_END, where no event has come at or after End,
the first multiple of the interval after Start, closes the open interval there: the next interval starts at End with no segments and
no flags, the sequence number goes up by one, the energy total grows by the measured energy, and the fuses, totals and residues
stand. -/
def Obligations.TallyIntervalCloses : Prop :=
  ∀ (s : State) (uj : Nat), s.pow.powered = true → s.tly.carry = [] → (s.tly.events = [] ∨ s.tly.mark < s.begin_.tallyEnd) →
    ∃ t, exec (.tallyIntervalEnd uj) s = .next t ∧ t.tly.start = s.begin_.tallyEnd ∧ s.tly.start < t.tly.start ∧
      t.tly.segments = [] ∧ t.tly.flags = 0 ∧ t.tly.seq = s.tly.seq + 1 ∧ t.tly.energy = s.tly.energy + uj ∧
      t.tly.opens = s.tly.opens ∧ t.tly.totals = s.tly.totals ∧ t.tly.resid = s.tly.resid

/-- O20. A signed tally record is copied to host memory. 18_host_resets_log.md; 19_presence_tally.md. While the tally ring is
enabled, the device is a bus master, the function answers, no fail-stop holds and the ring has room for the oldest signed record
with the padding it needs, TALLY_RECORD_COPY writes the padding record, the record and the new Prod to host memory at their places,
advances Prod by both lengths, and drops the record from the queue. No other byte of host memory changes. -/
def Obligations.TallyRecordCopied : Prop :=
  ∀ (s : State) (r : List Byte) (rest : List (List Byte)), s.tly.queue = r :: rest → s.rd Fd.SEC_TRING_CFG_Enable = 1 →
    s.pow.busMaster = true → s.failStopped = false → s.hostUp = true →
    let size := 2 ^ s.rd Fd.SEC_TRING_CFG_SizeLog2
    let c := s.tallyRing
    let pad := c.padFor size r.length
    let base := s.base Fd.SEC_TRING_BASE_LO Fd.SEC_TRING_BASE_HI
    let wb := s.base Fd.SEC_TRING_WB_LO Fd.SEC_TRING_WB_HI
    pad + r.length ≤ c.room size →
    ∃ t, exec .tallyRecordCopy s = .next t ∧ t.tallyRing = { c with prod := c.prod + pad + r.length } ∧
      t.tly = { s.tly with queue := rest } ∧
      t.host = State.putBytesAt (State.putBytesAt
        (if pad = 0 then s.host else State.putBytesAt s.host (base + c.prod % size) (leBytes 12 0 ++ leBytes 4 pad))
        (base + (c.prod + pad) % size) r) wb (leBytes 8 (c.prod + pad + r.length)) ∧
      (∀ a, (a < base + (c.prod + pad) % size ∨ base + (c.prod + pad) % size + r.length ≤ a) → (a < wb ∨ wb + 8 ≤ a) →
        (pad = 0 ∨ a < base + c.prod % size ∨ base + c.prod % size + 16 ≤ a) →
        sparseGet State.zeroByte t.host a = sparseGet State.zeroByte s.host a)

/-- O21. Each row of start-up runs and the next one follows. 20_package_boot.md; 19_presence_tally.md; 12_lpddr.md;
notes/assumptions/96.md. While row n is in progress and does not fail, its command answers a next state in which row n + 1 is in
progress and CTL_BOOT.Phase shows it: BOOT_FUSES (with PERST_N asserted until then, and the counter at 0 afterwards),
BOOT_FW_VERIFY, MP_START, BIST, MEM_TRAIN with at most 32 channels out, LINK_TRAIN, PUBLISH. MP_START and BIST change nothing else.
BOOT_FW_VERIFY boots the pending slot if it verifies, and otherwise the active one, with FwReject set; after the watchdog's fallback
it boots the other slot with Fallback set; M1 is extended by the digest of the slot that boots. MEM_TRAIN shows each site's
generation and rate, fails a channel without a stack, reported so, or with a lane below the limits, and leaves in service the others
that are not recorded as mapped out. What the results of a row look like as operands is the model's (log entry 96). -/
def Obligations.StartUpRowsAdvance : Prop :=
  ∀ s : State,
    (s.pow.powered = true → s.pow.perst = true → s.pow.row = 1 → ∀ d,
      ∃ t, exec (.bootFuses true d) s = .next t ∧ t.pow.row = 2 ∧ t.pow.perst = false ∧ t.rd Fd.CTL_BOOT_Phase = 2 ∧ t.clk = {}) ∧
    (s.atRow 2 = true → s.sec.fallBack = false → s.sec.pending = none → ∀ codes, s.fwCode s.sec.active (codes.getD s.sec.active 2) = 0 →
      ∃ t, exec (.bootFwVerify codes) s = .next t ∧ t.pow.row = 3 ∧ t.rd Fd.CTL_BOOT_Phase = 3 ∧ t.sec.active = s.sec.active ∧
        (s.sec.measures.length = 8 → t.measure 1 = shake256 (s.measure 1 ++ s.slotDigest s.sec.active))) ∧
    (s.atRow 2 = true → s.sec.fallBack = false → ∀ p codes, p < 2 → s.sec.pending = some p →
      (s.fwCode p (codes.getD p 2) = 0 →
        ∃ t, exec (.bootFwVerify codes) s = .next t ∧ t.pow.row = 3 ∧ t.sec.active = p ∧ t.sec.pending = none ∧
          t.rd Fd.SEC_FW_ActiveSlot = p ∧ t.rd Fd.SEC_FW_ActiveSvn = (s.sec.slots.getD p {}).svn % 2 ^ 6 ∧
          (s.sec.measures.length = 8 → t.measure 1 = shake256 (s.measure 1 ++ s.slotDigest p))) ∧
      (s.fwCode p (codes.getD p 2) ≠ 0 → s.fwCode s.sec.active (codes.getD s.sec.active 2) = 0 →
        ∃ t, exec (.bootFwVerify codes) s = .next t ∧ t.pow.row = 3 ∧ t.sec.active = s.sec.active ∧ t.sec.pending = none ∧
          t.rd Fd.SEC_PAGE_ERR_FwReject = 1)) ∧
    (s.atRow 2 = true → s.sec.fallBack = true → s.sec.pending = none → ∀ codes,
      s.fwCode (1 - s.sec.active) (codes.getD (1 - s.sec.active) 2) = 0 →
      ∃ t, exec (.bootFwVerify codes) s = .next t ∧ t.pow.row = 3 ∧ t.sec.active = 1 - s.sec.active ∧ t.sec.fallBack = false ∧
        t.rd Fd.SEC_FW_Fallback = 1) ∧
    (s.atRow 3 = true → exec .mpStart s = .next (s.begin_.toRow 4)) ∧
    (s.atRow 4 = true → ∀ d, exec (.bist false d) s = .next (s.begin_.toRow 5)) ∧
    (s.atRow 5 = true → ∀ sites,
      128 - ((List.range 16).foldl (fun s i => s.trainSite i (sites.getD i ⟨0, 0, 255, []⟩)) s.begin_).inService ≤ 32 →
      ∃ t, exec (.memTrain sites) s = .next t ∧ t.pow.row = 6 ∧ t.rd Fd.CTL_BOOT_Phase = 6 ∧
        ∀ i, i < 16 →
          let x := sites.getD i ⟨0, 0, 255, []⟩
          t.rd Fd.XMC_SITE_Gen i = x.gen % 3 ∧ t.rd Fd.XMC_RATE_RateMbps i = x.rateMbps % 2 ^ Fd.XMC_RATE_RateMbps.width ∧
            t.rd Fd.XMC_MAPOUT_Recorded i = s.rd Fd.XMC_MAPOUT_Recorded i ∧
            ∀ c, c < 8 →
              (bitAt (t.rd Fd.XMC_SITE_TrainFail i) c = true ↔ x.gen % 3 = 0 ∨ bitAt x.fail c = true ∨
                ∃ sub m, sub < 2 ∧ x.margins[2 * c + sub]? = some m ∧ (m.getD 0 0 < 16 ∨ m.getD 1 0 < 10)) ∧
              bitAt (t.rd Fd.XMC_SITE_InService i) c =
                (!bitAt (t.rd Fd.XMC_SITE_TrainFail i) c && !bitAt (s.rd Fd.XMC_MAPOUT_Recorded i) c)) ∧
    (s.atRow 6 = true → ∀ results, ∃ t, exec (.linkTrain results) s = .next t ∧ t.pow.row = 7 ∧ t.rd Fd.CTL_BOOT_Phase = 7) ∧
    (s.atRow 7 = true → ∃ t, exec .publish s = .next t ∧ t.pow.row = 8 ∧ t.rd Fd.CTL_BOOT_Phase = 8)

/-- O22. A failing row stops the start-up with Fail and Detail. 20_package_boot.md; 19_presence_tally.md; 12_lpddr.md;
notes/assumptions/96.md. A fuse read that fails stops the start-up at row 1 with Fail 1 and the fuse bank in Detail; a bank that
cannot be repaired stops it at row 4 with Fail 3; where neither the active slot nor a pending one verifies it stops at row 2 with
NoFirmware (2) and the result code of each slot in Detail, and the ROM serves; more than 32 channels mapped out stop it at row 5
with MemMapOut (4) and their number in Detail. The row stays, and Phase keeps showing it. What the results of a row look like as
operands is the model's (log entry 96). -/
def Obligations.StartUpStops : Prop :=
  ∀ (s : State) (d : Nat),
    (s.pow.powered = true → s.pow.perst = true → s.pow.row = 1 →
      ∃ t, exec (.bootFuses false d) s = .next t ∧ t.pow.stopped = true ∧ t.pow.row = 1 ∧ t.rd Fd.CTL_BOOT_Phase = 1 ∧
        t.rd Fd.CTL_BOOT_Fail = 1 ∧ t.rd Fd.CTL_BOOT_Detail = d % 2 ^ 16) ∧
    (s.atRow 4 = true →
      ∃ t, exec (.bist true d) s = .next t ∧ t.pow = { s.pow with stopped := true } ∧ t.rd Fd.CTL_BOOT_Fail = 3 ∧
        t.rd Fd.CTL_BOOT_Detail = d % 2 ^ 15 ∧ s.wordsKept t [Fd.CTL_BOOT_Fail.addr 0 0]) ∧
    (s.atRow 2 = true → s.sec.fallBack = false → ∀ codes,
      let code (i : Nat) : Nat := s.fwCode i (codes.getD i 2)
      code s.sec.active ≠ 0 → (∀ p, s.sec.pending = some p → code p ≠ 0) →
      ∃ t, exec (.bootFwVerify codes) s = .next t ∧ t.pow = { s.pow with stopped := true } ∧ t.rd Fd.CTL_BOOT_Fail = 2 ∧
        t.rd Fd.CTL_BOOT_Detail = code 0 % 16 + 16 * (code 1 % 16) ∧ t.sec = { s.sec with pending := none } ∧ t.romServes = true) ∧
    (s.atRow 5 = true → ∀ sites,
      let out := 128 - ((List.range 16).foldl (fun s i => s.trainSite i (sites.getD i ⟨0, 0, 255, []⟩)) s.begin_).inService
      32 < out →
      ∃ t, exec (.memTrain sites) s = .next t ∧ t.pow = { s.pow with stopped := true } ∧ t.rd Fd.CTL_BOOT_Fail = 4 ∧
        t.rd Fd.CTL_BOOT_Detail = out)

/-- O23. Row 8 sets DEVICE_READY, loads the boot time and counts the boot. 20_package_boot.md; 18_host_resets_log.md;
19_presence_tally.md. DEVICE_READY at row 8 sets PAGE_STATUS.Ready of the CTL page, loads CTL_BOOT_TIME from the counter, adds one
to the boot count and shows it, ends the rows, and keeps every register but those and LOG_LOST. -/
def Obligations.DeviceReadyIsSet : Prop :=
  ∀ s : State, s.atRow 8 = true →
    ∃ t, exec .deviceReady s = .next t ∧ t.rd (Fd.PAGE_STATUS_Ready .ctl) = 1 ∧
      t.rd Fd.CTL_BOOT_TIME_LO = s.clk.now % 2 ^ 32 ∧ t.rd Fd.CTL_BOOT_TIME_HI = s.clk.now / 2 ^ 32 % 2 ^ 32 ∧
      t.sec = { s.sec with bootCount := s.sec.bootCount + 1, changed := false } ∧ t.pow = { s.pow with row := 9 } ∧
      t.rd Fd.SEC_BOOT_CNT = (s.sec.bootCount + 1) % 2 ^ 32 ∧
      s.wordsKept t [(Fd.PAGE_STATUS_Ready .ctl).addr 0 0, Fd.CTL_BOOT_TIME_LO.addr 0 0, Fd.CTL_BOOT_TIME_HI.addr 0 0,
        Fd.SEC_BOOT_CNT.addr 0 0, lostWord]

/-- O24. Configuration requests, SMBus and the test port answer. 20_package_boot.md; 18_host_resets_log.md; notes/assumptions/36.md;
notes/assumptions/57.md. From row 1 onward CONFIG_REQUEST answers Configuration Request Retry Status until row 3 has ended (or the
ROM serves after NoFirmware), and success afterwards; one that succeeds may write Bus Master Enable (log entry 57), and changes
nothing else. An SMBus Read Byte returns Phase and Fail, Tmax, the failstop cause, the part code in two bytes or the stepping for
its command, and one of no listed command is not acknowledged. IDCODE reads 0x000963A7, and EXTEST behaves as BYPASS while
DEVICE_READY is 1. Neither changes any other part of the state. The codes of the test port's instructions are the model's own (log
entry 36). -/
def Obligations.SidebandAnswers : Prop :=
  ∀ s : State, s.started = true →
    (∀ b, let ok := decide (4 ≤ s.pow.row) || s.romServes
      exec (.configRequest b) s = .next (({ s.begin_ with pow :=
        { s.pow with busMaster := if ok then b.getD s.pow.busMaster else s.pow.busMaster } } : State).put (.config ok))) ∧
    (∀ cmd v, (cmd, v) ∈ [(0x00, s.rd Fd.CTL_BOOT_Phase + 16 * s.rd Fd.CTL_BOOT_Fail), (0x01, s.rd Fd.DMP_TEMP_MAX_Tmax),
        (0x03, s.rd Fd.PNT_FAILSTOP_Cause), (0x04, s.rd Fd.CTL_PAGE_CAP_PartCode % 256), (0x05, s.rd Fd.CTL_PAGE_CAP_PartCode / 256),
        (0x06, s.rd Fd.CTL_PAGE_CAP_Stepping)] →
      exec (.smbusReadByte cmd) s = .next (s.begin_.put (.smbus [BitVec.ofNat 8 v]))) ∧
    (∀ cmd, 7 ≤ cmd → exec (.smbusReadByte cmd) s = .next (s.begin_.put (.smbus []))) ∧
    exec (.jtagInstruction 1) s = .next (s.begin_.put (.jtag 32 0x000963A7)) ∧
    exec (.jtagInstruction 0) s = .next (s.begin_.put (.jtag 1 0)) ∧
    (s.rd (Fd.PAGE_STATUS_Ready .ctl) = 1 → exec (.jtagInstruction 3) s = exec (.jtagInstruction 0) s)

/-- O25. The write of NextBlock ends. 19_presence_tally.md; notes/assumptions/57.md. NEXTBLOCK_WRITE_DONE of a successful write
stores the next block number of the key that asked, frees the writer and lets whatever waits for a signature go on; of a failed
write it sets FlashFail, ends a waiting command with Result FlashFail (5), and drops the waiting key messages. That the request of
the failed write stands, so that a later write may serve it, is log entry 57's. -/
def Obligations.FlashWriteEnds : Prop :=
  ∀ (s : State) (k : Nat), s.sec.blockWait = some k →
    exec (.nextblockWriteDone true) s =
      .next ({ s.begin_ with sec := { s.sec with blockWait := none, nextBlock := listMod s.sec.nextBlock k fun _ => s.keyIndex k / 256 + 1 } } : State).resumeSigning ∧
    (s.sec.cmdWaits = true →
      ∃ t, exec (.nextblockWriteDone false) s = .next t ∧ t.rd Fd.SEC_PAGE_ERR_FlashFail = 1 ∧ t.rd Fd.SEC_CMD_STATUS_Busy = 0 ∧
        t.rd Fd.SEC_CMD_STATUS_Result = 5 ∧ t.sec = { s.sec with cmd := 0, cmdWaits := false, hsWait := [] })

/-- O26. The power states follow each other as the table says. 18_host_resets_log.md; 16_damper.md. While BAR0 writes are taken,
DORMANT_REQUEST with Req 1 in Active or Waking goes to Entering when GAF Enable is 0, every entry is IDLE, no image is loaded and
every audio port is Stopped, and is dropped with BadWrite otherwise; with Req 0 in Entering or Dormant it goes to Waking; a reserved
Req is dropped. DORMANT_ENTERED takes Entering to Dormant, ACTIVE_REACHED takes Waking to Active, D3HOT_ENTER takes Dormant to D3hot
and D0_RETURN takes D3hot back to Dormant without a reset: images, entries, memories and every register but CTL_POWER_STATUS and the
benches' BEN_STATUS.Gated, which follows the power domains, stand. -/
def Obligations.PowerStatesFollow : Prop :=
  ∀ s : State,
    let st := s.rd Fd.CTL_POWER_STATUS_State
    (s.hostWrites = true → ∀ w, w % 2 ^ 32 = 1 → st = 0 ∨ st = 3 →
      (s.mayDormant = true → exec (.dormantRequest w) s = .next ((s.begin_.wr Fd.CTL_POWER_Req 1).wr Fd.CTL_POWER_STATUS_State 1)) ∧
      (s.mayDormant = false → exec (.dormantRequest w) s = .next (s.begin_.badWrite .ctl 0))) ∧
    (s.hostWrites = true → ∀ w, w % 2 ^ 32 = 0 → st = 1 ∨ st = 2 →
      exec (.dormantRequest w) s = .next ((s.begin_.wr Fd.CTL_POWER_Req 0).wr Fd.CTL_POWER_STATUS_State 3)) ∧
    (s.hostWrites = true → ∀ w, 1 < w % 2 ^ 32 → exec (.dormantRequest w) s = .next (s.begin_.badWrite .ctl 0)) ∧
    (st = 1 → ∃ t, exec .dormantEntered s = .next t ∧ t.rd Fd.CTL_POWER_STATUS_State = 2 ∧ t.pow = { s.pow with domains := s.lowDomains false } ∧
      (∀ b, b < 16 → t.rd Fd.BEN_STATUS_Gated b = 1) ∧ t.gaf = s.gaf ∧ t.spad = s.spad ∧ t.lpddr = s.lpddr) ∧
    (st = 3 → ∃ t, exec .activeReached s = .next t ∧ t.rd Fd.CTL_POWER_STATUS_State = 0 ∧
      s.wordsKept t ([Fd.CTL_POWER_STATUS_State.addr 0 0] ++ ((List.range 16).map fun b => Fd.BEN_STATUS_Gated.addr b 0)) ∧
      (∀ b, b < 16 → t.rd Fd.BEN_STATUS_Gated b = if b ∈ s.dmp.gated ∨ s.rd Fd.BEN_PAGE_CTL_Enable b = 0 then 1 else 0) ∧
      ∀ n, n ∈ t.pow.domains ↔ n < 80 ∧ ¬(n < 64 ∧ n % 4 < 2 ∧ (n / 4 ∈ s.dmp.gated ∨ s.rd Fd.BEN_PAGE_CTL_Enable (n / 4) = 0))) ∧
    (s.hostUp = true → s.failStopped = false → st = 2 →
      ∃ t, exec .d3hotEnter s = .next t ∧ t.rd Fd.CTL_POWER_STATUS_State = 4 ∧
        t.pow = { s.pow with domains := s.lowDomains true, d3Wait := false } ∧ (∀ b, b < 16 → t.rd Fd.BEN_STATUS_Gated b = 1) ∧
        s.wordsKept t ([Fd.CTL_POWER_STATUS_State.addr 0 0] ++ ((List.range 16).map fun b => Fd.BEN_STATUS_Gated.addr b 0)) ∧
        t.gaf = s.gaf ∧ t.spad = s.spad ∧ t.lpddr = s.lpddr) ∧
    (st = 4 →
      ∃ t, exec .d0Return s = .next t ∧ t.rd Fd.CTL_POWER_STATUS_State = 2 ∧ t.pow = { s.pow with domains := s.lowDomains false } ∧
        (∀ b, b < 16 → t.rd Fd.BEN_STATUS_Gated b = 1) ∧
        s.wordsKept t ([Fd.CTL_POWER_STATUS_State.addr 0 0] ++ ((List.range 16).map fun b => Fd.BEN_STATUS_Gated.addr b 0)) ∧
        t.gaf = s.gaf ∧ t.spad = s.spad ∧ t.lpddr = s.lpddr)

/-- O27. Power-on and a loss of power clear everything but fuses, flash and host memory. 18_host_resets_log.md; 20_package_boot.md;
19_presence_tally.md; notes/assumptions/1.md; notes/assumptions/5.md; notes/assumptions/70.md; notes/assumptions/22.md. After
POWER_ON, POWER_LOSS, or RAIL_FAULT of another rail on a started device, every register word but the XMC_MAPOUT words reads its
reset value (where the spec gives none, the value of log entry 1), Recorded of every site is kept, the scratchpad, LPDDR, streams,
images, the log and the tally's totals are empty, host memory stands, and boot count, minimum SVN, key generation, firmware slots
and seal openings stand. The device is powered after POWER_ON only, with PERST_N asserted and row 1 next. That the memories then
read as unwritten bytes is log entries 5 and 70's, and that Recorded survives power log entry 22's. -/
def Obligations.PowerClearsEverything : Prop :=
  ∀ (s : State) (c : Instr), c = .powerOn ∨ c = .powerLoss ∨ (∃ r, c = .railFault (.other r) ∧ s.started = true) →
    ∃ t, exec c s = .next t ∧
      (∀ a, (∀ i, i < 16 → a ≠ Fd.XMC_MAPOUT_Recorded.addr i 0) → t.word a = resetWord a) ∧
      (∀ i, i < 16 → t.rd Fd.XMC_MAPOUT_Recorded i = s.rd Fd.XMC_MAPOUT_Recorded i) ∧
      t.spad = [] ∧ t.lpddr = [] ∧ t.host = s.host ∧ t.gaf.streams = [] ∧ t.gaf.images = [] ∧ t.log.entries = [] ∧ t.tly.totals = [] ∧
      t.sec.bootCount = s.sec.bootCount ∧ t.sec.minSvn = s.sec.minSvn ∧ t.sec.idGen = s.sec.idGen ∧ t.sec.slots = s.sec.slots ∧
      t.tly.opens = s.tly.opens ∧ t.pow.powered = decide (c = .powerOn) ∧ t.pow.perst = true ∧ t.pow.row = 1

/-- O28. A cold reset asserts PERST_N and clears the device. 18_host_resets_log.md; 19_presence_tally.md; notes/assumptions/5.md;
notes/assumptions/70.md. COLD_RESET of a powered device loses the streams, the images, the scratchpad, LPDDR, transfers in flight,
links, audio ports and failover records, stops the counter at 0, closes debug, clears measurements M0 to M5 and M7, records cause 1,
and waits at row 1 with PERST_N asserted; host memory, the boot count, the firmware slots, the tally's totals and the seal openings
stand. That LPDDR is then as unwritten is log entries 5 and 70's. -/
def Obligations.ColdResetClears : Prop :=
  ∀ s : State, s.pow.powered = true →
    ∃ t, exec .coldReset s = .next t ∧ t.gaf = {} ∧ t.spad = [] ∧ t.lpddr = [] ∧ t.builtIns = [] ∧ t.flights = [] ∧ t.lnk = {} ∧
      t.apt = List.replicate 16 {} ∧ t.fo = {} ∧ t.clk = {} ∧ t.host = s.host ∧ t.sec.slots = s.sec.slots ∧
      t.sec.bootCount = s.sec.bootCount ∧ t.tly.totals = s.tly.totals ∧ t.tly.opens = s.tly.opens ∧ t.tly.start = 0 ∧
      (∀ k, k < 8 → k ≠ 6 → t.sec.measures.getD k [] = []) ∧ t.rd Fd.CTL_RESET_CAUSE_Last = 1 ∧
      t.pow.powered = true ∧ t.pow.perst = true ∧ t.pow.row = 1 ∧ t.pow.stopped = false

/-- O29. A soft or hot reset waits for the barrier, then clears the streams. 18_host_resets_log.md; 17_failover.md. SOFT_RESET with
its key and Soft 1 while BAR0 writes are taken, and HOT_RESET of a started device that is not in fail-stop, wait at the running
operation's barrier when one runs; a hot reset that already waits stays the one that follows. Otherwise they run at once: no stream,
image, route table, running operation or owed pass is left, every region that was allocated is sealed, every audio port that was not
stopped is stopping, the parison is idle with nothing staged and Code ABANDONED_RESET where it was not idle, the event counters are
empty, the system counter, host memory and the scratchpad stand, and the cause is 3 or 2. -/
def Obligations.SoftAndHotReset : Prop :=
  ∀ (s : State) (c : Instr) (kind : Nat),
    ((∃ w, c = .softReset w ∧ w % 2 ^ 32 = 0xC3D20001 ∧ w < 2 ^ 32) ∧ kind = 3 ∧ s.hostWrites = true) ∨
      (c = .hotReset ∧ kind = 2 ∧ s.started = true ∧ s.failStopped = false) →
    (s.gaf.running ≠ none → exec c s = .next { s.begin_ with pow := { s.pow with resetWait := if s.pow.resetWait = 2 then 2 else kind } }) ∧
    (s.gaf.running = none → s.pow.d3Wait = false →
      ∃ t, exec c s = .next t ∧ t = s.begin_.resetCore kind ∧ t.gaf.table = false ∧ t.gaf.running = none ∧ t.gaf.passes = [] ∧
        t.evt = [] ∧ t.pow.resetWait = 0 ∧ t.clk = s.clk ∧ t.host = s.host ∧ t.spad = s.spad ∧
        t.rd Fd.CTL_RESET_CAUSE_Last = kind ∧ t.gaf.streams = [] ∧ t.gaf.images = [] ∧ (∀ r, r ∈ t.regions → r.shut = true) ∧
        t.regions.map (fun r => (r.image, r.entry, r.start, r.rows)) = s.regions.map (fun r => (r.image, r.entry, r.start, r.rows)) ∧
        (∀ p, p < 16 → t.rd Fd.APT_STATUS_State p = if s.rd Fd.APT_STATUS_State p = 0 then 0 else 3) ∧
        t.parState = 0 ∧ t.par = {} ∧ t.rd Fd.CTL_COMMIT_STATUS_Code = if s.parState = 0 then 0 else 0x0E)

/-- O30. A reset with a wrong key or in fail-stop does nothing. 18_host_resets_log.md; 17_failover.md. While BAR0 writes are taken,
a SOFT_RESET or BENCH_RESET without Key 0xC3D2 is dropped with BadWrite set, and so is a BENCH_RESET while GAF Enable is 1 or an
operation runs. A HOT_RESET in fail-stop changes nothing. -/
def Obligations.ResetsTurnedAway : Prop :=
  ∀ s : State,
    (s.hostWrites = true → ∀ w, slice w 16 16 ≠ 0xC3D2 →
      exec (.softReset w) s = .next (s.begin_.badWrite .ctl 0) ∧ exec (.benchReset w) s = .next (s.begin_.badWrite .ctl 0)) ∧
    (s.hostWrites = true → s.rd Fd.GAF_PAGE_CTL_Enable = 1 ∨ s.gaf.running ≠ none → ∀ w,
      exec (.benchReset w) s = .next (s.begin_.badWrite .ctl 0)) ∧
    (s.failStopped = true → exec .hotReset s = .next s.begin_)

/-- O31. A bench reset clears B and L fields of its benches and nothing else. 18_host_resets_log.md; 02_register_pages.md. A
BENCH_RESET that is taken clears the fields of class B or L in the register pages of the masked benches (but BEN_STATUS.Gated, which
shows the state of the array domain) and the masked benches' event counts, logs Code 4 with the mask, and keeps the scratchpad,
every stream, and every register word outside those benches' pages but CTL_RESET_CAUSE and LOG_LOST, where BEN_STATUS.Gated agreed
with the domains before. -/
def Obligations.BenchResetKeepsSlices : Prop :=
  ∀ (s : State) (w : Nat), s.hostWrites = true → slice w 16 16 = 0xC3D2 → s.rd Fd.GAF_PAGE_CTL_Enable = 0 → s.gaf.running = none →
    ∃ t, exec (.benchReset w) s = .next t ∧ t.rd Fd.CTL_RESET_CAUSE_Last = 4 ∧ t.spad = s.spad ∧ t.gaf = s.gaf ∧
      (∀ e, e ∈ t.evt ↔ e ∈ s.evt ∧ ¬(e.1 / 32 < 16 ∧ bitAt w (e.1 / 32) = true)) ∧
      (∀ a k i, pageOf a = some (k, i) → (∀ b, k.bench i = some b → bitAt w b = false) →
        a ≠ Fd.CTL_RESET_CAUSE_Last.addr 0 0 → a ≠ lostWord →
        (∀ b, b < 16 → a = Fd.BEN_STATUS_Gated.addr b 0 → s.rd Fd.BEN_STATUS_Gated b = b2n (!s.pow.domains.contains (4 * b))) →
        t.word a = s.word a) ∧
      (∀ b, b < 16 → t.rd Fd.BEN_STATUS_Gated b = b2n (!s.pow.domains.contains (4 * b))) ∧
      (∀ (k : PageKind) (f : Field) (i b : Nat), f ∈ k.fields → i < k.count → k.bench i = some b → bitAt w b = true → f.off ≠ 0 → f.off ≠ 8 →
        (f.cls = .b ∨ f.cls = .l) → f ≠ Fd.BEN_STATUS_Gated → ∀ x : Nat, x < Nat.max 1 f.count → t.rdAt f i x = f.reset)

/-- O32. A job kill of a loaded image asks for IDLE; of another it does nothing. 18_host_resets_log.md. While BAR0 writes are taken,
a JOB_KILL with Go of an image that is not loaded, or without Go, changes nothing, and one with a reserved bit set is dropped with
BadWrite. Of a loaded image it logs Code 5, sets Busy and Image of CTL_JOBKILL_STATUS, returns a CHECKED or ARMED parison that
stages an entry of the image to OPEN with CONFLICT naming the lowest entry, asks IDLE of every stream of the image, and lets the
boundary settle them. -/
def Obligations.JobKillStarts : Prop :=
  ∀ (s : State) (w : Nat), s.hostWrites = true →
    (slice w 8 23 ≠ 0 → exec (.jobKill w) s = .next (s.begin_.badWrite .ctl 0)) ∧
    (slice w 8 23 = 0 → bitAt w 31 = false ∨ s.image (slice w 0 8) = none → exec (.jobKill w) s = .next s.begin_) ∧
    (slice w 8 23 = 0 → bitAt w 31 = true → s.image (slice w 0 8) ≠ none →
      ∃ u t : State, exec (.jobKill w) s = .next t ∧ t = u.settleWatch ∧ u.rd Fd.CTL_JOBKILL_STATUS_Busy = 1 ∧
        u.rd Fd.CTL_JOBKILL_STATUS_Image = slice w 0 8 ∧
        (∀ e x, u.stream e = some x → x.image = slice w 0 8 → x.idleReq = true) ∧
        (∀ e, 2 ≤ s.rd Fd.CTL_COMMIT_STATUS_State → s.begin_.stagedNaming (slice w 0 8) = some e →
          u.rd Fd.CTL_COMMIT_STATUS_State = 1 ∧ u.rd Fd.CTL_COMMIT_STATUS_Code = 5 ∧ u.rd Fd.CTL_COMMIT_WHERE_Kind = 2 ∧
            u.rd Fd.CTL_COMMIT_WHERE_Where = e % 2 ^ 24 ∧ u.rd Fd.CTL_COMMIT_AUX_Entry = 0) ∧
        ∃ l, u.log.entries.getLast? = some l ∧ l.pageType = PageKind.ctl.pageType ∧ l.kind = 4 ∧ l.inst = 0 ∧ l.code = 5 ∧ l.d1 = 0 ∧
          ((∀ x, s.log.entries.getLast? = some x → x.code ≠ 5) → l.d0 = slice w 0 8 ∧ l.d2 = 0 ∧ l.time = s.now))

/-- O33. The end of a scrub frees the region; the last one zeroes the image's pages. 10_scratchpad.md; 18_host_resets_log.md;
notes/assumptions/18.md. While the device works and Hold is 0, SCRUB_COMPLETE of a sealed region of an image zeroes its rows and
frees its descriptor; of one that is not there it leaves regions and scratchpad. While another region of the image is still sealed,
the pending scrub, LPDDR and Busy stand; with the last one the image's pool pages in LPDDR are zeroed (where every site is enabled),
its pending scrub is dropped, and Busy of a job kill of that image is cleared, unless the image is still loaded with its kill
waiting. While Hold is 1 it changes nothing. That one SCRUB_COMPLETE ends one region, and that the pages are zeroed with the last,
is log entry 18's. -/
def Obligations.ScrubEnds : Prop :=
  ∀ (s : State) (image region : Nat), s.working = true →
    (s.rd Fd.SPD_SCRUB_Hold = 1 → exec (.scrubComplete image region) s = .next s.begin_) ∧
    (s.rd Fd.SPD_SCRUB_Hold ≠ 1 →
      ∃ t, exec (.scrubComplete image region) s = .next t ∧
        (∀ r, (s.regions.find? fun r => r.image == image && r.entry == region && r.shut) = some r →
          t.regions = s.regions.erase r ∧
          ∀ a, r.start ≤ a → a < r.start + r.rows * 2 ^ 17 → sparseGet State.zeroByte t.spad a = 0) ∧
        ((s.regions.find? fun r => r.image == image && r.entry == region && r.shut) = none → t.regions = s.regions ∧ t.spad = s.spad) ∧
        ((∃ r, r ∈ t.regions ∧ r.image = image ∧ r.shut = true) →
          t.scrubs = s.scrubs ∧ t.lpddr = s.lpddr ∧ t.rd Fd.CTL_JOBKILL_STATUS_Busy = s.rd Fd.CTL_JOBKILL_STATUS_Busy) ∧
        ((∀ r, r ∈ t.regions → r.image = image → r.shut = false) →
          t.scrubs = s.scrubs.filter (fun x => x.1 != image) ∧
          (s.rd Fd.CTL_JOBKILL_STATUS_Image = image → t.rd Fd.CTL_JOBKILL_STATUS_Busy =
            if ∃ m, m ∈ s.gaf.images ∧ m.id = image ∧ m.killed = true then s.rd Fd.CTL_JOBKILL_STATUS_Busy else 0) ∧
          (s.anyDark = false → ∀ x p o, x ∈ s.scrubs → x.1 = image → p ∈ x.2 → s.inLpddr p.1 p.2 = true → p.1 - State.lpBase ≤ o → o < p.1 - State.lpBase + p.2 →
            sparseGet State.zeroByte t.lpddr o = 0)))

/-- O34. A register write that is taken sets each field by its access class. 02_register_pages.md. While BAR0 writes are taken,
REGISTER_WRITE of an aligned 32-bit word of a mapped page, whose write is no command of its own, that carries no reserved bit, no
reserved encoding and reaches no SR field, writes the RW fields, clears the bits of RW1C fields that it writes 1, leaves every RO
and ST field, and keeps every other register word but LOG_LOST. -/
def Obligations.RegisterWriteTaken : Prop :=
  ∀ (s : State) (a w : Nat) (k : PageKind) (i : Nat), s.hostWrites = true → bar0Page a = some (k, i) → a % 4 = 0 → a % 0x1000 < 0x800 →
    plainWord k (a % 0x1000) = true → w < 2 ^ 32 → k.wordFields i (a % 0x1000) ≠ [] →
    badValue (k.wordFields i (a % 0x1000)) i w = false → (∀ f, f ∈ k.wordFields i (a % 0x1000) → f.acc ≠ .sr) →
    ∃ t, exec (.registerWrite a 4 w) s = .next t ∧
      (∀ f, f ∈ k.wordFields i (a % 0x1000) →
        slice (t.word (k.base + 0x1000 * i + a % 0x1000)).toNat f.lsb f.width =
          writtenField f (s.word (k.base + 0x1000 * i + a % 0x1000)).toNat w) ∧
      s.wordsKept t [k.base + 0x1000 * i + a % 0x1000, lostWord]

/-- O35. A register write that R34 or R35 drops only sets BadWrite. 02_register_pages.md; 17_failover.md; 20_package_boot.md;
notes/assumptions/87.md; notes/assumptions/96.md. While the function answers, a REGISTER_WRITE that is misaligned, narrower than 32
bits, carries a reserved bit or a reserved encoding, reaches an SR field or a reserved offset of a mapped page, or comes in
fail-stop (but to PAGE_ERR) or after a stopped start-up, sets BadWrite of the page and nothing else. A write of an offset that no
page maps, and any write while the function does not answer, does nothing. An aligned 64-bit write is its two words in ascending
order. What counts as a reserved bit where 02 leaves it to an owning chapter is log entry 87's, and that a stopped start-up drops
writes as a fail-stop does, log entry 96's. -/
def Obligations.RegisterWriteDropped : Prop :=
  ∀ (s : State) (a w : Nat),
    (s.hostUp = false → ∀ n, exec (.registerWrite a n w) s = .next s.begin_) ∧
    (s.hostUp = true →
      (bar0Page a = none → ∀ n, n ≠ 8 → exec (.registerWrite a n w) s = .next s.begin_) ∧
      (a % 8 = 0 → exec (.registerWrite a 8 w) s = .next ((s.begin_.writeWord a (w % 2 ^ 32)).writeWord (a + 4) (w / 2 ^ 32))) ∧
      (∀ k i, bar0Page a = some (k, i) →
        (∀ n, ¬(n = 4 ∧ a % 4 = 0) → ¬(n = 8 ∧ a % 8 = 0) → exec (.registerWrite a n w) s = .next (s.begin_.badWrite k i)) ∧
        (a % 4 = 0 → s.writesShut = true → a % 0x1000 ≠ 0x10 → exec (.registerWrite a 4 w) s = .next (s.begin_.badWrite k i)) ∧
        (a % 4 = 0 → s.writesShut = false → a % 0x1000 < 0x800 →
          (k.wordFields i (a % 0x1000) = [] ∨ badValue (k.wordFields i (a % 0x1000)) i (w % 2 ^ 32) = true ∨
            ∃ f, f ∈ k.wordFields i (a % 0x1000) ∧ f.acc = .sr) →
          exec (.registerWrite a 4 w) s = .next (s.begin_.badWrite k i))))

/-- O36. PAGE_CTL.Enable exists only on the pages that define it. R472. The Enable bit of PAGE_CTL is a field of exactly the nine
page kinds GAF, BEN, GTH, XMC, LNK, PKT, APT, PNT and DMP. On the pages CTL, SEC, LOG, CNT, TLY, EVT (device and bench), COR and SPD
bit 0 of PAGE_CTL reads 0, and a write that sets it is dropped with BadWrite. -/
def Obligations.EnableOnlyWhereDefined : Prop :=
  ∀ k : PageKind,
    ((∃ f, f ∈ k.fields ∧ f.off = 0xC ∧ f.lsb = 0) ↔ k ∈ [PageKind.gaf, .ben, .gth, .xmc, .lnk, .pkt, .apt, .pnt, .dmp]) ∧
    (k ∈ [PageKind.ctl, .sec, .log, .cnt, .tly, .evtDev, .evtB, .cor, .spd] → ∀ (s : State) (i : Nat), i < k.count →
      (s.readWord (bar0Of (k.base + 0x1000 * i + 0xC))).1 % 2 = 0 ∧
      (s.hostWrites = true → ∀ w, w % 2 = 1 →
        exec (.registerWrite (bar0Of (k.base + 0x1000 * i + 0xC)) 4 w) s = .next (s.begin_.badWrite k i)))

/-- O37. A shadow write stages its fields and opens the parison. 02_register_pages.md. While BAR0 writes are taken, SHADOW_WRITE of
an aligned word in the staged half of a mapped page, other than the staged route entry: where the live word has no ST field, the
parison is ARMED or Busy, or the value is reserved, it sets BadWrite and nothing else. Otherwise the shadow of every ST field takes
the value, the parison is OPEN, and every other register word stands but CTL_COMMIT_STATUS: the codebook slots that a CHECKED
parison claimed stay claimed (R121). -/
def Obligations.ShadowWrites : Prop :=
  ∀ (s : State) (a w : Nat) (k : PageKind) (i : Nat), s.hostWrites = true → bar0Page a = some (k, i) → a % 4 = 0 → 0x800 ≤ a % 0x1000 →
    a % 0x1000 < 0xF00 → w < 2 ^ 32 → ¬(k = .lnk ∧ a % 0x1000 = 0x90C) →
    let p := k.base + 0x1000 * i + (a % 0x1000 - 0x700)
    (stFields p = [] ∨ s.stageShut = true ∨ badValue (stFields p) i w = true →
      exec (.shadowWrite a w) s = .next (s.begin_.badWrite k i)) ∧
    (stFields p ≠ [] → s.stageShut = false → badValue (stFields p) i w = false →
      ∃ t, exec (.shadowWrite a w) s = .next t ∧ t.parState = 1 ∧
        (∀ f, f ∈ stFields p → slice (t.word (p + 0x700)).toNat f.lsb f.width = slice w f.lsb f.width) ∧
        (∀ b, b ≠ p + 0x700 → b ≠ Fd.CTL_COMMIT_STATUS_State.addr 0 0 → t.word b = s.word b) ∧
        (s.parState = 2 → t.par.loads = []))

/-- O38. StageRevert gives every shadow of a page its live copy. 02_register_pages.md; 19_presence_tally.md. While BAR0 writes are
taken, STAGE_REVERT of a mapped page is dropped with BadWrite while the parison is ARMED or Busy, and so is one of the TLY page,
whose StageRevert is SR; otherwise every staged field of the page reads as its live copy, the live words stand but
CTL_COMMIT_STATUS, and the parison is OPEN. -/
def Obligations.StageReverts : Prop :=
  ∀ (s : State) (page : Nat) (k : PageKind) (i : Nat), s.hostWrites = true → bar0Page (page * 0x1000) = some (k, i) →
    (s.stageShut = true ∨ k = .tly → exec (.stageRevert page) s = .next (s.begin_.badWrite k i)) ∧
    (s.stageShut = false → k ≠ .tly →
      ∃ t, exec (.stageRevert page) s = .next t ∧ t.parState = 1 ∧
        (∀ o f, o < 0x800 → f ∈ stFields (k.base + 0x1000 * i + o) →
          slice (t.word (k.base + 0x1000 * i + o + 0x700)).toNat f.lsb f.width = slice (s.word (k.base + 0x1000 * i + o)).toNat f.lsb f.width) ∧
        (∀ b, b % 0x1000 < 0x800 → b ≠ Fd.CTL_COMMIT_STATUS_State.addr 0 0 → t.word b = s.word b))

/-- O39. Codebook words, the log cursor, event counters and consumption counts. 04_numerics.md; 18_host_resets_log.md. While BAR0
writes are taken: CODEBOOK_WRITE of a slot that is referenced or claimed, or with the value -128 in an entry, is dropped with
BadWrite, and otherwise the word takes the value; LOG_RD_SEQ_WRITE sets the cursor; EVT_CLEAR clears every event counter;
EVT_CNT_LO_READ answers the low 32 bits of a counter and latches the rest; CONS_WRITE of a ring takes the 64-bit count whose low
half ConsLo holds. Each keeps every other register word. -/
def Obligations.HostCountersAndCursors : Prop :=
  ∀ s : State, s.hostWrites = true →
    (∀ n v, n < 128 → v < 2 ^ 32 →
      (s.codebookShut (0x400 + 4 * n) = true → exec (.codebookWrite n v) s = .next (s.begin_.badWrite .gaf 0)) ∧
      ((∃ j, j < 4 ∧ slice v (8 * j) 8 = 0x80) → exec (.codebookWrite n v) s = .next (s.begin_.badWrite .gaf 0)) ∧
      (s.codebookShut (0x400 + 4 * n) = false → (∀ j, j < 4 → slice v (8 * j) 8 ≠ 0x80) →
        ∃ t, exec (.codebookWrite n v) s = .next t ∧ (t.word (Fd.GAF_CB_TABLE_Entry0.addr 0 0 + 4 * n)).toNat = v ∧
          s.wordsKept t [Fd.GAF_CB_TABLE_Entry0.addr 0 0 + 4 * n])) ∧
    (∀ v, ∃ t, exec (.logRdSeqWrite v) s = .next t ∧ t.rd Fd.LOG_RD_SEQ = v % 2 ^ 32 ∧ s.wordsKept t [Fd.LOG_RD_SEQ.addr 0 0]) ∧
    exec .evtClear s = .next { s.begin_ with evt := [] } ∧
    (∀ b n, b < 16 → n < 8 →
      let v := (tabGet s.evt (32 * b + n)).getD 0
      ∃ t, exec (.evtCntLoRead b (0x200 + 8 * n) 4) s = .next t ∧ t.out = [.bar0 (v % 2 ^ 32)] ∧ t.rdAt Fd.EVT_CNT_HI_ben b n = v / 2 ^ 32 % 2 ^ 16 ∧
        t.evt = s.evt ∧ s.wordsKept t [Fd.EVT_CNT_HI_ben.addr b n]) ∧
    (∀ r v, r < 16 →
      ∃ t, exec (.consWrite r v) s = .next t ∧
        t.rings = listMod s.rings r (fun c => { c with cons := s.rdAt Fd.CTL_RING_ConsLo 0 r + 2 ^ 32 * (v % 2 ^ 32) }) ∧
        t.rdAt Fd.CTL_RING_ConsHi 0 r = v % 2 ^ 32 ∧ s.wordsKept t [Fd.CTL_RING_ConsHi.addr 0 r])

/-- O40. A repeated event counts in the newest entry. R433. An event whose page type, instance, kind, code and D1 equal those of the
newest log entry, within 1 ms of that entry's time and before the entry is mirrored, adds one to that entry's Repeat, up to 255, and
writes no entry; the rest of the state stands. -/
def Obligations.LogRepeats : Prop :=
  ∀ (s : State) (l : LogEntry) (d0 d2 : Nat), s.log.entries.getLast? = some l → s.now ≤ l.time + 1000000 → l.time ≤ s.now + 1000000 →
    s.log.mirror ≤ l.seq →
    s.logAdd l.pageType l.kind l.inst l.code d0 l.d1 d2 =
      { s with log := { s.log with entries := s.log.entries.dropLast ++ [{ l with rep := Nat.min 255 (l.rep + 1) }] } }

/-- O41. LOG_MIRROR writes the oldest entry not yet mirrored into the log ring. 18_host_resets_log.md. While the log ring is enabled
and the function answers outside fail-stop, LOG_MIRROR with one entry not yet mirrored and room for 32 bytes writes the entry's
bytes at Prod in the ring and the new Prod at the write-back address, where the two do not meet, and marks the entry mirrored; with
the ring disabled it changes nothing. -/
def Obligations.LogMirrorWrites : Prop :=
  ∀ (s : State) (es : List LogEntry) (e : LogEntry),
    (s.rd Fd.LOG_RING_CFG_Enable = 0 → exec .logMirror s = .next s.begin_) ∧
    (s.rd Fd.LOG_RING_CFG_Enable ≠ 0 → s.pow.busMaster = true → s.failStopped = false → s.hostUp = true → s.log.entries = es ++ [e] →
      (∀ x, x ∈ es → x.seq < s.log.mirror) → s.log.mirror ≤ e.seq → 32 ≤ s.logRing.room (2 ^ s.rd Fd.LOG_RING_CFG_SizeLog2) →
      let at_ := s.base Fd.LOG_RING_BASE_LO Fd.LOG_RING_BASE_HI + s.logRing.prod % 2 ^ s.rd Fd.LOG_RING_CFG_SizeLog2
      let wb := s.base Fd.LOG_RING_WB_LO Fd.LOG_RING_WB_HI
      ∃ t, exec .logMirror s = .next t ∧ t.logRing = { s.logRing with prod := s.logRing.prod + 32 } ∧
        t.log = { s.log with mirror := e.seq + 1 } ∧ State.getBytes t.host wb 8 = leBytes 8 (s.logRing.prod + 32) ∧
        (wb + 8 ≤ at_ ∨ at_ + 32 ≤ wb → State.getBytes t.host at_ 32 = State.logBytes e) ∧
        (∀ a, a < at_ ∨ at_ + 32 ≤ a → a < wb ∨ wb + 8 ≤ a → sparseGet State.zeroByte t.host a = sparseGet State.zeroByte s.host a) ∧
        t.regs = s.regs)

/-- O42. BAR2 accesses reach the stream table, the aperture and the debug window. 18_host_resets_log.md; 03_streams_and_sweeps.md;
10_scratchpad.md; notes/assumptions/5.md; notes/assumptions/85.md. While BAR0 writes are taken, for an access within one 64-byte
block: BAR2_STREAM_WRITE to the live half of the table in force sets LiveWrite and nothing else, and with no table in force sets
Unmapped of CTL and nothing else, and so does an access in the reserved range; one to the shadow half puts an entry on the staged
list and opens the parison, and sets ShadowWrite and nothing else while the parison is ARMED or Busy. BAR2_APERTURE_ACCESS within
the LPDDR capacity at an enabled site reads the bytes where none is uncorrectable, and, outside the stream table, stores those of a
write and no other, but sets LiveWrite and nothing else where a loaded image lies and stores nothing there; beyond the capacity it
reads zeros and drops, with Unmapped. BAR2_DEBUG_ACCESS outside a presence window reads zeros and drops, with DebugClosed of SPD;
inside it, with the banks not partitioned, a write of whole words to bytes that are in no sealed region and no uncorrectable word
stores them. That unmapped accesses show in the CTL page and that one outside one block is dropped or reads zero are log entry 85's.
-/
def Obligations.Bar2Accesses : Prop :=
  ∀ (s : State) (off : Nat) (bs : List Byte), s.hostWrites = true →
    (0x200000 ≤ off → off < 0x1000000 → exec (.bar2StreamWrite off bs) s = .next (s.begin_.unmappedErr .ctl 0)) ∧
    (State.bar2Fits off bs.length = false →
      (off < 0x200000 → exec (.bar2StreamWrite off bs) s = .next s.begin_) ∧
      (0x1000000 ≤ off → off < 0xF000000 →
        exec (.bar2ApertureAccess off bs.length (some bs)) s = .next s.begin_ ∧
        exec (.bar2ApertureAccess off bs.length none) s = .next (s.begin_.put (.bar2 (List.replicate bs.length 0) false)))) ∧
    (0xF000000 ≤ off → off < 0x10000000 → s.windowOpen = false →
      exec (.bar2DebugAccess off bs.length (some bs)) s = .next (s.begin_.setErr Fd.SPD_PAGE_ERR_DebugClosed) ∧
      exec (.bar2DebugAccess off bs.length none) s =
        .next ((s.begin_.setErr Fd.SPD_PAGE_ERR_DebugClosed).put (.bar2 (List.replicate bs.length 0) false))) ∧
    (State.bar2Fits off bs.length = true →
    (off < 0x200000 → s.gaf.table = false → exec (.bar2StreamWrite off bs) s = .next (s.begin_.unmappedErr .ctl 0)) ∧
    (s.gaf.table = true → State.lpBase ≤ s.tableBase → s.tableBase + 0x200000 ≤ State.lpBase + s.lpSize → s.anyDark = false →
      (off < 0x100000 → exec (.bar2StreamWrite off bs) s = .next (s.begin_.setErr Fd.GAF_PAGE_ERR_LiveWrite)) ∧
      (0x100000 ≤ off → off < 0x200000 → s.stageShut = true →
        exec (.bar2StreamWrite off bs) s = .next (s.begin_.setErr Fd.GAF_PAGE_ERR_ShadowWrite)) ∧
      (0x100000 ≤ off → off < 0x200000 → s.stageShut = false →
        ∃ t, exec (.bar2StreamWrite off bs) s = .next t ∧ t.parState = 1 ∧ (off - 0x100000) / 256 ∈ t.par.staged)) ∧
    (0x1000000 ≤ off → off < 0xF000000 → s.lpSize ≤ s.rd Fd.CTL_BAR2_APER_Base * 2 ^ 24 + (off - 0x1000000) →
      exec (.bar2ApertureAccess off bs.length (some bs)) s = .next (s.begin_.unmappedErr .ctl 0) ∧
      exec (.bar2ApertureAccess off bs.length none) s =
        .next ((s.begin_.unmappedErr .ctl 0).put (.bar2 (List.replicate bs.length 0) false))) ∧
    (0x1000000 ≤ off → off < 0xF000000 →
      let o := s.rd Fd.CTL_BAR2_APER_Base * 2 ^ 24 + (off - 0x1000000)
      o + bs.length ≤ s.lpSize → s.siteOff o = false →
      (s.gaf.table = false ∨ State.touches (State.lpBase + o) bs.length s.tableBase 0x200000 = false →
        (s.imageHolds (State.lpBase + o) bs.length = true →
          exec (.bar2ApertureAccess off bs.length (some bs)) s = .next (s.begin_.setErr Fd.GAF_PAGE_ERR_LiveWrite)) ∧
        (s.imageHolds (State.lpBase + o) bs.length = false → s.sessionHolds (State.lpBase + o) bs.length = none →
          ∃ t, exec (.bar2ApertureAccess off bs.length (some bs)) s = .next t ∧ t.lpBytes o bs.length = bs ∧
            ∀ x, x < o ∨ o + bs.length ≤ x → sparseGet State.zeroByte t.lpddr x = sparseGet State.zeroByte s.lpddr x)) ∧
      (s.lpBadIn o bs.length = [] →
        ∃ t, exec (.bar2ApertureAccess off bs.length none) s = .next t ∧ t.out = [.bar2 (s.lpBytes o bs.length) false] ∧
          t.lpddr = s.lpddr)) ∧
    (0xF000000 ≤ off → off < 0x10000000 → s.windowOpen = true →
      let a := s.rd Fd.SPD_DBG_BASE_LO + 2 ^ 32 * s.rd Fd.SPD_DBG_BASE_HI + (off - 0xF000000)
      a + bs.length ≤ State.spadSize → s.inSealed a bs.length = false → s.rd Fd.SPD_MODE_Partitioned = 0 → s.spadBadIn a bs.length = [] → a % 4 = 0 → bs.length % 4 = 0 →
      ∃ t, exec (.bar2DebugAccess off bs.length (some bs)) s = .next t ∧ t.spadBytes a bs.length = bs ∧
        ∀ b, b < a ∨ a + bs.length ≤ b → sparseGet State.zeroByte t.spad b = sparseGet State.zeroByte s.spad b))

/-- O43. CHECK, APPLY and ABANDON follow the table of parison states. 02_register_pages.md. While BAR0 writes are taken and Busy is
0: CHECK in IDLE gives Code OK, in ARMED NOT_CHECKED, and in OPEN or CHECKED sets Busy; APPLY outside CHECKED gives NOT_CHECKED, and
in CHECKED with When 0 gives TIME_PAST for a time less than 2 us ahead, TIME_FAR for one more than 60 s ahead, and otherwise arms
with the time; ABANDON in IDLE has no effect, and in another state, before the time of an armed parison, makes it IDLE with Code
ABANDONED and nothing staged. While Busy is 1 each only sets CommitBusy. -/
def Obligations.CommitCommands : Prop :=
  ∀ s : State, s.hostWrites = true →
    (s.rd Fd.CTL_COMMIT_STATUS_Busy = 1 →
      exec .check s = .next (s.begin_.setErr Fd.CTL_PAGE_ERR_CommitBusy) ∧
      exec .abandon s = .next (s.begin_.setErr Fd.CTL_PAGE_ERR_CommitBusy) ∧
      ∀ b, exec (.apply b) s = .next (s.begin_.setErr Fd.CTL_PAGE_ERR_CommitBusy)) ∧
    (s.rd Fd.CTL_COMMIT_STATUS_Busy ≠ 1 →
      (s.parState = 0 → exec .check s = .next (s.begin_.setCode 0)) ∧
      (s.parState = 3 → exec .check s = .next (s.begin_.setCode 1)) ∧
      (s.parState = 1 ∨ s.parState = 2 → exec .check s = .next (s.begin_.wr Fd.CTL_COMMIT_STATUS_Busy 1)) ∧
      (s.parState ≠ 2 → ∀ b, exec (.apply b) s = .next (s.begin_.setCode 1)) ∧
      (s.parState = 2 →
        (s.commitTime < s.now + 2000 → exec (.apply 0) s = .next (s.begin_.setCode 2)) ∧
        (s.now + 60000000000 < s.commitTime → exec (.apply 0) s = .next (s.begin_.setCode 3)) ∧
        (s.now + 2000 ≤ s.commitTime → s.commitTime ≤ s.now + 60000000000 →
          ∃ t, exec (.apply 0) s = .next t ∧ t.parState = 3 ∧ t.rd Fd.CTL_COMMIT_STATUS_Code = 0 ∧ t.par.whenBit = 0 ∧
            t.par.time = s.commitTime ∧ t.par.staged = s.par.staged ∧ s.wordsKept t [Fd.CTL_COMMIT_STATUS_State.addr 0 0])) ∧
      (s.parState = 0 → exec .abandon s = .next s.begin_) ∧
      (s.parState ≠ 0 → s.applyDue = false →
        ∃ t, exec .abandon s = .next t ∧ t.parState = 0 ∧ t.rd Fd.CTL_COMMIT_STATUS_Code = 0x10 ∧ t.par = {} ∧ t.lnk.staged = [] ∧
          t.rd Fd.CTL_COMMIT_SEQ = s.rd Fd.CTL_COMMIT_SEQ))

/-- O44. A CHECK ends in CHECKED, or in OPEN with its first failing test. 02_register_pages.md; 04_numerics.md;
18_host_resets_log.md. CHECK_COMPLETE while a CHECK runs clears Busy, once the gaffer has read the staged entries and the images
that they name. Where no test fails, the parison is CHECKED with Code OK and holds the images that it will load; otherwise it is
OPEN with the Code, the kind, the place and the entry of the failing test, and holds none. On a device without streams, where
nothing but one host ring's size word is staged, a size of 16 to 30 is CHECKED, and another that is staged is OPEN with Code RANGE,
naming that register. While no CHECK runs it changes nothing. -/
def Obligations.CheckEnds : Prop :=
  ∀ s : State,
    (s.rd Fd.CTL_COMMIT_STATUS_Busy = 0 → exec .checkComplete s = .next s.begin_) ∧
    (s.rd Fd.CTL_COMMIT_STATUS_Busy ≠ 0 →
      ∃ t, exec .checkComplete s = .next t ∧ t.rd Fd.CTL_COMMIT_STATUS_Busy = 0 ∧
        (∀ r, (s.begin_.wr Fd.CTL_COMMIT_STATUS_Busy 0).checkReads.checkAll = .error r →
          t.parState = 1 ∧ t.rd Fd.CTL_COMMIT_STATUS_Code = r.code % 2 ^ Fd.CTL_COMMIT_STATUS_Code.width ∧ t.rd Fd.CTL_COMMIT_WHERE_Kind = r.kind % 2 ^ Fd.CTL_COMMIT_WHERE_Kind.width ∧
            t.rd Fd.CTL_COMMIT_WHERE_Where = r.where_ % 2 ^ 24 ∧ t.rd Fd.CTL_COMMIT_AUX_Entry = r.aux % 2 ^ 12 ∧ t.par.loads = [] ∧ t.par.staged = s.par.staged) ∧
        (∀ ms p, (s.begin_.wr Fd.CTL_COMMIT_STATUS_Busy 0).checkReads.checkAll = .ok (ms, p) →
          t.parState = 2 ∧ t.rd Fd.CTL_COMMIT_STATUS_Code = 0 ∧ t.par.loads = ms.map (·.id) ∧ t.par.staged = s.par.staged)) ∧
    (∀ r, r < 16 → s.rd Fd.CTL_COMMIT_STATUS_Busy ≠ 0 → s.stagedWords = [Fd.CTL_RING_SizeLog2.addr 0 r] → s.par.staged = [] →
      s.lnk.staged = [] → s.gaf.streams = [] →
      let size := s.rdSh Fd.CTL_RING_SizeLog2 0 r
      ∃ t, exec .checkComplete s = .next t ∧ t.rd Fd.CTL_COMMIT_STATUS_Busy = 0 ∧ t.par.loads = [] ∧
        (16 ≤ size → size ≤ 30 → t.parState = 2 ∧ t.rd Fd.CTL_COMMIT_STATUS_Code = 0) ∧
        (size ≠ s.rdAt Fd.CTL_RING_SizeLog2 0 r → size < 16 ∨ 30 < size → t.parState = 1 ∧ t.rd Fd.CTL_COMMIT_STATUS_Code = 4 ∧
          t.rd Fd.CTL_COMMIT_WHERE_Kind = 1 ∧ t.rd Fd.CTL_COMMIT_WHERE_Where = Fd.CTL_RING_SizeLog2.addr 0 r ∧ t.rd Fd.CTL_COMMIT_AUX_Entry = 0))

/-- O45. At its instant an armed parison applies, or reopens. 02_register_pages.md; 16_damper.md; 03_streams_and_sweeps.md.
PARISON_APPLICATION while no armed parison is due changes nothing. While one is due whose conditions still hold, it applies: the
parison is IDLE with Code OK, nothing is staged any more, the sequence has counted one and COMMIT_DONE holds the tick of the
application, and the boundary that follows settles streams and chooses. On a device with no stream and no image loaded, with nothing
but words of the CTL, GAF, BEN, GTH, LOG, PNT and DMP pages staged (the stream table's base not among them), it completes with every
ST field of those words at its staged value. One staged entry whose requested state is its live state gives the live entry its host
fields and changes no other byte of LPDDR. Where a condition that is tested again fails, the parison is OPEN with that Code and
nothing has applied. -/
def Obligations.ParisonApplies : Prop :=
  ∀ s : State,
    (s.applyDue = false → exec .parisonApplication s = .next s.begin_) ∧
    (s.applyDue = true → ∀ r, s.begin_.applyFails = some r →
      exec .parisonApplication s = .next (s.begin_.reopen r.code r.kind r.where_).settle.choose) ∧
    (s.applyDue = true → s.begin_.applyFails = none →
      exec .parisonApplication s = .next s.begin_.applyAll.settle.choose ∧ s.begin_.applyAll.parState = 0 ∧
        s.begin_.applyAll.rd Fd.CTL_COMMIT_STATUS_Code = 0 ∧ s.begin_.applyAll.par = {} ∧
        s.begin_.applyAll.rd Fd.CTL_COMMIT_SEQ = (s.rd Fd.CTL_COMMIT_SEQ + 1) % 2 ^ 32 ∧
        s.begin_.applyAll.rd Fd.CTL_COMMIT_DONE_LO = s.applyTick % 2 ^ 32 ∧
        s.begin_.applyAll.rd Fd.CTL_COMMIT_DONE_HI = s.applyTick / 2 ^ 32 % 2 ^ 32) ∧
    (s.applyDue = true → s.begin_.applyFails = none → s.par.staged = [] → s.par.loads = [] → s.lnk.staged = [] →
      s.gaf.streams = [] → s.gaf.images = [] → s.rd Fd.GAF_PAGE_CTL_Enable = 0 →
      (∀ a, a ∈ s.stagedWords → ∃ k i, pageOf a = some (k, i) ∧ k ∈ [PageKind.ctl, .gaf, .ben, .gth, .log, .pnt, .dmp] ∧
        a ≠ Fd.GAF_STREAM_BASE_LO_BaseLo.addr 0 0 ∧ a ≠ Fd.GAF_STREAM_BASE_HI_BaseHi.addr 0 0) →
      ∃ t, exec .parisonApplication s = .next t ∧
        (∀ a f, a ∈ s.stagedWords → f ∈ stFields a →
          slice (t.word a).toNat f.lsb f.width = slice (s.word (a + 0x700)).toNat f.lsb f.width) ∧
        t.parState = 0 ∧ t.rd Fd.CTL_COMMIT_STATUS_Code = 0 ∧ t.par = {} ∧ t.rd Fd.CTL_COMMIT_SEQ = (s.rd Fd.CTL_COMMIT_SEQ + 1) % 2 ^ 32 ∧
        t.rd Fd.CTL_COMMIT_DONE_LO = s.applyTick % 2 ^ 32 ∧ t.rd Fd.CTL_COMMIT_DONE_HI = s.applyTick / 2 ^ 32 % 2 ^ 32) ∧
    (∀ e, e < 4096 → s.applyDue = true → s.begin_.applyFails = none → s.par.staged = [e] → s.stagedWords = [] → s.par.loads = [] →
      s.lnk.staged = [] → State.lpBase ≤ s.tableBase → s.tableBase + 0x200000 ≤ State.lpBase + s.lpSize → s.anyDark = false →
      leAt (s.shadowRaw e) 5 1 = s.entryState e → s.entryState e ≠ 1 →
      s.lpBadIn (s.tableBase + 0x100000 + 256 * e - State.lpBase) 256 = [] →
      let t := s.begin_.applyAll
      (∀ o n, (o, n) ∈ [(0x00, 5), (0x06, 1), (0x08, 6), (0x0F, 0x71)] → bytesAt (t.liveRaw e) o n = bytesAt (s.shadowRaw e) o n) ∧
      (∀ x, (∀ o n, (o, n) ∈ [(0x00, 5), (0x06, 1), (0x08, 6), (0x0F, 0x71)] →
          x + State.lpBase < s.tableBase + 256 * e + o ∨ s.tableBase + 256 * e + o + n ≤ x + State.lpBase) →
        sparseGet State.zeroByte t.lpddr x = sparseGet State.zeroByte s.lpddr x))

/-- O46. A cause of fail-stop stops the device. 17_failover.md; 18_host_resets_log.md; 19_presence_tally.md; 20_package_boot.md. On
a started device outside fail-stop, each cause of fail-stop stops it with its number: PNT_FAILSTOP_CMD with its key (0x0B),
MP_WATCHDOG_EXPIRE from row 3 on (0x0A), BENCH_POWER_LOSS of a bench of the active mask, that of the operation that runs or between
operations the one that the next would take (0x05, naming the bench), CLOCK_FAULT (0x06, naming the bench of a divider), RAIL_FAULT
of the core rail, low, high or with overcurrent (0x08), CONTROL_STATE_ERROR (0x04, or 0x09 of the fabric) and BARRIER_WATCHDOG while
an operation runs (0x07). ALERT_N is low, PNT_FAILSTOP holds cause, bench and the counter; no operation or pass is left, the
presence window is closed, every audio port is stopped, packet ports are down, the bench and gaffer power domains are off, and the
scratchpad, LPDDR and the streams stand. The watchdog also makes the next start-up boot the other slot where the firmware slot has
changed since the last DEVICE_READY. -/
def Obligations.FailStops : Prop :=
  ∀ (s : State) (c : Instr) (cause bench : Nat), s.started = true → s.failStopped = false →
    (c = .pntFailstopCmd 0xF5A10001 ∧ s.hostWrites = true ∧ cause = 0x0B ∧ bench = 31 ∨
      c = .mpWatchdogExpire ∧ 3 ≤ s.pow.row ∧ cause = 0x0A ∧ bench = 31 ∨
      c = .benchPowerLoss bench ∧ bench < 16 ∧ s.usesBench bench = true ∧ cause = 0x05 ∨
      c = .clockFault none ∧ cause = 0x06 ∧ bench = 31 ∨ c = .clockFault (some bench) ∧ bench < 16 ∧ cause = 0x06 ∨
      (c = .railFault .coreLow ∨ c = .railFault .coreHigh ∨ ∃ x, c = .railFault (.overcurrent x)) ∧ cause = 0x08 ∧ bench = 31 ∨
      c = .controlStateError false ∧ cause = 0x04 ∧ bench = 31 ∨ c = .controlStateError true ∧ cause = 0x09 ∧ bench = 31 ∨
      c = .barrierWatchdog ∧ s.gaf.running ≠ none ∧ cause = 0x07 ∧ bench = 31) →
    ∃ t, exec c s = .next t ∧ t.failStopped = true ∧ t.alertLow = true ∧ t.rd Fd.PNT_FAILSTOP_Cause = cause ∧ t.rd Fd.PNT_FAILSTOP_Bench = bench ∧
      t.rd Fd.PNT_FAILSTOP_Valid = 1 ∧ t.rd Fd.PNT_FAILSTOP_TIME_LO = s.now % 2 ^ 32 ∧
      t.rd Fd.PNT_FAILSTOP_TIME_HI = s.now / 2 ^ 32 % 2 ^ 32 ∧ t.gaf.running = none ∧ t.gaf.passes = [] ∧ t.windowOpen = false ∧
      (∀ p, p < 16 → t.rd Fd.APT_STATUS_State p = 0) ∧ (∀ p, p < 8 → t.rd Fd.PKT_STATUS_State p = 0) ∧
      t.pow.domains = s.pow.domains.filter (fun n => decide (64 ≤ n) && n != 72) ∧
      t.spad = s.spad ∧ t.lpddr = s.lpddr ∧ t.gaf.streams = s.gaf.streams ∧
      (c = .mpWatchdogExpire → t.sec.fallBack = (s.sec.fallBack || s.sec.changed))

/-- O47. An undetected excursion of the core rail has no stated behaviour. 20_package_boot.md. RAIL_FAULT of an excursion of the
core rail that the device does not detect, on a started device, is the one command with no effect in the spec: exec faults as
unspecified. On a device that is not started it changes nothing. -/
def Obligations.CoreExcursionStops : Prop :=
  ∀ s : State,
    (s.started = true → exec (.railFault .coreExcursion) s = .fault .railUnspecified) ∧
    (s.started = false → exec (.railFault .coreExcursion) s = .next s.begin_)

/-- O48. An operation runs its kernel at its barrier, and each kind stores what its rule says. 03_streams_and_sweeps.md;
04_numerics.md; 05_array.md; 06_recurrence.md; 07_attention.md; 08_kv_pages.md; 09_spectral.md; 10_scratchpad.md; 13_links.md. While
the running operation or pass is the one that the command names, outside fail-stop, its barrier counts the benches' busy cycles and,
where no read met an error, runs the operation: what its kernel stores and what becomes of each stream, ring pointers and the
sweep's next operation for an operation, the pass owed where chunks must be redone. Nothing runs any more, and the boundary follows.
The command of another kind, or one while nothing runs or in fail-stop, changes nothing. Where an operation runs on the chunk of one
stream that it does not leave out, without an error and with the banks not partitioned, its command, or WEIGHT_REISSUE of its
reissue, answers a next state that holds what the rules say: matrix sums with bias or experts, vector functions, the gate's mask and
hang-over counter, the routing table, converted elements, the steps and sections of a recurrence, the segmented scan, the attention
output with its log-sum-exp, appended, staged and restored KV pages, convolution and pooling windows, and the records of an event
decoding; results go out in the output format behind their reference. -/
def Obligations.OperationBarriers : Prop :=
  (∀ (s : State) (c : Instr) (due : Running → Desc → Bool) (b : BarrierReads), barrierOf c = some (due, b) →
    (s.gaf.running = none ∨ s.failStopped = true → exec c s = .next s.begin_) ∧
    (∀ r m d, s.gaf.running = some r → s.image r.image = some m → m.descs[r.desc]? = some d → s.failStopped = false →
      (due r d = false → exec c s = .next s.begin_) ∧
      (due r d = true → b = ⟨[], [], []⟩ →
        (r.pass = 1 ∨ r.pass = 2 ∨ (s.begin_.countBusy r).badRows m r.desc d ((s.begin_.countBusy r).partWorks d r.parts) [] = []) →
        ∃ u : State, u = (s.begin_.countBusy r).complete m r.desc d r.pass r.info r.mask ((s.begin_.countBusy r).partWorks d r.parts) ∧
          exec c s = .next ({ u.noteSoft [] with gaf := { (u.noteSoft []).gaf with running := none } } : State).boundary ∧
          (r.pass ≠ 1 → r.pass ≠ 2 → ∀ v : State,
            (v.kernelRun m r.desc d r.pass r.info (v.partWorks d r.parts)).1 = (kernelOf d v m r.desc (v.partWorks d r.parts)).1)))) ∧
    itemStores ∧ outputStores ∧ matrixStores ∧ vectorStores ∧ gateStores ∧ routingStores ∧ conversionStores ∧ cellSteps ∧ recurrenceStores ∧
    scanStores ∧ attentionStores ∧ appendStores ∧ stageStores ∧ restoreStores ∧ convolutionStores ∧ poolingStores ∧ eventStores

/-- O49. Sweeps close, sources time out, reloads end, windows open, benches wake, passes store. 03_streams_and_sweeps.md;
04_numerics.md; 07_attention.md; 10_scratchpad.md; 16_damper.md. SWEEP_CLOSE of a loaded image whose sweep may close counts the
sweep, leaves the image with none and its streams with nothing that it has passed, is the instant of an APPLY that waits for a
boundary, and lets the gaffer choose; of another image it changes nothing. SOURCE_TIMEOUT of a RUNNING stream of a working device
leaves it FAULTED with FaultCode 4 and no chunk, with StreamFault set. WEIGHT_RELOAD_COMPLETE of an image with no reload transfer
left frees its reissues and lets the gaffer choose. WINDOW_OPEN on a started device where no sensor trips shows Tmax, renews the
base load and both pools of credit, shows throttling, counts the window and moves the stretch by a step, and each bench's division
and gating follow its temperature and the floor; a sensor that trips stops the device with cause 1. BENCH_POWER_GOOD of a bench that
is waking takes it into the mask. SECOND_CHANCE_PASS of one stream's chunk converts its kept results under fresh scales;
ATTENTION_MERGE_PASS of one stream's chunk merges the records of a split row and writes it. -/
def Obligations.GafferEvents : Prop :=
  ∀ s : State,
    (∀ i m, s.image i = some m → s.failStopped = false →
      (s.begin_.closable m = true →
        ∃ u : State, exec (.sweepClose i) s = .next u.choose ∧ u.rd Fd.GAF_SWEEP_CNT = (s.rd Fd.GAF_SWEEP_CNT + 1) % 2 ^ Fd.GAF_SWEEP_CNT.width ∧
          u.image i = some { m with sweep := none, starved := [] } ∧
          u.gaf.streams = s.gaf.streams.map (fun x => (x.1, if x.2.image = i then { x.2 with past := [] } else x.2)) ∧
          s.wordsKept u [Fd.GAF_SWEEP_CNT.addr 0 0] ∧
          (s.parState = 3 → s.par.whenBit = 1 → s.applyDue = false → u.par.due = true ∧ u.par.dueAt = some s.now)) ∧
      (s.begin_.closable m = false → exec (.sweepClose i) s = .next s.begin_)) ∧
    (∀ e t, s.stream e = some t → t.entry = e → t.state = 2 → t.raw.length = 256 → s.working = true →
      ∃ (u : State) (x : Stream), exec (.sourceTimeout e) s = .next u.settleWatch ∧ u.rd Fd.GAF_PAGE_ERR_StreamFault = 1 ∧ u.stream e = some x ∧
        x.state = 5 ∧ x.live = [] ∧ x.past = [] ∧ x.ready = [] ∧ leAt x.raw 5 1 = 5 ∧ leAt x.raw 7 1 = 4) ∧
    (∀ i, s.reloading i = false →
      ∃ u : State, exec (.weightReloadComplete i) s = .next u.choose ∧
        u.gaf.passes = s.gaf.passes.map (fun x => if x.image == i && x.kind == 3 then { x with ready := true } else x) ∧
        u.regs = s.regs ∧ u.gaf.images = s.gaf.images) ∧
    (∀ w, (s.started = false → exec (.windowOpen w) s = .next s.begin_) ∧
      (s.started = true → exec (.windowOpen w) s = .next (s.begin_.window w).choose) ∧
      (s.started = true → s.failStopped = false → ∀ n, (s.begin_.readSensors (State.sensorsOf w)).2 = some n →
        (s.begin_.window w).failStopped = true ∧ (s.begin_.window w).rd Fd.PNT_FAILSTOP_Cause = 1 ∧
          (s.begin_.window w).rd Fd.PNT_FAILSTOP_Bench = (if n < 128 then n / 8 else 31) ∧ (s.begin_.window w).gaf.running = none ∧
          (s.begin_.window w).fo.thermTrip = true)) ∧
    (∀ b, b ∈ s.dmp.ungating →
      exec (.benchPowerGood b) s = .next ({ s.begin_ with dmp := { s.dmp with ungating := s.dmp.ungating.filter (· != b) } } : State).syncDamper) ∧
    windowRules ∧ benchSteps ∧ secondChanceStores ∧ mergeStores

/-- O50. An engine issues its next transfer, a transfer lands, a deferred one is released. 11_gather.md; 12_lpddr.md; 13_links.md;
10_scratchpad.md. GATHER_TRANSFER_ISSUE of an enabled engine, with power and outside fail-stop: with nothing to issue it only steps
the programs; at the engine's limit of outstanding transfers it counts GTH_FULL_CNT; otherwise the first item in the engine's order
is launched: one with a cause of a fault takes it, one within the chip is outstanding with its ends resolved, and one with an end at
another chip is outstanding, or unmapped without a route. TRANSFER_LAND of a transfer within the chip that is not deferred while a
round is open performs it and ends it: a plain one leaves its bytes at its destination and no other byte changed there, is
outstanding no more, and what waits for its end goes on. TRANSFER_LAND of one whose identifier names no transfer in flight changes
nothing. LPDDR_DEFER_EXPIRE releases the deferred transfer and changes nothing else. -/
def Obligations.TransfersMove : Prop :=
  ∀ s : State,
    (∀ b, s.rd Fd.GTH_PAGE_CTL_Enable b ≠ 0 → s.failStopped = false → s.pow.powered = true →
      let u := s.begin_.pumpPrograms
      (u.items b = [] → exec (.gatherTransferIssue b) s = .next u) ∧
      (∀ it its, sortBy WorkItem.before (u.items b) = it :: its →
        (u.rd Fd.GTH_LIMIT_MaxOut b ≤ u.outstanding b → exec (.gatherTransferIssue b) s = .next (u.count Fd.GTH_FULL_CNT b)) ∧
        (u.outstanding b < u.rd Fd.GTH_LIMIT_MaxOut b → exec (.gatherTransferIssue b) s = .next ((u.launch b it).syncGth b)))) ∧
    (∀ id m, (s.flights.find? fun f => f.id == id) = none → exec (.transferLand id m) s = .next s.begin_) ∧
    (∀ id m f, (s.flights.find? fun f => f.id == id) = some f → f.remote = false → s.working = true →
      (f.deferred.isSome = true → s.roundOpen = true → exec (.transferLand id m) s = .next s.begin_) ∧
      (f.deferred = none ∨ s.roundOpen = false → exec (.transferLand id m) s = .next ((s.begin_.noteSoft m.soft).landFlight f m))) ∧
    (∀ id, ∃ t, exec (.lpddrDeferExpire id) s = .next t ∧ (∀ f, f ∈ t.flights → f.id = id → f.deferred = none) ∧
      t.flights.map (·.id) = s.flights.map (·.id) ∧ t.regs = s.regs ∧ t.gaf = s.gaf ∧ t.lpddr = s.lpddr ∧ t.spad = s.spad) ∧
    landingStores ∧ issueAdds

/-- O51. Atomics, the patrol and the scrub hold. 10_scratchpad.md. On a working device, SCRATCHPAD_ATOMIC with an adder code of R253
on whole 32-bit words of one shared region that is not sealed, at an 8-byte boundary, with the banks not partitioned and no
uncorrectable word, stores the result for each word, answers the old bytes where asked, and leaves every other byte. In an open
region of another class, with a reserved code or at another boundary it stores nothing and sets AtomicMisuse; outside every region
it stores nothing and sets Unmapped in the page of the bench's engine. SCRATCHPAD_PATROL that finds one corrected word in a region
in use counts it in its core, sets Corrected, and writes the word back, so that its codeword waits for no correction any more and
every byte stands; it does nothing while PatrolOff is 1. SCRUB_HOLD sets or clears Hold; it takes 1 only inside a presence window.
-/
def Obligations.ScratchpadCommands : Prop :=
  ∀ s : State,
    (s.working = true → ∀ b a code bs ro,
      (s.regionAt a bs.length = none → exec (.scratchpadAtomic b a code bs ro) s =
        .next (if ro then (s.begin_.unmappedErr .gth b).put (.data (List.replicate bs.length 0) false) else s.begin_.unmappedErr .gth b)) ∧
      (∀ r, s.regionAt a bs.length = some r → r.shut = false → r.cls ≠ 3 ∨ 5 ≤ code ∨ a % 8 ≠ 0 →
        exec (.scratchpadAtomic b a code bs ro) s =
          .next (if ro then (s.begin_.setErr Fd.SPD_PAGE_ERR_AtomicMisuse).put (.data (List.replicate bs.length 0) false)
                 else s.begin_.setErr Fd.SPD_PAGE_ERR_AtomicMisuse)) ∧
      (∀ r, s.regionAt a bs.length = some r → r.shut = false → r.cls = 3 → code < 5 → a % 8 = 0 → bs.length % 4 = 0 →
        s.rd Fd.SPD_MODE_Partitioned = 0 → s.spadBadIn a bs.length = [] →
        ∃ t, exec (.scratchpadAtomic b a code bs ro) s = .next t ∧
          (∀ k, 4 * k < bs.length → ofLe (t.spadBytes (a + 4 * k) 4) = (atomicWord code (ofLe (s.spadBytes (a + 4 * k) 4)) (leAt bs (4 * k) 4)).1 % 2 ^ 32) ∧
          (∀ x, x < a ∨ a + bs.length ≤ x → sparseGet State.zeroByte t.spad x = sparseGet State.zeroByte s.spad x) ∧
          t.out = (if ro then [.data (s.spadBytes a bs.length) false] else []))) ∧
    (s.working = true → ∀ core a,
      (s.rd Fd.SPD_PATROL_PatrolOff = 1 → ∀ xs ys, exec (.scratchpadPatrol core xs ys) s = .next s.begin_) ∧
      (∀ r, s.rd Fd.SPD_PATROL_PatrolOff = 0 → sliceOf a = core → s.regionAt a 1 = some r → r.shut = false →
        ∃ t, exec (.scratchpadPatrol core [a] []) s = .next t ∧ t.rd (Fd.PAGE_ERR_Corrected .cor) core = 1 ∧
          t.rd Fd.COR_CORR_CNT core = (s.rd Fd.COR_CORR_CNT core + 1) % 2 ^ Fd.COR_CORR_CNT.width ∧ t.spad = s.spad ∧
          ∀ w, w ∈ t.spadSoft → s.codeWord w ≠ s.codeWord a)) ∧
    (s.hostWrites = true → ∀ v,
      (4 ≤ v → exec (.scrubHold v) s = .next (s.begin_.badWrite .spd 0)) ∧
      (v < 4 → v % 2 = 1 → s.rd Fd.SEC_PRESENCE_Open = 0 → exec (.scrubHold v) s = .next s.begin_) ∧
      (v < 4 → v % 2 = 0 ∨ s.rd Fd.SEC_PRESENCE_Open ≠ 0 →
        ∃ t, exec (.scrubHold v) s = .next t ∧ t.rd Fd.SPD_SCRUB_Hold = v % 2 ∧ s.wordsKept t [Fd.SPD_SCRUB_Hold.addr 0 0]))

/-- O52. LPDDR accesses, atomics, the patrol and temperature polls. 12_lpddr.md; 01_architecture.md; notes/assumptions/5.md;
notes/assumptions/41.md; notes/assumptions/55.md. On a working device, LPDDR_ACCESS that goes well within the capacity and at
enabled sites stores the written bytes and leaves every other byte, or answers the bytes read where none is uncorrectable; one
beyond the capacity or at a disabled site answers zeros and sets Unmapped in the agent's page. LPDDR_ATOMIC of a link that goes well
stores the sums of one 32-byte burst and answers the old bytes where asked; a reserved code changes nothing. LPDDR_PATROL that finds
one corrected burst counts it and sets Corrected, and does nothing while PatrolHours is 0. STACK_TEMP_READ of a good reading below
105 degrees by a sensor in order shows it and sets the refresh step that R294 gives. That a reserved atomic code has no effect is
log entry 41's, and how the refresh step falls log entry 55's. -/
def Obligations.MemoryServes : Prop :=
  ∀ s : State, s.working = true →
    (∀ g a bs, bs ≠ [] → a + bs.length ≤ s.lpSize → s.anyOff a bs.length = false →
      ∃ t, exec (.lpddrAccess (.gather g) a 0 (some bs) goodMem) s = .next t ∧ t.lpBytes a bs.length = bs ∧
        (∀ x, x < a ∨ a + bs.length ≤ x → sparseGet State.zeroByte t.lpddr x = sparseGet State.zeroByte s.lpddr x)) ∧
    (∀ g a n, 0 < n → a + n ≤ s.lpSize → s.anyOff a n = false → s.lpBadIn a n = [] →
      ∃ t, exec (.lpddrAccess (.gather g) a n none goodMem) s = .next t ∧ t.out = [.data (s.lpBytes a n) false] ∧ t.lpddr = s.lpddr) ∧
    (∀ g a n m, 0 < n → s.lpSize < a + n ∨ s.anyOff a n = true →
      exec (.lpddrAccess (.gather g) a n none m) s = .next ((s.begin_.unmappedErr .gth g).put (.data (List.replicate n 0) false))) ∧
    (∀ p a code bs ro m, 4 ≤ code → exec (.lpddrAtomic (.link p) a code bs ro m) s = .next s.begin_) ∧
    (∀ p a code bs, code < 4 → a % 32 = 0 → a + 32 ≤ s.lpSize → s.siteOff a = false → s.lpBadIn a 32 = [] → bs.length = 32 →
      ∃ t, exec (.lpddrAtomic (.link p) a code bs true goodMem) s = .next t ∧ t.out = [.data (s.lpBytes a 32) false] ∧
        (∀ k, memElem code * k < 32 → leAt (t.lpBytes a 32) (memElem code * k) (memElem code) =
          (memAdd code (leAt (s.lpBytes a 32) (memElem code * k) (memElem code)) (leAt bs (memElem code * k) (memElem code))).1 % 2 ^ (8 * memElem code)) ∧
        (∀ x, x < a ∨ a + 32 ≤ x → sparseGet State.zeroByte t.lpddr x = sparseGet State.zeroByte s.lpddr x)) ∧
    (∀ i o, i < 16 →
      (s.rd Fd.XMC_PATROL_PatrolHours i = 0 → ∀ xs ys zs, exec (.lpddrPatrol i xs ys zs) s = .next s.begin_) ∧
      (s.rd Fd.XMC_PATROL_PatrolHours i ≠ 0 → exec (.lpddrPatrol i [o] [] []) s = .next (s.begin_.lpCorrected o))) ∧
    (∀ i (x : Int), i < 16 → -128 ≤ x → x < 105 → s.rd Fd.XMC_TEMP_SensorFault i = 0 → s.sites.length = 16 →
      ∃ t, exec (.stackTempRead i (some x)) s = .next t ∧ t.rd Fd.XMC_TEMP_TempC i = ofSigned 8 x ∧
        t.rd Fd.XMC_TEMP_RefreshStep i = refreshStep (s.rd Fd.XMC_TEMP_RefreshStep i) x (s.sites.getD i {}).lowRun)

/-- O53. A disabled site measures margins. 12_lpddr.md. While BAR0 writes are taken, XMC_ENABLE_WRITE of 0 is dropped with BadWrite
unless the gaffer is disabled and every entry is IDLE, and otherwise Enable takes the value. MARGIN_GO while Enable is 1 only sets
MarginRefused, and while it is 0 sets the selection, Go, and clears Valid. MARGIN_DONE of a running sweep of a working device clears
Go and loads the result with Valid 1. -/
def Obligations.SitesMeasureMargins : Prop :=
  ∀ (s : State) (i : Nat), i < 16 →
    (s.hostWrites = true →
      (s.rd Fd.GAF_PAGE_CTL_Enable = 1 ∨ s.allIdle = false → exec (.xmcEnableWrite i 0) s = .next (s.begin_.badWrite .xmc i)) ∧
      (∀ v, v < 2 → v = 1 ∨ s.rd Fd.GAF_PAGE_CTL_Enable = 0 ∧ s.allIdle = true →
        ∃ t, exec (.xmcEnableWrite i v) s = .next t ∧ t.rd Fd.XMC_PAGE_CTL_Enable i = v ∧
          s.wordsKept t [Fd.XMC_PAGE_CTL_Enable.addr i 0]) ∧
      (∀ v, v < 2 ^ 17 → slice v 11 5 = 0 → slice v 8 3 < 6 → bitAt v 16 = true →
        (s.rd Fd.XMC_PAGE_CTL_Enable i = 1 → exec (.marginGo i v) s = .next (s.begin_.setErr Fd.XMC_PAGE_ERR_MarginRefused i)) ∧
        (s.rd Fd.XMC_PAGE_CTL_Enable i = 0 →
          ∃ t, exec (.marginGo i v) s = .next t ∧ t.rd Fd.XMC_MARGIN_CTL_Channel i = slice v 0 3 ∧ t.rd Fd.XMC_MARGIN_CTL_Sub i = slice v 3 1 ∧
            t.rd Fd.XMC_MARGIN_CTL_Lane i = slice v 4 4 ∧ t.rd Fd.XMC_MARGIN_CTL_Axis i = slice v 8 3 ∧ t.rd Fd.XMC_MARGIN_CTL_Go i = 1 ∧
            t.rd Fd.XMC_MARGIN_RES_Valid i = 0 ∧ s.wordsKept t [Fd.XMC_MARGIN_CTL_Go.addr i 0, Fd.XMC_MARGIN_RES_Valid.addr i 0]))) ∧
    (s.working = true → s.rd Fd.XMC_MARGIN_CTL_Go i = 1 → ∀ lo hi bad, lo < 64 → hi < 64 →
      ∃ t, exec (.marginDone i lo hi bad) s = .next t ∧ t.rd Fd.XMC_MARGIN_CTL_Go i = 0 ∧ t.rd Fd.XMC_MARGIN_RES_Low i = lo ∧
        t.rd Fd.XMC_MARGIN_RES_High i = hi ∧ t.rd Fd.XMC_MARGIN_RES_Failed i = b2n bad ∧ t.rd Fd.XMC_MARGIN_RES_Valid i = 1 ∧
        s.wordsKept t [Fd.XMC_MARGIN_CTL_Go.addr i 0, Fd.XMC_MARGIN_RES_Valid.addr i 0])

/-- O54. Ports train, agree keys, degrade and stop. 13_links.md; 17_failover.md; notes/assumptions/10.md; notes/assumptions/104.md;
notes/assumptions/82.md. On an enabled link port of a working device: RETRAIN restarts training on both lanes; LNK_PORT_ENABLE_WRITE
of 1 to a disabled port starts training on the lanes in service, of 0 to an enabled one takes it Down and sends the stop sequence;
HELLO, where no handshake runs or ours waits for the peer's, shows the peer's chip and takes its Hello; KEY_ENCAPSULATION with a
signature that does not verify fails the handshake with 1, and one that verifies, of a peer whose identity chains to the root, keys
the port once the key message is out; KEY_HANDSHAKE_TIMEOUT of a running handshake fails it with 4; a failed handshake sets AuthFail
and ends. REKEY_DUE of a port whose frames or seconds have run out, and REKEY, start a handshake where the port has keys, or wait
for the end of a training; REKEY_DUE of another port changes nothing. LINK_TRAIN_COMPLETE with success of a port that has keys
brings it up at the rate found, or after a lane degrade at the rate it had; LANE_FAIL of a lane in use takes it out, counts and
trains on the other; STOP_MARKER_RECEIVE takes the port Down with PortDown set and reports a known peer. What the hash of a
handshake covers, how a training ends in State, and which training follows a lane degrade are the model's (log entries 10, 82 and
104). -/
def Obligations.PortsTrainAndAgreeKeys : Prop :=
  ∀ (s : State) (p : Nat), s.lnk.ports.length = 32 → p < 32 →
    (s.hostWrites = true → s.rd Fd.LNK_CTL_PacketMode p = 0 →
      (s.rd Fd.LNK_PAGE_CTL_Enable p = 0 → ∃ t, exec (.lnkPortEnableWrite p 1) s = .next t ∧ t.rd Fd.LNK_PAGE_CTL_Enable p = 1 ∧
        t.rd Fd.LNK_STATUS_State p = 1 ∧ (t.port p).lanes = (s.port p).lanes ∧ (t.port p).retrains = 0 ∧ t.out = [.training p]) ∧
      (s.rd Fd.LNK_PAGE_CTL_Enable p = 1 → exec (.lnkPortEnableWrite p 0) s =
        .next (((s.begin_.wr Fd.LNK_PAGE_CTL_Enable 0 p).portToDown p).sendStop p))) ∧
    (s.lnkLive p = true →
      (s.hostWrites = true → ∃ t, exec (.retrain p) s = .next t ∧ t.rd Fd.LNK_STATUS_State p = 1 ∧ (t.port p).lanes = [0, 1] ∧
        t.out = [.training p]) ∧
      (∀ h, s.rd Fd.LNK_STATUS_State p ≠ 0 → (s.port p).stage ≤ 1 →
        ∃ t, exec (.hello p h) s = .next t ∧ t.rd Fd.LNK_STATUS_PeerChip p = h.chip % 1024 ∧
          t.rd Fd.LNK_STATUS_PeerValid p = b2n h.idValid ∧ ((s.port p).stage = 0 ∨ (s.port p).mine ≠ none → (t.port p).peer = some h ∧ (t.port p).stage = 2)) ∧
      (∀ mine peer cipher sig, (s.port p).stage = 2 → (s.port p).mine = some mine → (s.port p).peer = some peer → (s.port p).keys ≠ none →
        let good := Config.xmssVerify peer.pub (shake256 (helloBytes peer ++ helloBytes mine ++ cipher)) sig
        ∃ t, exec (.keyEncapsulation p cipher sig) s = .next t ∧
          (good = false → t.rd Fd.LNK_KEY_STATUS_Fail p = 1 ∧ t.rd Fd.LNK_PAGE_ERR_AuthFail p = 1 ∧ (t.port p).stage = 0 ∧
            (t.port p).keys = (s.port p).keys) ∧
          (good = true → State.chainsToRoot peer.pub = true → s.rd Fd.SEC_FLEET_CFG_Enable = 0 → cipher.length = 1568 →
            t = (s.begin_.setPort p fun l => { l with stage := 3, secret := Config.mlKemDecaps l.secret cipher }).finishKeys p)) ∧
      ((s.port p).stage ≠ 0 →
        exec (.keyHandshakeTimeout p) s = .next (s.begin_.keysFail p 4) ∧
        ((s.port p).keys ≠ none → (s.begin_.keysFail p 4).rd Fd.LNK_KEY_STATUS_Fail p = 4 ∧ ((s.begin_.keysFail p 4).port p).stage = 0)) ∧
      (s.rekeyDue p = false → exec (.rekeyDue p) s = .next s.begin_) ∧
      ((s.port p).keys ≠ none → ∀ c : Instr, (c = .rekeyDue p ∧ s.rekeyDue p = true) ∨ (c = .rekey p ∧ s.hostWrites = true) →
        (s.rd Fd.LNK_STATUS_State p = 1 → exec c s = .next (s.begin_.setPort p fun l => { l with rekeyAfter := true })) ∧
        (s.rd Fd.LNK_STATUS_State p ≠ 1 → (s.port p).stage = 0 →
          ∃ t, exec c s = .next t ∧ (t.port p).stage = 1 ∧ (t.port p).keys = (s.port p).keys)) ∧
      (∀ x, s.rd Fd.LNK_STATUS_State p = 1 → x.ok = true → x.rate ≠ 0 → (s.port p).keys ≠ none → (s.port p).rekeyAfter = false →
        s.rd Fd.LNK_CTL_Encrypt p = 0 ∨ x.features % 2 = 1 →
        let rate := Nat.min 3 (Nat.min x.rate (s.rd Fd.LNK_CTL_MaxRate p))
        ((s.port p).keepRate = false →
          ∃ u : State, exec (.linkTrainComplete p x) s = .next (u.comeUp p false) ∧ u.rd Fd.LNK_STATUS_Rate p = rate ∧
            (u.port p).retrains = 0) ∧
        ((s.port p).keepRate = true → s.rd Fd.LNK_STATUS_Rate p ≠ 0 → s.rd Fd.LNK_STATUS_Rate p ≤ rate →
          ∃ u : State, exec (.linkTrainComplete p x) s = .next (u.comeUp p false) ∧ u.rd Fd.LNK_STATUS_Rate p = s.rd Fd.LNK_STATUS_Rate p ∧
            (u.port p).retrains = 0)) ∧
      (∀ l, l ∈ (s.port p).lanes → s.pktUp p = false → 2 ≤ s.rd Fd.LNK_STATUS_State p →
        exec (.laneFail p l) s = .next (s.begin_.laneFails p l) ∧
        ((s.port p).lanes.filter (· != l) ≠ [] →
          (s.begin_.laneFails p l).rd Fd.LNK_STATUS_State p = 1 ∧
          ((s.begin_.laneFails p l).port p).lanes = (s.port p).lanes.filter (· != l) ∧
          ((s.begin_.laneFails p l).port p).keepRate = true ∧ (s.begin_.laneFails p l).rd Fd.LNK_PAGE_ERR_LaneDegraded p = 1 ∧
          (s.begin_.laneFails p l).rd Fd.LNK_DEGRADE_CNT p = (s.rd Fd.LNK_DEGRADE_CNT p + 1) % 2 ^ Fd.LNK_DEGRADE_CNT.width ∧
          (s.begin_.laneFails p l).out = [.training p])) ∧
      (s.rd Fd.LNK_STATUS_State p ≠ 0 →
        ∃ v : State, exec (.stopMarkerReceive p) s =
            .next (if s.rd Fd.LNK_STATUS_PeerValid p = 1 then v.originate (s.rd Fd.LNK_STATUS_PeerChip p) 1 else v) ∧
          v.rd Fd.LNK_PAGE_ERR_PortDown p = 1 ∧
          ((s.port p).queue = [] → v.rd Fd.LNK_STATUS_State p = 0 ∧ (v.port p).keys = none ∧ (v.port p).unacked = [])))

/-- O55. Frames are received, notices and timeouts take effect, collectives open their rounds. 13_links.md; 17_failover.md;
08_kv_pages.md; 05_array.md; notes/assumptions/33.md; notes/assumptions/82.md; notes/assumptions/102.md. FRAME_RECEIVE on a port
that carries no frames changes nothing; on one that does, a good data frame in order whose first slot holds dataless headers for
this chip puts its messages behind those in the buffer and moves the receive sequence on. SLOW_NOTICE lengthens every open round
that waits for its sender; DONE_NOTICE frees the pulled copies of its stream and lets the gaffer choose; SUSPECT_REPORT of an
earlier epoch, or one seen before, is only taken out of its buffer, and another is recorded and flooded, and probes the origin of a
link that is down. SLOW_NOTICE_SEND while a site is hot and a round is open sends one Slow to every member it can reach, each once,
and counts them. ROUND_TIMEOUT of an open round whose limit has passed counts LNK_TIMEOUT_CNT and reports every member whose
contribution is lacking; where none is, every round stays as it is, and before the limit it changes nothing. A message that is not
for this chip, or whose op is another's, is left alone, and one that has an earlier one before it stays in the buffer (the order of
waiting messages is log entry 33's). ALL_REDUCE, REDUCE_SCATTER, ALL_GATHER and BROADCAST of one stream's chunk open its round, with
the member's own part in the result and what it sends in its send region; KV_RING_ROTATION opens its round and pulls the pages that
its neighbour holds, or has none to pull. That Slow goes once to each member, and that a round lacks the chip that it pulls from, is
log entry 82's. -/
def Obligations.LinksCarryMessages : Prop :=
  ∀ s : State,
    (∀ p ls x, s.portUp p = false → exec (.frameReceive p ls x) s = .next s.begin_) ∧
    (∀ p ls x d, p < 32 → s.lnk.ports.length = 32 → s.portUp p = true → s.idValid = true → s.encrypting p = false →
      (s.port p).laneErrs = [] → (s.port p).partials = [] → fecDecode (s.takeLanes p ls).1 = (d, 0, 0) →
      leAt d 0 1 = 1 → leAt d 1 1 = 0 → leAt d 2 3 = (s.port p).rxSeq → leAt d 8 1 = 1 →
      bytesAt d 0x410 16 = leBytes 4 (crc32c (bytesAt d 0 16 ++ bytesAt d 16 1024)) ++ leBytes 12 0 →
      let heads := ((List.range 16).map fun i => bytesAt d (16 + 16 * i) 16).filter fun h => ofLe h != 0
      (∀ h, h ∈ heads → msgHasData (parseMsg h).op (parseMsg h).skip = false ∧ (parseMsg h).dest = s.chipId) →
      ∃ t, exec (.frameReceive p ls x) s = .next t ∧ (t.port p).rxSeq = ((s.port p).rxSeq + 1) % 2 ^ 24 ∧
        (t.port p).inbox = (s.port p).inbox ++ heads.map parseMsg) ∧
    (∀ p m, s.msgDue p m = true → m.op = 8 →
      (m.code = 1 → ∃ t, exec (.slowNotice p m) s = .next t ∧ t.regs = s.regs ∧
        t.gaf.rounds = s.gaf.rounds.map fun r =>
          if !r.complete && (s.missingChips r).contains m.src then { r with limit := Nat.max r.limit (s.now + slice m.addr 0 16 * 1000) } else r) ∧
      (m.code = 2 → ∃ v : State, exec (.doneNotice p m) s = .next v.choose ∧ v.regs = s.regs ∧
        let free (g : StageSet) : StageSet :=
          if g.coll = slice m.addr 0 16 then { g with pulled := g.pulled.filter (· != slice m.addr 16 12) } else g
        v.gaf.images = s.gaf.images.map fun im => { im with stage := im.stage.map free }) ∧
      (m.code = 3 →
        let suspect := slice m.addr 0 10
        let kind := slice m.addr 10 2
        let epoch := slice m.addr 12 32
        let seen := s.seenReports.any fun k => k.1 == suspect && k.2.1 == epoch && k.2.2.1 == m.src && k.2.2.2.1 == kind
        (epoch < s.reportEpoch ∨ seen = true → exec (.suspectReport p m) s = .next (s.begin_.takeInbox p m)) ∧
        (s.reportEpoch ≤ epoch → seen = false →
          ∃ u : State, exec (.suspectReport p m) s =
              .next (if kind = 1 then ((u.flood (some p) m).probeOrigin suspect).choose else u.flood (some p) m) ∧
            u.rd Fd.LNK_LAST_SUSPECT_Suspect = suspect ∧ u.rd Fd.LNK_LAST_SUSPECT_Kind = kind ∧
            (u.lnk.seen.any fun k => k.1 == suspect && k.2.1 == epoch && k.2.2.1 == m.src && k.2.2.2.1 == kind) = true))) ∧
    (s.failStopped = false → s.siteHot = true → s.roundOpen = true → s.idValid = true →
      (∀ c, c ∈ s.slowChips → (s.routeOf c).isSome = true) →
      ∃ t, exec .slowNoticeSend s = .next t ∧ t.lnk.slowDue = s.now + s.rd Fd.LNK_SLOW_ExtendUs * 500 ∧
        t.rd Fd.LNK_SLOW_CNT = (s.rd Fd.LNK_SLOW_CNT + s.slowChips.length) % 2 ^ 32) ∧
    (∀ i g e j r, (s.gaf.rounds.find? fun r => State.roundIs i g e j r && !r.complete) = some r → s.failStopped = false →
      (s.now < r.limit → exec (.roundTimeout i g e j) s = .next s.begin_) ∧
      (r.limit ≤ s.now → exec (.roundTimeout i g e j) s = .next ((s.missingChips r).foldl (fun t c => t.originate c 2) (s.begin_.count Fd.LNK_TIMEOUT_CNT))) ∧
      (r.limit ≤ s.now → s.missingChips r = [] →
        ∃ t, exec (.roundTimeout i g e j) s = .next t ∧ t.rd Fd.LNK_TIMEOUT_CNT = (s.rd Fd.LNK_TIMEOUT_CNT + 1) % 2 ^ 32 ∧
          t.gaf = s.gaf)) ∧
    (∀ p m mem,
      (∀ c op, (c, op) ∈ [(Instr.readResponse p m, 1), (.write p m mem, 2), (.writeAcknowledgement p m, 3), (.remoteScratchpadAtomic p m, 4),
          (.remoteMemoryAtomic p m mem, 5), (.streamSamples p m, 6), (.collective p m, 7), (.slowNotice p m, 8), (.doneNotice p m, 8),
          (.suspectReport p m, 8)] →
        (s.msgHere m = false ∨ m.op ≠ op → exec c s = .next s.begin_) ∧
        (s.msgHere m = true → m.op = op → s.msgFirst p m = false → exec c s = .next (s.begin_.keepMsg p m))) ∧
      (s.msgHere m = false → exec (.readRequest p m mem) s = .next (if s.working then s.begin_.noteSoft mem.soft else s.begin_))) ∧
    collectivesStore ∧ rotationStores

/-- O56. Messages through the window, answers, samples and contributions. 13_links.md; 10_scratchpad.md; 11_gather.md; 12_lpddr.md;
15_audio_ports.md; notes/assumptions/33.md; notes/assumptions/19.md. A message that may be acted on leaves its buffer: READ_REQUEST
is answered with the 256 bytes of the unit read, WRITE stores the bytes that it carries, where they lead to LPDDR that goes well,
and no other byte, REMOTE_SCRATCHPAD_ATOMIC and REMOTE_MEMORY_ATOMIC leave each element's result and answer the old bytes where
asked. READ_RESPONSE and WRITE_ACKNOWLEDGEMENT end the transfer that they answer, whose data then lie at its destination; where the
far chip answers that the access was unmapped, or an end here has been disabled, the transfer fails with Unmapped set.
STREAM_SAMPLES of no stream's channel is counted as dropped, and of a stream's it lands in its slot of the input buffer, or stays in
the message buffer while its slot is taken; COLLECTIVE of an open round goes into the result, by the adders or as it is, counts for
its sender, and the gaffer chooses. That a message which must wait stays in its buffer, and what the byte count of a write shorter
than a unit looks like, are the model's (log entries 33 and 19). -/
def Obligations.WindowServesMessages : Prop :=
  (∀ (s : State) (p : Nat) (m : Msg), s.msgDue p m = true →
    let u := s.begin_.takeInbox p m
    (m.op = 0 → m.vc ≠ 2 → ∀ mem,
      let v := (s.begin_.noteSoft mem.soft).takeInbox p m
      exec (.readRequest p m mem) s = .next (v.serveRead m mem) ∧
      (v.throughWindow m false false = .refused →
        exec (.readRequest p m mem) s = .next (v.reply m (State.answerMsg 1 (some (List.replicate 256 0)) false v.refusal)))) ∧
    (let n := if m.short % 256 = 0 then 256 else m.short % 256
     m.op = 2 → ∀ o, u.throughWindow m true false n = .lpddr o → m.poison = false →
      ∃ t, exec (.write p m goodMem) s = .next t ∧ t.lpBytes o n = bytesAt m.data 0 n ∧
        (∀ x, x < o ∨ o + n ≤ x → sparseGet State.zeroByte t.lpddr x = sparseGet State.zeroByte s.lpddr x)) ∧
    (m.op = 4 → ∀ a, u.throughWindow m true true = .spad a → (u.regionAt a 256).isSome = true →
      exec (.remoteScratchpadAtomic p m) s =
        .next ((u.spadAtomic a m.code (bytesAt m.data 0 256)).2.answerAtomic m (u.spadAtomic a m.code (bytesAt m.data 0 256)).1 false 0)) ∧
    (m.op = 5 → ∀ o mem, u.throughWindow m false true = .lpddr o → m.code < 4 →
      exec (.remoteMemoryAtomic p m mem) s =
        let r := (u.narrow o 256).unitAtomic o m.code (bytesAt m.data 0 256) mem State.noEntry
        .next (r.2.2.answerAtomic m r.1 r.2.1 0)) ∧
    (m.op = 1 → s.fo.probes = [] → ∀ f, u.answered m = some f →
      let dark := u.darkX f.x (u.flightKind f == some .initialLoad)
      (m.code ≠ 0 ∨ dark = true → exec (.readResponse p m) s = .next ((u.unmappedErr .gth f.bench).failFlight f)) ∧
      (m.code = 0 → dark = false → u.readsFar f.x = true → f.x.xform ≠ 4 →
        exec (.readResponse p m) s = .next ((u.landRemote f m goodMem).endFlight f m.poison))) ∧
    (m.op = 3 → ∀ f, u.answered m = some f →
      (m.code ≠ 0 → exec (.writeAcknowledgement p m) s = .next ((u.unmappedErr .gth f.bench).failFlight f)) ∧
      (m.code = 0 → exec (.writeAcknowledgement p m) s = .next (u.endFlight f false))) ∧
    (m.op = 6 →
      (s.channelStream p (slice m.addr 0 12) = none → exec (.streamSamples p m) s = .next (u.count Fd.LNK_CHAN_DROP_CNT p)) ∧
      (∀ x, s.channelStream p (slice m.addr 0 12) = some x →
        (s.unitWaits x = true → exec (.streamSamples p m) s = .next (s.begin_.keepMsg p m)) ∧
        (s.unitWaits x = false →
          exec (.streamSamples p m) s = .next (((u.arriveUnit x (slice m.addr 12 24) m).settleWatch).chooseIfReady s.begin_)))) ∧
    (m.op = 7 → ∀ r, s.roundFor m = some r → exec (.collective p m) s = .next (u.applyUnit r m).choose)) ∧
  windowReads ∧ windowAtomics ∧ answersLand ∧ samplesLand ∧ contributionsLand

/-- O57. Packet ports come up, go down, take and form packets, and keep network time. 14_packet_ports.md; 13_links.md;
notes/assumptions/83.md; notes/assumptions/106.md. PACKET_PORT_UP of a port in packet mode on a working device shows State 2,
PACKET_PORT_DOWN of a port that is up shows 0, and so does LANE_FAIL of one. PTP_ANNOUNCE_TIMEOUT while locked, on a working device,
enters holdover for HoldoverSec and sets PtpUnlocked; PTP_HOLDOVER_EXPIRE in holdover goes back to state 1. PKT_FRAME_RECEIVE on a
port that is not up does nothing. On one that is up a PAUSE frame does nothing, a frame with a bad FCS counts PKT_RX_BAD_CNT and so
does a datagram or another IP packet that fails a checksum, an oversize frame, one for another address and a datagram of no session
count PKT_RX_DROP_CNT (a datagram for a standby that has no copy yet counts nothing), a control or time message goes to the MP (an
event message with its stamp), and a session's datagram lands while the port is enabled. PACKET_FILL_TIMEOUT of a packet-fed stream
past its first chunk fills the chunk and goes on to the next; PACKET_FORM of a stream, FAULTED or not, whose egress may start forms
the next packet of the session that its next sample goes to, and fixes E0 for it. Which frames the port drops with a count, and
where early samples wait, are log entry 83's; when a session entry is read, log entry 106's. -/
def Obligations.PacketPortsRun : Prop :=
  ∀ s : State,
    (∀ p, p < 8 → s.working = true → s.rd Fd.LNK_CTL_PacketMode p = 1 →
      ∃ t, exec (.packetPortUp p) s = .next t ∧ t.rd Fd.PKT_STATUS_State p = 2 ∧ s.wordsKept t [Fd.PKT_STATUS_State.addr p 0]) ∧
    (∀ p, s.pktUp p = true →
      (∃ t, exec (.packetPortDown p) s = .next t ∧ t.rd Fd.PKT_STATUS_State p = 0 ∧ s.wordsKept t [Fd.PKT_STATUS_State.addr p 0]) ∧
      (∀ l, exec (.laneFail p l) s = exec (.packetPortDown p) s) ∧
      (∀ f, (f.body = .pause → exec (.pktFrameReceive p f) s = .next s.begin_) ∧
        (f.body ≠ .pause → f.fcsOk = false →
          exec (.pktFrameReceive p f) s = .next (s.begin_.count Fd.PKT_RX_BAD_CNT p)) ∧
        (f.body ≠ .pause → f.fcsOk = true → 9018 < f.bytes ∨ s.acceptsMac p f.dstMac = false →
          exec (.pktFrameReceive p f) s = .next (s.begin_.count Fd.PKT_RX_DROP_CNT p)) ∧
        (f.body ≠ .pause → f.fcsOk = true → f.bytes ≤ 9018 → s.acceptsMac p f.dstMac = true → f.sumsOk = false →
          exec (.pktFrameReceive p f) s = .next (s.begin_.count Fd.PKT_RX_BAD_CNT p)) ∧
        (f.fcsOk = true → f.bytes ≤ 9018 → s.acceptsMac p f.dstMac = true → f.sumsOk = true →
          (f.body = .control ∨ f.body = .ptpGeneral → exec (.pktFrameReceive p f) s = .next (s.begin_.put (.toMp p none))) ∧
          (f.body = .ptpEvent → exec (.pktFrameReceive p f) s = .next (s.begin_.put (.toMp p (some (s.begin_.eventStamp 0))))) ∧
          (f.body = .other → exec (.pktFrameReceive p f) s = .next (s.begin_.count Fd.PKT_RX_DROP_CNT p)) ∧
          ∀ v6 dst src dp sp ipOk udpOk zero bs, f.body = .udp v6 dst src dp sp ipOk udpOk zero bs →
            (ipOk = false ∨ udpOk = false ∨ (zero = true ∧ v6 = true) →
              exec (.pktFrameReceive p f) s = .next (s.begin_.count Fd.PKT_RX_BAD_CNT p)) ∧
            (ipOk = true → udpOk = true → zero = false ∨ v6 = false → dp ≠ 319 → dp ≠ 320 →
              let from_ := s.begin_.ingress.find? fun i =>
                Session.admits (s.begin_.session i.2 i.2.source) (epPort i.2.source) ⟨p, f.vlan, v6, dst, src, dp, sp⟩
              (from_ = none → exec (.pktFrameReceive p f) s = .next (if s.begin_.standbyWaits ⟨p, f.vlan, v6, dst, src, dp, sp⟩ then s.begin_
                else s.begin_.count Fd.PKT_RX_DROP_CNT p)) ∧
              (∀ i, from_ = some i →
                (s.rd Fd.PKT_PAGE_CTL_Enable p = 0 → exec (.pktFrameReceive p f) s = .next s.begin_) ∧
                (s.rd Fd.PKT_PAGE_CTL_Enable p ≠ 0 → exec (.pktFrameReceive p f) s =
                  .next (((s.begin_.takeDatagram p i.1 i.2 bs).settleWatch).chooseIfReady s.begin_))))))) ∧
    (∀ p f, s.pktUp p = false → exec (.pktFrameReceive p f) s = .next s.begin_) ∧
    (s.rd Fd.PKT_PTP_STATE_State = 2 → s.working = true →
      ∃ t, exec .ptpAnnounceTimeout s = .next t ∧ t.rd Fd.PKT_PTP_STATE_State = 3 ∧ t.rd Fd.PKT_PAGE_ERR_PtpUnlocked = 1 ∧
        t.servo = { s.servo with good := 0, holdUntil := s.now + s.rd Fd.PKT_PTP_CTL_HoldoverSec * 1000000000 }) ∧
    (s.rd Fd.PKT_PTP_STATE_State = 3 →
      ∃ t, exec .ptpHoldoverExpire s = .next t ∧ t.rd Fd.PKT_PTP_STATE_State = 1 ∧ s.wordsKept t [Fd.PKT_PTP_STATE_State.addr 0 0]) ∧
    (∀ e t, s.stream e = some t → t.entry = e → t.state = 2 ∨ t.state = 3 ∨ t.state = 4 ∨ t.state = 5 → s.failStopped = false →
      (epKind t.source = 2 → 0 < t.nextJ → t.state ≠ 5 →
        ∃ (u : State) (x : Stream), exec (.packetFillTimeout e) s = .next (u.settleWatch.chooseIfReady s.begin_) ∧
          u = s.begin_.fillChunk t ∧ u.stream e = some x ∧ t.nextJ < x.nextJ) ∧
      (t.cls = 0 → epKind (State.packetSink t) = 2 →
        let per := Nat.max 1 (Session.per (s.begin_.session t (State.packetSink t)))
        (s.begin_.egressStart t (State.packetSink t) = none → exec (.packetForm e) s = .next s.begin_) ∧
        (∀ e0, s.begin_.egressStart t (State.packetSink t) = some e0 →
          ∃ (u : State) (x : Stream), exec (.packetForm e) s = .next u ∧ u.stream e = some x ∧ x.sent = roundUp t.sent per + per ∧
            x.e0 = some (State.packetSink t, e0))))

/-- O58. Audio ports start, capture, send, lock and steer. 15_audio_ports.md; notes/assumptions/89.md; notes/assumptions/107.md.
While BAR0 writes are taken, APT_START of a stopped port with a mode starts it: Enable and State 1, frame count 0; APT_STOP of a
port that sends or is about to shows State 3 and Enable 0. PREROLL_END of a starting port that waits for no lock shows State 2 once
the frames of its pre-roll have passed, and changes nothing before; STOP_END of a stopping port that is not enabled shows State 0
and drives its pins low once its last frame is over, and changes nothing before. INPUT_BLOCK_LAND of a whole block while the port
captures stamps it and lands it, and on a port that does not capture changes nothing. OUTPUT_TAKE outside its window of 2 us to 20
us, or of an entry that is IDLE, changes nothing; within it, at F0 or after it, a stream that runs takes its next chunk and sends
its frames. LOCK_LOSS of a locked port that needs lock clears Locked, counts, sets Interrupted and marks the gap of a port that
captures; LOCK_ACQUIRE sets it. IEC_BLOCK_RECEIVE loads status and user data, but with a channel status whose CRC fails loads the
user data alone, counts and sets IecCrc. STEER_UPDATE before the generator's update is due changes nothing but what the pins have
shown; when it is due it holds the generator with an invalid reference, and with a valid one shows the fill that the chip has
counted. How long a port on an outside clock takes for its frames, and what the pins have shown of them, is the model's (log entries
89 and 107). -/
def Obligations.AudioPortsRun : Prop :=
  ∀ (s : State) (p : Nat), p < 16 → s.apt.length = 16 →
    (s.hostWrites = true →
      (s.aptState p = 0 → s.aptMode p ≠ 0 → ∃ t, exec (.aptStart p) s = .next t ∧ t.rd Fd.APT_PAGE_CTL_Enable p = 1 ∧
        t.rd Fd.APT_STATUS_State p = 1 ∧ t.rd Fd.APT_STATUS_Locked p = 0 ∧ t.rd Fd.APT_FRAMES_LO p = 0 ∧ t.gens = s.gens) ∧
      (s.aptState p = 1 ∨ s.aptState p = 2 → (s.aport p).ahead = [] → ∃ t, exec (.aptStop p) s = .next t ∧ t.rd Fd.APT_PAGE_CTL_Enable p = 0 ∧
        t.rd Fd.APT_STATUS_State p = 3 ∧ (t.aport p).stopTime = s.now)) ∧
    (s.aptState p = 1 →
      (s.prerolled p = false → exec (.prerollEnd p) s = .next s.begin_) ∧
      (s.prerolled p = true → s.aptMode p ≠ 4 → ∃ t, exec (.prerollEnd p) s = .next t ∧ t.rd Fd.APT_STATUS_State p = 2 ∧
        s.wordsKept t [Fd.APT_STATUS_State.addr p 0])) ∧
    (s.aptState p = 3 → s.now < (s.aport p).stopEnd → exec (.stopEnd p) s = .next s.begin_) ∧
    (s.aptState p = 3 → (s.aport p).stopEnd ≤ s.now → s.rd Fd.APT_PAGE_CTL_Enable p = 0 → ∃ t, exec (.stopEnd p) s = .next t ∧ t.rd Fd.APT_STATUS_State p = 0 ∧
      t.rd Fd.APT_STATUS_Locked p = 0 ∧ t.out = [.audioLow p]) ∧
    (s.captures p = false → ∀ xs pin e, exec (.inputBlockLand p xs pin e) s = .next s.begin_) ∧
    (s.captures p = true → ∀ xs pin e, xs.length = 2 ^ s.rd Fd.APT_BLOCK_BlockLog2 p * s.aptDiv p → (s.aport p).sampleNo = 0 →
      (s.aport p).blkWas.2 ≤ pin →
      ∃ u : State, exec (.inputBlockLand p xs pin e) s = .next (u.settleWatch.chooseIfReady s.begin_) ∧ u.rd Fd.APT_STAMP_LO p = pin % 2 ^ 32 ∧
        u.rd Fd.APT_STAMP_HI p = pin / 2 ^ 32 % 2 ^ 32 ∧ u.rd Fd.APT_STAMP_FRAME p = 0) ∧
    (∀ e f pin, (s.stream e = none → exec (.outputTake e f pin) s = .next s.begin_) ∧
      (∀ x, s.stream e = some x →
        let sink := ((x.outputs.find? fun o => o.1 == x.taken).map (·.2)).getD x.sink
        (s.takeInTime pin = false → exec (.outputTake e f pin) s = .next s.begin_) ∧
        (x.entry = e → s.failStopped = false → epKind sink = 1 → s.aptState (epPort sink) ≠ 0 → x.state = 2 ∨ x.state = 4 → s.takeInTime pin = true →
          x.f0.isSome = true ∨ s.fixesF0 x (epPort sink) f = true →
          ∃ (t : State) (y : Stream) (w : List (List Nat)), exec (.outputTake e f pin) s = .next t ∧ t.stream e = some y ∧
            y.taken = x.taken + 1 ∧ y.f0 = some (x.f0.getD f) ∧
            t.out = [.audio (epPort sink) (x.f0.getD f + if x.f0.isNone then 0 else x.outAt * s.aptDiv (epPort sink)) (epIndex sink) w]))) ∧
    (s.needsLock p = true → s.aptState p ≠ 0 →
      (s.rd Fd.APT_STATUS_Locked p = 1 → ∀ xs pin e, ∃ t, exec (.lockLoss p xs pin e) s = .next t ∧
        t.rd Fd.APT_STATUS_Locked p = 0 ∧ t.rd Fd.APT_PAGE_ERR_Interrupted p = 1 ∧ (t.aport p).lost = s.captures p ∧ (t.aport p).lastEnd = e) ∧
      (s.rd Fd.APT_STATUS_Locked p = 0 → (s.aport p).lost = false → ∀ g, ∃ t, exec (.lockAcquire p g) s = .next t ∧
        t.rd Fd.APT_STATUS_Locked p = 1 ∧ s.wordsKept t [Fd.APT_STATUS_Locked.addr p 0])) ∧
    (∀ cs us, s.aptMode p ≠ 4 ∨ s.captures p = false → exec (.iecBlockReceive p cs us) s = .next s.begin_) ∧
    (∀ us, s.aptMode p = 4 → s.captures p = true → us.length = 384 →
      ∃ t, exec (.iecBlockReceive p (List.replicate 384 false) us) s = .next t ∧
        (∀ w, w < 6 → t.rdAt Fd.APT_IEC_CSRX_A p w = 0 ∧ t.rdAt Fd.APT_IEC_CSRX_B p w = 0) ∧
        (∀ w, w < 12 → t.rdAt Fd.APT_IEC_URX p w = packBits ((us.drop (32 * w)).take 32))) ∧
    (∀ us, s.aptMode p = 4 → s.captures p = true → us.length = 384 →
      ∃ t, exec (.iecBlockReceive p (true :: List.replicate 383 false) us) s = .next t ∧ t.rd Fd.APT_PAGE_ERR_IecCrc p = 1 ∧
        t.rd Fd.APT_IEC_CRC_CNT p = (s.rd Fd.APT_IEC_CRC_CNT p + 1) % 2 ^ Fd.APT_IEC_CRC_CNT.width ∧
        (∀ w, w < 6 → t.rdAt Fd.APT_IEC_CSRX_A p w = s.rdAt Fd.APT_IEC_CSRX_A p w ∧
          t.rdAt Fd.APT_IEC_CSRX_B p w = s.rdAt Fd.APT_IEC_CSRX_B p w) ∧
        (∀ w, w < 12 → t.rdAt Fd.APT_IEC_URX p w = packBits ((us.drop (32 * w)).take 32))) ∧
    (∀ i ps, i < 4 → (s.begin_.seePins ps).updateDue i = false → exec (.steerUpdate i ps) s = .next (s.begin_.seePins ps)) ∧
    (∀ i ps, i < 4 → (s.begin_.seePins ps).updateDue i = true → s.refValid i = false → ∃ t, exec (.steerUpdate i ps) s = .next t ∧
      t.rdAt Fd.APT_GEN_STATUS_Holding 0 i = 1 ∧ s.wordsKept t [Fd.APT_GEN_STATUS_Holding.addr 0 i]) ∧
    (∀ i ps, i < 4 → (s.begin_.seePins ps).updateDue i = true → s.refValid i = true →
      let u := s.begin_.seePins ps
      let t1 := (s.gens.getD i {}).t1.getD (u.ptpScaled s.now 1, u.outCount i)
      ∃ t, exec (.steerUpdate i ps) s = .next t ∧ t.rdAt Fd.APT_GEN_STATUS_Holding 0 i = 0 ∧
        t.rdAt Fd.APT_GEN_FILL 0 i = ofSigned 32 (u.refCount i t1 - u.outCount i))

/-- O59. A probe that is not answered, or a write of PNT_RESUME, activates standbys. 17_failover.md; notes/assumptions/81.md;
notes/assumptions/40.md. PROBE_TIMEOUT with a probe outstanding, outside fail-stop, takes the oldest probe off and, while PNT is
enabled, activates every valid standby of its origin and lets the gaffer choose; with none outstanding it changes nothing.
STANDBY_RESUME with Go while PNT is enabled activates the record that it names; with a reserved bit it is dropped with BadWrite, and
without Go it changes nothing. The activation of a record that is not valid only reads it. That of a valid one shows its index, its
origin and the first of the five failing tests in PNT_LAST_RESUME with ResumeFail set; where none fails it shows Code 0, sets
Resumed, and the entry has its stream. Which reports start a probe and which records are tried is log entry 81's; that a read of a
record is a narrow read of the PNT block, log entry 40's. -/
def Obligations.StandbysResume : Prop :=
  ∀ s : State,
    (s.fo.probes = [] → exec .probeTimeout s = .next s.begin_) ∧
    (∀ x xs, s.fo.probes = x :: xs → s.failStopped = false →
      let u : State := { s.begin_ with fo := { s.fo with probes := xs } }
      (s.rd Fd.PNT_PAGE_CTL_Enable = 0 → exec .probeTimeout s = .next u) ∧
      (s.rd Fd.PNT_PAGE_CTL_Enable ≠ 0 → exec .probeTimeout s = .next (u.activateAll x.1).choose)) ∧
    (s.hostWrites = true → ∀ w, w < 2 ^ 32 →
      (slice w 12 19 ≠ 0 → exec (.standbyResume w) s = .next (s.begin_.badWrite .pnt 0)) ∧
      (slice w 12 19 = 0 → bitAt w 31 = false → exec (.standbyResume w) s = .next s.begin_) ∧
      (slice w 12 19 = 0 → bitAt w 31 = true → s.rd Fd.PNT_PAGE_CTL_Enable = 1 →
        exec (.standbyResume w) s = .next (s.begin_.activate (w % 4096)).choose)) ∧
    (∀ k, k < 4096 →
      let e := s.standbyRaw k
      let read := (s.devRead .pnt 0 (s.standbyAddr k) 512).2
      (Standby.valid e = false → s.activate k = read) ∧
      (Standby.valid e = true →
        let u := (read.devRead .pnt 0 (Standby.mirror e) 256).2.lpNarrowPut (s.standbyAddr k) (leBytes 1 (leAt e 0 1 &&& 0xFE)) .pnt
        let sl := u.devBytes (Standby.mirror e) 256
        let code := if sealGood e sl = false then 1 else if u.entryState (Standby.local_ e) ≠ 0 then 2
          else match u.image (leAt (Standby.template e) 8 1) with
            | none => 3
            | some m => if u.meetsR54 (Standby.local_ e) (u.resumedEntry e sl m.kv.isSome (m.numSections != 0)) = false then 4
              else if u.roomFor m = false then 5 else 0
        (s.activate k).rd Fd.PNT_LAST_RESUME_Index = k ∧ (s.activate k).rd Fd.PNT_LAST_RESUME_Code = code ∧
          (s.activate k).rd Fd.PNT_LAST_RESUME_Origin = Standby.origin e % 1024 ∧
          (code ≠ 0 → (s.activate k).rd Fd.PNT_PAGE_ERR_ResumeFail = 1) ∧
          (code = 0 → (s.activate k).rd Fd.PNT_PAGE_ERR_Resumed = 1 ∧ ((s.activate k).stream (Standby.local_ e)).isSome = true)))

/-- O60. A group scale is valid by its sign and exponent; an invalid one makes products NaN. R90. A binary16 group scale is valid
when its sign bit is 0 and its exponent field is not all ones; zero and subnormal scales are valid. A product with an invalid scale
on either side is NaN, which converts to 0 in symmetric A8, to z in A8 with a zero point, and to the canonical NaN, or +0 with
NanZero, in FP8 and BF16. -/
def Obligations.InvalidScalesMakeNan : Prop :=
  ∀ c : Nat, c < 2 ^ 16 →
    (scaleOk c = true ↔ c / 2 ^ 15 = 0 ∧ c / 2 ^ 10 % 32 ≠ 31) ∧
    (c < 2 ^ 10 → scaleOk c = true) ∧
    (scaleOk c = true → scaleVal c = fp16.decode c) ∧
    (scaleOk c = false → ∀ x : FVal, fvProd (scaleVal c) x = .nan ∧ fvProd x (scaleVal c) = .nan ∧
      ∀ (r : Rnd) (v z : Nat), convertA8 true r (fp32.encode (fvProd x (scaleVal c))) v z = 0 ∧
        convertA8 false r (fp32.encode (fvProd x (scaleVal c))) v z = z ∧
        ∀ fmt, fmt = 3 ∨ fmt = 4 ∨ fmt = 5 →
          convertFp fmt r true (fp32.encode (fvProd x (scaleVal c))) = 0 ∧
          convertFp fmt r false (fp32.encode (fvProd x (scaleVal c))) = (if fmt = 3 then e4m3 else if fmt = 4 then e5m2 else bf16).nanBits)
end

