-- ==== Sys2Proof/Laws/Frame.lean ====
section
/-! SUPPORT. What every function of the model may change: a frame says which parts of the state are as before. -/
namespace Sys2Proof.Machine
open Sys2Proof

/-- `s` comes from `o` by an effect that changes, beside the model's own fields, only parts whose bit of `M` is set: 0 the register file, 1 event counters, 2 the log, 3 the system counter, 4 parison, 5 gaffer, 6 damper, 7 the scratchpad, 8 region tables, 9 LPDDR, 10 memory sites, 11 host memory, 12 transfers, 13 links, 14 network time, 15 audio ports, 16 failover, 17 ring counts, 18 the security block, 19 the tally, 20 power and start-up. -/
structure Frame (M : Nat) (o s : State) : Prop where
  pending : s.pending = o.pending
  regs : M.testBit 0 = false → s.regs = o.regs
  evt : M.testBit 1 = false → s.evt = o.evt
  log : M.testBit 2 = false → s.log = o.log
  clk : M.testBit 3 = false → s.clk = o.clk
  par : M.testBit 4 = false → s.par = o.par
  gaf : M.testBit 5 = false → s.gaf = o.gaf
  dmp : M.testBit 6 = false → s.dmp = o.dmp
  spad : M.testBit 7 = false → s.spad = o.spad ∧ s.spadBad = o.spadBad ∧ s.spadSoft = o.spadSoft
  regions : M.testBit 8 = false → s.regions = o.regions ∧ s.scrubs = o.scrubs
  lpddr : M.testBit 9 = false → s.lpddr = o.lpddr ∧ s.lpBad = o.lpBad
  sites : M.testBit 10 = false → s.sites = o.sites
  host : M.testBit 11 = false → s.host = o.host
  dma : M.testBit 12 = false → s.builtIns = o.builtIns ∧ s.flights = o.flights ∧ s.nextId = o.nextId
  lnk : M.testBit 13 = false → s.lnk = o.lnk
  servo : M.testBit 14 = false → s.servo = o.servo
  apt : M.testBit 15 = false → s.apt = o.apt ∧ s.gens = o.gens
  fo : M.testBit 16 = false → s.fo = o.fo
  rings : M.testBit 17 = false → s.rings = o.rings ∧ s.logRing = o.logRing ∧ s.tallyRing = o.tallyRing
  sec : M.testBit 18 = false → s.sec = o.sec
  tly : M.testBit 19 = false → s.tly = o.tly
  pow : M.testBit 20 = false → s.pow = o.pow

variable {M : Nat} {o s t u : State} {α β γ : Type}

/-- The same of a state in a pair, a triple, an option, a result. -/
def Frame1 (M : Nat) (o : State) (p : State × α) : Prop := Frame M o p.1
def Frame2 (M : Nat) (o : State) (p : α × State) : Prop := Frame M o p.2
def Frame3 (M : Nat) (o : State) (p : α × β × State) : Prop := Frame M o p.2.2
def FrameOpt (M : Nat) (o : State) (p : Option State) : Prop := ∀ t, p = some t → Frame M o t
def FrameOk (M : Nat) (o : State) (p : Except α State) : Prop := ∀ t, p = .ok t → Frame M o t
def FrameNext (M : Nat) (o : State) (p : Result) : Prop := ∀ t, p = .next t → Frame M o t

theorem lor_mono {n k : Nat} (h : k ||| M = M) (e : n ||| k = k) : n ||| M = M := by
  rw [← h, ← Nat.or_assoc, e]

theorem bit_set {k i : Nat} (h : k ||| M = M) (e : k.testBit i = true) (f : M.testBit i = false) : False := by
  rw [← h, Nat.testBit_or, e] at f
  exact nomatch f

theorem frame_refl (s : State) : Frame M s s :=
  ⟨rfl, fun _ => rfl, fun _ => rfl, fun _ => rfl, fun _ => rfl, fun _ => rfl, fun _ => rfl, fun _ => rfl, fun _ => ⟨rfl, rfl, rfl⟩, fun _ => ⟨rfl, rfl⟩, fun _ => ⟨rfl, rfl⟩, fun _ => rfl, fun _ => rfl, fun _ => ⟨rfl, rfl, rfl⟩, fun _ => rfl, fun _ => rfl, fun _ => ⟨rfl, rfl⟩, fun _ => rfl, fun _ => ⟨rfl, rfl, rfl⟩, fun _ => rfl, fun _ => rfl, fun _ => rfl⟩

theorem frame_ite {c : Prop} [Decidable c] (h : Frame M o s) (k : Frame M o t) : Frame M o (if c then s else t) := by
  split
  · exact h
  · exact k

theorem frame_foldl {f : State → α → State} {xs : List α} {p : State} (h : Frame M o p)
    (hf : ∀ q x, Frame M o q → Frame M o (f q x)) : Frame M o (xs.foldl f p) := by
  induction xs generalizing p with
  | nil => exact h
  | cons x xs ih => exact ih (hf p x h)

theorem frame_foldl1 {f : State × β → α → State × β} {xs : List α} {p : State × β} (h : Frame1 M o p)
    (hf : ∀ q x, Frame1 M o q → Frame1 M o (f q x)) : Frame1 M o (xs.foldl f p) := by
  induction xs generalizing p with
  | nil => exact h
  | cons x xs ih => exact ih (hf p x h)

theorem frame_foldl2 {f : β × State → α → β × State} {xs : List α} {p : β × State} (h : Frame2 M o p)
    (hf : ∀ q x, Frame2 M o q → Frame2 M o (f q x)) : Frame2 M o (xs.foldl f p) := by
  induction xs generalizing p with
  | nil => exact h
  | cons x xs ih => exact ih (hf p x h)

theorem frame_foldl3 {f : β × γ × State → α → β × γ × State} {xs : List α} {p : β × γ × State} (h : Frame3 M o p)
    (hf : ∀ q x, Frame3 M o q → Frame3 M o (f q x)) : Frame3 M o (xs.foldl f p) := by
  induction xs generalizing p with
  | nil => exact h
  | cons x xs ih => exact ih (hf p x h)

theorem frame_foldlOpt {f : Option State → α → Option State} {xs : List α} {p : Option State} (h : FrameOpt M o p)
    (hf : ∀ q x, FrameOpt M o q → FrameOpt M o (f q x)) : FrameOpt M o (xs.foldl f p) := by
  induction xs generalizing p with
  | nil => exact h
  | cons x xs ih => exact ih (hf p x h)

theorem Frame1.mk {a : α} (h : Frame M o s) : Frame1 M o (s, a) := h
theorem Frame1.get {p : State × α} (h : Frame1 M o p) : Frame M o p.1 := h
theorem Frame1.of_eq {p : State × α} {a : α} (e : p = (s, a)) (h : Frame1 M o p) : Frame M o s := by
  rw [e] at h
  exact h
theorem Frame1.ite {p q : State × α} {c : Prop} [Decidable c] (h : Frame1 M o p) (k : Frame1 M o q) : Frame1 M o (if c then p else q) := by
  split
  · exact h
  · exact k

theorem Frame2.mk {a : α} (h : Frame M o s) : Frame2 M o (a, s) := h
theorem Frame2.get {p : α × State} (h : Frame2 M o p) : Frame M o p.2 := h
theorem Frame2.of_eq {p : α × State} {a : α} (e : p = (a, s)) (h : Frame2 M o p) : Frame M o s := by
  rw [e] at h
  exact h
theorem Frame2.ite {p q : α × State} {c : Prop} [Decidable c] (h : Frame2 M o p) (k : Frame2 M o q) : Frame2 M o (if c then p else q) := by
  split
  · exact h
  · exact k

theorem Frame3.mk {a : α} {b : β} (h : Frame M o s) : Frame3 M o (a, b, s) := h
theorem Frame3.get {p : α × β × State} (h : Frame3 M o p) : Frame M o p.2.2 := h
theorem Frame3.of_eq {p : α × β × State} {a : α} {b : β} (e : p = (a, b, s)) (h : Frame3 M o p) : Frame M o s := by
  rw [e] at h
  exact h
theorem Frame3.ite {p q : α × β × State} {c : Prop} [Decidable c] (h : Frame3 M o p) (k : Frame3 M o q) : Frame3 M o (if c then p else q) := by
  split
  · exact h
  · exact k

theorem FrameOpt.none : FrameOpt M o none := fun _ h => nomatch h
theorem FrameOpt.some (h : Frame M o s) : FrameOpt M o (some s) := fun _ e => Option.some.inj e ▸ h
theorem FrameOpt.of_eq {p : Option State} (e : p = .some s) (h : FrameOpt M o p) : Frame M o s := h s e
theorem FrameOpt.ite {p q : Option State} {c : Prop} [Decidable c] (h : FrameOpt M o p) (k : FrameOpt M o q) :
    FrameOpt M o (if c then p else q) := by
  split
  · exact h
  · exact k
theorem FrameOpt.map {p : Option α} {f : α → State} (hf : ∀ x, p = .some x → Frame M o (f x)) : FrameOpt M o (p.map f) := by
  intro t e
  obtain ⟨x, hx, rfl⟩ := Option.map_eq_some_iff.1 e
  exact hf x hx
theorem frame_getD {p : Option State} (h : FrameOpt M o p) (k : Frame M o s) : Frame M o (p.getD s) := by
  cases p with
  | none => exact k
  | some t => exact h t rfl

theorem FrameOk.error {a : α} : FrameOk M o (Except.error a) := fun _ h => nomatch h
theorem FrameOk.ok (h : Frame M o s) : FrameOk (α := α) M o (.ok s) := fun _ e => Except.ok.inj e ▸ h
theorem FrameOk.of_eq {p : Except α State} (e : p = .ok s) (h : FrameOk M o p) : Frame M o s := h s e
theorem FrameOk.ite {p q : Except α State} {c : Prop} [Decidable c] (h : FrameOk M o p) (k : FrameOk M o q) :
    FrameOk M o (if c then p else q) := by
  split
  · exact h
  · exact k

theorem FrameNext.next (h : Frame M o s) : FrameNext M o (.next s) := fun _ e => Host.Outcome.next.inj e ▸ h
theorem FrameNext.fault {f : Fault} : FrameNext M o (.fault f) := fun _ h => nomatch h
theorem FrameNext.ite {p q : Result} {c : Prop} [Decidable c] (h : FrameNext M o p) (k : FrameNext M o q) :
    FrameNext M o (if c then p else q) := by
  split
  · exact h
  · exact k

end Sys2Proof.Machine
end

