-- ==== Sys2Proof/Laws/FrameWith.lean ====
section
/-! SUPPORT. An update of some parts of the state keeps every frame whose mask has those parts. -/
namespace Sys2Proof.Machine
open Sys2Proof

set_option Elab.async false

theorem frame_with {M : Nat} {o u : State} (_hM : 0 ||| M = M) (h : Frame M o u) {out' : List Out} {freeTick' : Nat} :
    Frame M o ⟨u.pending, out', freeTick', u.regs, u.evt, u.log, u.clk, u.par, u.gaf, u.dmp, u.spad, u.spadBad, u.spadSoft, u.regions, u.scrubs, u.lpddr, u.lpBad, u.sites, u.host, u.builtIns, u.flights, u.nextId, u.lnk, u.servo, u.apt, u.gens, u.fo, u.rings, u.logRing, u.tallyRing, u.sec, u.tly, u.pow⟩ :=
  ⟨h.pending, h.regs, h.evt, h.log, h.clk, h.par, h.gaf, h.dmp, h.spad, h.regions, h.lpddr, h.sites, h.host, h.dma, h.lnk, h.servo, h.apt, h.fo, h.rings, h.sec, h.tly, h.pow⟩

theorem frame_with_regs {M : Nat} {o u : State} (hM : 1 ||| M = M) (h : Frame M o u) {out' : List Out} {freeTick' : Nat} {regs' : List (Nat × Word)} :
    Frame M o ⟨u.pending, out', freeTick', regs', u.evt, u.log, u.clk, u.par, u.gaf, u.dmp, u.spad, u.spadBad, u.spadSoft, u.regions, u.scrubs, u.lpddr, u.lpBad, u.sites, u.host, u.builtIns, u.flights, u.nextId, u.lnk, u.servo, u.apt, u.gens, u.fo, u.rings, u.logRing, u.tallyRing, u.sec, u.tly, u.pow⟩ :=
  ⟨h.pending, fun k => (bit_set hM rfl k).elim, h.evt, h.log, h.clk, h.par, h.gaf, h.dmp, h.spad, h.regions, h.lpddr, h.sites, h.host, h.dma, h.lnk, h.servo, h.apt, h.fo, h.rings, h.sec, h.tly, h.pow⟩

theorem frame_with_regs_evt_log_clk_par_gaf_dmp_spad_regions_lpddr_sites_dma_lnk_servo_apt_fo_rings_sec_tly_pow {M : Nat} {o u : State} (hM : 2095103 ||| M = M) (h : Frame M o u) {out' : List Out} {freeTick' : Nat} {regs' : List (Nat × Word)} {evt' : List (Nat × Nat)} {log' : LogState} {clk' : Clock} {par' : Parison} {gaf' : Gaffer} {dmp' : Damper} {spad' : List Host.Cell} {spadBad' : List Nat} {spadSoft' : List Nat} {regions' : List Region} {scrubs' : List (Nat × List (Nat × Nat))} {lpddr' : List Host.Cell} {lpBad' : List (Nat × Bool)} {sites' : List Site} {builtIns' : List BuiltIn} {flights' : List Flight} {nextId' : Nat} {lnk' : Links} {servo' : Servo} {apt' : List AudioPort} {gens' : List Gen} {fo' : Failover} {rings' : List RingCount} {logRing' : RingCount} {tallyRing' : RingCount} {sec' : Security} {tly' : Tally} {pow' : Power} :
    Frame M o ⟨u.pending, out', freeTick', regs', evt', log', clk', par', gaf', dmp', spad', spadBad', spadSoft', regions', scrubs', lpddr', lpBad', sites', u.host, builtIns', flights', nextId', lnk', servo', apt', gens', fo', rings', logRing', tallyRing', sec', tly', pow'⟩ :=
  ⟨h.pending, fun k => (bit_set hM rfl k).elim, fun k => (bit_set hM rfl k).elim, fun k => (bit_set hM rfl k).elim, fun k => (bit_set hM rfl k).elim, fun k => (bit_set hM rfl k).elim, fun k => (bit_set hM rfl k).elim, fun k => (bit_set hM rfl k).elim, fun k => (bit_set hM rfl k).elim, fun k => (bit_set hM rfl k).elim, fun k => (bit_set hM rfl k).elim, fun k => (bit_set hM rfl k).elim, h.host, fun k => (bit_set hM rfl k).elim, fun k => (bit_set hM rfl k).elim, fun k => (bit_set hM rfl k).elim, fun k => (bit_set hM rfl k).elim, fun k => (bit_set hM rfl k).elim, fun k => (bit_set hM rfl k).elim, fun k => (bit_set hM rfl k).elim, fun k => (bit_set hM rfl k).elim, fun k => (bit_set hM rfl k).elim⟩

theorem frame_with_evt {M : Nat} {o u : State} (hM : 2 ||| M = M) (h : Frame M o u) {out' : List Out} {freeTick' : Nat} {evt' : List (Nat × Nat)} :
    Frame M o ⟨u.pending, out', freeTick', u.regs, evt', u.log, u.clk, u.par, u.gaf, u.dmp, u.spad, u.spadBad, u.spadSoft, u.regions, u.scrubs, u.lpddr, u.lpBad, u.sites, u.host, u.builtIns, u.flights, u.nextId, u.lnk, u.servo, u.apt, u.gens, u.fo, u.rings, u.logRing, u.tallyRing, u.sec, u.tly, u.pow⟩ :=
  ⟨h.pending, h.regs, fun k => (bit_set hM rfl k).elim, h.log, h.clk, h.par, h.gaf, h.dmp, h.spad, h.regions, h.lpddr, h.sites, h.host, h.dma, h.lnk, h.servo, h.apt, h.fo, h.rings, h.sec, h.tly, h.pow⟩

theorem frame_with_evt_clk_par_gaf_dmp_spad_regions_lpddr_sites_dma_lnk_servo_apt_fo_rings_sec_tly_pow {M : Nat} {o u : State} (hM : 2095098 ||| M = M) (h : Frame M o u) {out' : List Out} {freeTick' : Nat} {evt' : List (Nat × Nat)} {clk' : Clock} {par' : Parison} {gaf' : Gaffer} {dmp' : Damper} {spad' : List Host.Cell} {spadBad' : List Nat} {spadSoft' : List Nat} {regions' : List Region} {scrubs' : List (Nat × List (Nat × Nat))} {lpddr' : List Host.Cell} {lpBad' : List (Nat × Bool)} {sites' : List Site} {builtIns' : List BuiltIn} {flights' : List Flight} {nextId' : Nat} {lnk' : Links} {servo' : Servo} {apt' : List AudioPort} {gens' : List Gen} {fo' : Failover} {rings' : List RingCount} {logRing' : RingCount} {tallyRing' : RingCount} {sec' : Security} {tly' : Tally} {pow' : Power} :
    Frame M o ⟨u.pending, out', freeTick', u.regs, evt', u.log, clk', par', gaf', dmp', spad', spadBad', spadSoft', regions', scrubs', lpddr', lpBad', sites', u.host, builtIns', flights', nextId', lnk', servo', apt', gens', fo', rings', logRing', tallyRing', sec', tly', pow'⟩ :=
  ⟨h.pending, h.regs, fun k => (bit_set hM rfl k).elim, h.log, fun k => (bit_set hM rfl k).elim, fun k => (bit_set hM rfl k).elim, fun k => (bit_set hM rfl k).elim, fun k => (bit_set hM rfl k).elim, fun k => (bit_set hM rfl k).elim, fun k => (bit_set hM rfl k).elim, fun k => (bit_set hM rfl k).elim, fun k => (bit_set hM rfl k).elim, h.host, fun k => (bit_set hM rfl k).elim, fun k => (bit_set hM rfl k).elim, fun k => (bit_set hM rfl k).elim, fun k => (bit_set hM rfl k).elim, fun k => (bit_set hM rfl k).elim, fun k => (bit_set hM rfl k).elim, fun k => (bit_set hM rfl k).elim, fun k => (bit_set hM rfl k).elim, fun k => (bit_set hM rfl k).elim⟩

theorem frame_with_evt_gaf_dmp_regions_servo_apt_fo_rings_sec_pow {M : Nat} {o u : State} (hM : 1556834 ||| M = M) (h : Frame M o u) {out' : List Out} {freeTick' : Nat} {evt' : List (Nat × Nat)} {gaf' : Gaffer} {dmp' : Damper} {regions' : List Region} {scrubs' : List (Nat × List (Nat × Nat))} {servo' : Servo} {apt' : List AudioPort} {gens' : List Gen} {fo' : Failover} {rings' : List RingCount} {logRing' : RingCount} {tallyRing' : RingCount} {sec' : Security} {pow' : Power} :
    Frame M o ⟨u.pending, out', freeTick', u.regs, evt', u.log, u.clk, u.par, gaf', dmp', u.spad, u.spadBad, u.spadSoft, regions', scrubs', u.lpddr, u.lpBad, u.sites, u.host, u.builtIns, u.flights, u.nextId, u.lnk, servo', apt', gens', fo', rings', logRing', tallyRing', sec', u.tly, pow'⟩ :=
  ⟨h.pending, h.regs, fun k => (bit_set hM rfl k).elim, h.log, h.clk, h.par, fun k => (bit_set hM rfl k).elim, fun k => (bit_set hM rfl k).elim, h.spad, fun k => (bit_set hM rfl k).elim, h.lpddr, h.sites, h.host, h.dma, h.lnk, fun k => (bit_set hM rfl k).elim, fun k => (bit_set hM rfl k).elim, fun k => (bit_set hM rfl k).elim, fun k => (bit_set hM rfl k).elim, fun k => (bit_set hM rfl k).elim, h.tly, fun k => (bit_set hM rfl k).elim⟩

theorem frame_with_log {M : Nat} {o u : State} (hM : 4 ||| M = M) (h : Frame M o u) {out' : List Out} {freeTick' : Nat} {log' : LogState} :
    Frame M o ⟨u.pending, out', freeTick', u.regs, u.evt, log', u.clk, u.par, u.gaf, u.dmp, u.spad, u.spadBad, u.spadSoft, u.regions, u.scrubs, u.lpddr, u.lpBad, u.sites, u.host, u.builtIns, u.flights, u.nextId, u.lnk, u.servo, u.apt, u.gens, u.fo, u.rings, u.logRing, u.tallyRing, u.sec, u.tly, u.pow⟩ :=
  ⟨h.pending, h.regs, h.evt, fun k => (bit_set hM rfl k).elim, h.clk, h.par, h.gaf, h.dmp, h.spad, h.regions, h.lpddr, h.sites, h.host, h.dma, h.lnk, h.servo, h.apt, h.fo, h.rings, h.sec, h.tly, h.pow⟩

theorem frame_with_log_rings {M : Nat} {o u : State} (hM : 131076 ||| M = M) (h : Frame M o u) {out' : List Out} {freeTick' : Nat} {log' : LogState} {rings' : List RingCount} {logRing' : RingCount} {tallyRing' : RingCount} :
    Frame M o ⟨u.pending, out', freeTick', u.regs, u.evt, log', u.clk, u.par, u.gaf, u.dmp, u.spad, u.spadBad, u.spadSoft, u.regions, u.scrubs, u.lpddr, u.lpBad, u.sites, u.host, u.builtIns, u.flights, u.nextId, u.lnk, u.servo, u.apt, u.gens, u.fo, rings', logRing', tallyRing', u.sec, u.tly, u.pow⟩ :=
  ⟨h.pending, h.regs, h.evt, fun k => (bit_set hM rfl k).elim, h.clk, h.par, h.gaf, h.dmp, h.spad, h.regions, h.lpddr, h.sites, h.host, h.dma, h.lnk, h.servo, h.apt, h.fo, fun k => (bit_set hM rfl k).elim, h.sec, h.tly, h.pow⟩

theorem frame_with_clk {M : Nat} {o u : State} (hM : 8 ||| M = M) (h : Frame M o u) {out' : List Out} {freeTick' : Nat} {clk' : Clock} :
    Frame M o ⟨u.pending, out', freeTick', u.regs, u.evt, u.log, clk', u.par, u.gaf, u.dmp, u.spad, u.spadBad, u.spadSoft, u.regions, u.scrubs, u.lpddr, u.lpBad, u.sites, u.host, u.builtIns, u.flights, u.nextId, u.lnk, u.servo, u.apt, u.gens, u.fo, u.rings, u.logRing, u.tallyRing, u.sec, u.tly, u.pow⟩ :=
  ⟨h.pending, h.regs, h.evt, h.log, fun k => (bit_set hM rfl k).elim, h.par, h.gaf, h.dmp, h.spad, h.regions, h.lpddr, h.sites, h.host, h.dma, h.lnk, h.servo, h.apt, h.fo, h.rings, h.sec, h.tly, h.pow⟩

theorem frame_with_clk_par_tly {M : Nat} {o u : State} (hM : 524312 ||| M = M) (h : Frame M o u) {out' : List Out} {freeTick' : Nat} {clk' : Clock} {par' : Parison} {tly' : Tally} :
    Frame M o ⟨u.pending, out', freeTick', u.regs, u.evt, u.log, clk', par', u.gaf, u.dmp, u.spad, u.spadBad, u.spadSoft, u.regions, u.scrubs, u.lpddr, u.lpBad, u.sites, u.host, u.builtIns, u.flights, u.nextId, u.lnk, u.servo, u.apt, u.gens, u.fo, u.rings, u.logRing, u.tallyRing, u.sec, tly', u.pow⟩ :=
  ⟨h.pending, h.regs, h.evt, h.log, fun k => (bit_set hM rfl k).elim, fun k => (bit_set hM rfl k).elim, h.gaf, h.dmp, h.spad, h.regions, h.lpddr, h.sites, h.host, h.dma, h.lnk, h.servo, h.apt, h.fo, h.rings, h.sec, fun k => (bit_set hM rfl k).elim, h.pow⟩

theorem frame_with_clk_pow {M : Nat} {o u : State} (hM : 1048584 ||| M = M) (h : Frame M o u) {out' : List Out} {freeTick' : Nat} {clk' : Clock} {pow' : Power} :
    Frame M o ⟨u.pending, out', freeTick', u.regs, u.evt, u.log, clk', u.par, u.gaf, u.dmp, u.spad, u.spadBad, u.spadSoft, u.regions, u.scrubs, u.lpddr, u.lpBad, u.sites, u.host, u.builtIns, u.flights, u.nextId, u.lnk, u.servo, u.apt, u.gens, u.fo, u.rings, u.logRing, u.tallyRing, u.sec, u.tly, pow'⟩ :=
  ⟨h.pending, h.regs, h.evt, h.log, fun k => (bit_set hM rfl k).elim, h.par, h.gaf, h.dmp, h.spad, h.regions, h.lpddr, h.sites, h.host, h.dma, h.lnk, h.servo, h.apt, h.fo, h.rings, h.sec, h.tly, fun k => (bit_set hM rfl k).elim⟩

theorem frame_with_par {M : Nat} {o u : State} (hM : 16 ||| M = M) (h : Frame M o u) {out' : List Out} {freeTick' : Nat} {par' : Parison} :
    Frame M o ⟨u.pending, out', freeTick', u.regs, u.evt, u.log, u.clk, par', u.gaf, u.dmp, u.spad, u.spadBad, u.spadSoft, u.regions, u.scrubs, u.lpddr, u.lpBad, u.sites, u.host, u.builtIns, u.flights, u.nextId, u.lnk, u.servo, u.apt, u.gens, u.fo, u.rings, u.logRing, u.tallyRing, u.sec, u.tly, u.pow⟩ :=
  ⟨h.pending, h.regs, h.evt, h.log, h.clk, fun k => (bit_set hM rfl k).elim, h.gaf, h.dmp, h.spad, h.regions, h.lpddr, h.sites, h.host, h.dma, h.lnk, h.servo, h.apt, h.fo, h.rings, h.sec, h.tly, h.pow⟩

theorem frame_with_gaf {M : Nat} {o u : State} (hM : 32 ||| M = M) (h : Frame M o u) {out' : List Out} {freeTick' : Nat} {gaf' : Gaffer} :
    Frame M o ⟨u.pending, out', freeTick', u.regs, u.evt, u.log, u.clk, u.par, gaf', u.dmp, u.spad, u.spadBad, u.spadSoft, u.regions, u.scrubs, u.lpddr, u.lpBad, u.sites, u.host, u.builtIns, u.flights, u.nextId, u.lnk, u.servo, u.apt, u.gens, u.fo, u.rings, u.logRing, u.tallyRing, u.sec, u.tly, u.pow⟩ :=
  ⟨h.pending, h.regs, h.evt, h.log, h.clk, h.par, fun k => (bit_set hM rfl k).elim, h.dmp, h.spad, h.regions, h.lpddr, h.sites, h.host, h.dma, h.lnk, h.servo, h.apt, h.fo, h.rings, h.sec, h.tly, h.pow⟩

theorem frame_with_gaf_regions_dma {M : Nat} {o u : State} (hM : 4384 ||| M = M) (h : Frame M o u) {out' : List Out} {freeTick' : Nat} {gaf' : Gaffer} {regions' : List Region} {scrubs' : List (Nat × List (Nat × Nat))} {builtIns' : List BuiltIn} {flights' : List Flight} {nextId' : Nat} :
    Frame M o ⟨u.pending, out', freeTick', u.regs, u.evt, u.log, u.clk, u.par, gaf', u.dmp, u.spad, u.spadBad, u.spadSoft, regions', scrubs', u.lpddr, u.lpBad, u.sites, u.host, builtIns', flights', nextId', u.lnk, u.servo, u.apt, u.gens, u.fo, u.rings, u.logRing, u.tallyRing, u.sec, u.tly, u.pow⟩ :=
  ⟨h.pending, h.regs, h.evt, h.log, h.clk, h.par, fun k => (bit_set hM rfl k).elim, h.dmp, h.spad, fun k => (bit_set hM rfl k).elim, h.lpddr, h.sites, h.host, fun k => (bit_set hM rfl k).elim, h.lnk, h.servo, h.apt, h.fo, h.rings, h.sec, h.tly, h.pow⟩

theorem frame_with_gaf_dma {M : Nat} {o u : State} (hM : 4128 ||| M = M) (h : Frame M o u) {out' : List Out} {freeTick' : Nat} {gaf' : Gaffer} {builtIns' : List BuiltIn} {flights' : List Flight} {nextId' : Nat} :
    Frame M o ⟨u.pending, out', freeTick', u.regs, u.evt, u.log, u.clk, u.par, gaf', u.dmp, u.spad, u.spadBad, u.spadSoft, u.regions, u.scrubs, u.lpddr, u.lpBad, u.sites, u.host, builtIns', flights', nextId', u.lnk, u.servo, u.apt, u.gens, u.fo, u.rings, u.logRing, u.tallyRing, u.sec, u.tly, u.pow⟩ :=
  ⟨h.pending, h.regs, h.evt, h.log, h.clk, h.par, fun k => (bit_set hM rfl k).elim, h.dmp, h.spad, h.regions, h.lpddr, h.sites, h.host, fun k => (bit_set hM rfl k).elim, h.lnk, h.servo, h.apt, h.fo, h.rings, h.sec, h.tly, h.pow⟩

theorem frame_with_dmp {M : Nat} {o u : State} (hM : 64 ||| M = M) (h : Frame M o u) {out' : List Out} {freeTick' : Nat} {dmp' : Damper} :
    Frame M o ⟨u.pending, out', freeTick', u.regs, u.evt, u.log, u.clk, u.par, u.gaf, dmp', u.spad, u.spadBad, u.spadSoft, u.regions, u.scrubs, u.lpddr, u.lpBad, u.sites, u.host, u.builtIns, u.flights, u.nextId, u.lnk, u.servo, u.apt, u.gens, u.fo, u.rings, u.logRing, u.tallyRing, u.sec, u.tly, u.pow⟩ :=
  ⟨h.pending, h.regs, h.evt, h.log, h.clk, h.par, h.gaf, fun k => (bit_set hM rfl k).elim, h.spad, h.regions, h.lpddr, h.sites, h.host, h.dma, h.lnk, h.servo, h.apt, h.fo, h.rings, h.sec, h.tly, h.pow⟩

theorem frame_with_spad {M : Nat} {o u : State} (hM : 128 ||| M = M) (h : Frame M o u) {out' : List Out} {freeTick' : Nat} {spad' : List Host.Cell} {spadBad' : List Nat} {spadSoft' : List Nat} :
    Frame M o ⟨u.pending, out', freeTick', u.regs, u.evt, u.log, u.clk, u.par, u.gaf, u.dmp, spad', spadBad', spadSoft', u.regions, u.scrubs, u.lpddr, u.lpBad, u.sites, u.host, u.builtIns, u.flights, u.nextId, u.lnk, u.servo, u.apt, u.gens, u.fo, u.rings, u.logRing, u.tallyRing, u.sec, u.tly, u.pow⟩ :=
  ⟨h.pending, h.regs, h.evt, h.log, h.clk, h.par, h.gaf, h.dmp, fun k => (bit_set hM rfl k).elim, h.regions, h.lpddr, h.sites, h.host, h.dma, h.lnk, h.servo, h.apt, h.fo, h.rings, h.sec, h.tly, h.pow⟩

theorem frame_with_regions {M : Nat} {o u : State} (hM : 256 ||| M = M) (h : Frame M o u) {out' : List Out} {freeTick' : Nat} {regions' : List Region} {scrubs' : List (Nat × List (Nat × Nat))} :
    Frame M o ⟨u.pending, out', freeTick', u.regs, u.evt, u.log, u.clk, u.par, u.gaf, u.dmp, u.spad, u.spadBad, u.spadSoft, regions', scrubs', u.lpddr, u.lpBad, u.sites, u.host, u.builtIns, u.flights, u.nextId, u.lnk, u.servo, u.apt, u.gens, u.fo, u.rings, u.logRing, u.tallyRing, u.sec, u.tly, u.pow⟩ :=
  ⟨h.pending, h.regs, h.evt, h.log, h.clk, h.par, h.gaf, h.dmp, h.spad, fun k => (bit_set hM rfl k).elim, h.lpddr, h.sites, h.host, h.dma, h.lnk, h.servo, h.apt, h.fo, h.rings, h.sec, h.tly, h.pow⟩

theorem frame_with_lpddr {M : Nat} {o u : State} (hM : 512 ||| M = M) (h : Frame M o u) {out' : List Out} {freeTick' : Nat} {lpddr' : List Host.Cell} {lpBad' : List (Nat × Bool)} :
    Frame M o ⟨u.pending, out', freeTick', u.regs, u.evt, u.log, u.clk, u.par, u.gaf, u.dmp, u.spad, u.spadBad, u.spadSoft, u.regions, u.scrubs, lpddr', lpBad', u.sites, u.host, u.builtIns, u.flights, u.nextId, u.lnk, u.servo, u.apt, u.gens, u.fo, u.rings, u.logRing, u.tallyRing, u.sec, u.tly, u.pow⟩ :=
  ⟨h.pending, h.regs, h.evt, h.log, h.clk, h.par, h.gaf, h.dmp, h.spad, h.regions, fun k => (bit_set hM rfl k).elim, h.sites, h.host, h.dma, h.lnk, h.servo, h.apt, h.fo, h.rings, h.sec, h.tly, h.pow⟩

theorem frame_with_sites {M : Nat} {o u : State} (hM : 1024 ||| M = M) (h : Frame M o u) {out' : List Out} {freeTick' : Nat} {sites' : List Site} :
    Frame M o ⟨u.pending, out', freeTick', u.regs, u.evt, u.log, u.clk, u.par, u.gaf, u.dmp, u.spad, u.spadBad, u.spadSoft, u.regions, u.scrubs, u.lpddr, u.lpBad, sites', u.host, u.builtIns, u.flights, u.nextId, u.lnk, u.servo, u.apt, u.gens, u.fo, u.rings, u.logRing, u.tallyRing, u.sec, u.tly, u.pow⟩ :=
  ⟨h.pending, h.regs, h.evt, h.log, h.clk, h.par, h.gaf, h.dmp, h.spad, h.regions, h.lpddr, fun k => (bit_set hM rfl k).elim, h.host, h.dma, h.lnk, h.servo, h.apt, h.fo, h.rings, h.sec, h.tly, h.pow⟩

theorem frame_with_host {M : Nat} {o u : State} (hM : 2048 ||| M = M) (h : Frame M o u) {out' : List Out} {freeTick' : Nat} {host' : List Host.Cell} :
    Frame M o ⟨u.pending, out', freeTick', u.regs, u.evt, u.log, u.clk, u.par, u.gaf, u.dmp, u.spad, u.spadBad, u.spadSoft, u.regions, u.scrubs, u.lpddr, u.lpBad, u.sites, host', u.builtIns, u.flights, u.nextId, u.lnk, u.servo, u.apt, u.gens, u.fo, u.rings, u.logRing, u.tallyRing, u.sec, u.tly, u.pow⟩ :=
  ⟨h.pending, h.regs, h.evt, h.log, h.clk, h.par, h.gaf, h.dmp, h.spad, h.regions, h.lpddr, h.sites, fun k => (bit_set hM rfl k).elim, h.dma, h.lnk, h.servo, h.apt, h.fo, h.rings, h.sec, h.tly, h.pow⟩

theorem frame_with_dma {M : Nat} {o u : State} (hM : 4096 ||| M = M) (h : Frame M o u) {out' : List Out} {freeTick' : Nat} {builtIns' : List BuiltIn} {flights' : List Flight} {nextId' : Nat} :
    Frame M o ⟨u.pending, out', freeTick', u.regs, u.evt, u.log, u.clk, u.par, u.gaf, u.dmp, u.spad, u.spadBad, u.spadSoft, u.regions, u.scrubs, u.lpddr, u.lpBad, u.sites, u.host, builtIns', flights', nextId', u.lnk, u.servo, u.apt, u.gens, u.fo, u.rings, u.logRing, u.tallyRing, u.sec, u.tly, u.pow⟩ :=
  ⟨h.pending, h.regs, h.evt, h.log, h.clk, h.par, h.gaf, h.dmp, h.spad, h.regions, h.lpddr, h.sites, h.host, fun k => (bit_set hM rfl k).elim, h.lnk, h.servo, h.apt, h.fo, h.rings, h.sec, h.tly, h.pow⟩

theorem frame_with_dma_fo {M : Nat} {o u : State} (hM : 69632 ||| M = M) (h : Frame M o u) {out' : List Out} {freeTick' : Nat} {builtIns' : List BuiltIn} {flights' : List Flight} {nextId' : Nat} {fo' : Failover} :
    Frame M o ⟨u.pending, out', freeTick', u.regs, u.evt, u.log, u.clk, u.par, u.gaf, u.dmp, u.spad, u.spadBad, u.spadSoft, u.regions, u.scrubs, u.lpddr, u.lpBad, u.sites, u.host, builtIns', flights', nextId', u.lnk, u.servo, u.apt, u.gens, fo', u.rings, u.logRing, u.tallyRing, u.sec, u.tly, u.pow⟩ :=
  ⟨h.pending, h.regs, h.evt, h.log, h.clk, h.par, h.gaf, h.dmp, h.spad, h.regions, h.lpddr, h.sites, h.host, fun k => (bit_set hM rfl k).elim, h.lnk, h.servo, h.apt, fun k => (bit_set hM rfl k).elim, h.rings, h.sec, h.tly, h.pow⟩

theorem frame_with_lnk {M : Nat} {o u : State} (hM : 8192 ||| M = M) (h : Frame M o u) {out' : List Out} {freeTick' : Nat} {lnk' : Links} :
    Frame M o ⟨u.pending, out', freeTick', u.regs, u.evt, u.log, u.clk, u.par, u.gaf, u.dmp, u.spad, u.spadBad, u.spadSoft, u.regions, u.scrubs, u.lpddr, u.lpBad, u.sites, u.host, u.builtIns, u.flights, u.nextId, lnk', u.servo, u.apt, u.gens, u.fo, u.rings, u.logRing, u.tallyRing, u.sec, u.tly, u.pow⟩ :=
  ⟨h.pending, h.regs, h.evt, h.log, h.clk, h.par, h.gaf, h.dmp, h.spad, h.regions, h.lpddr, h.sites, h.host, h.dma, fun k => (bit_set hM rfl k).elim, h.servo, h.apt, h.fo, h.rings, h.sec, h.tly, h.pow⟩

theorem frame_with_servo {M : Nat} {o u : State} (hM : 16384 ||| M = M) (h : Frame M o u) {out' : List Out} {freeTick' : Nat} {servo' : Servo} :
    Frame M o ⟨u.pending, out', freeTick', u.regs, u.evt, u.log, u.clk, u.par, u.gaf, u.dmp, u.spad, u.spadBad, u.spadSoft, u.regions, u.scrubs, u.lpddr, u.lpBad, u.sites, u.host, u.builtIns, u.flights, u.nextId, u.lnk, servo', u.apt, u.gens, u.fo, u.rings, u.logRing, u.tallyRing, u.sec, u.tly, u.pow⟩ :=
  ⟨h.pending, h.regs, h.evt, h.log, h.clk, h.par, h.gaf, h.dmp, h.spad, h.regions, h.lpddr, h.sites, h.host, h.dma, h.lnk, fun k => (bit_set hM rfl k).elim, h.apt, h.fo, h.rings, h.sec, h.tly, h.pow⟩

theorem frame_with_apt {M : Nat} {o u : State} (hM : 32768 ||| M = M) (h : Frame M o u) {out' : List Out} {freeTick' : Nat} {apt' : List AudioPort} {gens' : List Gen} :
    Frame M o ⟨u.pending, out', freeTick', u.regs, u.evt, u.log, u.clk, u.par, u.gaf, u.dmp, u.spad, u.spadBad, u.spadSoft, u.regions, u.scrubs, u.lpddr, u.lpBad, u.sites, u.host, u.builtIns, u.flights, u.nextId, u.lnk, u.servo, apt', gens', u.fo, u.rings, u.logRing, u.tallyRing, u.sec, u.tly, u.pow⟩ :=
  ⟨h.pending, h.regs, h.evt, h.log, h.clk, h.par, h.gaf, h.dmp, h.spad, h.regions, h.lpddr, h.sites, h.host, h.dma, h.lnk, h.servo, fun k => (bit_set hM rfl k).elim, h.fo, h.rings, h.sec, h.tly, h.pow⟩

theorem frame_with_fo {M : Nat} {o u : State} (hM : 65536 ||| M = M) (h : Frame M o u) {out' : List Out} {freeTick' : Nat} {fo' : Failover} :
    Frame M o ⟨u.pending, out', freeTick', u.regs, u.evt, u.log, u.clk, u.par, u.gaf, u.dmp, u.spad, u.spadBad, u.spadSoft, u.regions, u.scrubs, u.lpddr, u.lpBad, u.sites, u.host, u.builtIns, u.flights, u.nextId, u.lnk, u.servo, u.apt, u.gens, fo', u.rings, u.logRing, u.tallyRing, u.sec, u.tly, u.pow⟩ :=
  ⟨h.pending, h.regs, h.evt, h.log, h.clk, h.par, h.gaf, h.dmp, h.spad, h.regions, h.lpddr, h.sites, h.host, h.dma, h.lnk, h.servo, h.apt, fun k => (bit_set hM rfl k).elim, h.rings, h.sec, h.tly, h.pow⟩

theorem frame_with_fo_pow {M : Nat} {o u : State} (hM : 1114112 ||| M = M) (h : Frame M o u) {out' : List Out} {freeTick' : Nat} {fo' : Failover} {pow' : Power} :
    Frame M o ⟨u.pending, out', freeTick', u.regs, u.evt, u.log, u.clk, u.par, u.gaf, u.dmp, u.spad, u.spadBad, u.spadSoft, u.regions, u.scrubs, u.lpddr, u.lpBad, u.sites, u.host, u.builtIns, u.flights, u.nextId, u.lnk, u.servo, u.apt, u.gens, fo', u.rings, u.logRing, u.tallyRing, u.sec, u.tly, pow'⟩ :=
  ⟨h.pending, h.regs, h.evt, h.log, h.clk, h.par, h.gaf, h.dmp, h.spad, h.regions, h.lpddr, h.sites, h.host, h.dma, h.lnk, h.servo, h.apt, fun k => (bit_set hM rfl k).elim, h.rings, h.sec, h.tly, fun k => (bit_set hM rfl k).elim⟩

theorem frame_with_rings {M : Nat} {o u : State} (hM : 131072 ||| M = M) (h : Frame M o u) {out' : List Out} {freeTick' : Nat} {rings' : List RingCount} {logRing' : RingCount} {tallyRing' : RingCount} :
    Frame M o ⟨u.pending, out', freeTick', u.regs, u.evt, u.log, u.clk, u.par, u.gaf, u.dmp, u.spad, u.spadBad, u.spadSoft, u.regions, u.scrubs, u.lpddr, u.lpBad, u.sites, u.host, u.builtIns, u.flights, u.nextId, u.lnk, u.servo, u.apt, u.gens, u.fo, rings', logRing', tallyRing', u.sec, u.tly, u.pow⟩ :=
  ⟨h.pending, h.regs, h.evt, h.log, h.clk, h.par, h.gaf, h.dmp, h.spad, h.regions, h.lpddr, h.sites, h.host, h.dma, h.lnk, h.servo, h.apt, h.fo, fun k => (bit_set hM rfl k).elim, h.sec, h.tly, h.pow⟩

theorem frame_with_rings_tly {M : Nat} {o u : State} (hM : 655360 ||| M = M) (h : Frame M o u) {out' : List Out} {freeTick' : Nat} {rings' : List RingCount} {logRing' : RingCount} {tallyRing' : RingCount} {tly' : Tally} :
    Frame M o ⟨u.pending, out', freeTick', u.regs, u.evt, u.log, u.clk, u.par, u.gaf, u.dmp, u.spad, u.spadBad, u.spadSoft, u.regions, u.scrubs, u.lpddr, u.lpBad, u.sites, u.host, u.builtIns, u.flights, u.nextId, u.lnk, u.servo, u.apt, u.gens, u.fo, rings', logRing', tallyRing', u.sec, tly', u.pow⟩ :=
  ⟨h.pending, h.regs, h.evt, h.log, h.clk, h.par, h.gaf, h.dmp, h.spad, h.regions, h.lpddr, h.sites, h.host, h.dma, h.lnk, h.servo, h.apt, h.fo, fun k => (bit_set hM rfl k).elim, h.sec, fun k => (bit_set hM rfl k).elim, h.pow⟩

theorem frame_with_sec {M : Nat} {o u : State} (hM : 262144 ||| M = M) (h : Frame M o u) {out' : List Out} {freeTick' : Nat} {sec' : Security} :
    Frame M o ⟨u.pending, out', freeTick', u.regs, u.evt, u.log, u.clk, u.par, u.gaf, u.dmp, u.spad, u.spadBad, u.spadSoft, u.regions, u.scrubs, u.lpddr, u.lpBad, u.sites, u.host, u.builtIns, u.flights, u.nextId, u.lnk, u.servo, u.apt, u.gens, u.fo, u.rings, u.logRing, u.tallyRing, sec', u.tly, u.pow⟩ :=
  ⟨h.pending, h.regs, h.evt, h.log, h.clk, h.par, h.gaf, h.dmp, h.spad, h.regions, h.lpddr, h.sites, h.host, h.dma, h.lnk, h.servo, h.apt, h.fo, h.rings, fun k => (bit_set hM rfl k).elim, h.tly, h.pow⟩

theorem frame_with_sec_pow {M : Nat} {o u : State} (hM : 1310720 ||| M = M) (h : Frame M o u) {out' : List Out} {freeTick' : Nat} {sec' : Security} {pow' : Power} :
    Frame M o ⟨u.pending, out', freeTick', u.regs, u.evt, u.log, u.clk, u.par, u.gaf, u.dmp, u.spad, u.spadBad, u.spadSoft, u.regions, u.scrubs, u.lpddr, u.lpBad, u.sites, u.host, u.builtIns, u.flights, u.nextId, u.lnk, u.servo, u.apt, u.gens, u.fo, u.rings, u.logRing, u.tallyRing, sec', u.tly, pow'⟩ :=
  ⟨h.pending, h.regs, h.evt, h.log, h.clk, h.par, h.gaf, h.dmp, h.spad, h.regions, h.lpddr, h.sites, h.host, h.dma, h.lnk, h.servo, h.apt, h.fo, h.rings, fun k => (bit_set hM rfl k).elim, h.tly, fun k => (bit_set hM rfl k).elim⟩

theorem frame_with_tly {M : Nat} {o u : State} (hM : 524288 ||| M = M) (h : Frame M o u) {out' : List Out} {freeTick' : Nat} {tly' : Tally} :
    Frame M o ⟨u.pending, out', freeTick', u.regs, u.evt, u.log, u.clk, u.par, u.gaf, u.dmp, u.spad, u.spadBad, u.spadSoft, u.regions, u.scrubs, u.lpddr, u.lpBad, u.sites, u.host, u.builtIns, u.flights, u.nextId, u.lnk, u.servo, u.apt, u.gens, u.fo, u.rings, u.logRing, u.tallyRing, u.sec, tly', u.pow⟩ :=
  ⟨h.pending, h.regs, h.evt, h.log, h.clk, h.par, h.gaf, h.dmp, h.spad, h.regions, h.lpddr, h.sites, h.host, h.dma, h.lnk, h.servo, h.apt, h.fo, h.rings, h.sec, fun k => (bit_set hM rfl k).elim, h.pow⟩

theorem frame_with_pow {M : Nat} {o u : State} (hM : 1048576 ||| M = M) (h : Frame M o u) {out' : List Out} {freeTick' : Nat} {pow' : Power} :
    Frame M o ⟨u.pending, out', freeTick', u.regs, u.evt, u.log, u.clk, u.par, u.gaf, u.dmp, u.spad, u.spadBad, u.spadSoft, u.regions, u.scrubs, u.lpddr, u.lpBad, u.sites, u.host, u.builtIns, u.flights, u.nextId, u.lnk, u.servo, u.apt, u.gens, u.fo, u.rings, u.logRing, u.tallyRing, u.sec, u.tly, pow'⟩ :=
  ⟨h.pending, h.regs, h.evt, h.log, h.clk, h.par, h.gaf, h.dmp, h.spad, h.regions, h.lpddr, h.sites, h.host, h.dma, h.lnk, h.servo, h.apt, h.fo, h.rings, h.sec, h.tly, fun k => (bit_set hM rfl k).elim⟩

end Sys2Proof.Machine
end

