-- ==== Sys2Proof/Laws/FrameOps.lean ====
section
/-! SUPPORT. The functions of Machine/Ops.lean, Machine/Tally.lean, Machine/Spad.lean change only the parts of the state named by a mask. -/
namespace Sys2Proof.Machine
open Sys2Proof

set_option Elab.async false

theorem frame_tick {M : Nat} {o s : State} (hM : 0 ||| M = M) (h : Frame M o s) :
    Frame M o (State.tick s) := by
  unfold State.tick
  exact frame_with (lor_mono hM rfl) h

theorem frame_begin_ {M : Nat} {o s : State} (hM : 0 ||| M = M) (h : Frame M o s) :
    Frame M o (State.begin_ s) := by
  unfold State.begin_
  exact frame_with (lor_mono hM rfl) h

theorem frame_put {M : Nat} {o s : State} (hM : 0 ||| M = M) (h : Frame M o s) {o1 : Out} :
    Frame M o (State.put s o1) := by
  unfold State.put
  exact frame_with (lor_mono hM rfl) h

theorem frame_setWord {M : Nat} {o s : State} (hM : 1 ||| M = M) (h : Frame M o s) {a : Nat} {w : Word} :
    Frame M o (State.setWord s a w) := by
  unfold State.setWord
  exact frame_with_regs (lor_mono hM rfl) h

theorem frame_wrAt {M : Nat} {o s : State} (hM : 1 ||| M = M) (h : Frame M o s) {f : Field} {inst : Nat} {ix : Nat} {v : Nat} :
    Frame M o (State.wrAt s f inst ix v) := by
  unfold State.wrAt
  exact frame_setWord (lor_mono hM rfl) h

theorem frame_wr {M : Nat} {o s : State} (hM : 1 ||| M = M) (h : Frame M o s) {f : Field} {v : Nat} {inst : Nat} :
    Frame M o (State.wr s f v inst) := by
  unfold State.wr
  exact frame_wrAt (lor_mono hM rfl) h

theorem frame_wrSh {M : Nat} {o s : State} (hM : 1 ||| M = M) (h : Frame M o s) {f : Field} {v : Nat} {inst : Nat} {ix : Nat} :
    Frame M o (State.wrSh s f v inst ix) := by
  unfold State.wrSh
  exact frame_setWord (lor_mono hM rfl) h

theorem frame_count {M : Nat} {o s : State} (hM : 1 ||| M = M) (h : Frame M o s) {f : Field} {inst : Nat} {n : Nat} :
    Frame M o (State.count s f inst n) := by
  unfold State.count
  exact frame_wr (lor_mono hM rfl) h

theorem frame_count64 {M : Nat} {o s : State} (hM : 1 ||| M = M) (h : Frame M o s) {lo : Field} {hi : Field} {inst : Nat} {n : Nat} :
    Frame M o (State.count64 s lo hi inst n) := by
  unfold State.count64
  extract_lets v1
  clear_value v1
  exact frame_wr (lor_mono hM rfl) (frame_wr (lor_mono hM rfl) h)

theorem frame_wr64 {M : Nat} {o s : State} (hM : 1 ||| M = M) (h : Frame M o s) {f : Field} {v : Nat} {inst : Nat} :
    Frame M o (State.wr64 s f v inst) := by
  unfold State.wr64
  exact frame_wrAt (lor_mono hM rfl) (frame_wrAt (lor_mono hM rfl) h)

theorem frame_logAdd {M : Nat} {o s : State} (hM : 5 ||| M = M) (h : Frame M o s) {pageType : Nat} {kind : Nat} {inst : Nat} {code : Nat} {d0 : Nat} {d1 : Nat} {d2 : Nat} :
    Frame M o (State.logAdd s pageType kind inst code d0 d1 d2) := by
  unfold State.logAdd
  extract_lets v1 v2 s3 v4 s5 v6
  have k7 : Frame M o s3 := frame_ite h (frame_count (lor_mono hM rfl) h)
  have k8 : Frame M o s5 := frame_with_log (lor_mono hM rfl) k7
  clear_value v1 v2 s3 v4 s5
  split
  · rename_i y9 e10
    exact k8
  · rename_i y11 y12 e13
    exact frame_ite (frame_with_log (lor_mono hM rfl) h) k8

theorem frame_watchErr {M : Nat} {o s : State} (hM : 5 ||| M = M) (h : Frame M o s) {k : PageKind} {inst : Nat} {f : State → State} (hf : ∀ x0, Frame M o x0 → Frame M o (f x0)) :
    Frame M o (State.watchErr s k inst f) := by
  unfold State.watchErr
  extract_lets s1
  have k2 : Frame M o s1 := hf _ h
  clear_value s1
  exact frame_ite (frame_logAdd (lor_mono hM rfl) k2) k2

theorem frame_setErr {M : Nat} {o s : State} (hM : 5 ||| M = M) (h : Frame M o s) {f : Field} {inst : Nat} :
    Frame M o (State.setErr s f inst) := by
  unfold State.setErr
  exact frame_watchErr (lor_mono hM rfl) h (fun x1 k2 => frame_wr (lor_mono hM rfl) k2)

theorem frame_setErrLog {M : Nat} {o s : State} (hM : 5 ||| M = M) (h : Frame M o s) {f : Field} {inst : Nat} {d1 : Nat} {d2 : Nat} :
    Frame M o (State.setErrLog s f inst d1 d2) := by
  unfold State.setErrLog
  extract_lets s1
  have k2 : Frame M o s1 := frame_setErr (lor_mono hM rfl) h
  clear_value s1
  exact frame_logAdd (lor_mono hM rfl) k2

theorem frame_badWrite {M : Nat} {o s : State} (hM : 5 ||| M = M) (h : Frame M o s) {k : PageKind} {inst : Nat} :
    Frame M o (State.badWrite s k inst) := by
  unfold State.badWrite
  exact frame_setErr (lor_mono hM rfl) h

theorem frame_unmappedErr {M : Nat} {o s : State} (hM : 5 ||| M = M) (h : Frame M o s) {k : PageKind} {inst : Nat} :
    Frame M o (State.unmappedErr s k inst) := by
  unfold State.unmappedErr
  exact frame_setErr (lor_mono hM rfl) h

theorem frame_evtBump {M : Nat} {o s : State} (hM : 3 ||| M = M) (h : Frame M o s) {pg : Nat} {c : Nat} {n : Nat} :
    Frame M o (State.evtBump s pg c n) := by
  unfold State.evtBump
  extract_lets v1 v2 s3
  have k4 : Frame M o s3 := frame_with_evt (lor_mono hM rfl) h
  clear_value v1 v2 s3
  exact frame_ite k4 (frame_ite (frame_wr (lor_mono hM rfl) k4) (frame_wr (lor_mono hM rfl) k4))

theorem frame_evtCount {M : Nat} {o s : State} (hM : 3 ||| M = M) (h : Frame M o s) {pg : Nat} {src : Nat} {n : Nat} :
    Frame M o (State.evtCount s pg src n) := by
  unfold State.evtCount
  refine frame_ite h ?_
  refine frame_foldl h ?_
  intro x1 x2 k3
  extract_lets v4 v5 v6
  clear_value v4 v5 v6
  exact frame_ite (frame_evtBump (lor_mono hM rfl) k3) k3

theorem frame_evtDev {M : Nat} {o s : State} (hM : 3 ||| M = M) (h : Frame M o s) {src : Nat} {n : Nat} :
    Frame M o (State.evtDev s src n) := by
  unfold State.evtDev
  exact frame_evtCount (lor_mono hM rfl) h

theorem frame_spadPut {M : Nat} {o s : State} (hM : 128 ||| M = M) (h : Frame M o s) {a : Nat} {bs : List Byte} :
    Frame M o (State.spadPut s a bs) := by
  unfold State.spadPut
  exact frame_with_spad (lor_mono hM rfl) h

theorem frame_lpPut {M : Nat} {o s : State} (hM : 512 ||| M = M) (h : Frame M o s) {o1 : Nat} {bs : List Byte} :
    Frame M o (State.lpPut s o1 bs) := by
  unfold State.lpPut
  exact frame_with_lpddr (lor_mono hM rfl) h

theorem frame_hostPut {M : Nat} {o s : State} (hM : 2048 ||| M = M) (h : Frame M o s) {a : Nat} {bs : List Byte} :
    Frame M o (State.hostPut s a bs) := by
  unfold State.hostPut
  exact frame_with_host (lor_mono hM rfl) h

theorem frame_spoilLp {M : Nat} {o s : State} (hM : 512 ||| M = M) (h : Frame M o s) {bursts : List Nat} {wrong : Bool} :
    Frame M o (State.spoilLp s bursts wrong) := by
  unfold State.spoilLp
  exact frame_with_lpddr (lor_mono hM rfl) h

theorem frame_zeroSpad {M : Nat} {o s : State} (hM : 128 ||| M = M) (h : Frame M o s) {a : Nat} {n : Nat} :
    Frame M o (State.zeroSpad s a n) := by
  unfold State.zeroSpad
  exact frame_with_spad (lor_mono hM rfl) h

theorem frame_zeroLp {M : Nat} {o s : State} (hM : 512 ||| M = M) (h : Frame M o s) {o1 : Nat} {n : Nat} :
    Frame M o (State.zeroLp s o1 n) := by
  unfold State.zeroLp
  exact frame_with_lpddr (lor_mono hM rfl) h

theorem frame_devPut {M : Nat} {o s : State} (hM : 512 ||| M = M) (h : Frame M o s) {a : Nat} {bs : List Byte} :
    Frame M o (State.devPut s a bs) := by
  unfold State.devPut
  exact frame_ite h (frame_ite (frame_foldl h (fun x1 x2 k3 => frame_ite k3 (frame_lpPut (lor_mono hM rfl) k3))) (frame_lpPut (lor_mono hM rfl) h))

theorem frame_narrow {M : Nat} {o s : State} (hM : 1 ||| M = M) (h : Frame M o s) {o1 : Nat} {n : Nat} :
    Frame M o (State.narrow s o1 n) := by
  unfold State.narrow
  exact frame_foldl h (fun x1 x2 k3 => frame_count (lor_mono hM rfl) k3)

theorem frame_syncGth {M : Nat} {o s : State} (hM : 1 ||| M = M) (h : Frame M o s) {bench : Nat} :
    Frame M o (State.syncGth s bench) := by
  unfold State.syncGth
  extract_lets v1
  clear_value v1
  exact frame_wr (lor_mono hM rfl) (frame_wr (lor_mono hM rfl) h)

theorem frame_setPort {M : Nat} {o s : State} (hM : 8192 ||| M = M) (h : Frame M o s) {p : Nat} {f : LinkPort → LinkPort} :
    Frame M o (State.setPort s p f) := by
  unfold State.setPort
  exact frame_with_lnk (lor_mono hM rfl) h

theorem frame_setAport {M : Nat} {o s : State} (hM : 32768 ||| M = M) (h : Frame M o s) {p : Nat} {f : AudioPort → AudioPort} :
    Frame M o (State.setAport s p f) := by
  unfold State.setAport
  exact frame_with_apt (lor_mono hM rfl) h

theorem frame_setGen {M : Nat} {o s : State} (hM : 32768 ||| M = M) (h : Frame M o s) {i : Nat} {f : Gen → Gen} :
    Frame M o (State.setGen s i f) := by
  unfold State.setGen
  exact frame_with_apt (lor_mono hM rfl) h

theorem frame_setSite {M : Nat} {o s : State} (hM : 1024 ||| M = M) (h : Frame M o s) {i : Nat} {f : Site → Site} :
    Frame M o (State.setSite s i f) := by
  unfold State.setSite
  exact frame_with_sites (lor_mono hM rfl) h

theorem frame_setStream {M : Nat} {o s : State} (hM : 32 ||| M = M) (h : Frame M o s) {e : Nat} {f : Stream → Stream} :
    Frame M o (State.setStream s e f) := by
  unfold State.setStream
  exact frame_with_gaf (lor_mono hM rfl) h

theorem frame_putStream {M : Nat} {o s : State} (hM : 32 ||| M = M) (h : Frame M o s) {st : Stream} :
    Frame M o (State.putStream s st) := by
  unfold State.putStream
  exact frame_with_gaf (lor_mono hM rfl) h

theorem frame_delStream {M : Nat} {o s : State} (hM : 32 ||| M = M) (h : Frame M o s) {e : Nat} :
    Frame M o (State.delStream s e) := by
  unfold State.delStream
  exact frame_with_gaf (lor_mono hM rfl) h

theorem frame_setImage {M : Nat} {o s : State} (hM : 32 ||| M = M) (h : Frame M o s) {i : Nat} {f : Image → Image} :
    Frame M o (State.setImage s i f) := by
  unfold State.setImage
  exact frame_with_gaf (lor_mono hM rfl) h

theorem frame_setDomains {M : Nat} {o s : State} (hM : 1048577 ||| M = M) (h : Frame M o s) {on : List Nat} :
    Frame M o (State.setDomains s on) := by
  unfold State.setDomains
  refine frame_foldl (frame_with_pow (lor_mono hM rfl) h) ?_
  intro x1 x2 k3
  extract_lets v4
  clear_value v4
  exact frame_ite k3 (frame_wr (lor_mono hM rfl) k3)

theorem frame_gated {M : Nat} {o s : State} (hM : 5 ||| M = M) (h : Frame M o s) {k : PageKind} {inst : Nat} {f : State → State} (hf : ∀ x0, Frame M o x0 → Frame M o (f x0)) :
    Frame M o (State.gated s k inst f) := by
  unfold State.gated
  exact frame_ite h (frame_ite (frame_badWrite (lor_mono hM rfl) h) (hf _ h))

theorem frame_setReady {M : Nat} {o s : State} (hM : 1 ||| M = M) (h : Frame M o s) :
    Frame M o (State.setReady s) := by
  unfold State.setReady
  exact frame_wr (lor_mono hM rfl) (frame_foldl h (fun x1 x2 k3 => frame_wr (lor_mono hM rfl) k3))

theorem frame_noteExhausted {M : Nat} {o s : State} (hM : 262145 ||| M = M) (h : Frame M o s) {k : Nat} :
    Frame M o (State.noteExhausted s k) := by
  unfold State.noteExhausted
  extract_lets v1 s2
  have k3 : Frame M o s2 := frame_with_sec (lor_mono hM rfl) h
  clear_value s2
  exact frame_ite (frame_wr (lor_mono hM rfl) k3) (frame_wr (lor_mono hM rfl) k3)

theorem frame_askBlock {M : Nat} {o s : State} (hM : 262144 ||| M = M) (h : Frame M o s) {k : Nat} :
    Frame M o (State.askBlock s k) := by
  unfold State.askBlock
  split
  · rename_i y1 y2 e3
    exact h
  · rename_i y4 e5
    exact frame_with_sec (lor_mono hM rfl) h

theorem frame_signWith {M : Nat} {o s : State} (hM : 262144 ||| M = M) (h : Frame M o s) {k : Nat} {msg : List Byte} :
    Frame2 M o (State.signWith s k msg) := by
  unfold State.signWith
  extract_lets v1 v2
  clear_value v1
  exact Frame2.mk (frame_with_sec (lor_mono hM rfl) h)

theorem frame_extendM {M : Nat} {o s : State} (hM : 262144 ||| M = M) (h : Frame M o s) {k : Nat} {x : List Byte} :
    Frame M o (State.extendM s k x) := by
  unfold State.extendM
  exact frame_with_sec (lor_mono hM rfl) h

theorem frame_clearM {M : Nat} {o s : State} (hM : 262144 ||| M = M) (h : Frame M o s) {k : Nat} :
    Frame M o (State.clearM s k) := by
  unfold State.clearM
  exact frame_with_sec (lor_mono hM rfl) h

theorem frame_syncTally {M : Nat} {o s : State} (hM : 1 ||| M = M) (h : Frame M o s) :
    Frame M o (State.syncTally s) := by
  unfold State.syncTally
  extract_lets v1 s2 s3 s4 s5 s6 s7
  have k8 : Frame M o s2 := frame_wr (lor_mono hM rfl) h
  have k9 : Frame M o s3 := frame_wr (lor_mono hM rfl) k8
  have k10 : Frame M o s4 := frame_wr (lor_mono hM rfl) k9
  have k11 : Frame M o s5 := frame_wr64 (lor_mono hM rfl) k10
  have k12 : Frame M o s6 := frame_wr64 (lor_mono hM rfl) k11
  have k13 : Frame M o s7 := frame_wr64 (lor_mono hM rfl) k12
  clear_value v1 s2 s3 s4 s5 s6 s7
  exact frame_wr (lor_mono hM rfl) k13

theorem frame_recordLost {M : Nat} {o s : State} (hM : 524293 ||| M = M) (h : Frame M o s) :
    Frame M o (State.recordLost s) := by
  unfold State.recordLost
  exact frame_setErr (lor_mono hM rfl) (frame_count (lor_mono hM rfl) (frame_with_tly (lor_mono hM rfl) h))

theorem frame_makeRoom {M : Nat} {o s : State} (hM : 524293 ||| M = M) (h : Frame M o s) {n : Nat} {a2 : Nat} :
    Frame M o (State.makeRoom s n a2) := by
  induction a2 generalizing s n with
  | zero =>
    unfold State.makeRoom
    exact h
  | succ w0 ih =>
    unfold State.makeRoom
    refine frame_ite h ?_
    extract_lets v1 v2
    clear_value v2
    split
    · rename_i y3
      exact h
    · rename_i y4 y5
      exact ih (frame_recordLost (lor_mono hM rfl) (frame_with_tly (lor_mono hM rfl) h))

theorem frame_signTally {M : Nat} {o s : State} (hM : 786437 ||| M = M) (h : Frame M o s) {a1 : Nat} :
    Frame M o (State.signTally s a1) := by
  induction a1 generalizing s with
  | zero =>
    unfold State.signTally
    exact h
  | succ w0 ih =>
    unfold State.signTally
    split
    · rename_i y1 e2
      exact h
    · rename_i y3 y4 y5 e6
      extract_lets v7
      clear_value v7
      refine frame_ite (frame_setErr (lor_mono hM rfl) (frame_noteExhausted (lor_mono hM rfl) h)) ?_
      refine frame_ite (frame_askBlock (lor_mono hM rfl) h) ?_
      split
      · rename_i y8 y9 y10 e11
        have k12 : Frame M o y10 := Frame2.of_eq e11 (frame_signWith (lor_mono hM rfl) h)
        extract_lets v13 v14
        clear_value v13
        exact ih (frame_with_tly (lor_mono hM rfl) k12)

theorem frame_tallyPart {M : Nat} {o s : State} (hM : 524288 ||| M = M) (h : Frame M o s) {close : Nat} :
    Frame M o (State.tallyPart s close) := by
  unfold State.tallyPart
  extract_lets v1
  clear_value v1
  exact frame_ite h (frame_with_tly (lor_mono hM rfl) h)

theorem frame_closeInterval {M : Nat} {o s : State} (hM : 786437 ||| M = M) (h : Frame M o s) {reason : Nat} {close : Nat} {energy : Nat} :
    Frame M o (State.closeInterval s reason close energy) := by
  unfold State.closeInterval
  extract_lets s1 s2 v3 s4 v5 s6
  have k7 : Frame M o s1 := frame_ite (frame_tallyPart (lor_mono hM rfl) h) h
  have k8 : Frame M o s2 := frame_makeRoom (lor_mono hM rfl) k7
  have k9 : Frame M o s4 := frame_wr (lor_mono hM rfl) k8
  have k10 : Frame M o s6 := frame_with_tly (lor_mono hM rfl) k9
  clear_value s1 s2 v3 s4 s6
  exact frame_syncTally (lor_mono hM rfl) (frame_signTally (lor_mono hM rfl) k10)

theorem frame_closeEarly {M : Nat} {o s : State} (hM : 786437 ||| M = M) (h : Frame M o s) {reason : Nat} :
    Frame M o (State.closeEarly s reason) := by
  unfold State.closeEarly
  exact frame_closeInterval (lor_mono hM rfl) h

theorem frame_tallyNote {M : Nat} {o s : State} (hM : 524288 ||| M = M) (h : Frame M o s) {e : TallyEvent} :
    Frame M o (State.tallyNote s e) := by
  unfold State.tallyNote
  extract_lets v1
  clear_value v1
  exact frame_ite (frame_with_tly (lor_mono hM rfl) h) (frame_with_tly (lor_mono hM rfl) h)

theorem frame_noteArm {M : Nat} {o s : State} (hM : 524288 ||| M = M) (h : Frame M o s) {entry : Nat} :
    Frame M o (State.noteArm s entry) := by
  unfold State.noteArm
  exact frame_with_tly (lor_mono hM rfl) h

theorem frame_noteLeave {M : Nat} {o s : State} (hM : 524288 ||| M = M) (h : Frame M o s) {entry : Nat} :
    Frame M o (State.noteLeave s entry) := by
  unfold State.noteLeave
  exact frame_with_tly (lor_mono hM rfl) h

theorem frame_countCommit {M : Nat} {o s : State} (hM : 786437 ||| M = M) (h : Frame M o s) {entry : Nat} {cls : Nat} {tag : Nat} {hz : Nat} {first : Nat} {n : Nat} {left : Bool} :
    Frame M o (State.countCommit s entry cls tag hz first n left) := by
  unfold State.countCommit
  extract_lets v1 v2 v3 v4 v5 s6 v7 v8 s9 v10 s11
  have k12 : Frame M o s6 := frame_ite (frame_closeEarly (lor_mono hM rfl) h) h
  have k13 : Frame M o s9 := frame_ite (frame_with_tly (lor_mono hM rfl) k12) k12
  have k14 : Frame M o s11 := frame_with_tly (lor_mono hM rfl) k13
  clear_value v1 v2 v3 v4 v5 s6 v7 s9 s11
  exact frame_ite h (frame_syncTally (lor_mono hM rfl) k14)

theorem frame_tallyArm {M : Nat} {o s : State} (hM : 524288 ||| M = M) (h : Frame M o s) {entry : Nat} :
    Frame M o (State.tallyArm s entry) := by
  unfold State.tallyArm
  exact frame_noteArm (lor_mono hM rfl) (frame_tallyNote (lor_mono hM rfl) h)

theorem frame_tallyLeave {M : Nat} {o s : State} (hM : 524288 ||| M = M) (h : Frame M o s) {entry : Nat} :
    Frame M o (State.tallyLeave s entry) := by
  unfold State.tallyLeave
  exact frame_noteLeave (lor_mono hM rfl) (frame_tallyNote (lor_mono hM rfl) h)

theorem frame_tallyCommit {M : Nat} {o s : State} (hM : 786437 ||| M = M) (h : Frame M o s) {entry : Nat} {cls : Nat} {tag : Nat} {hz : Nat} {first : Nat} {n : Nat} {left : Bool} :
    Frame M o (State.tallyCommit s entry cls tag hz first n left) := by
  unfold State.tallyCommit
  exact frame_countCommit (lor_mono hM rfl) (frame_tallyNote (lor_mono hM rfl) h)

theorem frame_tallyEvent {M : Nat} {o s : State} (hM : 786437 ||| M = M) (h : Frame M o s) {e : TallyEvent} :
    Frame M o (State.tallyEvent s e) := by
  unfold State.tallyEvent
  split
  · rename_i y1 y2 y3 y4 y5 y6 y7 y8
    exact frame_tallyCommit (lor_mono hM rfl) h
  · rename_i y9 y10
    exact frame_tallyArm (lor_mono hM rfl) h
  · rename_i y11 y12
    exact frame_tallyLeave (lor_mono hM rfl) h

theorem frame_tallyCarry {M : Nat} {o s : State} (hM : 786437 ||| M = M) (h : Frame M o s) :
    Frame M o (State.tallyCarry s) := by
  unfold State.tallyCarry
  exact frame_foldl (frame_with_tly (lor_mono hM rfl) h) (fun x1 x2 k3 => frame_tallyEvent (lor_mono hM rfl) k3)

theorem frame_execTallyIntervalEnd {M : Nat} {o s : State} (hM : 786437 ||| M = M) (h : Frame M o s) {energyUj : Nat} :
    FrameNext M o (execTallyIntervalEnd energyUj s) := by
  unfold execTallyIntervalEnd
  extract_lets s1
  have k2 : Frame M o s1 := frame_begin_ (lor_mono hM rfl) h
  clear_value s1
  exact FrameNext.next (frame_ite k2 (frame_tallyCarry (lor_mono hM rfl) (frame_closeInterval (lor_mono hM rfl) k2)))

theorem frame_setRegion {M : Nat} {o s : State} (hM : 256 ||| M = M) (h : Frame M o s) {image : Nat} {entry : Nat} {f : Region → Region} :
    Frame M o (State.setRegion s image entry f) := by
  unfold State.setRegion
  exact frame_with_regions (lor_mono hM rfl) h

theorem frame_uncorrWord {M : Nat} {o s : State} (hM : 5 ||| M = M) (h : Frame M o s) {a : Nat} {weight : Bool} :
    Frame M o (State.uncorrWord s a weight) := by
  unfold State.uncorrWord
  extract_lets v1 s2 s3 s4 s5
  have k6 : Frame M o s2 := frame_count (lor_mono hM rfl) h
  have k7 : Frame M o s3 := frame_wr (lor_mono hM rfl) k6
  have k8 : Frame M o s4 := frame_wr (lor_mono hM rfl) k7
  have k9 : Frame M o s5 := frame_setErr (lor_mono hM rfl) k8
  clear_value v1 s2 s3 s4 s5
  exact frame_setErr (lor_mono hM rfl) k9

theorem frame_corrWord {M : Nat} {o s : State} (hM : 7 ||| M = M) (h : Frame M o s) {a : Nat} :
    Frame M o (State.corrWord s a) := by
  unfold State.corrWord
  extract_lets v1 s2 s3
  have k4 : Frame M o s2 := frame_count (lor_mono hM rfl) h
  have k5 : Frame M o s3 := frame_setErr (lor_mono hM rfl) k4
  clear_value v1 s2 s3
  exact frame_evtCount (lor_mono hM rfl) k5

theorem frame_noteSoft {M : Nat} {o s : State} (hM : 128 ||| M = M) (h : Frame M o s) {ws : List Nat} :
    Frame M o (State.noteSoft s ws) := by
  unfold State.noteSoft
  exact frame_with_spad (lor_mono hM rfl) h

theorem frame_narrowCount {M : Nat} {o s : State} (hM : 3 ||| M = M) (h : Frame M o s) {a : Nat} {n : Nat} :
    Frame M o (State.narrowCount s a n) := by
  unfold State.narrowCount
  refine frame_foldl h ?_
  intro x1 x2 k3
  extract_lets v4
  clear_value v4
  exact frame_evtCount (lor_mono hM rfl) k3

theorem frame_narrowRead {M : Nat} {o s : State} (hM : 7 ||| M = M) (h : Frame M o s) {a : Nat} {n : Nat} :
    Frame2 M o (State.narrowRead s a n) := by
  unfold State.narrowRead
  extract_lets v1 v2 s3 s4 s5
  have k6 : Frame M o s3 := frame_foldl h (fun x7 x8 k9 => frame_uncorrWord (lor_mono hM rfl) k9)
  have k10 : Frame M o s4 := frame_foldl k6 (fun x11 x12 k13 => frame_corrWord (lor_mono hM rfl) k13)
  have k14 : Frame M o s5 := frame_narrowCount (lor_mono hM rfl) k10
  clear_value v1 v2 s3 s4 s5
  exact Frame2.mk (frame_ite (frame_setErr (lor_mono hM rfl) k14) k14)

theorem frame_narrowStore {M : Nat} {o s : State} (hM : 135 ||| M = M) (h : Frame M o s) {a : Nat} {bs : List Byte} :
    Frame M o (State.narrowStore s a bs) := by
  unfold State.narrowStore
  extract_lets v1 v2 s3 s4
  have k5 : Frame M o s3 := frame_foldl h (fun x6 x7 k8 => frame_corrWord (lor_mono hM rfl) k8)
  have k9 : Frame M o s4 := frame_foldl k5 (fun x10 x11 k12 => frame_zeroSpad (lor_mono hM rfl) (frame_count (lor_mono hM rfl) k12))
  clear_value v1 v2 s3 s4
  exact frame_spadPut (lor_mono hM rfl) k9

theorem frame_narrowWrite {M : Nat} {o s : State} (hM : 135 ||| M = M) (h : Frame M o s) {a : Nat} {bs : List Byte} :
    Frame M o (State.narrowWrite s a bs) := by
  unfold State.narrowWrite
  extract_lets s1
  have k2 : Frame M o s1 := frame_narrowCount (lor_mono hM rfl) h
  clear_value s1
  exact frame_ite (frame_foldl (frame_setErr (lor_mono hM rfl) k2) (fun x3 x4 k5 => frame_narrowStore (lor_mono hM rfl) k5)) (frame_narrowStore (lor_mono hM rfl) k2)

theorem frame_poisonSpad {M : Nat} {o s : State} (hM : 128 ||| M = M) (h : Frame M o s) {a : Nat} {n : Nat} :
    Frame M o (State.poisonSpad s a n) := by
  unfold State.poisonSpad
  extract_lets v1
  clear_value v1
  exact frame_with_spad (lor_mono hM rfl) h

theorem frame_sealedErr {M : Nat} {o s : State} (hM : 5 ||| M = M) (h : Frame M o s) :
    Frame M o (State.sealedErr s) := by
  unfold State.sealedErr
  exact frame_setErr (lor_mono hM rfl) h

theorem frame_atomicStep {M : Nat} {o s : State} (hM : 135 ||| M = M) (h : Frame M o s) {a : Nat} {code : Nat} {new : Nat} :
    Frame2 M o (State.atomicStep s a code new) := by
  unfold State.atomicStep
  refine Frame2.ite (Frame2.mk h) ?_
  extract_lets s1 s2 v3
  have k4 : Frame M o s1 := frame_foldl h (fun x5 x6 k7 => frame_corrWord (lor_mono hM rfl) k7)
  have k8 : Frame M o s2 := frame_foldl k4 (fun x9 x10 k11 => frame_zeroSpad (lor_mono hM rfl) (frame_count (lor_mono hM rfl) k11))
  clear_value s1 s2 v3
  split
  · rename_i y12 y13 y14 e15
    extract_lets s16
    have k17 : Frame M o s16 := frame_spadPut (lor_mono hM rfl) k8
    clear_value s16
    exact Frame2.mk (frame_ite (frame_count (lor_mono hM rfl) k17) k17)

theorem frame_atomicWords {M : Nat} {o s : State} (hM : 135 ||| M = M) (h : Frame M o s) {a : Nat} {code : Nat} {a3 : List Nat} :
    Frame2 M o (State.atomicWords s a code a3) := by
  induction a3 generalizing s a code with
  | nil =>
    unfold State.atomicWords
    exact Frame2.mk h
  | cons w0 w1 ih =>
    unfold State.atomicWords
    split
    · rename_i y1 y2 y3 e4
      have k5 : Frame M o y3 := Frame2.of_eq e4 (frame_atomicStep (lor_mono hM rfl) h)
      split
      · rename_i y6 y7 y8 e9
        have k10 : Frame M o y8 := Frame2.of_eq e9 (ih k5)
        exact Frame2.mk k10

theorem frame_spadAtomic {M : Nat} {o s : State} (hM : 135 ||| M = M) (h : Frame M o s) {a : Nat} {code : Nat} {bs : List Byte} {old : Option Nat} :
    Frame2 M o (State.spadAtomic s a code bs old) := by
  unfold State.spadAtomic
  extract_lets s1 s2
  have k3 : Frame2 M o s1 := Frame2.mk (frame_setErr (lor_mono hM rfl) h)
  have k4 : Frame M o s2 := frame_ite (frame_setErr (lor_mono hM rfl) h) h
  clear_value s1 s2
  split
  · rename_i y5 e6
    exact Frame2.mk h
  · rename_i y7 y8 e9
    refine Frame2.ite (Frame2.mk (frame_ite h (frame_sealedErr (lor_mono hM rfl) h))) ?_
    refine Frame2.ite k3 ?_
    split
    · rename_i y10 y11 y12 e13
      have k14 : Frame M o y12 := Frame2.of_eq e13 (frame_atomicWords (lor_mono hM rfl) k4)
      exact Frame2.mk (frame_narrowCount (lor_mono hM rfl) k14)

theorem frame_syncSpad {M : Nat} {o s : State} (hM : 1 ||| M = M) (h : Frame M o s) :
    Frame M o (State.syncSpad s) := by
  unfold State.syncSpad
  extract_lets s1 s2 s3
  have k4 : Frame M o s1 := frame_wr (lor_mono hM rfl) h
  have k5 : Frame M o s2 := frame_wr (lor_mono hM rfl) k4
  have k6 : Frame M o s3 := frame_wr (lor_mono hM rfl) k5
  clear_value s1 s2 s3
  exact frame_wr (lor_mono hM rfl) k6

theorem frame_sealImage {M : Nat} {o s : State} (hM : 257 ||| M = M) (h : Frame M o s) {image : Nat} :
    Frame M o (State.sealImage s image) := by
  unfold State.sealImage
  exact frame_syncSpad (lor_mono hM rfl) (frame_with_regions (lor_mono hM rfl) h)

theorem frame_releaseImage {M : Nat} {o s : State} (hM : 385 ||| M = M) (h : Frame M o s) {image : Nat} :
    Frame M o (State.releaseImage s image) := by
  unfold State.releaseImage
  extract_lets v1 s2
  have k3 : Frame M o s2 := frame_foldl h (fun x4 x5 k6 => frame_zeroSpad (lor_mono hM rfl) k6)
  clear_value v1 s2
  exact frame_syncSpad (lor_mono hM rfl) (frame_with_regions (lor_mono hM rfl) k3)

theorem frame_releaseRegion {M : Nat} {o s : State} (hM : 387 ||| M = M) (h : Frame M o s) {image : Nat} {entry : Nat} :
    Frame M o (State.releaseRegion s image entry) := by
  unfold State.releaseRegion
  split
  · rename_i y1 e2
    exact h
  · rename_i y3 y4 e5
    extract_lets s6 s7
    have k8 : Frame M o s6 := frame_zeroSpad (lor_mono hM rfl) h
    have k9 : Frame M o s7 := frame_syncSpad (lor_mono hM rfl) (frame_with_regions (lor_mono hM rfl) k8)
    clear_value s7
    exact frame_foldl k9 (fun x10 x11 k12 => frame_evtCount (lor_mono hM rfl) k12)

theorem frame_allocRegion {M : Nat} {o s : State} (hM : 256 ||| M = M) (h : Frame M o s) {r : Region} :
    FrameOk M o (State.allocRegion s r) := by
  unfold State.allocRegion
  split
  · rename_i y1 e2
    exact FrameOk.error
  · rename_i y3 y4 e5
    split
    · rename_i y6 y7 e8
      exact FrameOk.error
    · rename_i y9 y10 e11
      exact FrameOk.ok (frame_with_regions (lor_mono hM rfl) h)

theorem frame_execScratchpadAtomic {M : Nat} {o s : State} (hM : 135 ||| M = M) (h : Frame M o s) {bench : Nat} {addr : Nat} {code : Nat} {data : List Byte} {returnOld : Bool} :
    FrameNext M o (execScratchpadAtomic bench addr code data returnOld s) := by
  unfold execScratchpadAtomic
  extract_lets s1
  have k2 : Frame M o s1 := frame_begin_ (lor_mono hM rfl) h
  clear_value s1
  refine FrameNext.ite (FrameNext.next k2) ?_
  split
  · rename_i y3 y4 y5 e6
    have k7 : Frame M o y5 := Frame2.of_eq e6 (frame_spadAtomic (lor_mono hM rfl) k2)
    extract_lets s8
    have k9 : Frame M o s8 := frame_ite (frame_unmappedErr (lor_mono hM rfl) k7) k7
    clear_value s8
    exact FrameNext.next (frame_ite (frame_put (lor_mono hM rfl) k9) k9)

theorem frame_patrolSlice {M : Nat} {o s : State} (hM : 135 ||| M = M) (h : Frame M o s) {core : Nat} {corrected : List Nat} {bad : List Nat} {reload : State → Nat → State} (hreload : ∀ x0 x1, Frame M o x0 → Frame M o (reload x0 x1)) :
    Frame M o (patrolSlice s core corrected bad reload) := by
  unfold patrolSlice
  refine frame_ite h ?_
  extract_lets v1 v2 s3 s4 s5
  have k6 : Frame M o s3 := frame_evtCount (lor_mono hM rfl) h
  have k7 : Frame M o s4 := frame_foldl k6 (fun x8 x9 k10 => frame_corrWord (lor_mono hM rfl) k10)
  have k11 : Frame M o s5 := frame_with_spad (lor_mono hM rfl) k7
  clear_value v1 v2 s3 s4 s5
  refine frame_foldl k11 ?_
  intro x12 x13 k14
  extract_lets s15 s16 s17
  have k18 : Frame M o s15 := frame_count (lor_mono hM rfl) k14
  have k19 : Frame M o s16 := frame_uncorrWord (lor_mono hM rfl) k18
  have k20 : Frame M o s17 := frame_poisonSpad (lor_mono hM rfl) k19
  clear_value s15 s16 s17
  exact frame_ite (hreload _ _ (frame_uncorrWord (lor_mono hM rfl) k18)) (frame_logAdd (lor_mono hM rfl) k20)

end Sys2Proof.Machine
end

