-- ==== Sys2Proof/Laws/FrameRings.lean ====
section
/-! SUPPORT. The functions of Machine/Lpddr.lean, Machine/Rings.lean, Machine/Presence.lean, Machine/Operands.lean, Machine/Image.lean change only the parts of the state named by a mask. -/
namespace Sys2Proof.Machine
open Sys2Proof

set_option Elab.async false

theorem frame_loadErrInfo {M : Nat} {o s : State} (hM : 1 ||| M = M) (h : Frame M o s) {o1 : Nat} {kind : Nat} :
    Frame M o (State.loadErrInfo s o1 kind) := by
  unfold State.loadErrInfo
  split
  · rename_i y1 y2 y3 y4 y5 e6
    extract_lets v7 s8 s9 s10 s11
    have k12 : Frame M o s8 := frame_wr (lor_mono hM rfl) h
    have k13 : Frame M o s9 := frame_wr (lor_mono hM rfl) k12
    have k14 : Frame M o s10 := frame_wr (lor_mono hM rfl) k13
    have k15 : Frame M o s11 := frame_wr (lor_mono hM rfl) k14
    clear_value v7 s8 s9 s10 s11
    exact frame_wr (lor_mono hM rfl) k15

theorem frame_channelBad {M : Nat} {o s : State} (hM : 1029 ||| M = M) (h : Frame M o s) {site : Nat} {c : Nat} :
    Frame M o (State.channelBad s site c) := by
  unfold State.channelBad
  extract_lets s1 s2
  have k3 : Frame M o s1 := frame_setErrLog (lor_mono hM rfl) h
  have k4 : Frame M o s2 := frame_setSite (lor_mono hM rfl) k3
  clear_value s1 s2
  exact frame_wr (lor_mono hM rfl) k4

theorem frame_channelEvent {M : Nat} {o s : State} (hM : 1029 ||| M = M) (h : Frame M o s) {site : Nat} {c : Nat} {unresponsive : Bool} :
    Frame M o (State.channelEvent s site c unresponsive) := by
  unfold State.channelEvent
  extract_lets v1 v2 s3 v4
  have k5 : Frame M o s3 := frame_setSite (lor_mono hM rfl) h
  clear_value v1 v2 s3 v4
  exact frame_ite k5 (frame_ite (frame_channelBad (lor_mono hM rfl) k5) k5)

theorem frame_uncorrEvent {M : Nat} {o s : State} (hM : 1029 ||| M = M) (h : Frame M o s) {o1 : Nat} {kind : Nat} {entry : Nat} {unresponsive : Bool} {wrong : Bool} :
    Frame M o (State.uncorrEvent s o1 kind entry unresponsive wrong) := by
  unfold State.uncorrEvent
  split
  · rename_i y1 y2 y3 y4 e5
    extract_lets s6 s7 s8 s9
    have k10 : Frame M o s6 := frame_ite (frame_count (lor_mono hM rfl) h) (frame_ite (frame_count (lor_mono hM rfl) h) h)
    have k11 : Frame M o s7 := frame_count (lor_mono hM rfl) k10
    have k12 : Frame M o s8 := frame_loadErrInfo (lor_mono hM rfl) k11
    have k13 : Frame M o s9 := frame_setErrLog (lor_mono hM rfl) k12
    clear_value s6 s7 s8 s9
    exact frame_channelEvent (lor_mono hM rfl) k13

theorem frame_lpCorrected {M : Nat} {o s : State} (hM : 5 ||| M = M) (h : Frame M o s) {o1 : Nat} :
    Frame M o (State.lpCorrected s o1) := by
  unfold State.lpCorrected
  extract_lets v1
  clear_value v1
  exact frame_setErr (lor_mono hM rfl) (frame_count (lor_mono hM rfl) h)

theorem frame_countRetries {M : Nat} {o s : State} (hM : 1 ||| M = M) (h : Frame M o s) {site : Nat} {reads : Nat} {writes : Nat} {parity : Nat} :
    Frame M o (State.countRetries s site reads writes parity) := by
  unfold State.countRetries
  exact frame_count (lor_mono hM rfl) h

theorem frame_memRead {M : Nat} {o s : State} (hM : 1029 ||| M = M) (h : Frame M o s) {o1 : Nat} {n : Nat} {m : MemOutcome} {entry : Nat} :
    Frame3 M o (State.memRead s o1 n m entry) := by
  unfold State.memRead
  extract_lets v1 v2 v3 v4 s5 s6 s7
  have k8 : Frame M o s5 := frame_countRetries (lor_mono hM rfl) h
  have k9 : Frame M o s6 := frame_uncorrEvent (lor_mono hM rfl) k8
  have k10 : Frame M o s7 := frame_ite (frame_lpCorrected (lor_mono hM rfl) k8) k8
  clear_value v1 v2 v3 v4 s5 s6 s7
  exact Frame3.ite (Frame3.mk k9) (Frame3.mk k10)

theorem frame_memWrite {M : Nat} {o s : State} (hM : 1541 ||| M = M) (h : Frame M o s) {o1 : Nat} {bs : List Byte} {m : MemOutcome} {entry : Nat} :
    Frame M o (State.memWrite s o1 bs m entry) := by
  unfold State.memWrite
  extract_lets s1 s2
  have k3 : Frame M o s1 := frame_countRetries (lor_mono hM rfl) h
  have k4 : Frame M o s2 := frame_lpPut (lor_mono hM rfl) k3
  clear_value s1 s2
  exact frame_ite (frame_spoilLp (lor_mono hM rfl) (frame_uncorrEvent (lor_mono hM rfl) k4)) k4

theorem frame_memReads {M : Nat} {o s : State} (hM : 1031 ||| M = M) (h : Frame M o s) {o1 : Nat} {n : Nat} {m : MemOutcome} {entry : Nat} :
    Frame3 M o (State.memReads s o1 n m entry) := by
  unfold State.memReads
  refine frame_foldl3 (Frame3.mk h) ?_
  intro x1 x2 k3
  split
  · rename_i y4 y5 y6 y7 e8
    have k9 : Frame M o y7 := Frame3.of_eq e8 (frame_memRead (lor_mono hM rfl) k3.get)
    exact Frame3.mk (frame_evtDev (lor_mono hM rfl) k9)

theorem frame_memWrites {M : Nat} {o s : State} (hM : 1543 ||| M = M) (h : Frame M o s) {o1 : Nat} {bs : List Byte} {m : MemOutcome} {entry : Nat} :
    Frame M o (State.memWrites s o1 bs m entry) := by
  unfold State.memWrites
  exact frame_foldl h (fun x1 x2 k3 => frame_evtDev (lor_mono hM rfl) (frame_memWrite (lor_mono hM rfl) k3))

theorem frame_evtUnits {M : Nat} {o s : State} (hM : 3 ||| M = M) (h : Frame M o s) {src : Nat} {o2 : Nat} {n : Nat} :
    Frame M o (State.evtUnits s src o2 n) := by
  unfold State.evtUnits
  exact frame_ite h (frame_evtDev (lor_mono hM rfl) h)

theorem frame_lpNarrowPut {M : Nat} {o s : State} (hM : 519 ||| M = M) (h : Frame M o s) {a : Nat} {bs : List Byte} {k : PageKind} :
    Frame M o (State.lpNarrowPut s a bs k) := by
  unfold State.lpNarrowPut
  exact frame_ite (frame_unmappedErr (lor_mono hM rfl) h) (frame_lpPut (lor_mono hM rfl) (frame_evtUnits (lor_mono hM rfl) (frame_narrow (lor_mono hM rfl) h)))

theorem frame_devRead {M : Nat} {o s : State} (hM : 1031 ||| M = M) (h : Frame M o s) {k : PageKind} {i : Nat} {a : Nat} {n : Nat} {entry : Nat} :
    Frame2 M o (State.devRead s k i a n entry) := by
  unfold State.devRead
  refine Frame2.ite (Frame2.mk h) ?_
  refine Frame2.ite (Frame2.mk (frame_unmappedErr (lor_mono hM rfl) h)) ?_
  extract_lets s1 v2
  have k3 : Frame M o s1 := frame_evtUnits (lor_mono hM rfl) (frame_narrow (lor_mono hM rfl) h)
  clear_value s1 v2
  exact Frame2.mk (frame_foldl k3 (fun x4 x5 k6 => Frame3.get (frame_memRead (lor_mono hM rfl) k6)))

theorem frame_bulkRead {M : Nat} {o s : State} (hM : 1031 ||| M = M) (h : Frame M o s) {k : PageKind} {i : Nat} {a : Nat} {n : Nat} {entry : Nat} :
    Frame M o (State.bulkRead s k i a n entry) := by
  unfold State.bulkRead
  exact frame_ite h (frame_ite (frame_unmappedErr (lor_mono hM rfl) h) (frame_evtUnits (lor_mono hM rfl) (frame_foldl h (fun x1 x2 k3 => Frame3.get (frame_memRead (lor_mono hM rfl) k3)))))

theorem frame_burstAtomic {M : Nat} {o s : State} (hM : 1541 ||| M = M) (h : Frame M o s) {o1 : Nat} {code : Nat} {bs : List Byte} {m : MemOutcome} {entry : Nat} :
    Frame3 M o (State.burstAtomic s o1 code bs m entry) := by
  unfold State.burstAtomic
  extract_lets v1 v2 v3 v4 v5 v6 v7 v8 s9 s10 s11 s12 s13
  have k14 : Frame M o s9 := frame_countRetries (lor_mono hM rfl) h
  have k15 : Frame M o s10 := frame_lpPut (lor_mono hM rfl) k14
  have k16 : Frame M o s11 := frame_count (lor_mono hM rfl) k15
  have k17 : Frame M o s12 := frame_ite (frame_uncorrEvent (lor_mono hM rfl) k16) (frame_ite (frame_lpCorrected (lor_mono hM rfl) k16) k16)
  have k18 : Frame M o s13 := frame_ite (frame_spoilLp (lor_mono hM rfl) (frame_uncorrEvent (lor_mono hM rfl) k17)) k17
  clear_value v1 v2 v3 v4 v5 v6 v7 v8 s9 s10 s11 s12 s13
  exact Frame3.mk k18

theorem frame_unitAtomic {M : Nat} {o s : State} (hM : 1543 ||| M = M) (h : Frame M o s) {o1 : Nat} {code : Nat} {bs : List Byte} {m : MemOutcome} {entry : Nat} :
    Frame3 M o (State.unitAtomic s o1 code bs m entry) := by
  unfold State.unitAtomic
  refine frame_foldl3 (Frame3.mk (frame_evtDev (lor_mono hM rfl) (frame_evtDev (lor_mono hM rfl) h))) ?_
  intro x1 x2 k3
  split
  · rename_i y4 y5 y6 y7 e8
    have k9 : Frame M o y7 := Frame3.of_eq e8 (frame_burstAtomic (lor_mono hM rfl) k3.get)
    exact Frame3.mk k9

theorem frame_stepTo {M : Nat} {o s : State} (hM : 5 ||| M = M) (h : Frame M o s) {site : Nat} {new : Nat} :
    Frame M o (State.stepTo s site new) := by
  unfold State.stepTo
  extract_lets v1 s2 s3
  have k4 : Frame M o s2 := frame_wr (lor_mono hM rfl) h
  have k5 : Frame M o s3 := frame_count (lor_mono hM rfl) k4
  clear_value v1 s2 s3
  exact frame_ite (frame_ite (frame_setErrLog (lor_mono hM rfl) k5) k5) k4

theorem frame_pollTemp {M : Nat} {o s : State} (hM : 1029 ||| M = M) (h : Frame M o s) {site : Nat} {reading : Option Int} :
    Frame M o (State.pollTemp s site reading) := by
  unfold State.pollTemp
  extract_lets v1 v2 s3 s4 s5 v6 v7 s8 v9
  have k10 : Frame M o s3 := frame_setSite (lor_mono hM rfl) h
  have k11 : Frame M o s4 := frame_wr (lor_mono hM rfl) k10
  have k12 : Frame M o s5 := frame_setErrLog (lor_mono hM rfl) k11
  have k13 : Frame M o s8 := frame_ite (frame_wr (lor_mono hM rfl) h) h
  clear_value v1 v2 s3 s4 s5 v6 v7 s8 v9
  split
  · rename_i y14
    exact frame_ite (frame_stepTo (lor_mono hM rfl) k12) k10
  · rename_i y15 y16
    refine frame_ite (frame_setSite (lor_mono hM rfl) h) ?_
    extract_lets v17 v18 s19 s20 s21
    have k22 : Frame M o s19 := frame_wr (lor_mono hM rfl) k13
    have k23 : Frame M o s20 := frame_ite (frame_wr (lor_mono hM rfl) k22) k22
    have k24 : Frame M o s21 := frame_setSite (lor_mono hM rfl) k23
    clear_value v17 v18 s19 s20 s21
    exact frame_stepTo (lor_mono hM rfl) k24

theorem frame_patrolSite {M : Nat} {o s : State} (hM : 1541 ||| M = M) (h : Frame M o s) {site : Nat} {corrected : List Nat} {bad : List Nat} {wrong : List Nat} :
    Frame M o (State.patrolSite s site corrected bad wrong) := by
  unfold State.patrolSite
  refine frame_ite h ?_
  extract_lets s1 v2
  have k3 : Frame M o s1 := frame_foldl h (fun x4 x5 k6 => frame_lpCorrected (lor_mono hM rfl) k6)
  have k7 : ∀ (x8 : Bool) (x9 : State) (x10 : Nat), Frame M o x9 → Frame M o (v2 x8 x9 x10) := by
    intro x8 x9 x10 k11
    unfold v2
    extract_lets v12 s13 s14
    have k15 : Frame M o s13 := frame_ite (frame_spoilLp (lor_mono hM rfl) k11) k11
    have k16 : Frame M o s14 := frame_ite k15 (frame_countRetries (lor_mono hM rfl) k15)
    clear_value v12 s13 s14
    exact frame_uncorrEvent (lor_mono hM rfl) k16
  clear_value s1 v2
  exact frame_foldl (frame_foldl k3 (fun x17 x18 k19 => k7 _ _ _ k19)) (fun x20 x21 k22 => k7 _ _ _ k22)

theorem frame_execLpddrPatrol {M : Nat} {o s : State} (hM : 1541 ||| M = M) (h : Frame M o s) {site : Nat} {corrected : List Nat} {bad : List Nat} {wrong : List Nat} :
    FrameNext M o (execLpddrPatrol site corrected bad s wrong) := by
  unfold execLpddrPatrol
  extract_lets s1
  have k2 : Frame M o s1 := frame_begin_ (lor_mono hM rfl) h
  clear_value s1
  exact FrameNext.next (frame_ite (frame_patrolSite (lor_mono hM rfl) k2) k2)

theorem frame_marginWrite {M : Nat} {o s : State} (hM : 5 ||| M = M) (h : Frame M o s) {site : Nat} {value : Nat} :
    Frame M o (State.marginWrite s site value) := by
  unfold State.marginWrite
  refine frame_ite (frame_badWrite (lor_mono hM rfl) h) ?_
  refine frame_ite (frame_setErr (lor_mono hM rfl) h) ?_
  extract_lets s1 s2 s3 s4 s5
  have k6 : Frame M o s1 := frame_wr (lor_mono hM rfl) h
  have k7 : Frame M o s2 := frame_wr (lor_mono hM rfl) k6
  have k8 : Frame M o s3 := frame_wr (lor_mono hM rfl) k7
  have k9 : Frame M o s4 := frame_wr (lor_mono hM rfl) k8
  have k10 : Frame M o s5 := frame_wr (lor_mono hM rfl) k9
  clear_value s1 s2 s3 s4 s5
  exact frame_ite (frame_wr (lor_mono hM rfl) k10) k9

theorem frame_execMarginGo {M : Nat} {o s : State} (hM : 5 ||| M = M) (h : Frame M o s) {site : Nat} {value : Nat} :
    FrameNext M o (execMarginGo site value s) := by
  unfold execMarginGo
  exact FrameNext.next (frame_gated (lor_mono hM rfl) (frame_begin_ (lor_mono hM rfl) h) (fun x1 k2 => frame_marginWrite (lor_mono hM rfl) k2))

theorem frame_execMarginDone {M : Nat} {o s : State} (hM : 1 ||| M = M) (h : Frame M o s) {site : Nat} {low : Nat} {high : Nat} {failed : Bool} :
    FrameNext M o (execMarginDone site low high failed s) := by
  unfold execMarginDone
  extract_lets s1 v2 s3 s4 s5 s6
  have k7 : Frame M o s1 := frame_begin_ (lor_mono hM rfl) h
  have k8 : Frame M o s3 := frame_wr (lor_mono hM rfl) k7
  have k9 : Frame M o s4 := frame_wr (lor_mono hM rfl) k8
  have k10 : Frame M o s5 := frame_wr (lor_mono hM rfl) k9
  have k11 : Frame M o s6 := frame_wr (lor_mono hM rfl) k10
  clear_value s1 v2 s3 s4 s5 s6
  exact FrameNext.next (frame_ite k7 (frame_wr (lor_mono hM rfl) k11))

theorem frame_addBuiltIn {M : Nat} {o s : State} (hM : 4096 ||| M = M) (h : Frame M o s) {kind : BKind} {image : Nat} {entry : Option Nat} {bench : Nat} {todo : List Xfer} {dl : Option Nat} :
    Frame M o (State.addBuiltIn s kind image entry bench todo dl) := by
  unfold State.addBuiltIn
  exact frame_ite h (frame_with_dma (lor_mono hM rfl) h)

theorem frame_setRing {M : Nat} {o s : State} (hM : 131072 ||| M = M) (h : Frame M o s) {r : Nat} {f : RingCount → RingCount} :
    Frame M o (State.setRing s r f) := by
  unfold State.setRing
  exact frame_with_rings (lor_mono hM rfl) h

theorem frame_ringDrop {M : Nat} {o s : State} (hM : 131079 ||| M = M) (h : Frame M o s) {r : Nat} :
    Frame M o (State.ringDrop s r) := by
  unfold State.ringDrop
  extract_lets s1 s2
  have k3 : Frame M o s1 := frame_wrAt (lor_mono hM rfl) h
  have k4 : Frame M o s2 := frame_setErr (lor_mono hM rfl) k3
  clear_value s1 s2
  exact frame_evtDev (lor_mono hM rfl) (frame_setRing (lor_mono hM rfl) k4)

theorem frame_resultRecord {M : Nat} {o s : State} (hM : 135175 ||| M = M) (h : Frame M o s) {r : Nat} {image : Nat} {entry : Nat} {tag : Nat} {late : Bool} {j : Nat} {first : Nat} {tr : Nat} {commit : Nat} {spadAddr : Nat} {bytes : Nat} {dl : Nat} :
    Frame M o (State.resultRecord s r image entry tag late j first tr commit spadAddr bytes dl) := by
  unfold State.resultRecord
  extract_lets v1 v2 v3 v4 v5 v6 v7 v8 v9 v10 v11 v12 v13 s14
  have k15 : Frame M o s14 := frame_setRing (lor_mono hM rfl) h
  clear_value v1 v2 v3 v4 v5 v6 v7 v8 v9 v10 v11 v12 v13 s14
  exact frame_ite (frame_ringDrop (lor_mono hM rfl) h) (frame_evtDev (lor_mono hM rfl) (frame_addBuiltIn (lor_mono hM rfl) k15))

theorem frame_mirrorOne {M : Nat} {o s : State} (hM : 133127 ||| M = M) (h : Frame M o s) {e : LogEntry} :
    FrameOpt M o (State.mirrorOne s e) := by
  unfold State.mirrorOne
  extract_lets v1 v2 v3 s4 v5
  have k6 : Frame M o s4 := frame_hostPut (lor_mono hM rfl) h
  clear_value v1 v2 s4
  exact FrameOpt.ite FrameOpt.none (FrameOpt.ite (FrameOpt.some (frame_evtDev (lor_mono hM rfl) (frame_count (lor_mono hM rfl) (frame_with_log (lor_mono hM rfl) h)))) (FrameOpt.some (frame_with_log_rings (lor_mono hM rfl) k6)))

theorem frame_mirrorAll {M : Nat} {o s : State} (hM : 133127 ||| M = M) (h : Frame M o s) {a1 : List LogEntry} :
    Frame M o (State.mirrorAll s a1) := by
  induction a1 generalizing s with
  | nil =>
    unfold State.mirrorAll
    exact h
  | cons w0 w1 ih =>
    unfold State.mirrorAll
    refine frame_ite (ih h) ?_
    split
    · rename_i y1 e2
      exact h
    · rename_i y3 y4 e5
      have k6 : Frame M o y4 := FrameOpt.of_eq e5 (frame_mirrorOne (lor_mono hM rfl) h)
      exact ih k6

theorem frame_logMirror {M : Nat} {o s : State} (hM : 133127 ||| M = M) (h : Frame M o s) :
    Frame M o (State.logMirror s) := by
  unfold State.logMirror
  refine frame_ite h ?_
  extract_lets s1
  have k2 : Frame M o s1 := frame_mirrorAll (lor_mono hM rfl) h
  clear_value s1
  exact frame_ite h (frame_hostPut (lor_mono hM rfl) k2)

theorem frame_tallyCopy {M : Nat} {o s : State} (hM : 657415 ||| M = M) (h : Frame M o s) :
    Frame M o (State.tallyCopy s) := by
  unfold State.tallyCopy
  split
  · rename_i y1 e2
    exact h
  · rename_i y3 y4 y5 e6
    extract_lets v7 v8 v9 v10 v11 s12 s13 v14 s15 v16
    have k17 : Frame M o s12 := frame_ite h (frame_hostPut (lor_mono hM rfl) h)
    have k18 : Frame M o s13 := frame_hostPut (lor_mono hM rfl) k17
    have k19 : Frame M o s15 := frame_hostPut (lor_mono hM rfl) k18
    clear_value v7 v8 v9 v11 s12 s13 v14 s15
    refine frame_ite h ?_
    refine frame_ite ?_ (frame_syncTally (lor_mono hM rfl) (frame_with_rings_tly (lor_mono hM rfl) k19))
    exact frame_syncTally (lor_mono hM rfl) (frame_evtDev (lor_mono hM rfl) (frame_recordLost (lor_mono hM rfl) (frame_with_tly (lor_mono hM rfl) h)))

theorem frame_execLogMirror {M : Nat} {o s : State} (hM : 133127 ||| M = M) (h : Frame M o s) :
    FrameNext M o (execLogMirror s) := by
  unfold execLogMirror
  exact FrameNext.next (frame_logMirror (lor_mono hM rfl) (frame_begin_ (lor_mono hM rfl) h))

theorem frame_execTallyRecordCopy {M : Nat} {o s : State} (hM : 657415 ||| M = M) (h : Frame M o s) :
    FrameNext M o (execTallyRecordCopy s) := by
  unfold execTallyRecordCopy
  exact FrameNext.next (frame_tallyCopy (lor_mono hM rfl) (frame_begin_ (lor_mono hM rfl) h))

theorem frame_consWrite {M : Nat} {o s : State} (hM : 131073 ||| M = M) (h : Frame M o s) {ring : Nat} {value : Nat} :
    Frame M o (State.consWrite s ring value) := by
  unfold State.consWrite
  refine frame_ite ?_ ?_
  · extract_lets s1
    have k2 : Frame M o s1 := frame_wrAt (lor_mono hM rfl) h
    clear_value s1
    exact frame_setRing (lor_mono hM rfl) k2
  · refine frame_ite ?_ ?_
    · extract_lets s3 v4
      have k5 : Frame M o s3 := frame_wrAt (lor_mono hM rfl) h
      clear_value s3
      exact frame_with_rings (lor_mono hM rfl) k5
    · refine frame_ite ?_ h
      extract_lets s6 v7
      have k8 : Frame M o s6 := frame_wrAt (lor_mono hM rfl) h
      clear_value s6
      exact frame_with_rings (lor_mono hM rfl) k8

theorem frame_execConsWrite {M : Nat} {o s : State} (hM : 131077 ||| M = M) (h : Frame M o s) {ring : Nat} {value : Nat} :
    FrameNext M o (execConsWrite ring value s) := by
  unfold execConsWrite
  extract_lets s1
  have k2 : Frame M o s1 := frame_begin_ (lor_mono hM rfl) h
  clear_value s1
  exact FrameNext.next (frame_gated (lor_mono hM rfl) k2 (fun x3 k4 => frame_consWrite (lor_mono hM rfl) k4))

theorem frame_logPlain {M : Nat} {o s : State} (hM : 5 ||| M = M) (h : Frame M o s) {k : PageKind} {d2 : Nat} :
    Frame M o (State.logPlain s k d2) := by
  unfold State.logPlain
  exact frame_logAdd (lor_mono hM rfl) h

theorem frame_closeWindow {M : Nat} {o s : State} (hM : 262149 ||| M = M) (h : Frame M o s) :
    Frame M o (State.closeWindow s) := by
  unfold State.closeWindow
  refine frame_ite h ?_
  extract_lets s1 s2 s3 v4 s5
  have k6 : Frame M o s1 := frame_count (lor_mono hM rfl) (frame_wr (lor_mono hM rfl) h)
  have k7 : Frame M o s2 := frame_wr (lor_mono hM rfl) k6
  have k8 : Frame M o s3 := frame_wr (lor_mono hM rfl) k7
  have k9 : Frame M o s5 := frame_with_sec (lor_mono hM rfl) k8
  clear_value s1 s2 s3 s5
  exact frame_logPlain (lor_mono hM rfl) k9

theorem frame_pressPresence {M : Nat} {o s : State} (hM : 1310725 ||| M = M) (h : Frame M o s) :
    Frame M o (State.pressPresence s) := by
  unfold State.pressPresence
  refine frame_ite h ?_
  extract_lets v1 v2 s3 s4 s5 v6 s7
  have k8 : Frame M o s3 := frame_with_sec_pow (lor_mono hM rfl) h
  have k9 : Frame M o s4 := frame_wr (lor_mono hM rfl) k8
  have k10 : Frame M o s5 := frame_count (lor_mono hM rfl) k9
  have k11 : Frame M o s7 := frame_with_sec (lor_mono hM rfl) k10
  clear_value s3 s4 s5 s7
  exact frame_ite k8 (frame_logPlain (lor_mono hM rfl) k11)

theorem frame_sealOpen {M : Nat} {o s : State} (hM : 524293 ||| M = M) (h : Frame M o s) :
    Frame M o (State.sealOpen s) := by
  unfold State.sealOpen
  extract_lets v1 v2 s3 s4 s5 s6
  have k7 : Frame M o s3 := frame_with_tly (lor_mono hM rfl) h
  have k8 : Frame M o s4 := frame_wr (lor_mono hM rfl) k7
  have k9 : Frame M o s5 := frame_wr (lor_mono hM rfl) k8
  have k10 : Frame M o s6 := frame_ite (frame_wr (lor_mono hM rfl) k9) k9
  clear_value v1 s3 s4 s5 s6
  exact frame_setErrLog (lor_mono hM rfl) k10

theorem frame_sealSample {M : Nat} {o s : State} (hM : 524293 ||| M = M) (h : Frame M o s) {bit : Bool} :
    Frame M o (State.sealSample s bit) := by
  unfold State.sealSample
  extract_lets v1 v2 v3 s4 v5
  have k6 : Frame M o s4 := frame_with_tly (lor_mono hM rfl) h
  exact frame_ite (frame_ite (frame_wr (lor_mono hM rfl) (frame_with_tly (lor_mono hM rfl) k6)) k6) (frame_ite (frame_sealOpen (lor_mono hM rfl) k6) k6)

theorem frame_secStart {M : Nat} {o s : State} (hM : 262149 ||| M = M) (h : Frame M o s) {op : Nat} {needsWindow : Bool} :
    Frame M o (State.secStart s op needsWindow) := by
  unfold State.secStart
  refine frame_gated (lor_mono hM rfl) h ?_
  intro x1 k2
  refine frame_ite (frame_badWrite (lor_mono hM rfl) k2) ?_
  refine frame_ite (frame_setErr (lor_mono hM rfl) (frame_wr (lor_mono hM rfl) k2)) ?_
  extract_lets s3 v4
  have k5 : Frame M o s3 := frame_wr (lor_mono hM rfl) k2
  clear_value s3
  exact frame_with_sec (lor_mono hM rfl) k5

theorem frame_secEnd {M : Nat} {o s : State} (hM : 262145 ||| M = M) (h : Frame M o s) {result : Nat} :
    Frame M o (State.secEnd s result) := by
  unfold State.secEnd
  extract_lets s1 s2 v3
  have k4 : Frame M o s1 := frame_wr (lor_mono hM rfl) h
  have k5 : Frame M o s2 := frame_wr (lor_mono hM rfl) k4
  clear_value s1 s2
  exact frame_with_sec (lor_mono hM rfl) k5

theorem frame_fwReject {M : Nat} {o s : State} (hM : 262149 ||| M = M) (h : Frame M o s) {code : Nat} :
    Frame M o (State.fwReject s code) := by
  unfold State.fwReject
  exact frame_secEnd (lor_mono hM rfl) (frame_setErr (lor_mono hM rfl) h)

theorem frame_installDone {M : Nat} {o s : State} (hM : 263175 ||| M = M) (h : Frame M o s) {flashOk : Bool} :
    Frame M o (State.installDone s flashOk) := by
  unfold State.installDone
  extract_lets v1 v2 s3 v4 v5 v6 s7 s8
  have k9 : Frame M o s3 := frame_ite (Frame2.get (frame_devRead (lor_mono hM rfl) h)) h
  have k10 : Frame M o s7 := frame_with_sec (lor_mono hM rfl) k9
  have k11 : Frame M o s8 := frame_wr (lor_mono hM rfl) k10
  clear_value v1 v2 s3 v4 v5 s7 s8
  refine frame_ite (frame_fwReject (lor_mono hM rfl) k9) ?_
  refine frame_ite (frame_fwReject (lor_mono hM rfl) k9) ?_
  exact frame_ite (frame_fwReject (lor_mono hM rfl) k9) (frame_ite (frame_secEnd (lor_mono hM rfl) (frame_setErr (lor_mono hM rfl) k9)) (frame_secEnd (lor_mono hM rfl) (frame_wr (lor_mono hM rfl) k11)))

theorem frame_rotateDone {M : Nat} {o s : State} (hM : 262149 ||| M = M) (h : Frame M o s) {flashOk : Bool} :
    Frame M o (State.rotateDone s flashOk) := by
  unfold State.rotateDone
  extract_lets v1 s2 v3 v4
  have k5 : Frame M o s2 := frame_askBlock (lor_mono hM rfl) h
  clear_value v1 s2 v4
  refine frame_ite (frame_secEnd (lor_mono hM rfl) h) ?_
  refine frame_ite (frame_secEnd (lor_mono hM rfl) (frame_noteExhausted (lor_mono hM rfl) h)) ?_
  refine frame_ite (frame_with_sec (lor_mono hM rfl) k5) ?_
  refine frame_ite (frame_secEnd (lor_mono hM rfl) (frame_setErr (lor_mono hM rfl) h)) ?_
  split
  · rename_i y6 y7 y8 e9
    have k10 : Frame M o y8 := Frame2.of_eq e9 (frame_signWith (lor_mono hM rfl) h)
    extract_lets v11 s12
    have k13 : Frame M o s12 := frame_with_sec (lor_mono hM rfl) k10
    clear_value s12
    exact frame_secEnd (lor_mono hM rfl) (frame_wr (lor_mono hM rfl) (frame_wr (lor_mono hM rfl) k13))

theorem frame_attestDone {M : Nat} {o s : State} (hM : 263687 ||| M = M) (h : Frame M o s) :
    Frame M o (State.attestDone s) := by
  unfold State.attestDone
  refine frame_ite (frame_secEnd (lor_mono hM rfl) h) ?_
  refine frame_ite (frame_secEnd (lor_mono hM rfl) (frame_noteExhausted (lor_mono hM rfl) h)) ?_
  refine frame_ite ?_ ?_
  · extract_lets s1 v2
    have k3 : Frame M o s1 := frame_askBlock (lor_mono hM rfl) h
    clear_value s1
    exact frame_with_sec (lor_mono hM rfl) k3
  · extract_lets v4 s5
    have k6 : Frame M o s5 := Frame2.get (frame_devRead (lor_mono hM rfl) h)
    clear_value v4 s5
    split
    · rename_i y7 y8 y9 e10
      have k11 : Frame M o y9 := Frame2.of_eq e10 (frame_signWith (lor_mono hM rfl) k6)
      exact frame_secEnd (lor_mono hM rfl) (frame_lpNarrowPut (lor_mono hM rfl) k11)

theorem frame_identityDone {M : Nat} {o s : State} (hM : 262663 ||| M = M) (h : Frame M o s) :
    Frame M o (State.identityDone s) := by
  unfold State.identityDone
  extract_lets v1
  clear_value v1
  exact frame_ite (frame_secEnd (lor_mono hM rfl) h) (frame_secEnd (lor_mono hM rfl) (frame_lpNarrowPut (lor_mono hM rfl) h))

theorem frame_extendDone {M : Nat} {o s : State} (hM : 263175 ||| M = M) (h : Frame M o s) :
    Frame M o (State.extendDone s) := by
  unfold State.extendDone
  exact frame_ite (frame_secEnd (lor_mono hM rfl) h) (frame_secEnd (lor_mono hM rfl) (frame_extendM (lor_mono hM rfl) (Frame2.get (frame_devRead (lor_mono hM rfl) h))))

theorem frame_secFinish {M : Nat} {o s : State} (hM : 263687 ||| M = M) (h : Frame M o s) {flashOk : Bool} :
    Frame M o (State.secFinish s flashOk) := by
  unfold State.secFinish
  split
  · rename_i y1 e2
    exact frame_installDone (lor_mono hM rfl) h
  · rename_i y3 e4
    exact frame_rotateDone (lor_mono hM rfl) h
  · rename_i y5 e6
    exact frame_secEnd (lor_mono hM rfl) (frame_wr (lor_mono hM rfl) h)
  · rename_i y7 e8
    exact frame_secEnd (lor_mono hM rfl) (frame_wr (lor_mono hM rfl) h)
  · rename_i y9 e10
    exact frame_attestDone (lor_mono hM rfl) h
  · rename_i y11 e12
    exact frame_identityDone (lor_mono hM rfl) h
  · rename_i y13 e14
    exact frame_extendDone (lor_mono hM rfl) h
  · rename_i y15 y16 y17 y18 y19 y20 y21 y22
    exact h

theorem frame_execPresenceOpen {M : Nat} {o s : State} (hM : 1310725 ||| M = M) (h : Frame M o s) :
    FrameNext M o (execPresenceOpen s) := by
  unfold execPresenceOpen
  extract_lets s1
  have k2 : Frame M o s1 := frame_begin_ (lor_mono hM rfl) h
  clear_value s1
  exact FrameNext.next (frame_ite (frame_pressPresence (lor_mono hM rfl) k2) k2)

theorem frame_execPresenceRelease {M : Nat} {o s : State} (hM : 1310720 ||| M = M) (h : Frame M o s) :
    FrameNext M o (execPresenceRelease s) := by
  unfold execPresenceRelease
  extract_lets s1 v2 v3
  have k4 : Frame M o s1 := frame_begin_ (lor_mono hM rfl) h
  clear_value s1
  exact FrameNext.next (frame_with_sec_pow (lor_mono hM rfl) k4)

theorem frame_execPresenceExpire {M : Nat} {o s : State} (hM : 262149 ||| M = M) (h : Frame M o s) :
    FrameNext M o (execPresenceExpire s) := by
  unfold execPresenceExpire
  exact FrameNext.next (frame_closeWindow (lor_mono hM rfl) (frame_begin_ (lor_mono hM rfl) h))

theorem frame_execPresenceClose {M : Nat} {o s : State} (hM : 262149 ||| M = M) (h : Frame M o s) :
    FrameNext M o (execPresenceClose s) := by
  unfold execPresenceClose
  exact FrameNext.next (frame_gated (lor_mono hM rfl) (frame_begin_ (lor_mono hM rfl) h) (fun x1 k2 => frame_closeWindow (lor_mono hM rfl) k2))

theorem frame_execInstall {M : Nat} {o s : State} (hM : 262149 ||| M = M) (h : Frame M o s) :
    FrameNext M o (execInstall s) := by
  unfold execInstall
  exact FrameNext.next (frame_secStart (lor_mono hM rfl) (frame_begin_ (lor_mono hM rfl) h))

theorem frame_execRotate {M : Nat} {o s : State} (hM : 262149 ||| M = M) (h : Frame M o s) :
    FrameNext M o (execRotate s) := by
  unfold execRotate
  exact FrameNext.next (frame_secStart (lor_mono hM rfl) (frame_begin_ (lor_mono hM rfl) h))

theorem frame_execDebugUnlock {M : Nat} {o s : State} (hM : 262149 ||| M = M) (h : Frame M o s) :
    FrameNext M o (execDebugUnlock s) := by
  unfold execDebugUnlock
  exact FrameNext.next (frame_secStart (lor_mono hM rfl) (frame_begin_ (lor_mono hM rfl) h))

theorem frame_execDebugLock {M : Nat} {o s : State} (hM : 262149 ||| M = M) (h : Frame M o s) :
    FrameNext M o (execDebugLock s) := by
  unfold execDebugLock
  exact FrameNext.next (frame_secStart (lor_mono hM rfl) (frame_begin_ (lor_mono hM rfl) h))

theorem frame_execAttest {M : Nat} {o s : State} (hM : 262149 ||| M = M) (h : Frame M o s) :
    FrameNext M o (execAttest s) := by
  unfold execAttest
  exact FrameNext.next (frame_secStart (lor_mono hM rfl) (frame_begin_ (lor_mono hM rfl) h))

theorem frame_execGetIdentity {M : Nat} {o s : State} (hM : 262149 ||| M = M) (h : Frame M o s) :
    FrameNext M o (execGetIdentity s) := by
  unfold execGetIdentity
  exact FrameNext.next (frame_secStart (lor_mono hM rfl) (frame_begin_ (lor_mono hM rfl) h))

theorem frame_execExtendM7 {M : Nat} {o s : State} (hM : 262149 ||| M = M) (h : Frame M o s) :
    FrameNext M o (execExtendM7 s) := by
  unfold execExtendM7
  exact FrameNext.next (frame_secStart (lor_mono hM rfl) (frame_begin_ (lor_mono hM rfl) h))

theorem frame_execSecCmdComplete {M : Nat} {o s : State} (hM : 263687 ||| M = M) (h : Frame M o s) {flashOk : Bool} :
    FrameNext M o (execSecCmdComplete flashOk s) := by
  unfold execSecCmdComplete
  extract_lets s1
  have k2 : Frame M o s1 := frame_begin_ (lor_mono hM rfl) h
  clear_value s1
  exact FrameNext.next (frame_ite k2 (frame_secFinish (lor_mono hM rfl) k2))

theorem frame_execSealSample {M : Nat} {o s : State} (hM : 524293 ||| M = M) (h : Frame M o s) {bit : Bool} :
    FrameNext M o (execSealSample bit s) := by
  unfold execSealSample
  extract_lets s1
  have k2 : Frame M o s1 := frame_begin_ (lor_mono hM rfl) h
  clear_value s1
  exact FrameNext.next (frame_ite (frame_sealSample (lor_mono hM rfl) k2) k2)

theorem frame_arrPut {M : Nat} {o s : State} (hM : 133 ||| M = M) (h : Frame M o s) {a : Nat} {bs : List Byte} :
    Frame M o (State.arrPut s a bs) := by
  unfold State.arrPut
  exact frame_ite (frame_foldl (frame_setErr (lor_mono hM rfl) h) (fun x1 x2 k3 => frame_spadPut (lor_mono hM rfl) k3)) (frame_spadPut (lor_mono hM rfl) h)

theorem frame_arrCopy {M : Nat} {o s : State} (hM : 133 ||| M = M) (h : Frame M o s) {a : Nat} {b : Nat} {n : Nat} :
    Frame M o (State.arrCopy s a b n) := by
  unfold State.arrCopy
  extract_lets s1 s2
  have k3 : Frame M o s1 := frame_ite (frame_setErr (lor_mono hM rfl) h) h
  have k4 : Frame M o s2 := frame_arrPut (lor_mono hM rfl) k3
  clear_value s1 s2
  exact frame_with_spad (lor_mono hM rfl) k4

theorem frame_regWrite {M : Nat} {o s : State} (hM : 133 ||| M = M) (h : Frame M o s) {r : Region} {core : Nat} {o3 : Nat} {bs : List Byte} :
    Frame M o (regWrite s r core o3 bs) := by
  unfold regWrite
  extract_lets v1 s2 v3
  have k4 : ∀ (x5 : State) (x6 : Nat) (x7 : Byte), Frame M o x5 → Frame M o (v1 x5 x6 x7) := by
    intro x5 x6 x7 k8
    unfold v1
    extract_lets v9
    clear_value v9
    exact frame_ite (frame_setErr (lor_mono hM rfl) k8) (frame_with_spad (lor_mono hM rfl) k8)
  have k10 : Frame M o s2 := frame_foldl h (fun x11 x12 k13 => k4 _ _ _ k13)
  clear_value v1 s2 v3
  exact frame_with_spad (lor_mono hM rfl) k10

theorem frame_refPut {M : Nat} {o s : State} (hM : 133 ||| M = M) (h : Frame M o s) {m : Image} {d : Desc} {w : Work} {i : Nat} {o5 : Nat} {bs : List Byte} :
    Frame M o (refPut s m d w i o5 bs) := by
  unfold refPut
  split
  · rename_i y1 e2
    exact h
  · rename_i y3 y4 e5
    exact frame_regWrite (lor_mono hM rfl) h

theorem frame_placeAll {M : Nat} {o s : State} (hM : 256 ||| M = M) (h : Frame M o s) {a1 : List Region} :
    FrameOk M o (State.placeAll s a1) := by
  induction a1 generalizing s with
  | nil =>
    unfold State.placeAll
    exact FrameOk.ok h
  | cons w0 w1 ih =>
    unfold State.placeAll
    split
    · rename_i y1 y2 e3
      exact FrameOk.error
    · rename_i y4 y5 e6
      have k7 : Frame M o y5 := FrameOk.of_eq e6 (frame_allocRegion (lor_mono hM rfl) h)
      exact ih k7

theorem frame_syncCodebooks {M : Nat} {o s : State} (hM : 1 ||| M = M) (h : Frame M o s) :
    Frame M o (State.syncCodebooks s) := by
  unfold State.syncCodebooks
  refine frame_foldl h ?_
  intro x1 x2 k3
  extract_lets v4
  clear_value v4
  exact frame_wrAt (lor_mono hM rfl) (frame_wrAt (lor_mono hM rfl) k3)

theorem frame_setClaims {M : Nat} {o s : State} (hM : 1 ||| M = M) (h : Frame M o s) {uses : List (Nat × Nat)} :
    Frame M o (State.setClaims s uses) := by
  unfold State.setClaims
  exact frame_foldl h (fun x1 x2 k3 => frame_wrAt (lor_mono hM rfl) (frame_wrAt (lor_mono hM rfl) k3))

theorem frame_syncStore {M : Nat} {o s : State} (hM : 1 ||| M = M) (h : Frame M o s) :
    Frame M o (State.syncStore s) := by
  unfold State.syncStore
  extract_lets s1 s2 v3 v4
  have k5 : Frame M o s1 := frame_wr (lor_mono hM rfl) h
  have k6 : Frame M o s2 := frame_wr (lor_mono hM rfl) k5
  clear_value s1 s2 v3 v4
  exact frame_syncCodebooks (lor_mono hM rfl) (frame_foldl k6 (fun x7 x8 k9 => frame_wr (lor_mono hM rfl) (frame_wr (lor_mono hM rfl) k9)))

theorem frame_placeImage {M : Nat} {o s : State} (hM : 385 ||| M = M) (h : Frame M o s) {mine : List Region} {m : Image} :
    Frame1 M o (State.placeImage s mine m) := by
  unfold State.placeImage
  refine Frame1.ite (Frame1.mk (frame_with_regions (lor_mono hM rfl) h)) ?_
  split
  · rename_i y1 y2 e3
    have k4 : Frame M o y2 := FrameOk.of_eq e3 (frame_placeAll (lor_mono hM rfl) h)
    exact Frame1.mk k4
  · rename_i y5 y6 e7
    split
    · rename_i y8 y9 e10
      have k11 : Frame M o y9 := FrameOk.of_eq e10 (frame_placeAll (lor_mono hM rfl) (frame_releaseImage (lor_mono hM rfl) h))
      exact Frame1.mk k11
    · rename_i y12 y13 e14
      exact Frame1.mk h

theorem frame_loadImage {M : Nat} {o s : State} (hM : 267687 ||| M = M) (h : Frame M o s) {id : Nat} :
    Frame M o (State.loadImage s id) := by
  unfold State.loadImage
  refine frame_ite h ?_
  extract_lets v1 v2 s3 v4 s5 s6 v7 s8 s9
  have k10 : Frame M o s3 := frame_bulkRead (lor_mono hM rfl) (Frame2.get (frame_devRead (lor_mono hM rfl) h))
  have k11 : Frame1 M o s5 := frame_placeImage (lor_mono hM rfl) k10
  have k12 : Frame M o s6 := k11.get
  have k13 : Frame M o s8 := frame_with_gaf (lor_mono hM rfl) k12
  have k14 : Frame M o s9 := frame_foldl k13 (fun x15 x16 k17 => frame_ite (frame_setRegion (lor_mono hM rfl) k17) (frame_addBuiltIn (lor_mono hM rfl) k17))
  clear_value v1 v2 s3 v4 s5 s8 s9
  exact frame_ite k10 (frame_syncStore (lor_mono hM rfl) (frame_syncSpad (lor_mono hM rfl) (frame_extendM (lor_mono hM rfl) k14)))

end Sys2Proof.Machine
end

