-- ==== Sys2Proof/Laws/FrameLinks.lean ====
section
/-! SUPPORT. The functions of Machine/Links.lean, Machine/Pktform.lean, Machine/Wire.lean, Machine/Streams.lean, Machine/Kv.lean change only the parts of the state named by a mask. -/
namespace Sys2Proof.Machine
open Sys2Proof

set_option Elab.async false

theorem frame_sendLanes {M : Nat} {o s : State} (hM : 8192 ||| M = M) (h : Frame M o s) {p : Nat} {wire : List Byte} :
    Frame M o (State.sendLanes s p wire) := by
  unfold State.sendLanes
  extract_lets v1
  clear_value v1
  refine frame_foldl h ?_
  intro x2 x3 k4
  extract_lets v5
  clear_value v5
  exact frame_put (lor_mono hM rfl) (frame_setPort (lor_mono hM rfl) k4)

theorem frame_takeLanes {M : Nat} {o s : State} (hM : 8192 ||| M = M) (h : Frame M o s) {p : Nat} {lines : List (List Byte)} :
    Frame2 M o (State.takeLanes s p lines) := by
  unfold State.takeLanes
  extract_lets v1 v2
  clear_value v1 v2
  exact Frame2.mk (frame_setPort (lor_mono hM rfl) h)

theorem frame_emitFrame {M : Nat} {o s : State} (hM : 8192 ||| M = M) (h : Frame M o s) {p : Nat} {type : Nat} {slots : Slots} {consume : Bool} :
    Frame M o (State.emitFrame s p type slots consume) := by
  unfold State.emitFrame
  extract_lets v1 v2 v3 v4 v5 v6 v7 v8 v9 v10 s11
  have k12 : Frame M o s11 := frame_setPort (lor_mono hM rfl) h
  clear_value v1 v2 v3 v4 v5 v6 v7 v8 v9 v10 s11
  exact frame_sendLanes (lor_mono hM rfl) (frame_put (lor_mono hM rfl) k12)

theorem frame_emitMsgs {M : Nat} {o s : State} (hM : 8192 ||| M = M) (h : Frame M o s) {p : Nat} {raw : Bool} {ms : List (Option Nat × Msg)} :
    Frame M o (State.emitMsgs s p raw ms) := by
  unfold State.emitMsgs
  extract_lets v1 v2 s3
  have k4 : Frame M o s3 := frame_setPort (lor_mono hM rfl) h
  clear_value v1 v2 s3
  exact frame_emitFrame (lor_mono hM rfl) k4

theorem frame_emitKey {M : Nat} {o s : State} (hM : 8192 ||| M = M) (h : Frame M o s) {p : Nat} {bs : List Byte} :
    Frame M o (State.emitKey s p bs) := by
  unfold State.emitKey
  refine frame_ite (frame_setPort (lor_mono hM rfl) h) ?_
  extract_lets v1 s2
  have k3 : Frame M o s2 := frame_setPort (lor_mono hM rfl) h
  clear_value v1 s2
  exact frame_emitFrame (lor_mono hM rfl) k3

theorem frame_emitKeys {M : Nat} {o s : State} (hM : 8192 ||| M = M) (h : Frame M o s) {p : Nat} {kind : Nat} {bs : List Byte} :
    Frame M o (State.emitKeys s p kind bs) := by
  unfold State.emitKeys
  extract_lets v1
  clear_value v1
  exact frame_foldl h (fun x2 x3 k4 => frame_emitKey (lor_mono hM rfl) k4)

theorem frame_requeue {M : Nat} {o s : State} (hM : 8192 ||| M = M) (h : Frame M o s) {p : Nat} {ms : List (Option Nat × Msg)} :
    Frame M o (State.requeue s p ms) := by
  unfold State.requeue
  exact frame_setPort (lor_mono hM rfl) h

theorem frame_emitAll {M : Nat} {o s : State} (hM : 8192 ||| M = M) (h : Frame M o s) {p : Nat} {raw : Bool} {n : Nat} {ms : List (Option Nat × Msg)} :
    Frame M o (State.emitAll s p raw n ms) := by
  induction n generalizing s ms with
  | zero => exact h
  | succ n ih =>
    cases ms with
    | nil => exact h
    | cons m ms =>
      unfold State.emitAll
      exact frame_ite (frame_requeue (lor_mono hM rfl) h) (ih (frame_emitMsgs (lor_mono hM rfl) h))

theorem frame_pumpFrames {M : Nat} {o s : State} (hM : 8192 ||| M = M) (h : Frame M o s) {p : Nat} {a2 : Nat} :
    Frame M o (State.pumpFrames s p a2) := by
  induction a2 generalizing s p with
  | zero =>
    unfold State.pumpFrames
    exact h
  | succ w0 ih =>
    unfold State.pumpFrames
    extract_lets v1 v2
    clear_value v1 v2
    refine frame_ite h ?_
    split
    · rename_i y3 e4
      exact h
    · rename_i y5 y6 y7 e8
      extract_lets v9 v10 v11
      clear_value v9 v10 v11
      exact ih (frame_emitMsgs (lor_mono hM rfl) (frame_setPort (lor_mono hM rfl) h))

theorem frame_pumpKeys {M : Nat} {o s : State} (hM : 8192 ||| M = M) (h : Frame M o s) {p : Nat} :
    Frame M o (State.pumpKeys s p) := by
  unfold State.pumpKeys
  extract_lets v1
  clear_value v1
  exact frame_ite h (frame_foldl (frame_setPort (lor_mono hM rfl) h) (fun x2 x3 k4 => frame_emitKey (lor_mono hM rfl) k4))

theorem frame_pump {M : Nat} {o s : State} (hM : 8192 ||| M = M) (h : Frame M o s) {p : Nat} :
    Frame M o (State.pump s p) := by
  unfold State.pump
  extract_lets s1
  have k2 : Frame M o s1 := frame_ite (frame_pumpKeys (lor_mono hM rfl) h) h
  clear_value s1
  exact frame_ite (frame_pumpFrames (lor_mono hM rfl) k2) k2

theorem frame_sendOn {M : Nat} {o s : State} (hM : 8192 ||| M = M) (h : Frame M o s) {p : Nat} {m : Msg} {via : Option Nat} :
    Frame M o (State.sendOn s p m via) := by
  unfold State.sendOn
  exact frame_ite (frame_pump (lor_mono hM rfl) (frame_setPort (lor_mono hM rfl) h)) h

theorem frame_sendMsg {M : Nat} {o s : State} (hM : 8192 ||| M = M) (h : Frame M o s) {m : Msg} :
    FrameOpt M o (State.sendMsg s m) := by
  unfold State.sendMsg
  exact FrameOpt.ite FrameOpt.none (FrameOpt.map (fun x1 e2 => frame_sendOn (lor_mono hM rfl) h))

theorem frame_hopDrop {M : Nat} {o s : State} (hM : 5 ||| M = M) (h : Frame M o s) {p : Nat} :
    Frame M o (State.hopDrop s p) := by
  unfold State.hopDrop
  exact frame_setErr (lor_mono hM rfl) (frame_count (lor_mono hM rfl) h)

theorem frame_forward {M : Nat} {o s : State} (hM : 8197 ||| M = M) (h : Frame M o s) {p : Nat} {m : Msg} :
    Frame M o (State.forward s p m) := by
  unfold State.forward
  refine frame_ite (frame_hopDrop (lor_mono hM rfl) h) ?_
  split
  · rename_i y1 e2
    exact frame_hopDrop (lor_mono hM rfl) h
  · rename_i y3 y4 e5
    exact frame_sendOn (lor_mono hM rfl) h

theorem frame_flood {M : Nat} {o s : State} (hM : 8192 ||| M = M) (h : Frame M o s) {except : Option Nat} {m : Msg} :
    Frame M o (State.flood s except m) := by
  unfold State.flood
  exact frame_foldl h (fun x1 x2 k3 => frame_ite (frame_sendOn (lor_mono hM rfl) k3) k3)

theorem frame_noteReport {M : Nat} {o s : State} (hM : 5 ||| M = M) (h : Frame M o s) {suspect : Nat} {kind : Nat} {epoch : Nat} {reporter : Nat} :
    Frame M o (State.noteReport s suspect kind epoch reporter) := by
  unfold State.noteReport
  extract_lets s1 s2
  have k3 : Frame M o s1 := frame_wr (lor_mono hM rfl) h
  have k4 : Frame M o s2 := frame_wr (lor_mono hM rfl) k3
  clear_value s1 s2
  exact frame_logAdd (lor_mono hM rfl) k4

theorem frame_seeReport {M : Nat} {o s : State} (hM : 8192 ||| M = M) (h : Frame M o s) {suspect : Nat} {epoch : Nat} {reporter : Nat} {kind : Nat} :
    Frame M o (State.seeReport s suspect epoch reporter kind) := by
  unfold State.seeReport
  extract_lets v1 v2
  clear_value v1
  exact frame_with_lnk (lor_mono hM rfl) h

theorem frame_sendReport {M : Nat} {o s : State} (hM : 8197 ||| M = M) (h : Frame M o s) {suspect : Nat} {kind : Nat} :
    Frame M o (State.sendReport s suspect kind) := by
  unfold State.sendReport
  extract_lets v1 s2 s3 s4 v5 s6
  have k7 : Frame M o s2 := frame_count (lor_mono hM rfl) h
  have k8 : Frame M o s3 := frame_noteReport (lor_mono hM rfl) k7
  have k9 : Frame M o s4 := frame_seeReport (lor_mono hM rfl) k8
  have k10 : Frame M o s6 := frame_with_lnk (lor_mono hM rfl) k9
  clear_value v1 s2 s3 s4 s6
  exact frame_flood (lor_mono hM rfl) k10

theorem frame_originate {M : Nat} {o s : State} (hM : 8197 ||| M = M) (h : Frame M o s) {suspect : Nat} {kind : Nat} :
    Frame M o (State.originate s suspect kind) := by
  unfold State.originate
  extract_lets v1 v2 v3
  clear_value v1 v2
  exact frame_ite (frame_count (lor_mono hM rfl) h) (frame_ite (frame_with_lnk (lor_mono hM rfl) h) (frame_sendReport (lor_mono hM rfl) h))

theorem frame_sendOwedReports {M : Nat} {o s : State} (hM : 8197 ||| M = M) (h : Frame M o s) :
    Frame M o (State.sendOwedReports s) := by
  unfold State.sendOwedReports
  exact frame_foldl (frame_with_lnk (lor_mono hM rfl) h) (fun x1 x2 k3 => frame_sendReport (lor_mono hM rfl) k3)

theorem frame_unrouted {M : Nat} {o s : State} (hM : 4101 ||| M = M) (h : Frame M o s) {m : Option Nat × Msg} :
    Frame M o (State.unrouted s m) := by
  unfold State.unrouted
  split
  · rename_i y1 y2 e3
    exact frame_hopDrop (lor_mono hM rfl) h
  · rename_i y4 e5
    exact frame_ite (frame_with_dma (lor_mono hM rfl) h) h

theorem frame_routeAgain {M : Nat} {o s : State} (hM : 12293 ||| M = M) (h : Frame M o s) {m : Option Nat × Msg} :
    Frame M o (State.routeAgain s m) := by
  unfold State.routeAgain
  split
  · rename_i y1 y2 e3
    exact frame_sendOn (lor_mono hM rfl) h
  · rename_i y4 e5
    exact frame_unrouted (lor_mono hM rfl) h

theorem frame_reroute {M : Nat} {o s : State} (hM : 12293 ||| M = M) (h : Frame M o s) :
    Frame M o (State.reroute s) := by
  unfold State.reroute
  refine frame_foldl h ?_
  intro x1 x2 k3
  extract_lets v4 v5
  clear_value v4 v5
  exact frame_foldl (frame_setPort (lor_mono hM rfl) k3) (fun x6 x7 k8 => frame_routeAgain (lor_mono hM rfl) k8)

theorem frame_portToDown {M : Nat} {o s : State} (hM : 274437 ||| M = M) (h : Frame M o s) {p : Nat} :
    Frame M o (State.portToDown s p) := by
  unfold State.portToDown
  extract_lets v1 s2 s3 s4 v5 s6
  have k7 : Frame M o s2 := frame_wr (lor_mono hM rfl) h
  have k8 : Frame M o s3 := frame_wr (lor_mono hM rfl) k7
  have k9 : Frame M o s4 := frame_setPort (lor_mono hM rfl) k8
  have k10 : Frame M o s6 := frame_with_sec (lor_mono hM rfl) k9
  clear_value v1 s2 s3 s4 s6
  exact frame_foldl k10 (fun x11 x12 k13 => frame_routeAgain (lor_mono hM rfl) k13)

theorem frame_portFails {M : Nat} {o s : State} (hM : 274437 ||| M = M) (h : Frame M o s) {p : Nat} :
    Frame M o (State.portFails s p) := by
  unfold State.portFails
  extract_lets v1 v2 s3 s4
  have k5 : Frame M o s3 := frame_portToDown (lor_mono hM rfl) h
  have k6 : Frame M o s4 := frame_setErr (lor_mono hM rfl) k5
  clear_value v1 v2 s3 s4
  exact frame_ite (frame_originate (lor_mono hM rfl) k6) k6

theorem frame_startTraining {M : Nat} {o s : State} (hM : 1 ||| M = M) (h : Frame M o s) {p : Nat} :
    Frame M o (State.startTraining s p) := by
  unfold State.startTraining
  exact frame_put (lor_mono hM rfl) (frame_wr (lor_mono hM rfl) h)

theorem frame_laneFails {M : Nat} {o s : State} (hM : 274437 ||| M = M) (h : Frame M o s) {p : Nat} {lane : Nat} :
    Frame M o (State.laneFails s p lane) := by
  unfold State.laneFails
  extract_lets v1 s2 s3
  have k4 : Frame M o s2 := frame_setPort (lor_mono hM rfl) h
  have k5 : Frame M o s3 := frame_count (lor_mono hM rfl) (frame_setErrLog (lor_mono hM rfl) k4)
  clear_value v1 s2 s3
  exact frame_ite (frame_portFails (lor_mono hM rfl) k5) (frame_startTraining (lor_mono hM rfl) k5)

theorem frame_laneErrors {M : Nat} {o s : State} (hM : 274437 ||| M = M) (h : Frame M o s) {p : Nat} {cws : List Nat} :
    Frame M o (State.laneErrors s p cws) := by
  unfold State.laneErrors
  extract_lets v1 v2 s3
  have k4 : Frame M o s3 := frame_setPort (lor_mono hM rfl) h
  clear_value v1 v2 s3
  split
  · rename_i y5 e6
    exact k4
  · rename_i y7 y8 e9
    exact frame_laneFails (lor_mono hM rfl) k4

theorem frame_replay {M : Nat} {o s : State} (hM : 8195 ||| M = M) (h : Frame M o s) {p : Nat} :
    Frame M o (State.replay s p) := by
  unfold State.replay
  extract_lets v1 s2 v3 v4 s5 s6
  have k7 : Frame M o s2 := frame_evtDev (lor_mono hM rfl) (frame_count (lor_mono hM rfl) h)
  have k8 : Frame M o s5 := frame_setPort (lor_mono hM rfl) k7
  have k9 : Frame M o s6 := frame_foldl k8 (fun x10 x11 k12 => frame_emitKey (lor_mono hM rfl) k12)
  clear_value v1 s2 v3 v4 s5 s6
  exact frame_ite h (frame_ite (frame_startTraining (lor_mono hM rfl) (frame_setPort (lor_mono hM rfl) h)) (frame_emitAll (lor_mono hM rfl) k9))

theorem frame_takeAck {M : Nat} {o s : State} (hM : 8192 ||| M = M) (h : Frame M o s) {p : Nat} {ack : Nat} {credits : Nat} :
    Frame M o (State.takeAck s p ack credits) := by
  unfold State.takeAck
  exact frame_setPort (lor_mono hM rfl) h

theorem frame_deliver {M : Nat} {o s : State} (hM : 8197 ||| M = M) (h : Frame M o s) {p : Nat} {m : Msg} {spoiled : Bool} :
    Frame M o (State.deliver s p m spoiled) := by
  unfold State.deliver
  exact frame_ite (frame_setPort (lor_mono hM rfl) h) (frame_forward (lor_mono hM rfl) (frame_setPort (lor_mono hM rfl) h))

theorem frame_takeSlot {M : Nat} {o s : State} (hM : 8197 ||| M = M) (h : Frame M o s) {p : Nat} {spoiled : List Nat} {n : Nat} {slot : Nat × List Byte} :
    Frame1 M o (State.takeSlot s p spoiled n slot) := by
  unfold State.takeSlot
  extract_lets v1 v2 s3 v4 s5
  have k6 : Frame M o s3 := frame_setPort (lor_mono hM rfl) h
  have k7 : Frame M o s5 := frame_setPort (lor_mono hM rfl) k6
  clear_value v1 v2 s3 v4 s5
  exact Frame1.mk (frame_foldl k7 (fun x8 x9 k10 => frame_deliver (lor_mono hM rfl) k10))

theorem frame_discard {M : Nat} {o s : State} (hM : 8192 ||| M = M) (h : Frame M o s) {p : Nat} {seq : Nat} {type : Nat} :
    Frame M o (State.discard s p seq type) := by
  unfold State.discard
  exact frame_setPort (lor_mono hM rfl) h

theorem frame_newEpoch {M : Nat} {o s : State} (hM : 8192 ||| M = M) (h : Frame M o s) {p : Nat} {epoch : Nat} :
    Frame M o (State.newEpoch s p epoch) := by
  unfold State.newEpoch
  exact frame_setPort (lor_mono hM rfl) h

theorem frame_answer {M : Nat} {o s : State} (hM : 8192 ||| M = M) (h : Frame M o s) {p : Nat} :
    Frame M o (State.answer s p) := by
  unfold State.answer
  extract_lets v1 s2
  have k3 : Frame M o s2 := frame_pump (lor_mono hM rfl) h
  clear_value v1 s2
  exact frame_ite (frame_emitFrame (lor_mono hM rfl) k3) k3

theorem frame_receiveFrame {M : Nat} {o s : State} (hM : 274439 ||| M = M) (h : Frame M o s) {p : Nat} {lines : List (List Byte)} {spoiled : List Nat} :
    Frame M o (State.receiveFrame s p lines spoiled) := by
  unfold State.receiveFrame
  refine frame_ite h ?_
  split
  · rename_i y1 y2 y3 e4
    have k5 : Frame M o y3 := Frame2.of_eq e4 (frame_takeLanes (lor_mono hM rfl) h)
    split
    · rename_i y6 y7 y8 y9 e10
      extract_lets s11 s12 s13 v14 v15 v16 v17 v18 v19 v20 v21 v22 v23 v24 v25 v26 v27 v28 v29 v30 v31 v32 s33 s34 s35 s36 s37 s38 s39 v40 s41 s42
      have k43 : Frame M o s11 := frame_ite (frame_setErr (lor_mono hM rfl) (frame_count (lor_mono hM rfl) k5)) k5
      have k44 : Frame M o s12 := frame_ite (frame_setErr (lor_mono hM rfl) (frame_count (lor_mono hM rfl) k43)) k43
      have k45 : Frame M o s13 := frame_laneErrors (lor_mono hM rfl) k44
      have k46 : Frame M o s33 := frame_ite (frame_count (lor_mono hM rfl) k45) k45
      have k47 : Frame M o s34 := frame_ite (frame_setErr (lor_mono hM rfl) (frame_count (lor_mono hM rfl) k46)) k46
      have k48 : Frame M o s35 := frame_ite (frame_count64 (lor_mono hM rfl) k47) k47
      have k49 : Frame M o s36 := frame_newEpoch (lor_mono hM rfl) k48
      have k50 : Frame M o s37 := frame_setPort (lor_mono hM rfl) k49
      have k51 : Frame M o s38 := frame_takeAck (lor_mono hM rfl) k50
      have k52 : Frame M o s39 := frame_ite (frame_replay (lor_mono hM rfl) k51) k51
      have k53 : Frame M o s41 := frame_setPort (lor_mono hM rfl) k52
      have k54 : Frame M o s42 := frame_ite (Frame1.get (frame_foldl1 (Frame1.mk k53) (fun x55 x56 k57 => frame_takeSlot (lor_mono hM rfl) k57.get))) k53
      clear_value s41 s42
      refine frame_ite k47 ?_
      exact frame_ite (frame_answer (lor_mono hM rfl) (frame_discard (lor_mono hM rfl) k47)) (frame_ite (frame_answer (lor_mono hM rfl) (frame_ite k52 (frame_discard (lor_mono hM rfl) k52))) (frame_answer (lor_mono hM rfl) k54))

theorem frame_takeInbox {M : Nat} {o s : State} (hM : 8192 ||| M = M) (h : Frame M o s) {p : Nat} {m : Msg} :
    Frame M o (State.takeInbox s p m) := by
  unfold State.takeInbox
  exact frame_ite (frame_setPort (lor_mono hM rfl) h) h

theorem frame_execFrameReceive {M : Nat} {o s : State} (hM : 274439 ||| M = M) (h : Frame M o s) {port : Nat} {lines : List (List Byte)} {spoiled : List Nat} :
    FrameNext M o (execFrameReceive port lines s spoiled) := by
  unfold execFrameReceive
  exact FrameNext.next (frame_receiveFrame (lor_mono hM rfl) (frame_begin_ (lor_mono hM rfl) h))

theorem frame_publish {M : Nat} {o s : State} (hM : 1 ||| M = M) (h : Frame M o s) {base : Nat} {ratio : Nat} :
    Frame M o (State.publish s base ratio) := by
  unfold State.publish
  extract_lets v1
  clear_value v1
  exact frame_wr (lor_mono hM rfl) (frame_wr64 (lor_mono hM rfl) (frame_wr64 (lor_mono hM rfl) h))

theorem frame_reportGroups {M : Nat} {o s : State} (hM : 0 ||| M = M) (h : Frame M o s) {p : Nat} {ipv6 : Bool} :
    Frame M o (State.reportGroups s p ipv6) := by
  unfold State.reportGroups
  extract_lets v1
  clear_value v1
  exact frame_ite h (frame_put (lor_mono hM rfl) h)

theorem frame_resolveHop {M : Nat} {o s : State} (hM : 0 ||| M = M) (h : Frame M o s) {p : Nat} {ipv6 : Bool} {addr : List Byte} :
    Frame M o (State.resolveHop s p ipv6 addr) := by
  unfold State.resolveHop
  exact frame_ite h (frame_put (lor_mono hM rfl) h)

theorem frame_announceSession {M : Nat} {o s : State} (hM : 0 ||| M = M) (h : Frame M o s) {p : Nat} {x : List Byte} :
    Frame M o (State.announceSession s p x) := by
  unfold State.announceSession
  exact frame_foldl h (fun x1 x2 k3 => frame_ite (frame_reportGroups (lor_mono hM rfl) k3) (frame_resolveHop (lor_mono hM rfl) k3))

theorem frame_sendPaths {M : Nat} {o s : State} (hM : 1 ||| M = M) (h : Frame M o s) {x : List Byte} {p : Nat} {payload : Bool → List Byte} :
    Frame M o (State.sendPaths s x p payload) := by
  unfold State.sendPaths
  refine frame_foldl h ?_
  intro x1 x2 k3
  refine frame_ite k3 ?_
  extract_lets v4 v5 v6 v7 s8
  have k9 : Frame M o s8 := frame_put (lor_mono hM rfl) k3
  clear_value v4 v5 v6 v7 s8
  exact frame_count64 (lor_mono hM rfl) k9

theorem frame_sendUnits {M : Nat} {o s : State} (hM : 8192 ||| M = M) (h : Frame M o s) {t : Stream} {data : List Byte} :
    Frame M o (State.sendUnits s t data) := by
  unfold State.sendUnits
  extract_lets v1
  clear_value v1
  exact frame_foldl h (fun x2 x3 k4 => frame_sendOn (lor_mono hM rfl) k4)

theorem frame_sendChunk {M : Nat} {o s : State} (hM : 33 ||| M = M) (h : Frame M o s) {t : Stream} {j : Nat} {first : Nat} {frames : List (List Nat)} :
    Frame M o (State.sendChunk s t j first frames) := by
  unfold State.sendChunk
  extract_lets v1 v2 v3 s4
  have k5 : Frame M o s4 := by
    refine frame_foldl h ?_
    intro x6 x7 k8
    extract_lets v9
    clear_value v9
    exact frame_sendPaths (lor_mono hM rfl) k8
  clear_value v1 v2 v3 s4
  exact frame_setStream (lor_mono hM rfl) k5

theorem frame_rebase {M : Nat} {o s : State} (hM : 32768 ||| M = M) (h : Frame M o s) {p : Nat} :
    Frame M o (State.rebase s p) := by
  unfold State.rebase
  extract_lets v1
  clear_value v1
  exact frame_ite h (frame_setAport (lor_mono hM rfl) h)

theorem frame_knowFrame {M : Nat} {o s : State} (hM : 32768 ||| M = M) (h : Frame M o s) {p : Nat} {f : Nat} {pin : Nat} :
    Frame M o (State.knowFrame s p f pin) := by
  unfold State.knowFrame
  exact frame_setAport (lor_mono hM rfl) h

theorem frame_timeStop {M : Nat} {o s : State} (hM : 32768 ||| M = M) (h : Frame M o s) {p : Nat} :
    Frame M o (State.timeStop s p) := by
  unfold State.timeStop
  extract_lets v1 v2 v3
  clear_value v1 v2 v3
  exact frame_setAport (lor_mono hM rfl) h

theorem frame_beginStop {M : Nat} {o s : State} (hM : 32769 ||| M = M) (h : Frame M o s) {p : Nat} :
    Frame M o (State.beginStop s p) := by
  unfold State.beginStop
  extract_lets s1
  have k2 : Frame M o s1 := frame_wr (lor_mono hM rfl) h
  clear_value s1
  exact frame_timeStop (lor_mono hM rfl) (frame_setAport (lor_mono hM rfl) k2)

theorem frame_retimeStops {M : Nat} {o s : State} (hM : 32768 ||| M = M) (h : Frame M o s) :
    Frame M o (State.retimeStops s) := by
  unfold State.retimeStops
  exact frame_foldl h (fun x1 x2 k3 => frame_timeStop (lor_mono hM rfl) k3)

theorem frame_idleSlots {M : Nat} {o s : State} (hM : 0 ||| M = M) (h : Frame M o s) {p : Nat} {from_ : Option Nat} :
    Frame M o (State.idleSlots s p from_) := by
  unfold State.idleSlots
  refine frame_ite h ?_
  extract_lets v1
  clear_value v1
  exact frame_put (lor_mono hM rfl) h

theorem frame_driveClocks {M : Nat} {o s : State} (hM : 0 ||| M = M) (h : Frame M o s) {p : Nat} :
    Frame M o (State.driveClocks s p) := by
  unfold State.driveClocks
  extract_lets v1 v2 v3 v4 v5 v6
  clear_value v1 v2 v3 v4 v5 v6
  exact frame_put (lor_mono hM rfl) h

theorem frame_sendAhead {M : Nat} {o s : State} (hM : 0 ||| M = M) (h : Frame M o s) {p : Nat} {zero : Bool} {x : Ahead} {from_ : Nat} :
    Frame M o (State.sendAhead s p zero x from_) := by
  unfold State.sendAhead
  extract_lets v1
  clear_value v1
  exact frame_ite h (frame_ite (frame_put (lor_mono hM rfl) h) (frame_put (lor_mono hM rfl) h))

theorem frame_resend {M : Nat} {o s : State} (hM : 0 ||| M = M) (h : Frame M o s) {p : Nat} {zero : Bool} {x : Ahead} :
    Frame M o (State.resend s p zero x) := by
  unfold State.resend
  exact frame_sendAhead (lor_mono hM rfl) h

theorem frame_silence {M : Nat} {o s : State} (hM : 0 ||| M = M) (h : Frame M o s) {e : Nat} {zero : Bool} :
    Frame M o (State.silence s e zero) := by
  unfold State.silence
  exact frame_foldl h (fun x1 x2 k3 => frame_foldl k3 (fun x4 x5 k6 => frame_resend (lor_mono hM rfl) k6))

theorem frame_txChange {M : Nat} {o s : State} (hM : 32768 ||| M = M) (h : Frame M o s) {p : Nat} :
    Frame M o (State.txChange s p) := by
  unfold State.txChange
  refine frame_ite h ?_
  extract_lets v1 v2 s3 s4
  have k5 : Frame M o s3 := frame_setAport (lor_mono hM rfl) h
  have k6 : Frame M o s4 := frame_idleSlots (lor_mono hM rfl) k5
  clear_value v1 v2 s3 s4
  refine frame_foldl k6 ?_
  intro x7 x8 k9
  extract_lets v10
  clear_value v10
  exact frame_ite k9 (frame_sendAhead (lor_mono hM rfl) k9)

theorem frame_endSink {M : Nat} {o s : State} (hM : 32768 ||| M = M) (h : Frame M o s) {e : Nat} :
    Frame M o (State.endSink s e) := by
  unfold State.endSink
  extract_lets s1
  have k2 : Frame M o s1 := frame_silence (lor_mono hM rfl) h
  clear_value s1
  exact frame_foldl k2 (fun x3 x4 k5 => frame_ite (frame_setAport (lor_mono hM rfl) k5) k5)

theorem frame_storeEntry {M : Nat} {o s : State} (hM : 519 ||| M = M) (h : Frame M o s) {e : Nat} :
    Frame M o (State.storeEntry s e) := by
  unfold State.storeEntry
  split
  · rename_i y1 e2
    exact h
  · rename_i y3 y4 e5
    extract_lets v6 s7 s8
    have k9 : Frame M o s7 := frame_lpNarrowPut (lor_mono hM rfl) h
    have k10 : Frame M o s8 := frame_lpNarrowPut (lor_mono hM rfl) k9
    clear_value v6 s7 s8
    exact frame_lpNarrowPut (lor_mono hM rfl) k10

theorem frame_setState {M : Nat} {o s : State} (hM : 551 ||| M = M) (h : Frame M o s) {e : Nat} {v : Nat} :
    Frame M o (State.setState s e v) := by
  unfold State.setState
  extract_lets s1
  have k2 : Frame M o s1 := frame_setStream (lor_mono hM rfl) h
  clear_value s1
  exact frame_lpNarrowPut (lor_mono hM rfl) k2

theorem frame_storePunty {M : Nat} {o s : State} (hM : 519 ||| M = M) (h : Frame M o s) {t : Stream} :
    Frame M o (State.storePunty s t) := by
  unfold State.storePunty
  extract_lets v1 v2
  clear_value v1 v2
  exact frame_lpNarrowPut (lor_mono hM rfl) h

theorem frame_syncProtected {M : Nat} {o s : State} (hM : 1 ||| M = M) (h : Frame M o s) :
    Frame M o (State.syncProtected s) := by
  unfold State.syncProtected
  exact frame_wr (lor_mono hM rfl) h

theorem frame_puntyRetire {M : Nat} {o s : State} (hM : 4647 ||| M = M) (h : Frame M o s) {t : Stream} :
    Frame M o (State.puntyRetire s t) := by
  unfold State.puntyRetire
  refine frame_ite h ?_
  extract_lets s1 s2
  have k3 : Frame M o s1 := frame_setStream (lor_mono hM rfl) h
  have k4 : Frame M o s2 := by
    unfold s2
    split
    · rename_i y5 y6 e7
      exact frame_storePunty (lor_mono hM rfl) k3
    · rename_i y8 e9
      exact k3
  clear_value s1 s2
  exact frame_syncProtected (lor_mono hM rfl) (frame_addBuiltIn (lor_mono hM rfl) k4)

theorem frame_unloadImage {M : Nat} {o s : State} (hM : 4385 ||| M = M) (h : Frame M o s) {id : Nat} :
    Frame M o (State.unloadImage s id) := by
  unfold State.unloadImage
  split
  · rename_i y1 e2
    exact h
  · rename_i y3 y4 e5
    extract_lets v6 v7 v8 s9
    have k10 : Frame M o s9 := frame_with_gaf_regions_dma (lor_mono hM rfl) h
    clear_value v6 v7 s9
    exact frame_syncStore (lor_mono hM rfl) (frame_sealImage (lor_mono hM rfl) k10)

theorem frame_leaveSweeps {M : Nat} {o s : State} (hM : 32 ||| M = M) (h : Frame M o s) {e : Nat} :
    Frame M o (State.leaveSweeps s e) := by
  unfold State.leaveSweeps
  exact frame_with_gaf (lor_mono hM rfl) h

theorem frame_releaseIfUnused {M : Nat} {o s : State} (hM : 4385 ||| M = M) (h : Frame M o s) {id : Nat} :
    Frame M o (State.releaseIfUnused s id) := by
  unfold State.releaseIfUnused
  exact frame_ite h (frame_unloadImage (lor_mono hM rfl) h)

theorem frame_toIdle {M : Nat} {o s : State} (hM : 561959 ||| M = M) (h : Frame M o s) {e : Nat} :
    Frame M o (State.toIdle s e) := by
  unfold State.toIdle
  split
  · rename_i y1 e2
    exact h
  · rename_i y3 y4 e5
    extract_lets s6 s7 s8 v9 v10 s11
    have k12 : Frame M o s6 := frame_endSink (lor_mono hM rfl) (frame_setState (lor_mono hM rfl) h)
    have k13 : Frame M o s7 := frame_tallyLeave (lor_mono hM rfl) (frame_puntyRetire (lor_mono hM rfl) k12)
    have k14 : Frame M o s8 := frame_delStream (lor_mono hM rfl) (frame_leaveSweeps (lor_mono hM rfl) k13)
    have k15 : Frame M o s11 := frame_with_gaf_dma (lor_mono hM rfl) k14
    clear_value s6 s7 s8 v9 s11
    exact frame_releaseIfUnused (lor_mono hM rfl) k15

theorem frame_kvBack {M : Nat} {o s : State} (hM : 32 ||| M = M) (h : Frame M o s) {e : Nat} :
    Frame M o (State.kvBack s e) := by
  unfold State.kvBack
  split
  · rename_i y1 e2
    exact h
  · rename_i y3 y4 e5
    exact frame_setImage (lor_mono hM rfl) (frame_setStream (lor_mono hM rfl) h)

theorem frame_streamFault {M : Nat} {o s : State} (hM : 528935 ||| M = M) (h : Frame M o s) {e : Nat} {code : Nat} :
    Frame M o (State.streamFault s e code) := by
  unfold State.streamFault
  split
  · rename_i y1 e2
    exact h
  · rename_i y3 y4 e5
    refine frame_ite h ?_
    extract_lets s6 s7 s8 s9 s10 s11
    have k12 : Frame M o s6 := frame_setState (lor_mono hM rfl) h
    have k13 : Frame M o s7 := frame_setStream (lor_mono hM rfl) k12
    have k14 : Frame M o s8 := frame_kvBack (lor_mono hM rfl) k13
    have k15 : Frame M o s9 := frame_lpNarrowPut (lor_mono hM rfl) k14
    have k16 : Frame M o s10 := frame_setErrLog (lor_mono hM rfl) k15
    have k17 : Frame M o s11 := frame_tallyLeave (lor_mono hM rfl) (frame_puntyRetire (lor_mono hM rfl) k16)
    clear_value s6 s7 s8 s9 s10 s11
    exact frame_leaveSweeps (lor_mono hM rfl) k17

theorem frame_gafRead {M : Nat} {o s : State} (hM : 529959 ||| M = M) (h : Frame M o s) {e : Nat} {a : Nat} {n : Nat} :
    Frame M o (State.gafRead s e a n) := by
  unfold State.gafRead
  split
  · rename_i y1 y2 y3 e4
    have k5 : Frame M o y3 := Frame2.of_eq e4 (frame_devRead (lor_mono hM rfl) h)
    exact frame_ite (frame_streamFault (lor_mono hM rfl) k5) k5

theorem frame_imageFault {M : Nat} {o s : State} (hM : 528935 ||| M = M) (h : Frame M o s) {id : Nat} {code : Nat} :
    Frame M o (State.imageFault s id code) := by
  unfold State.imageFault
  exact frame_foldl h (fun x1 x2 k3 => frame_streamFault (lor_mono hM rfl) k3)

theorem frame_rollback {M : Nat} {o s : State} (hM : 35 ||| M = M) (h : Frame M o s) {e : Nat} :
    Frame M o (State.rollback s e) := by
  unfold State.rollback
  split
  · rename_i y1 e2
    exact h
  · rename_i y3 y4 e5
    extract_lets v6 s7
    have k8 : Frame M o s7 := frame_setStream (lor_mono hM rfl) h
    clear_value v6 s7
    exact frame_evtDev (lor_mono hM rfl) (frame_leaveSweeps (lor_mono hM rfl) (frame_kvBack (lor_mono hM rfl) k8))

theorem frame_discardChunks {M : Nat} {o s : State} (hM : 32 ||| M = M) (h : Frame M o s) {e : Nat} :
    Frame M o (State.discardChunks s e) := by
  unfold State.discardChunks
  exact frame_leaveSweeps (lor_mono hM rfl) (frame_kvBack (lor_mono hM rfl) (frame_setStream (lor_mono hM rfl) h))

theorem frame_settleOne {M : Nat} {o s : State} (hM : 561959 ||| M = M) (h : Frame M o s) {e : Nat} :
    Frame M o (State.settleOne s e) := by
  unfold State.settleOne
  split
  · rename_i y1 e2
    exact h
  · rename_i y3 y4 e5
    refine frame_ite ?_ ?_
    · refine frame_ite h ?_
      extract_lets s6
      have k7 : Frame M o s6 := frame_ite h (frame_discardChunks (lor_mono hM rfl) h)
      clear_value s6
      exact frame_ite k7 (frame_toIdle (lor_mono hM rfl) k7)
    · exact frame_ite (frame_ite (frame_toIdle (lor_mono hM rfl) h) h) (frame_ite (frame_ite (frame_silence (lor_mono hM rfl) (frame_setState (lor_mono hM rfl) (frame_setStream (lor_mono hM rfl) h))) h) h)

theorem frame_settle {M : Nat} {o s : State} (hM : 561959 ||| M = M) (h : Frame M o s) :
    Frame M o (State.settle s) := by
  unfold State.settle
  exact frame_foldl h (fun x1 x2 k3 => frame_settleOne (lor_mono hM rfl) k3)

theorem frame_replayPut {M : Nat} {o s : State} (hM : 528935 ||| M = M) (h : Frame M o s) {t : Stream} {a : Nat} {bs : List Byte} :
    Frame M o (State.replayPut s t a bs) := by
  unfold State.replayPut
  refine frame_ite (frame_lpNarrowPut (lor_mono hM rfl) h) ?_
  extract_lets v1
  clear_value v1
  exact frame_streamFault (lor_mono hM rfl) (frame_unmappedErr (lor_mono hM rfl) h)

theorem frame_writeInput {M : Nat} {o s : State} (hM : 529063 ||| M = M) (h : Frame M o s) {t : Stream} {j : Nat} {pos : Nat} {first : Nat} {fs : List (List Nat)} :
    Frame M o (State.writeInput s t j pos first fs) := by
  unfold State.writeInput
  split
  · rename_i y1 e2
    exact frame_streamFault (lor_mono hM rfl) h
  · rename_i y3 y4 e5
    extract_lets v6 v7 v8 v9 v10 s11 s12
    have k13 : Frame M o s11 := frame_ite h (frame_narrowWrite (lor_mono hM rfl) h)
    have k14 : Frame M o s12 := frame_ite k13 (frame_narrowWrite (lor_mono hM rfl) k13)
    clear_value v6 v7 v8 v9 v10 s11 s12
    exact frame_ite k14 (frame_foldl k14 (fun x15 x16 k17 => frame_replayPut (lor_mono hM rfl) k17))

theorem frame_flushHeld {M : Nat} {o s : State} (hM : 529063 ||| M = M) (h : Frame M o s) {e : Nat} {j : Nat} {first : Nat} {len : Nat} {all : Bool} :
    Frame M o (State.flushHeld s e j first len all) := by
  unfold State.flushHeld
  split
  · rename_i y1 e2
    exact h
  · rename_i y3 y4 e5
    extract_lets v6 s7
    have k8 : Frame M o s7 := frame_foldl h (fun x9 x10 k11 => frame_writeInput (lor_mono hM rfl) k11)
    clear_value v6 s7
    exact frame_ite k8 (frame_setStream (lor_mono hM rfl) k8)

theorem frame_mirrorInput {M : Nat} {o s : State} (hM : 4096 ||| M = M) (h : Frame M o s) {t : Stream} {first : Nat} {fs : List (List Nat)} :
    Frame M o (State.mirrorInput s t first fs) := by
  unfold State.mirrorInput
  refine frame_ite h ?_
  extract_lets v1 v2
  clear_value v1 v2
  exact frame_addBuiltIn (lor_mono hM rfl) h

theorem frame_mirrorStamp {M : Nat} {o s : State} (hM : 4096 ||| M = M) (h : Frame M o s) {t : Stream} {j : Nat} {tr : Nat} :
    Frame M o (State.mirrorStamp s t j tr) := by
  unfold State.mirrorStamp
  refine frame_ite h ?_
  extract_lets v1
  clear_value v1
  exact frame_addBuiltIn (lor_mono hM rfl) h

theorem frame_pausedOut {M : Nat} {o s : State} (hM : 8225 ||| M = M) (h : Frame M o s) {t : Stream} {c : Chunk} :
    Frame M o (State.pausedOut s t c) := by
  unfold State.pausedOut
  extract_lets v1
  clear_value v1
  split
  · rename_i y2 e3
    exact frame_sendUnits (lor_mono hM rfl) h
  · rename_i y4 e5
    exact frame_ite (frame_sendChunk (lor_mono hM rfl) h) h
  · rename_i y6 y7 y8
    exact h

theorem frame_chunkDone {M : Nat} {o s : State} (hM : 12321 ||| M = M) (h : Frame M o s) {e : Nat} {tr : Nat} :
    Frame M o (State.chunkDone s e tr) := by
  unfold State.chunkDone
  split
  · rename_i y1 e2
    exact h
  · rename_i y3 y4 e5
    extract_lets v6 v7 v8 s9
    have k10 : Frame M o s9 := frame_setStream (lor_mono hM rfl) h
    clear_value v6 v7 v8 s9
    exact frame_ite (frame_mirrorStamp (lor_mono hM rfl) k10) (frame_ite (frame_pausedOut (lor_mono hM rfl) k10) k10)

theorem frame_landRun {M : Nat} {o s : State} (hM : 537255 ||| M = M) (h : Frame M o s) {e stamp : Nat} {n : Nat} {fs : List (List Nat)} :
    Frame M o (State.landRun s e stamp n fs) := by
  induction n generalizing s fs with
  | zero => exact h
  | succ n ih =>
    cases fs with
    | nil => exact h
    | cons f fs =>
      unfold State.landRun
      split
      · exact h
      · refine frame_ite (frame_setStream (lor_mono hM rfl) h) ?_
        extract_lets s1 t len part at0 s2 tail s3 s4
        have k1 : Frame M o s1 := frame_ite (frame_setStream (lor_mono hM rfl) h) h
        have k2 : Frame M o s2 := frame_ite k1 (frame_mirrorInput (lor_mono hM rfl) (frame_writeInput (lor_mono hM rfl) k1))
        have k4 : Frame M o s4 := frame_ite (frame_chunkDone (lor_mono hM rfl) (frame_setStream (lor_mono hM rfl) k2)) (frame_setStream (lor_mono hM rfl) k2)
        exact frame_ite k1 (frame_ite (frame_setStream (lor_mono hM rfl) k1) (ih k4))

theorem frame_fillMissing {M : Nat} {o s : State} (hM : 537255 ||| M = M) (h : Frame M o s) {e : Nat} :
    Frame M o (State.fillMissing s e) := by
  unfold State.fillMissing
  split
  · rename_i y1 e2
    exact h
  · rename_i y3 y4 e5
    refine frame_ite h ?_
    extract_lets v6
    clear_value v6
    exact frame_foldl (frame_setStream (lor_mono hM rfl) h) (fun x7 x8 k9 => frame_landRun (lor_mono hM rfl) k9)

theorem frame_landBlock {M : Nat} {o s : State} (hM : 537255 ||| M = M) (h : Frame M o s) {e : Nat} {stamp : Nat} {starts : Bool} {fs : List (List Nat)} :
    Frame M o (State.landBlock s e stamp starts fs) := by
  unfold State.landBlock
  split
  · rename_i y1 e2
    exact h
  · rename_i y3 y4 e5
    refine frame_ite ?_ (frame_ite (frame_landRun (lor_mono hM rfl) (frame_fillMissing (lor_mono hM rfl) h)) h)
    refine frame_ite ?_ h
    extract_lets s6
    have k7 : Frame M o s6 := frame_setStream (lor_mono hM rfl) h
    clear_value s6
    exact frame_landRun (lor_mono hM rfl) (frame_setState (lor_mono hM rfl) k7)

theorem frame_kvArm {M : Nat} {o s : State} (hM : 551 ||| M = M) (h : Frame M o s) {e : Nat} :
    Frame M o (State.kvArm s e) := by
  unfold State.kvArm
  split
  · rename_i y1 e2
    exact h
  · rename_i y3 y4 e5
    split
    · rename_i y6 e7
      exact h
    · rename_i y8 y9 e10
      refine frame_ite h ?_
      extract_lets v11 v12 v13 v14 s15 s16 s17 s18
      have k19 : Frame M o s15 := frame_lpNarrowPut (lor_mono hM rfl) h
      have k20 : Frame M o s16 := frame_lpNarrowPut (lor_mono hM rfl) k19
      have k21 : Frame M o s17 := frame_lpNarrowPut (lor_mono hM rfl) k20
      have k22 : Frame M o s18 := frame_setStream (lor_mono hM rfl) k21
      clear_value v11 v12 v13 v14 s15 s16 s17 s18
      exact frame_setImage (lor_mono hM rfl) k22

theorem frame_kvPut {M : Nat} {o s : State} (hM : 4261 ||| M = M) (h : Frame M o s) {m : Image} {t : Stream} {l : Nat} {p : KvPage} {tokens : Nat} {parts : List (Nat × List Byte)} :
    Frame M o (State.kvPut s m t l p tokens parts) := by
  unfold State.kvPut
  refine frame_ite h ?_
  refine frame_ite (frame_foldl h (fun x1 x2 k3 => frame_arrPut (lor_mono hM rfl) k3)) ?_
  extract_lets v4 s5
  have k6 : Frame M o s5 := frame_addBuiltIn (lor_mono hM rfl) h
  clear_value v4 s5
  split
  · rename_i y7 e8
    exact k6
  · rename_i y9 y10 e11
    extract_lets v12 v13 s14
    have k15 : Frame M o s14 := frame_ite (frame_with_dma (lor_mono hM rfl) k6) (frame_foldl k6 (fun x16 x17 k18 => frame_arrPut (lor_mono hM rfl) k18))
    clear_value v12 v13 s14
    exact frame_setImage (lor_mono hM rfl) k15

theorem frame_kvToken {M : Nat} {o s : State} (hM : 4261 ||| M = M) (h : Frame M o s) {m : Image} {t : Stream} {l : Nat} {p : KvPage} {opened : Bool} {pos : Nat} {j : Nat} {keys : List (List Nat)} {vals : List (List Nat)} :
    Frame M o (State.kvToken s m t l p opened pos j keys vals) := by
  unfold State.kvToken
  extract_lets v1 v2 v3 v4 s5 s6
  have k7 : Frame M o s5 := frame_count (lor_mono hM rfl) h
  have k8 : Frame M o s6 := frame_kvPut (lor_mono hM rfl) k7
  clear_value v1 v2 v3 v4 s5 s6
  exact frame_setStream (lor_mono hM rfl) k8

theorem frame_kvOpen {M : Nat} {o s : State} (hM : 4261 ||| M = M) (h : Frame M o s) {m : Image} {t : Stream} {l : Nat} {pos : Nat} {j : Nat} {keys : List (List Nat)} {vals : List (List Nat)} :
    FrameOpt M o (State.kvOpen s m t l pos j keys vals) := by
  unfold State.kvOpen
  extract_lets v1 v2 v3 v4 s5 v6 v7 v8 v9 v10 v11 v12 v13 s14 v15
  have k16 : Frame M o s5 := frame_setStream (lor_mono hM rfl) h
  have k17 : Frame M o s14 := by
    refine frame_ite ?_ k16
    split
    · rename_i y18 e19
      exact k16
    · rename_i y20 y21 e22
      exact frame_setImage (lor_mono hM rfl) k16
  clear_value v1 v2 v3 v4 s5 v6 v7 v8 v9 v10 v11 v12 v13 s14 v15
  exact FrameOpt.ite FrameOpt.none (FrameOpt.some (frame_kvToken (lor_mono hM rfl) k17))

theorem frame_kvAppend {M : Nat} {o s : State} (hM : 4261 ||| M = M) (h : Frame M o s) {image : Nat} {e : Nat} {l : Nat} {pos : Nat} {j : Nat} {keys : List (List Nat)} {vals : List (List Nat)} :
    FrameOpt M o (State.kvAppend s image e l pos j keys vals) := by
  unfold State.kvAppend
  split
  · rename_i y1 y2 y3 y4 e5 e6
    extract_lets v7 v8
    clear_value v7 v8
    split
    · rename_i y9 y10 e11
      exact FrameOpt.ite (FrameOpt.some (frame_kvToken (lor_mono hM rfl) h)) (frame_kvOpen (lor_mono hM rfl) h)
    · rename_i y12 e13
      exact frame_kvOpen (lor_mono hM rfl) h
  · rename_i y14 y15 y16
    exact FrameOpt.some h

theorem frame_kvAppendAll {M : Nat} {o s : State} (hM : 4261 ||| M = M) (h : Frame M o s) {image : Nat} {e : Nat} {l : Nat} {j : Nat} {a5 : List (Nat × List (List Nat) × List (List Nat))} :
    FrameOpt M o (State.kvAppendAll s image e l j a5) := by
  induction a5 generalizing s image e l j with
  | nil =>
    unfold State.kvAppendAll
    exact FrameOpt.some h
  | cons w0 w1 ih =>
    unfold State.kvAppendAll
    split
    · rename_i y1 e2
      exact FrameOpt.none
    · rename_i y3 y4 e5
      have k6 : Frame M o y4 := FrameOpt.of_eq e5 (frame_kvAppend (lor_mono hM rfl) h)
      exact ih k6

theorem frame_kvStage {M : Nat} {o s : State} (hM : 4129 ||| M = M) (h : Frame M o s) {m : Image} {l : Nat} {es : List Nat} :
    Frame1 M o (State.kvStage s m l es) := by
  unfold State.kvStage
  extract_lets v1 v2 v3 s4 s5
  have k6 : Frame M o s4 := frame_setImage (lor_mono hM rfl) h
  have k7 : Frame M o s5 := by
    refine frame_foldl k6 ?_
    intro x8 x9 k10
    split
    · rename_i y11 e12
      exact k10
    · rename_i y13 y14 e15
      refine frame_ite k10 ?_
      extract_lets v16 v17
      clear_value v16 v17
      exact frame_count (lor_mono hM rfl) (frame_addBuiltIn (lor_mono hM rfl) k10)
  clear_value v1 v2 v3 s4 s5
  exact Frame1.mk k7

theorem frame_kvRestore {M : Nat} {o s : State} (hM : 165 ||| M = M) (h : Frame M o s) {image : Nat} {e : Nat} {l : Nat} {a4 : List (List (List Nat) × List (List Nat))} :
    Frame M o (State.kvRestore s image e l a4) := by
  induction a4 generalizing s image e l with
  | nil =>
    unfold State.kvRestore
    exact h
  | cons w0 w1 ih =>
    unfold State.kvRestore
    split
    · rename_i y1 y2 y3 y4 e5 e6
      extract_lets v7 v8 v9
      clear_value v7 v8 v9
      split
      · rename_i y10 e11
        exact h
      · rename_i y12 y13 e14
        split
        · rename_i y15 e16
          exact h
        · rename_i y17 y18 e19
          extract_lets v20 v21 v22 s23 v24 v25 v26 s27 s28 s29
          have k30 : Frame M o s23 := frame_count (lor_mono hM rfl) h
          have k31 : Frame M o s27 := frame_foldl k30 (fun x32 x33 k34 => frame_arrPut (lor_mono hM rfl) k34)
          have k35 : Frame M o s28 := frame_setStream (lor_mono hM rfl) k31
          have k36 : Frame M o s29 := frame_setImage (lor_mono hM rfl) k35
          clear_value v20 v21 v22 s23 v24 v25 v26 s27 s28 s29
          exact ih k36
    · rename_i y37 y38 y39
      exact h

theorem frame_kvCommit {M : Nat} {o s : State} (hM : 4129 ||| M = M) (h : Frame M o s) {e : Nat} {j : Nat} {mark : Option Nat} :
    Frame M o (State.kvCommit s e j mark) := by
  unfold State.kvCommit
  split
  · rename_i y1 e2
    exact h
  · rename_i y3 y4 e5
    split
    · rename_i y6 e7
      exact h
    · rename_i y8 y9 e10
      refine frame_ite h ?_
      extract_lets v11 v12 v13 v14 v15 v16 v17 s18 s19 v20
      have k21 : Frame M o s18 := frame_setStream (lor_mono hM rfl) h
      have k22 : Frame M o s19 := frame_count (lor_mono hM rfl) k21
      clear_value v11 v12 v13 v14 v15 v16 v17 s18 s19 v20
      exact frame_addBuiltIn (lor_mono hM rfl) k22

end Sys2Proof.Machine
end

