-- ==== Sys2Proof/Laws/FramePunty.lean ====
section
/-! SUPPORT. The functions of Machine/Punty.lean, Machine/FailStop.lean, Machine/Stage.lean, Machine/Resets.lean change only the parts of the state named by a mask. -/
namespace Sys2Proof.Machine
open Sys2Proof

set_option Elab.async false

theorem frame_carryIn {M : Nat} {o s : State} (hM : 165 ||| M = M) (h : Frame M o s) {m : Image} {e : Nat} {j : Nat} :
    Frame M o (State.carryIn s m e j) := by
  unfold State.carryIn
  split
  · rename_i y1 e2
    exact h
  · rename_i y3 y4 e5
    refine frame_ite h ?_
    split
    · rename_i y6 y7 y8 y9 y10 y11 e12 e13
      extract_lets s14 s15
      have k16 : Frame M o s14 := frame_arrCopy (lor_mono hM rfl) h
      have k17 : Frame M o s15 := frame_arrPut (lor_mono hM rfl) k16
      clear_value s14 s15
      exact frame_setStream (lor_mono hM rfl) k17
    · rename_i y18 y19 y20
      exact h

theorem frame_touchSec {M : Nat} {o s : State} (hM : 165 ||| M = M) (h : Frame M o s) {m : Image} {e : Nat} {j : Nat} {sec : Nat} {marked : Bool} :
    Frame M o (State.touchSec s m e j sec marked) := by
  unfold State.touchSec
  extract_lets s1 v2
  have k3 : Frame M o s1 := frame_carryIn (lor_mono hM rfl) h
  have k4 : ∀ (x5 : State), Frame M o x5 → Frame M o (v2 x5) := fun x5 k6 => frame_setStream (lor_mono hM rfl) k6
  clear_value s1 v2
  split
  · rename_i y7 e8
    exact k3
  · rename_i y9 y10 e11
    split
    · rename_i y12 e13
      exact k3
    · rename_i y14 y15 e16
      refine frame_ite (k4 _ k3) ?_
      split
      · rename_i y17 y18 y19 y20 y21 y22 e23 e24
        extract_lets v25
        clear_value v25
        exact k4 _ (frame_arrCopy (lor_mono hM rfl) k3)
      · rename_i y26 y27 y28
        exact k4 _ k3

theorem frame_carryAll {M : Nat} {o s : State} (hM : 165 ||| M = M) (h : Frame M o s) {m : Image} {e : Nat} {j : Nat} :
    Frame M o (State.carryAll s m e j) := by
  unfold State.carryAll
  exact frame_foldl (frame_carryIn (lor_mono hM rfl) h) (fun x1 x2 k3 => frame_touchSec (lor_mono hM rfl) k3)

theorem frame_putSecs {M : Nat} {o s : State} (hM : 133 ||| M = M) (h : Frame M o s) {a : Nat} {secs : List Nat} {bs : List Byte} :
    Frame M o (State.putSecs s a secs bs) := by
  unfold State.putSecs
  refine frame_foldl h ?_
  intro x1 x2 k3
  extract_lets v4
  clear_value v4
  exact frame_arrPut (lor_mono hM rfl) k3

theorem frame_exitMark {M : Nat} {o s : State} (hM : 165 ||| M = M) (h : Frame M o s) {m : Image} {e : Nat} {j : Nat} :
    Frame M o (State.exitMark s m e j) := by
  unfold State.exitMark
  extract_lets s1
  have k2 : Frame M o s1 := frame_carryAll (lor_mono hM rfl) h
  clear_value s1
  split
  · rename_i y3 e4
    exact k2
  · rename_i y5 y6 e7
    split
    · rename_i y8 y9 y10 y11 y12 e13 e14
      exact frame_ite k2 (frame_putSecs (lor_mono hM rfl) k2)
    · rename_i y15 y16 y17
      exact k2

theorem frame_carryOver {M : Nat} {o s : State} (hM : 133 ||| M = M) (h : Frame M o s) {m : Image} {e : Nat} {j : Nat} :
    Frame M o (State.carryOver s m e j) := by
  unfold State.carryOver
  split
  · rename_i y1 e2
    exact h
  · rename_i y3 y4 e5
    refine frame_ite h ?_
    split
    · rename_i y6 y7 y8 y9 y10 y11 e12 e13
      exact frame_ite h (frame_arrCopy (lor_mono hM rfl) h)
    · rename_i y14 y15 y16
      exact h

theorem frame_puntyMiss {M : Nat} {o s : State} (hM : 551 ||| M = M) (h : Frame M o s) {e : Nat} :
    Frame M o (State.puntyMiss s e) := by
  unfold State.puntyMiss
  extract_lets s1 s2
  have k3 : Frame M o s1 := frame_setStream (lor_mono hM rfl) h
  have k4 : Frame M o s2 := by
    unfold s2
    split
    · rename_i y5 y6 e7
      exact frame_storePunty (lor_mono hM rfl) k3
    · rename_i y8 e9
      exact k3
  clear_value s1 s2
  exact frame_syncProtected (lor_mono hM rfl) (frame_setErr (lor_mono hM rfl) (frame_count (lor_mono hM rfl) k4))

theorem frame_puntyLeft {M : Nat} {o s : State} (hM : 519 ||| M = M) (h : Frame M o s) {e : Nat} {chunk : Option Nat} :
    Frame M o (State.puntyLeft s e chunk) := by
  unfold State.puntyLeft
  extract_lets v1 s2
  have k3 : Frame M o s2 := frame_ite h (frame_lpNarrowPut (lor_mono hM rfl) h)
  clear_value v1 s2
  split
  · rename_i y4 y5
    extract_lets s6
    have k7 : Frame M o s6 := frame_ite h (frame_lpNarrowPut (lor_mono hM rfl) (frame_lpNarrowPut (lor_mono hM rfl) h))
    clear_value s6
    exact frame_count (lor_mono hM rfl) k7
  · rename_i y8
    exact frame_setErr (lor_mono hM rfl) (frame_count (lor_mono hM rfl) k3)

theorem frame_puntyPage {M : Nat} {o s : State} (hM : 1031 ||| M = M) (h : Frame M o s) {m : Image} {t : Stream} {l : Nat} {p : KvPage} {sent : Nat} :
    Frame2 M o (State.puntyPage s m t l p sent) := by
  unfold State.puntyPage
  extract_lets v1
  clear_value v1
  refine frame_foldl2 (Frame2.mk h) ?_
  intro x2 x3 k4
  refine Frame2.ite ?_ ?_
  · extract_lets s5
    have k6 : Frame2 M o s5 := frame_narrowRead (lor_mono hM rfl) k4.get
    clear_value s5
    exact Frame2.mk k6.get
  · extract_lets v7
    clear_value v7
    exact Frame2.mk (frame_bulkRead (lor_mono hM rfl) k4.get)

theorem frame_puntyStart {M : Nat} {o s : State} (hM : 5159 ||| M = M) (h : Frame M o s) {e : Nat} :
    Frame M o (State.puntyStart s e) := by
  unfold State.puntyStart
  split
  · rename_i y1 e2
    exact h
  · rename_i y3 y4 e5
    split
    · rename_i y6 y7 y8 y9 y10 e11 e12
      refine frame_ite h ?_
      extract_lets v13 v14 v15 v16 v17 v18 v19 v20 v21
      clear_value v13 v14 v15 v16 v17 v18 v19 v20 v21
      split
      · rename_i y22 y23 y24 e25
        have k26 : Frame M o y24 := by
          refine Frame2.of_eq e25 ?_
          refine frame_foldl2 (Frame2.mk h) ?_
          intro x27 x28 k29
          extract_lets s30
          have k31 : Frame2 M o s30 := frame_puntyPage (lor_mono hM rfl) k29.get
          clear_value s30
          exact Frame2.mk k31.get
        extract_lets v32 s33 s34 v35 v36 v37 s38
        have k39 : Frame M o s33 := frame_bulkRead (lor_mono hM rfl) k26
        have k40 : Frame M o s34 := frame_ite k39 (frame_bulkRead (lor_mono hM rfl) k39)
        have k41 : Frame M o s38 := frame_addBuiltIn (lor_mono hM rfl) k40
        clear_value v32 s33 s34 v35 v36 v37 s38
        exact frame_setStream (lor_mono hM rfl) k41
    · rename_i y42 y43 y44
      exact h

theorem frame_puntyDone {M : Nat} {o s : State} (hM : 5671 ||| M = M) (h : Frame M o s) {e : Nat} {j : Nat} :
    Frame M o (State.puntyDone s e j) := by
  unfold State.puntyDone
  split
  · rename_i y1 e2
    exact frame_puntyLeft (lor_mono hM rfl) h
  · rename_i y3 y4 e5
    refine frame_ite (frame_puntyLeft (lor_mono hM rfl) h) ?_
    extract_lets s6 s7
    have k8 : Frame M o s6 := frame_setStream (lor_mono hM rfl) h
    have k9 : Frame M o s7 := by
      unfold s7
      split
      · rename_i y10 y11 e12
        exact frame_storePunty (lor_mono hM rfl) k8
      · rename_i y13 e14
        exact k8
    clear_value s6 s7
    exact frame_puntyStart (lor_mono hM rfl) (frame_syncProtected (lor_mono hM rfl) (frame_count (lor_mono hM rfl) k9))

theorem frame_puntyRefused {M : Nat} {o s : State} (hM : 4647 ||| M = M) (h : Frame M o s) {e : Nat} {j : Nat} {late : Bool} :
    Frame M o (State.puntyRefused s e j late) := by
  unfold State.puntyRefused
  extract_lets s1
  have k2 : Frame M o s1 := frame_ite h (frame_puntyLeft (lor_mono hM rfl) h)
  clear_value s1
  split
  · rename_i y3 e4
    exact k2
  · rename_i y5 y6 e7
    refine frame_ite k2 ?_
    extract_lets s8 s9
    have k10 : Frame M o s8 := frame_ite h (frame_puntyMiss (lor_mono hM rfl) h)
    have k11 : Frame M o s9 := frame_with_dma (lor_mono hM rfl) k10
    clear_value s8 s9
    exact frame_setStream (lor_mono hM rfl) k11

theorem frame_puntyCommit {M : Nat} {o s : State} (hM : 5671 ||| M = M) (h : Frame M o s) {e : Nat} {j : Nat} {next : Nat} :
    Frame M o (State.puntyCommit s e j next) := by
  unfold State.puntyCommit
  split
  · rename_i y1 e2
    exact h
  · rename_i y3 y4 e5
    refine frame_ite h ?_
    extract_lets v6 s7 s8
    have k9 : Frame M o s7 := frame_setStream (lor_mono hM rfl) (frame_puntyMiss (lor_mono hM rfl) h)
    have k10 : Frame M o s8 := frame_ite (frame_with_dma (lor_mono hM rfl) k9) h
    clear_value v6 s7 s8
    exact frame_ite k10 (frame_ite (frame_puntyMiss (lor_mono hM rfl) k10) (frame_puntyStart (lor_mono hM rfl) (frame_setStream (lor_mono hM rfl) k10)))

theorem frame_puntyTurn {M : Nat} {o s : State} (hM : 4647 ||| M = M) (h : Frame M o s) {e : Nat} :
    Frame M o (State.puntyTurn s e) := by
  unfold State.puntyTurn
  split
  · rename_i y1 e2
    exact h
  · rename_i y3 y4 e5
    extract_lets v6 s7 s8
    have k9 : Frame M o s7 := frame_ite (frame_puntyMiss (lor_mono hM rfl) h) h
    have k10 : Frame M o s8 := frame_with_dma (lor_mono hM rfl) k9
    clear_value v6 s7 s8
    exact frame_setStream (lor_mono hM rfl) k10

theorem frame_loadFailStop {M : Nat} {o s : State} (hM : 1 ||| M = M) (h : Frame M o s) {cause : Nat} {bench : Nat} :
    Frame M o (State.loadFailStop s cause bench) := by
  unfold State.loadFailStop
  extract_lets s1 s2 s3
  have k4 : Frame M o s1 := frame_wr (lor_mono hM rfl) h
  have k5 : Frame M o s2 := frame_wr (lor_mono hM rfl) k4
  have k6 : Frame M o s3 := frame_wr (lor_mono hM rfl) k5
  clear_value s1 s2 s3
  exact frame_wr (lor_mono hM rfl) (frame_wr (lor_mono hM rfl) k6)

theorem frame_stopDevice {M : Nat} {o s : State} (hM : 1908773 ||| M = M) (h : Frame M o s) {cause : Nat} :
    Frame M o (State.stopDevice s cause) := by
  unfold State.stopDevice
  extract_lets v1 s2 s3 s4 s5 s6 s7 s8 s9 s10 s11 v12 s13 s14 s15 v16 v17 s18
  have k19 : Frame M o s2 := frame_with_gaf (lor_mono hM rfl) h
  have k20 : Frame M o s3 := frame_wr (lor_mono hM rfl) k19
  have k21 : Frame M o s4 := frame_wr (lor_mono hM rfl) k20
  have k22 : Frame M o s5 := frame_wr (lor_mono hM rfl) k21
  have k23 : Frame M o s6 := frame_wr (lor_mono hM rfl) k22
  have k24 : Frame M o s7 := frame_wr (lor_mono hM rfl) k23
  have k25 : Frame M o s8 := frame_closeWindow (lor_mono hM rfl) k24
  have k26 : Frame M o s9 := frame_foldl k25 (fun x27 x28 k29 => frame_put (lor_mono hM rfl) (frame_wr (lor_mono hM rfl) k29))
  have k30 : Frame M o s10 := frame_foldl k26 (fun x31 x32 k33 => frame_wr (lor_mono hM rfl) k33)
  have k34 : Frame M o s11 := by
    refine frame_foldl k30 ?_
    intro x35 x36 k37
    refine frame_ite k37 ?_
    extract_lets s38 s39
    have k40 : Frame M o s38 := frame_put (lor_mono hM rfl) k37
    have k41 : Frame M o s39 := frame_wr (lor_mono hM rfl) (frame_wr (lor_mono hM rfl) k40)
    clear_value s38 s39
    exact frame_setPort (lor_mono hM rfl) k41
  have k42 : Frame M o s13 := frame_with_sec (lor_mono hM rfl) k34
  have k43 : Frame M o s14 := frame_wr (lor_mono hM rfl) k42
  have k44 : Frame M o s15 := frame_logAdd (lor_mono hM rfl) k43
  have k45 : Frame M o s18 := frame_with_fo_pow (lor_mono hM rfl) k44
  clear_value s2 s3 s4 s5 s6 s7 s8 s9 s10 s11 s13 s14 s15 s18
  exact frame_closeEarly (lor_mono hM rfl) (frame_setDomains (lor_mono hM rfl) k45)

theorem frame_failStop {M : Nat} {o s : State} (hM : 1908773 ||| M = M) (h : Frame M o s) {cause : Nat} {bench : Nat} :
    Frame M o (State.failStop s cause bench) := by
  unfold State.failStop
  refine frame_ite ?_ (frame_stopDevice (lor_mono hM rfl) (frame_loadFailStop (lor_mono hM rfl) h))
  refine frame_ite ?_ h
  extract_lets s1 v2
  have k3 : Frame M o s1 := frame_loadFailStop (lor_mono hM rfl) h
  clear_value s1
  exact frame_with_fo (lor_mono hM rfl) k3

theorem frame_revertWord {M : Nat} {o s : State} (hM : 1 ||| M = M) (h : Frame M o s) {a : Nat} :
    Frame M o (State.revertWord s a) := by
  unfold State.revertWord
  exact frame_setWord (lor_mono hM rfl) h

theorem frame_revertRange {M : Nat} {o s : State} (hM : 1 ||| M = M) (h : Frame M o s) {lo : Nat} {n : Nat} :
    Frame M o (State.revertRange s lo n) := by
  unfold State.revertRange
  exact frame_foldl h (fun x1 x2 k3 => frame_ite k3 (frame_revertWord (lor_mono hM rfl) k3))

theorem frame_revertPage {M : Nat} {o s : State} (hM : 8193 ||| M = M) (h : Frame M o s) {k : PageKind} {inst : Nat} :
    Frame M o (State.revertPage s k inst) := by
  unfold State.revertPage
  extract_lets s1 v2
  have k3 : Frame M o s1 := frame_revertRange (lor_mono hM rfl) h
  clear_value s1
  exact frame_ite (frame_with_lnk (lor_mono hM rfl) k3) k3

theorem frame_syncStaged {M : Nat} {o s : State} (hM : 1 ||| M = M) (h : Frame M o s) :
    Frame M o (State.syncStaged s) := by
  unfold State.syncStaged
  extract_lets s1
  have k2 : Frame M o s1 := frame_wr (lor_mono hM rfl) h
  clear_value s1
  exact frame_wr (lor_mono hM rfl) k2

theorem frame_unstageEntries {M : Nat} {o s : State} (hM : 535 ||| M = M) (h : Frame M o s) :
    Frame M o (State.unstageEntries s) := by
  unfold State.unstageEntries
  extract_lets s1 v2
  have k3 : Frame M o s1 := frame_ite (frame_foldl h (fun x4 x5 k6 => frame_lpNarrowPut (lor_mono hM rfl) k6)) h
  clear_value s1
  exact frame_syncStaged (lor_mono hM rfl) (frame_with_par (lor_mono hM rfl) k3)

theorem frame_setParState {M : Nat} {o s : State} (hM : 1 ||| M = M) (h : Frame M o s) {v : Nat} :
    Frame M o (State.setParState s v) := by
  unfold State.setParState
  exact frame_wr (lor_mono hM rfl) h

theorem frame_setCode {M : Nat} {o s : State} (hM : 1 ||| M = M) (h : Frame M o s) {v : Nat} :
    Frame M o (State.setCode s v) := by
  unfold State.setCode
  exact frame_wr (lor_mono hM rfl) h

theorem frame_staging {M : Nat} {o s : State} (hM : 17 ||| M = M) (h : Frame M o s) :
    Frame M o (State.staging s) := by
  unfold State.staging
  exact frame_ite (frame_setParState (lor_mono hM rfl) (frame_with_par (lor_mono hM rfl) h)) (frame_setParState (lor_mono hM rfl) h)

theorem frame_instantCome {M : Nat} {o s : State} (hM : 16 ||| M = M) (h : Frame M o s) :
    Frame M o (State.instantCome s) := by
  unfold State.instantCome
  exact frame_with_par (lor_mono hM rfl) h

theorem frame_parWatch {M : Nat} {o s : State} (hM : 16 ||| M = M) (h : Frame M o s) :
    Frame M o (State.parWatch s) := by
  unfold State.parWatch
  exact frame_ite (frame_ite (frame_with_par (lor_mono hM rfl) h) (frame_with_par (lor_mono hM rfl) h)) h

theorem frame_settleWatch {M : Nat} {o s : State} (hM : 561975 ||| M = M) (h : Frame M o s) :
    Frame M o (State.settleWatch s) := by
  unfold State.settleWatch
  exact frame_parWatch (lor_mono hM rfl) (frame_settle (lor_mono hM rfl) h)

theorem frame_abandonAll {M : Nat} {o s : State} (hM : 8727 ||| M = M) (h : Frame M o s) :
    Frame M o (State.abandonAll s) := by
  unfold State.abandonAll
  extract_lets s1 v2 s3 s4
  have k5 : Frame M o s1 := frame_revertRange (lor_mono hM rfl) h
  have k6 : Frame M o s3 := frame_with_lnk (lor_mono hM rfl) k5
  have k7 : Frame M o s4 := frame_unstageEntries (lor_mono hM rfl) k6
  clear_value s1 s3 s4
  exact frame_setParState (lor_mono hM rfl) (frame_setClaims (lor_mono hM rfl) (frame_with_par (lor_mono hM rfl) k7))

theorem frame_reopen {M : Nat} {o s : State} (hM : 17 ||| M = M) (h : Frame M o s) {code : Nat} {kind : Nat} {where_ : Nat} :
    Frame M o (State.reopen s code kind where_) := by
  unfold State.reopen
  extract_lets v1 s2 s3 s4 s5
  have k6 : Frame M o s2 := frame_with_par (lor_mono hM rfl) h
  have k7 : Frame M o s3 := frame_setCode (lor_mono hM rfl) (frame_setParState (lor_mono hM rfl) k6)
  have k8 : Frame M o s4 := frame_wr (lor_mono hM rfl) k7
  have k9 : Frame M o s5 := frame_wr (lor_mono hM rfl) k8
  clear_value s2 s3 s4 s5
  exact frame_wr (lor_mono hM rfl) k9

theorem frame_clearClasses {M : Nat} {o s : State} (hM : 1 ||| M = M) (h : Frame M o s) {pages : PageKind → Nat → Bool} {clears : Cls → Bool} :
    Frame M o (State.clearClasses s pages clears) := by
  unfold State.clearClasses
  exact frame_with_regs (lor_mono hM rfl) h

theorem frame_logReset {M : Nat} {o s : State} (hM : 5 ||| M = M) (h : Frame M o s) {code : Nat} {d0 : Nat} :
    Frame M o (State.logReset s code d0) := by
  unfold State.logReset
  exact frame_logAdd (lor_mono hM rfl) (frame_wr (lor_mono hM rfl) h)

theorem frame_abandonForReset {M : Nat} {o s : State} (hM : 8727 ||| M = M) (h : Frame M o s) {code : Nat} {clear : State → State} (hclear : ∀ x0, Frame M o x0 → Frame M o (clear x0)) :
    Frame M o (State.abandonForReset s code clear) := by
  unfold State.abandonForReset
  exact frame_setCode (lor_mono hM rfl) (frame_setParState (lor_mono hM rfl) (hclear _ (frame_abandonAll (lor_mono hM rfl) h)))

theorem frame_aptHalt {M : Nat} {o s : State} (hM : 32769 ||| M = M) (h : Frame M o s) {p : Nat} :
    Frame M o (State.aptHalt s p) := by
  unfold State.aptHalt
  extract_lets v1 s2
  have k3 : Frame M o s2 := frame_beginStop (lor_mono hM rfl) h
  clear_value v1 s2
  exact frame_ite (frame_foldl k3 (fun x4 x5 k6 => frame_resend (lor_mono hM rfl) k6)) h

theorem frame_syncDomains {M : Nat} {o s : State} (hM : 1048641 ||| M = M) (h : Frame M o s) :
    Frame M o (State.syncDomains s) := by
  unfold State.syncDomains
  refine frame_ite h ?_
  extract_lets v1 v2 v3 v4 v5
  clear_value v1 v2 v3 v4
  exact frame_setDomains (lor_mono hM rfl) (frame_with_dmp (lor_mono hM rfl) h)

theorem frame_clearSoftM {M : Nat} {o s : State} (hM : 262144 ||| M = M) (h : Frame M o s) :
    Frame M o (State.clearSoftM s) := by
  unfold State.clearSoftM
  exact frame_clearM (lor_mono hM rfl) (frame_clearM (lor_mono hM rfl) (frame_clearM (lor_mono hM rfl) h))

theorem frame_watchAllErr {M : Nat} {o s : State} (hM : 5 ||| M = M) (h : Frame M o s) {f : State → State} (hf : ∀ x0, Frame M o x0 → Frame M o (f x0)) :
    Frame M o (State.watchAllErr s f) := by
  unfold State.watchAllErr
  extract_lets s1
  have k2 : Frame M o s1 := hf _ h
  clear_value s1
  exact frame_foldl k2 (fun x3 x4 k5 => frame_foldl k5 (fun x6 x7 k8 => frame_ite (frame_logAdd (lor_mono hM rfl) k8) k8))

theorem frame_resetCore {M : Nat} {o s : State} (hM : 2093943 ||| M = M) (h : Frame M o s) {kind : Nat} :
    Frame M o (State.resetCore s kind) := by
  unfold State.resetCore
  extract_lets v1 v2 s3 s4 s5 s6 s7 s8 v9 v10 v11 v12 s13 s14
  have k15 : Frame M o s3 := frame_foldl h (fun x16 x17 k18 => frame_toIdle (lor_mono hM rfl) (frame_discardChunks (lor_mono hM rfl) k18))
  have k19 : Frame M o s4 := frame_foldl k15 (fun x20 x21 k22 => frame_unloadImage (lor_mono hM rfl) k22)
  have k23 : Frame M o s5 := frame_with_regions (lor_mono hM rfl) k19
  have k24 : Frame M o s6 := frame_foldl k23 (fun x25 x26 k27 => frame_aptHalt (lor_mono hM rfl) k27)
  have k28 : Frame M o s7 := frame_abandonForReset (lor_mono hM rfl) k24 (fun x29 k30 => frame_watchAllErr (lor_mono hM rfl) k30 (fun x31 k32 => frame_clearClasses (lor_mono hM rfl) k32))
  have k33 : Frame M o s8 := frame_foldl k28 (fun x34 x35 k36 => frame_wr (lor_mono hM rfl) k36)
  have k37 : Frame M o s13 := frame_with_evt_gaf_dmp_regions_servo_apt_fo_rings_sec_pow (lor_mono hM rfl) k33
  have k38 : Frame M o s14 := frame_syncDomains (lor_mono hM rfl) (frame_syncStore (lor_mono hM rfl) (frame_syncSpad (lor_mono hM rfl) (frame_clearSoftM (lor_mono hM rfl) k37)))
  clear_value v1 v2 s3 s5 s6 s7 s8 s13 s14
  exact frame_logReset (lor_mono hM rfl) (frame_syncTally (lor_mono hM rfl) k38)

theorem frame_toD3 {M : Nat} {o s : State} (hM : 1048577 ||| M = M) (h : Frame M o s) :
    Frame M o (State.toD3 s) := by
  unfold State.toD3
  extract_lets v1 s2
  have k3 : Frame M o s2 := frame_setDomains (lor_mono hM rfl) (frame_with_pow (lor_mono hM rfl) h)
  clear_value s2
  exact frame_wr (lor_mono hM rfl) k3

theorem frame_resetNow {M : Nat} {o s : State} (hM : 2093943 ||| M = M) (h : Frame M o s) {kind : Nat} :
    Frame M o (State.resetNow s kind) := by
  unfold State.resetNow
  extract_lets v1 s2
  have k3 : Frame M o s2 := frame_resetCore (lor_mono hM rfl) h
  clear_value v1 s2
  exact frame_ite (frame_toD3 (lor_mono hM rfl) k3) k3

theorem frame_startReset {M : Nat} {o s : State} (hM : 2093943 ||| M = M) (h : Frame M o s) {kind : Nat} :
    Frame M o (State.startReset s kind) := by
  unfold State.startReset
  exact frame_ite (frame_with_pow (lor_mono hM rfl) h) (frame_resetNow (lor_mono hM rfl) h)

theorem frame_wipe {M : Nat} {o s : State} (hM : 2095103 ||| M = M) (h : Frame M o s) :
    Frame M o (State.wipe s) := by
  unfold State.wipe
  extract_lets v1 s2
  have k3 : Frame M o s2 := frame_with_regs_evt_log_clk_par_gaf_dmp_spad_regions_lpddr_sites_dma_lnk_servo_apt_fo_rings_sec_tly_pow (lor_mono hM rfl) h
  clear_value v1 s2
  exact frame_foldl k3 (fun x4 x5 k6 => frame_wr (lor_mono hM rfl) k6)

theorem frame_coldCore {M : Nat} {o s : State} (hM : 2095103 ||| M = M) (h : Frame M o s) :
    Frame M o (State.coldCore s) := by
  unfold State.coldCore
  extract_lets s1 s2 v3 s4 s5 s6 s7 v8 v9 v10 s11
  have k12 : Frame M o s1 := frame_closeWindow (lor_mono hM rfl) h
  have k13 : Frame M o s2 := frame_closeEarly (lor_mono hM rfl) k12
  have k14 : Frame M o s4 := frame_abandonAll (lor_mono hM rfl) k13
  have k15 : Frame M o s5 := frame_clearClasses (lor_mono hM rfl) k14
  have k16 : Frame M o s6 := frame_clearSoftM (lor_mono hM rfl) (frame_setCode (lor_mono hM rfl) k15)
  have k17 : Frame M o s7 := frame_clearM (lor_mono hM rfl) (frame_clearM (lor_mono hM rfl) (frame_clearM (lor_mono hM rfl) (frame_clearM (lor_mono hM rfl) k16)))
  have k18 : Frame M o s11 := frame_with_evt_clk_par_gaf_dmp_spad_regions_lpddr_sites_dma_lnk_servo_apt_fo_rings_sec_tly_pow (lor_mono hM rfl) k17
  clear_value s1 s2 v3 s4 s5 s6 s7 v9 s11
  exact frame_syncTally (lor_mono hM rfl) (frame_wr (lor_mono hM rfl) k18)

theorem frame_abandonAtomics {M : Nat} {o s : State} (hM : 4097 ||| M = M) (h : Frame M o s) {image : Nat} :
    Frame M o (State.abandonAtomics s image) := by
  unfold State.abandonAtomics
  extract_lets v1 v2
  clear_value v1 v2
  exact frame_foldl (frame_with_dma (lor_mono hM rfl) h) (fun x3 x4 k5 => frame_syncGth (lor_mono hM rfl) k5)

theorem frame_killImage {M : Nat} {o s : State} (hM : 561975 ||| M = M) (h : Frame M o s) {image : Nat} :
    Frame M o (State.killImage s image) := by
  unfold State.killImage
  extract_lets s1 s2 s3 s4 s5 v6
  have k7 : Frame M o s1 := frame_logReset (lor_mono hM rfl) h
  have k8 : Frame M o s2 := frame_wr (lor_mono hM rfl) (frame_wr (lor_mono hM rfl) k7)
  have k9 : Frame M o s3 := by
    refine frame_ite ?_ k8
    split
    · rename_i y10 y11 e12
      exact frame_reopen (lor_mono hM rfl) k8
    · rename_i y13 e14
      exact k8
  have k15 : Frame M o s4 := frame_abandonAtomics (lor_mono hM rfl) k9
  have k16 : Frame M o s5 := frame_setImage (lor_mono hM rfl) k15
  clear_value s1 s2 s3 s4 s5 v6
  exact frame_settleWatch (lor_mono hM rfl) (frame_foldl k16 (fun x17 x18 k19 => frame_setStream (lor_mono hM rfl) k19))

theorem frame_scrubDone {M : Nat} {o s : State} (hM : 899 ||| M = M) (h : Frame M o s) {image : Nat} {region : Nat} :
    Frame M o (State.scrubDone s image region) := by
  unfold State.scrubDone
  refine frame_ite h ?_
  extract_lets s1 v2 s3 s4
  have k5 : Frame M o s1 := frame_releaseRegion (lor_mono hM rfl) h
  have k6 : Frame M o s3 := frame_foldl k5 (fun x7 x8 k9 => frame_ite (frame_zeroLp (lor_mono hM rfl) k9) k9)
  have k10 : Frame M o s4 := frame_with_regions (lor_mono hM rfl) k6
  clear_value s1 v2 s3 s4
  exact frame_ite k5 (frame_ite (frame_wr (lor_mono hM rfl) k10) k10)

theorem frame_execPowerOn {M : Nat} {o s : State} (hM : 2095103 ||| M = M) (h : Frame M o s) :
    FrameNext M o (execPowerOn s) := by
  unfold execPowerOn
  exact FrameNext.next (frame_wipe (lor_mono hM rfl) (frame_begin_ (lor_mono hM rfl) h))

theorem frame_execPowerLoss {M : Nat} {o s : State} (hM : 2095103 ||| M = M) (h : Frame M o s) :
    FrameNext M o (execPowerLoss s) := by
  unfold execPowerLoss
  extract_lets s1 v2
  have k3 : Frame M o s1 := frame_wipe (lor_mono hM rfl) (frame_begin_ (lor_mono hM rfl) h)
  clear_value s1
  exact FrameNext.next (frame_with_pow (lor_mono hM rfl) k3)

theorem frame_execColdReset {M : Nat} {o s : State} (hM : 2095103 ||| M = M) (h : Frame M o s) :
    FrameNext M o (execColdReset s) := by
  unfold execColdReset
  extract_lets s1
  have k2 : Frame M o s1 := frame_begin_ (lor_mono hM rfl) h
  clear_value s1
  exact FrameNext.next (frame_ite (frame_coldCore (lor_mono hM rfl) k2) k2)

theorem frame_execHotReset {M : Nat} {o s : State} (hM : 2093943 ||| M = M) (h : Frame M o s) :
    FrameNext M o (execHotReset s) := by
  unfold execHotReset
  extract_lets s1
  have k2 : Frame M o s1 := frame_begin_ (lor_mono hM rfl) h
  clear_value s1
  exact FrameNext.next (frame_ite k2 (frame_startReset (lor_mono hM rfl) k2))

theorem frame_softResetWrite {M : Nat} {o s : State} (hM : 2093943 ||| M = M) (h : Frame M o s) {word : Nat} :
    Frame M o (State.softResetWrite s word) := by
  unfold State.softResetWrite
  exact frame_ite (frame_badWrite (lor_mono hM rfl) h) (frame_ite (frame_startReset (lor_mono hM rfl) h) h)

theorem frame_execSoftReset {M : Nat} {o s : State} (hM : 2093943 ||| M = M) (h : Frame M o s) {word : Nat} :
    FrameNext M o (execSoftReset word s) := by
  unfold execSoftReset
  exact FrameNext.next (frame_gated (lor_mono hM rfl) (frame_begin_ (lor_mono hM rfl) h) (fun x1 k2 => frame_softResetWrite (lor_mono hM rfl) k2))

theorem frame_benchResetWrite {M : Nat} {o s : State} (hM : 1048583 ||| M = M) (h : Frame M o s) {word : Nat} :
    Frame M o (State.benchResetWrite s word) := by
  unfold State.benchResetWrite
  refine frame_ite (frame_badWrite (lor_mono hM rfl) h) ?_
  extract_lets v1 s2 s3
  have k4 : Frame M o s2 := frame_clearClasses (lor_mono hM rfl) h
  have k5 : Frame M o s3 := frame_with_evt (lor_mono hM rfl) k4
  clear_value v1 s2 s3
  exact frame_logReset (lor_mono hM rfl) (frame_setDomains (lor_mono hM rfl) k5)

theorem frame_execBenchReset {M : Nat} {o s : State} (hM : 1048583 ||| M = M) (h : Frame M o s) {word : Nat} :
    FrameNext M o (execBenchReset word s) := by
  unfold execBenchReset
  exact FrameNext.next (frame_gated (lor_mono hM rfl) (frame_begin_ (lor_mono hM rfl) h) (fun x1 k2 => frame_benchResetWrite (lor_mono hM rfl) k2))

theorem frame_jobKillWrite {M : Nat} {o s : State} (hM : 561975 ||| M = M) (h : Frame M o s) {word : Nat} :
    Frame M o (State.jobKillWrite s word) := by
  unfold State.jobKillWrite
  exact frame_ite (frame_badWrite (lor_mono hM rfl) h) (frame_ite (frame_killImage (lor_mono hM rfl) h) h)

theorem frame_execJobKill {M : Nat} {o s : State} (hM : 561975 ||| M = M) (h : Frame M o s) {word : Nat} :
    FrameNext M o (execJobKill word s) := by
  unfold execJobKill
  exact FrameNext.next (frame_gated (lor_mono hM rfl) (frame_begin_ (lor_mono hM rfl) h) (fun x1 k2 => frame_jobKillWrite (lor_mono hM rfl) k2))

theorem frame_execScrubComplete {M : Nat} {o s : State} (hM : 899 ||| M = M) (h : Frame M o s) {image : Nat} {region : Nat} :
    FrameNext M o (execScrubComplete image s region) := by
  unfold execScrubComplete
  extract_lets s1
  have k2 : Frame M o s1 := frame_begin_ (lor_mono hM rfl) h
  clear_value s1
  exact FrameNext.next (frame_ite (frame_scrubDone (lor_mono hM rfl) k2) k2)

theorem frame_powerWrite {M : Nat} {o s : State} (hM : 5 ||| M = M) (h : Frame M o s) {word : Nat} :
    Frame M o (State.powerWrite s word) := by
  unfold State.powerWrite
  extract_lets v1 s2
  have k3 : Frame M o s2 := frame_wr (lor_mono hM rfl) h
  clear_value v1 s2
  exact frame_ite (frame_badWrite (lor_mono hM rfl) h) (frame_ite (frame_ite (frame_wr (lor_mono hM rfl) k3) k3) (frame_ite (frame_ite (frame_wr (lor_mono hM rfl) (frame_wr (lor_mono hM rfl) h)) (frame_badWrite (lor_mono hM rfl) h)) h))

theorem frame_execDormantRequest {M : Nat} {o s : State} (hM : 5 ||| M = M) (h : Frame M o s) {word : Nat} :
    FrameNext M o (execDormantRequest word s) := by
  unfold execDormantRequest
  exact FrameNext.next (frame_gated (lor_mono hM rfl) (frame_begin_ (lor_mono hM rfl) h) (fun x1 k2 => frame_powerWrite (lor_mono hM rfl) k2))

theorem frame_execDormantEntered {M : Nat} {o s : State} (hM : 1048577 ||| M = M) (h : Frame M o s) :
    FrameNext M o (execDormantEntered s) := by
  unfold execDormantEntered
  extract_lets s1 s2
  have k3 : Frame M o s1 := frame_begin_ (lor_mono hM rfl) h
  have k4 : Frame M o s2 := frame_clearClasses (lor_mono hM rfl) k3
  clear_value s1 s2
  exact FrameNext.next (frame_ite k3 (frame_wr (lor_mono hM rfl) (frame_setDomains (lor_mono hM rfl) k4)))

theorem frame_execActiveReached {M : Nat} {o s : State} (hM : 1048577 ||| M = M) (h : Frame M o s) :
    FrameNext M o (execActiveReached s) := by
  unfold execActiveReached
  extract_lets s1 v2
  have k3 : Frame M o s1 := frame_begin_ (lor_mono hM rfl) h
  clear_value s1 v2
  exact FrameNext.next (frame_ite k3 (frame_wr (lor_mono hM rfl) (frame_setDomains (lor_mono hM rfl) k3)))

theorem frame_execD3hotEnter {M : Nat} {o s : State} (hM : 2093943 ||| M = M) (h : Frame M o s) :
    FrameNext M o (execD3hotEnter s) := by
  unfold execD3hotEnter
  extract_lets s1 s2 v3
  have k4 : Frame M o s1 := frame_begin_ (lor_mono hM rfl) h
  have k5 : Frame M o s2 := frame_setErr (lor_mono hM rfl) k4
  clear_value s1 s2
  exact FrameNext.next (frame_ite k4 (frame_ite (frame_toD3 (lor_mono hM rfl) k4) (frame_startReset (lor_mono hM rfl) (frame_with_pow (lor_mono hM rfl) k5))))

theorem frame_execD0Return {M : Nat} {o s : State} (hM : 1048577 ||| M = M) (h : Frame M o s) :
    FrameNext M o (execD0Return s) := by
  unfold execD0Return
  extract_lets s1
  have k2 : Frame M o s1 := frame_begin_ (lor_mono hM rfl) h
  clear_value s1
  exact FrameNext.next (frame_ite k2 (frame_wr (lor_mono hM rfl) (frame_setDomains (lor_mono hM rfl) k2)))

end Sys2Proof.Machine
end

