-- ==== Sys2Proof/Laws/FrameDamper.lean ====
section
/-! SUPPORT. The functions of Machine/Damper.lean, Machine/Commit.lean, Machine/Emit.lean, Machine/Array.lean change only the parts of the state named by a mask. -/
namespace Sys2Proof.Machine
open Sys2Proof

set_option Elab.async false

theorem frame_syncDamper {M : Nat} {o s : State} (hM : 1048641 ||| M = M) (h : Frame M o s) :
    Frame M o (State.syncDamper s) := by
  unfold State.syncDamper
  extract_lets s1 s2 s3 s4 s5 v6 s7 s8
  have k9 : Frame M o s1 := frame_syncDomains (lor_mono hM rfl) h
  have k10 : Frame M o s2 := frame_wr (lor_mono hM rfl) k9
  have k11 : Frame M o s3 := frame_wr (lor_mono hM rfl) k10
  have k12 : Frame M o s4 := frame_wr (lor_mono hM rfl) k11
  have k13 : Frame M o s5 := frame_wr (lor_mono hM rfl) k12
  have k14 : Frame M o s7 := frame_wr (lor_mono hM rfl) k13
  have k15 : Frame M o s8 := frame_wr (lor_mono hM rfl) k14
  clear_value s1 s2 s3 s4 s5 v6 s7 s8
  exact frame_wr (lor_mono hM rfl) k15

theorem frame_floorGuard {M : Nat} {o s : State} (hM : 5 ||| M = M) (h : Frame M o s) {loss : Nat} {change : State → State} (hchange : ∀ x0, Frame M o x0 → Frame M o (change x0)) :
    Frame M o (State.floorGuard s loss change) := by
  unfold State.floorGuard
  exact frame_ite (frame_setErr (lor_mono hM rfl) (frame_wr (lor_mono hM rfl) (frame_count (lor_mono hM rfl) h))) (hchange _ h)

theorem frame_setDivision {M : Nat} {o s : State} (hM : 65 ||| M = M) (h : Frame M o s) {b : Nat} {code : Nat} :
    Frame M o (State.setDivision s b code) := by
  unfold State.setDivision
  exact frame_count (lor_mono hM rfl) (frame_with_dmp (lor_mono hM rfl) h)

theorem frame_gateBench {M : Nat} {o s : State} (hM : 69 ||| M = M) (h : Frame M o s) {b : Nat} :
    Frame M o (State.gateBench s b) := by
  unfold State.gateBench
  extract_lets v1 s2
  have k3 : Frame M o s2 := frame_with_dmp (lor_mono hM rfl) h
  clear_value s2
  exact frame_setErr (lor_mono hM rfl) (frame_count (lor_mono hM rfl) k3)

theorem frame_actBench {M : Nat} {o s : State} (hM : 69 ||| M = M) (h : Frame M o s) {b : Nat} {t : Option Int} :
    Frame M o (State.actBench s b t) := by
  unfold State.actBench
  extract_lets v1 v2 v3 v4
  clear_value v1 v2 v3 v4
  split
  · rename_i y5
    exact frame_ite h (frame_floorGuard (lor_mono hM rfl) h (fun x6 k7 => frame_setDivision (lor_mono hM rfl) k7))
  · rename_i y8 y9
    refine frame_ite (frame_ite (frame_floorGuard (lor_mono hM rfl) h (fun x10 k11 => frame_setDivision (lor_mono hM rfl) k11)) h) ?_
    exact frame_ite (frame_floorGuard (lor_mono hM rfl) h (fun x12 k13 => frame_gateBench (lor_mono hM rfl) k13)) (frame_ite (frame_setDivision (lor_mono hM rfl) h) h)

theorem frame_ungateBench {M : Nat} {o s : State} (hM : 64 ||| M = M) (h : Frame M o s) {b : Nat} {t : Int} :
    Frame M o (State.ungateBench s b t) := by
  unfold State.ungateBench
  exact frame_ite (frame_with_dmp (lor_mono hM rfl) h) h

theorem frame_readSensor {M : Nat} {o s : State} (hM : 69 ||| M = M) (h : Frame M o s) {n : Nat} {r : Reading} :
    Frame1 M o (State.readSensor s n r) := by
  unfold State.readSensor
  split
  · rename_i y1
    extract_lets v2 v3 s4
    have k5 : Frame M o s4 := frame_with_dmp (lor_mono hM rfl) h
    clear_value v2 s4
    exact Frame1.mk (frame_ite (frame_setErr (lor_mono hM rfl) k5) k5)
  · rename_i y6 y7
    refine Frame1.ite (Frame1.mk h) ?_
    extract_lets v8 v9 v10
    clear_value v8 v9
    exact Frame1.mk (frame_with_dmp (lor_mono hM rfl) h)

theorem frame_readSensors {M : Nat} {o s : State} (hM : 69 ||| M = M) (h : Frame M o s) {a1 : List (Nat × Reading)} :
    Frame1 M o (State.readSensors s a1) := by
  induction a1 generalizing s with
  | nil =>
    unfold State.readSensors
    exact Frame1.mk h
  | cons w0 w1 ih =>
    unfold State.readSensors
    split
    · rename_i y1 y2 y3 e4
      have k5 : Frame M o y2 := Frame1.of_eq e4 (frame_readSensor (lor_mono hM rfl) h)
      split
      · rename_i y6 y7 y8 e9
        have k10 : Frame M o y7 := Frame1.of_eq e9 (ih k5)
        exact Frame1.mk k10

theorem frame_loadTemps {M : Nat} {o s : State} (hM : 1 ||| M = M) (h : Frame M o s) {vs : List (Nat × Int)} :
    Frame M o (State.loadTemps s vs) := by
  unfold State.loadTemps
  extract_lets v1 s2 s3
  have k4 : Frame M o s2 := by
    unfold s2
    split
    · rename_i y5 e6
      exact h
    · rename_i y7 y8 e9
      extract_lets v10
      clear_value v10
      exact frame_wr (lor_mono hM rfl) (frame_wr (lor_mono hM rfl) h)
  have k11 : Frame M o s3 := by
    refine frame_foldl k4 ?_
    intro x12 x13 k14
    split
    · rename_i y15 e16
      exact k14
    · rename_i y17 y18 e19
      extract_lets s20
      have k21 : Frame M o s20 := frame_wrAt (lor_mono hM rfl) k14
      clear_value s20
      exact frame_ite (frame_wrAt (lor_mono hM rfl) k21) k21
  clear_value v1 s2 s3
  refine frame_foldl k11 ?_
  intro x22 x23 k24
  split
  · rename_i y25 e26
    exact k24
  · rename_i y27 y28 e29
    exact frame_wrAt (lor_mono hM rfl) k24

theorem frame_openWindow {M : Nat} {o s : State} (hM : 69 ||| M = M) (h : Frame M o s) {meas : Nat} :
    Frame M o (State.openWindow s meas) := by
  unfold State.openWindow
  extract_lets v1 v2 v3 v4 v5 v6 v7 v8 v9 v10 v11 s12 s13 s14 s15 s16
  have k17 : Frame M o s12 := frame_with_dmp (lor_mono hM rfl) h
  have k18 : Frame M o s13 := frame_count64 (lor_mono hM rfl) k17
  have k19 : Frame M o s14 := frame_count (lor_mono hM rfl) k18
  have k20 : Frame M o s15 := frame_wr (lor_mono hM rfl) k19
  have k21 : Frame M o s16 := frame_ite (frame_count (lor_mono hM rfl) k20) k20
  clear_value v1 v2 v3 v4 v5 v6 v7 v8 v9 v10 v11 s12 s13 s14 s15 s16
  exact frame_ite (frame_setErrLog (lor_mono hM rfl) k21) k21

theorem frame_moveStretch {M : Nat} {o s : State} (hM : 64 ||| M = M) (h : Frame M o s) :
    Frame M o (State.moveStretch s) := by
  unfold State.moveStretch
  extract_lets v1 v2
  clear_value v1 v2
  exact frame_ite (frame_with_dmp (lor_mono hM rfl) h) (frame_ite (frame_ite (frame_with_dmp (lor_mono hM rfl) h) (frame_with_dmp (lor_mono hM rfl) h)) (frame_with_dmp (lor_mono hM rfl) h))

theorem frame_thermal {M : Nat} {o s : State} (hM : 1048645 ||| M = M) (h : Frame M o s) {vs : List (Nat × Int)} :
    Frame M o (State.thermal s vs) := by
  unfold State.thermal
  extract_lets v1 s2 s3 v4 v5 v6 s7 s8
  have k9 : Frame M o s2 := frame_with_dmp (lor_mono hM rfl) h
  have k10 : Frame M o s3 := frame_wr (lor_mono hM rfl) k9
  have k11 : Frame M o s7 := frame_foldl k10 (fun x12 x13 k14 => frame_actBench (lor_mono hM rfl) k14)
  have k15 : Frame M o s8 := by
    refine frame_foldl k11 ?_
    intro x16 x17 k18
    split
    · rename_i y19 y20 e21
      exact frame_ungateBench (lor_mono hM rfl) k18
    · rename_i y22 e23
      exact k18
  clear_value s2 s3 v4 v5 v6 s7 s8
  exact frame_syncDamper (lor_mono hM rfl) (frame_moveStretch (lor_mono hM rfl) k15)

theorem frame_window {M : Nat} {o s : State} (hM : 1908837 ||| M = M) (h : Frame M o s) {w : WindowIn} :
    Frame M o (State.window s w) := by
  unfold State.window
  split
  · rename_i y1 y2 y3 e4
    have k5 : Frame M o y2 := Frame1.of_eq e4 (frame_readSensors (lor_mono hM rfl) h)
    extract_lets v6 s7
    have k8 : Frame M o s7 := frame_thermal (lor_mono hM rfl) (frame_openWindow (lor_mono hM rfl) (frame_loadTemps (lor_mono hM rfl) k5))
    clear_value v6 s7
    split
    · rename_i y9 y10
      exact frame_failStop (lor_mono hM rfl) k8
    · rename_i y11
      exact k8

theorem frame_stepCounter {M : Nat} {o s : State} (hM : 524313 ||| M = M) (h : Frame M o s) {now : Nat} {frac : Nat} :
    Frame M o (State.stepCounter s now frac) := by
  unfold State.stepCounter
  extract_lets v1 v2 s3
  have k4 : Frame M o s3 := frame_with_clk_par_tly (lor_mono hM rfl) h
  exact frame_ite (frame_setCode (lor_mono hM rfl) (frame_setParState (lor_mono hM rfl) k4)) k4

theorem frame_readyTick {M : Nat} {o s : State} (hM : 1048577 ||| M = M) (h : Frame M o s) :
    Frame M o (State.readyTick s) := by
  unfold State.readyTick
  refine frame_ite h ?_
  extract_lets v1 s2
  have k3 : Frame M o s2 := frame_with_pow (lor_mono hM rfl) h
  exact frame_ite (frame_setReady (lor_mono hM rfl) k3) k3

theorem frame_tickTo {M : Nat} {o s : State} (hM : 1056783 ||| M = M) (h : Frame M o s) {old : Nat} {new : Nat} {frac : Nat} :
    Frame M o (State.tickTo s old new frac) := by
  unfold State.tickTo
  extract_lets v1 s2 s3 s4 v5
  have k6 : Frame M o s2 := frame_readyTick (lor_mono hM rfl) (frame_with_clk (lor_mono hM rfl) h)
  have k7 : Frame M o s3 := frame_ite (frame_sendOwedReports (lor_mono hM rfl) k6) k6
  have k8 : Frame M o s4 := frame_evtDev (lor_mono hM rfl) k7
  exact frame_ite (frame_put (lor_mono hM rfl) k8) k8

theorem frame_idle {M : Nat} {o s : State} (hM : 1056783 ||| M = M) (h : Frame M o s) :
    Frame M o (State.idle s) := by
  unfold State.idle
  exact frame_ite h (frame_tickTo (lor_mono hM rfl) h)

theorem frame_lockState {M : Nat} {o s : State} (hM : 9 ||| M = M) (h : Frame M o s) {e : Int} :
    Frame M o (State.lockState s e) := by
  unfold State.lockState
  extract_lets v1 v2 v3 s4
  have k5 : Frame M o s4 := frame_with_clk (lor_mono hM rfl) h
  clear_value v1 v2 s4
  exact frame_ite (frame_ite (frame_wr (lor_mono hM rfl) k5) k5) (frame_ite (frame_wr (lor_mono hM rfl) k5) (frame_wr (lor_mono hM rfl) k5))

theorem frame_syncPulse {M : Nat} {o s : State} (hM : 524317 ||| M = M) (h : Frame M o s) {stamp : Nat} :
    Frame M o (State.syncPulse s stamp) := by
  unfold State.syncPulse
  extract_lets v1 v2 v3 v4 s5 v6 s7 v8 v9 s10 v11 s12 v13 v14 v15 v16 s17
  have k18 : Frame M o s5 := frame_wr (lor_mono hM rfl) h
  have k19 : Frame M o s7 := frame_wr (lor_mono hM rfl) k18
  have k20 : Frame M o s10 := frame_stepCounter (lor_mono hM rfl) k19
  have k21 : Frame M o s12 := frame_with_clk (lor_mono hM rfl) k20
  have k22 : Frame M o s17 := frame_with_clk (lor_mono hM rfl) k19
  clear_value v1 v2 v3 v4 s5 v6 s7 v8 v9 s10 s12 v13 v14 v15 s17
  exact frame_ite (frame_lockState (lor_mono hM rfl) (frame_setErr (lor_mono hM rfl) (frame_wr (lor_mono hM rfl) k21))) (frame_lockState (lor_mono hM rfl) (frame_wr (lor_mono hM rfl) k22))

theorem frame_syncRole {M : Nat} {o s : State} (hM : 9 ||| M = M) (h : Frame M o s) {old : Nat} :
    Frame M o (State.syncRole s old) := by
  unfold State.syncRole
  extract_lets v1 v2
  clear_value v1
  exact frame_ite h (frame_ite (frame_wr (lor_mono hM rfl) (frame_with_clk (lor_mono hM rfl) h)) (frame_wr (lor_mono hM rfl) (frame_wr (lor_mono hM rfl) (frame_wr (lor_mono hM rfl) h))))

theorem frame_execSyncPulse {M : Nat} {o s : State} (hM : 524317 ||| M = M) (h : Frame M o s) {stamp : Nat} :
    FrameNext M o (execSyncPulse stamp s) := by
  unfold execSyncPulse
  extract_lets s1
  have k2 : Frame M o s1 := frame_begin_ (lor_mono hM rfl) h
  clear_value s1
  exact FrameNext.next (frame_ite (frame_syncPulse (lor_mono hM rfl) k2) k2)

theorem frame_execSyncHoldover {M : Nat} {o s : State} (hM : 5 ||| M = M) (h : Frame M o s) :
    FrameNext M o (execSyncHoldover s) := by
  unfold execSyncHoldover
  extract_lets s1 s2
  have k3 : Frame M o s1 := frame_begin_ (lor_mono hM rfl) h
  have k4 : Frame M o s2 := frame_count (lor_mono hM rfl) (frame_wr (lor_mono hM rfl) k3)
  clear_value s1 s2
  exact FrameNext.next (frame_ite (frame_setErrLog (lor_mono hM rfl) k4) k3)

theorem frame_cntSetWrite {M : Nat} {o s : State} (hM : 524317 ||| M = M) (h : Frame M o s) :
    Frame M o (State.cntSetWrite s) := by
  unfold State.cntSetWrite
  exact frame_ite (frame_badWrite (lor_mono hM rfl) h) (frame_stepCounter (lor_mono hM rfl) h)

theorem frame_cntAlignWrite {M : Nat} {o s : State} (hM : 5 ||| M = M) (h : Frame M o s) :
    Frame M o (State.cntAlignWrite s) := by
  unfold State.cntAlignWrite
  exact frame_ite (frame_badWrite (lor_mono hM rfl) h) (frame_wr (lor_mono hM rfl) h)

theorem frame_execCntSet {M : Nat} {o s : State} (hM : 524317 ||| M = M) (h : Frame M o s) :
    FrameNext M o (execCntSet s) := by
  unfold execCntSet
  exact FrameNext.next (frame_gated (lor_mono hM rfl) (frame_begin_ (lor_mono hM rfl) h) (fun x1 k2 => frame_cntSetWrite (lor_mono hM rfl) k2))

theorem frame_execCntAlign {M : Nat} {o s : State} (hM : 5 ||| M = M) (h : Frame M o s) :
    FrameNext M o (execCntAlign s) := by
  unfold execCntAlign
  exact FrameNext.next (frame_gated (lor_mono hM rfl) (frame_begin_ (lor_mono hM rfl) h) (fun x1 k2 => frame_cntAlignWrite (lor_mono hM rfl) k2))

theorem frame_perStream {M : Nat} {o s : State} (_hM : 0 ||| M = M) (h : Frame M o s) {f : State → Image → Desc → Work → State × Fate} (hf : ∀ x0 x1 x2 x3, Frame M o x0 → Frame1 M o (f x0 x1 x2 x3)) {a2 : Image} {a3 : Nat} {a4 : List Work} :
    Frame1 M o (perStream f s a2 a3 a4) := by
  unfold perStream
  split
  · rename_i y1 e2
    exact Frame1.mk h
  · rename_i y3 y4 e5
    refine frame_foldl1 (Frame1.mk h) ?_
    intro x6 x7 k8
    extract_lets s9
    have k10 : Frame1 M o s9 := hf _ _ _ _ k8.get
    clear_value s9
    exact Frame1.mk (frame_ite k8.get k10.get)

theorem frame_zeroUnwritten {M : Nat} {o s : State} (hM : 133 ||| M = M) (h : Frame M o s) {t : Stream} {l : Live} :
    Frame M o (State.zeroUnwritten s t l) := by
  unfold State.zeroUnwritten
  split
  · rename_i y1 e2
    exact h
  · rename_i y3 y4 y5 e6
    exact frame_foldl h (fun x7 x8 k9 => frame_arrPut (lor_mono hM rfl) k9)

theorem frame_sendSamples {M : Nat} {o s : State} (hM : 8199 ||| M = M) (h : Frame M o s) {t : Stream} {l : Live} :
    Frame M o (State.sendSamples s t l) := by
  unfold State.sendSamples
  split
  · rename_i y1 e2
    exact h
  · rename_i y3 y4 y5 e6
    split
    · rename_i y7 y8 y9 e10
      have k11 : Frame M o y9 := Frame2.of_eq e10 (frame_narrowRead (lor_mono hM rfl) h)
      exact frame_sendUnits (lor_mono hM rfl) k11

theorem frame_toSink {M : Nat} {o s : State} (hM : 143399 ||| M = M) (h : Frame M o s) {m : Image} {t : Stream} {l : Live} {late : Bool} :
    Frame M o (State.toSink s m t l late) := by
  unfold State.toSink
  split
  · rename_i y1 e2
    split
    · rename_i y3 e4
      exact h
    · rename_i y5 y6 y7 e8
      exact frame_resultRecord (lor_mono hM rfl) h
  · rename_i y9 e10
    exact frame_sendSamples (lor_mono hM rfl) h
  · rename_i y11 y12 y13
    refine frame_ite ?_ (frame_ite h (frame_setStream (lor_mono hM rfl) h))
    split
    · rename_i y14 e15
      exact h
    · rename_i y16 y17 y18 e19
      split
      · rename_i y20 y21 y22 e23
        have k24 : Frame M o y22 := Frame2.of_eq e23 (frame_narrowRead (lor_mono hM rfl) h)
        exact frame_sendChunk (lor_mono hM rfl) k24

theorem frame_lateCommit {M : Nat} {o s : State} (hM : 39 ||| M = M) (h : Frame M o s) {e : Nat} :
    Frame M o (State.lateCommit s e) := by
  unfold State.lateCommit
  extract_lets s1
  have k2 : Frame M o s1 := frame_setStream (lor_mono hM rfl) h
  clear_value s1
  exact frame_evtDev (lor_mono hM rfl) (frame_setErr (lor_mono hM rfl) (frame_count (lor_mono hM rfl) k2))

theorem frame_noteCommit {M : Nat} {o s : State} (hM : 32 ||| M = M) (h : Frame M o s) {e : Nat} {l : Live} {stays : Bool} :
    Frame M o (State.noteCommit s e l stays) := by
  unfold State.noteCommit
  exact frame_setStream (lor_mono hM rfl) h

theorem frame_writeState {M : Nat} {o s : State} (hM : 4096 ||| M = M) (h : Frame M o s) {m : Image} {t : Stream} {j : Nat} :
    Frame M o (State.writeState s m t j) := by
  unfold State.writeState
  refine frame_ite h ?_
  split
  · rename_i y1 e2
    exact h
  · rename_i y3 y4 y5 e6
    exact frame_addBuiltIn (lor_mono hM rfl) h

theorem frame_commit {M : Nat} {o s : State} (hM : 931495 ||| M = M) (h : Frame M o s) {image : Nat} {e : Nat} {l : Live} {stays : Bool} :
    Frame M o (State.commit s image e l stays) := by
  unfold State.commit
  split
  · rename_i y1 e2
    exact h
  · rename_i y3 y4 e5
    extract_lets s6 v7 s8
    have k9 : Frame M o s6 := frame_carryAll (lor_mono hM rfl) h
    have k10 : Frame M o s8 := frame_ite (frame_lateCommit (lor_mono hM rfl) k9) k9
    clear_value s6 v7 s8
    split
    · rename_i y11 e12
      exact k9
    · rename_i y13 y14 e15
      extract_lets s16 s17 s18 s19 s20 s21 s22 s23
      have k24 : Frame M o s16 := frame_zeroUnwritten (lor_mono hM rfl) k10
      have k25 : Frame M o s17 := frame_noteCommit (lor_mono hM rfl) k24
      have k26 : Frame M o s18 := frame_ite (frame_lpNarrowPut (lor_mono hM rfl) k25) k25
      have k27 : Frame M o s19 := frame_writeState (lor_mono hM rfl) k26
      have k28 : Frame M o s20 := frame_kvCommit (lor_mono hM rfl) k27
      have k29 : Frame M o s21 := frame_toSink (lor_mono hM rfl) k28
      have k30 : Frame M o s22 := frame_tallyCommit (lor_mono hM rfl) k29
      have k31 : Frame M o s23 := frame_storeEntry (lor_mono hM rfl) (frame_evtDev (lor_mono hM rfl) k30)
      clear_value s16 s17 s18 s19 s20 s21 s22 s23
      exact frame_fillMissing (lor_mono hM rfl) (frame_puntyCommit (lor_mono hM rfl) k31)

theorem frame_writeSet {M : Nat} {o s : State} (hM : 133 ||| M = M) (h : Frame M o s) {m : Image} {i : Nat} {d : Desc} {w : Work} {xs : List (Nat × Nat)} :
    Frame M o (writeSet s m i d w xs) := by
  unfold writeSet
  split
  · rename_i y1 e2
    exact h
  · rename_i y3 y4 e5
    exact frame_regWrite (lor_mono hM rfl) h

theorem frame_setLive {M : Nat} {o s : State} (hM : 32 ||| M = M) (h : Frame M o s) {e : Nat} {j : Nat} {f : Live → Live} :
    Frame M o (State.setLive s e j f) := by
  unfold State.setLive
  extract_lets v1
  clear_value v1
  exact frame_setStream (lor_mono hM rfl) h

theorem frame_noteWritten {M : Nat} {o s : State} (hM : 32 ||| M = M) (h : Frame M o s) {d : Desc} {w : Work} {off : Nat} {n : Nat} :
    Frame M o (noteWritten s d w off n) := by
  unfold noteWritten
  exact frame_ite (frame_setLive (lor_mono hM rfl) h) h

theorem frame_putStep {M : Nat} {o s : State} (hM : 133 ||| M = M) (h : Frame M o s) {m : Image} {d : Desc} {w : Work} {ref : Nat} {bs : List Byte} :
    Frame2 M o (putStep s m d w ref bs) := by
  unfold putStep
  extract_lets v1
  clear_value v1
  exact Frame2.mk (frame_refPut (lor_mono hM rfl) h)

theorem frame_putOut {M : Nat} {o s : State} (hM : 165 ||| M = M) (h : Frame M o s) {m : Image} {d : Desc} {w : Work} {bs : List Byte} :
    Frame M o (putOut s m d w bs) := by
  unfold putOut
  extract_lets s1
  have k2 : Frame2 M o s1 := frame_putStep (lor_mono hM rfl) h
  clear_value s1
  exact frame_noteWritten (lor_mono hM rfl) k2.get

theorem frame_countPrunes {M : Nat} {o s : State} (hM : 3 ||| M = M) (h : Frame M o s) {coreAt : Nat → Nat} {blocks : List Nat} :
    Frame M o (countPrunes s coreAt blocks) := by
  unfold countPrunes
  exact frame_foldl h (fun x1 x2 k3 => frame_evtCount (lor_mono hM rfl) (frame_count (lor_mono hM rfl) k3))

theorem frame_putA8 {M : Nat} {o s : State} (hM : 167 ||| M = M) (h : Frame M o s) {m : Image} {i : Nat} {d : Desc} {w : Work} {gs : List GroupOut} {coreAt : Nat → Nat} :
    Frame M o (putA8 s m i d w gs coreAt) := by
  unfold putA8
  extract_lets v1 s2 s3
  have k4 : Frame M o s2 := by
    unfold s2
    split
    · rename_i y5 y6 e7
      extract_lets v8
      clear_value v8
      exact frame_countPrunes (lor_mono hM rfl) (frame_putOut (lor_mono hM rfl) h)
    · rename_i y9 e10
      exact frame_putOut (lor_mono hM rfl) h
  have k11 : Frame M o s3 := Frame2.get (frame_putStep (lor_mono hM rfl) k4)
  clear_value v1 s2 s3
  exact frame_ite (frame_writeSet (lor_mono hM rfl) k11) k11

theorem frame_emitOut {M : Nat} {o s : State} (hM : 167 ||| M = M) (h : Frame M o s) {m : Image} {i : Nat} {d : Desc} {w : Work} {xs : List Nat} {coreAt : Nat → Nat} :
    Frame1 M o (emitOut s m i d w xs coreAt) := by
  unfold emitOut
  extract_lets v1 v2 v3 v4 s5 v6 s7
  have k8 : Frame M o s5 := frame_ite (frame_refPut (lor_mono hM rfl) h) h
  have k9 : Frame M o s7 := frame_ite k8 (frame_setStream (lor_mono hM rfl) k8)
  clear_value v1 v2 v3 v4 s5 v6 s7
  exact Frame1.ite (Frame1.ite (Frame1.mk k8) (Frame1.ite (Frame1.mk k8) (Frame1.mk (frame_putA8 (lor_mono hM rfl) k9)))) (Frame1.ite (Frame1.mk (frame_putOut (lor_mono hM rfl) h)) (Frame1.mk (frame_putOut (lor_mono hM rfl) h)))

theorem frame_emitZero {M : Nat} {o s : State} (hM : 167 ||| M = M) (h : Frame M o s) {m : Image} {i : Nat} {d : Desc} {w : Work} :
    Frame M o (emitZero s m i d w) := by
  unfold emitZero
  extract_lets v1 v2 s3 v4 v5 v6
  have k7 : Frame M o s3 := frame_setLive (lor_mono hM rfl) h
  clear_value v1 v2 s3 v4 v5 v6
  exact frame_ite (frame_putA8 (lor_mono hM rfl) k7) (frame_ite (frame_putOut (lor_mono hM rfl) k7) (frame_putOut (lor_mono hM rfl) k7))

theorem frame_redoStream {M : Nat} {o s : State} (hM : 167 ||| M = M) (h : Frame M o s) {m : Image} {i : Nat} {d : Desc} {w : Work} {coreAt : Nat → Nat} :
    Frame1 M o (redoStream s m i d w coreAt) := by
  unfold redoStream
  extract_lets v1 s2
  have k3 : Frame M o s2 := frame_setStream (lor_mono hM rfl) h
  clear_value v1 s2
  exact Frame1.ite (Frame1.mk h) (Frame1.mk (frame_putA8 (lor_mono hM rfl) k3))

theorem frame_matrixStream {M : Nat} {o s : State} (hM : 167 ||| M = M) (h : Frame M o s) {i : Nat} {ws : List Work} {m : Image} {d : Desc} {w : Work} :
    Frame1 M o (matrixStream i ws s m d w) := by
  unfold matrixStream
  refine Frame1.ite (Frame1.mk (frame_emitZero (lor_mono hM rfl) h)) ?_
  extract_lets v1 v2
  clear_value v1 v2
  exact Frame1.ite (Frame1.mk h) (frame_emitOut (lor_mono hM rfl) h)

theorem frame_matrixKernel {M : Nat} {o s : State} (hM : 167 ||| M = M) (h : Frame M o s) {a1 : Image} {a2 : Nat} {a3 : List Work} :
    Frame1 M o (matrixKernel s a1 a2 a3) := by
  unfold matrixKernel
  exact frame_perStream (lor_mono hM rfl) h (fun x1 x2 x3 x4 k5 => frame_matrixStream (lor_mono hM rfl) k5)

theorem frame_vectorStream {M : Nat} {o s : State} (hM : 167 ||| M = M) (h : Frame M o s) {i : Nat} {m : Image} {d : Desc} {w : Work} :
    Frame1 M o (vectorStream i s m d w) := by
  unfold vectorStream
  refine Frame1.ite (Frame1.mk (frame_emitZero (lor_mono hM rfl) h)) ?_
  extract_lets v1 v2 v3 v4 v5 v6 v7 v8 v9 v10 v11 v12 v13 v14 v15
  clear_value v1 v2 v3 v4 v5 v6 v7 v8 v9 v10 v11 v12 v13 v14 v15
  exact Frame1.ite (Frame1.mk h) (frame_emitOut (lor_mono hM rfl) h)

theorem frame_vectorKernel {M : Nat} {o s : State} (hM : 167 ||| M = M) (h : Frame M o s) {a1 : Image} {a2 : Nat} {a3 : List Work} :
    Frame1 M o (vectorKernel s a1 a2 a3) := by
  unfold vectorKernel
  exact frame_perStream (lor_mono hM rfl) h (fun x1 x2 x3 x4 k5 => frame_vectorStream (lor_mono hM rfl) k5)

theorem frame_gateStream {M : Nat} {o s : State} (hM : 165 ||| M = M) (h : Frame M o s) {m : Image} {d : Desc} {w : Work} :
    Frame1 M o (gateStream s m d w) := by
  unfold gateStream
  extract_lets v1 v2 v3 v4 s5
  have k6 : ∀ (x7 : State) (x8 : Bool), Frame M o x7 → Frame M o (v4 x7 x8) := fun x7 x8 k9 => frame_setLive (lor_mono hM rfl) k9
  have k10 : Frame M o s5 := frame_touchSec (lor_mono hM rfl) h
  clear_value v1 v2 v3 v4 s5
  refine Frame1.ite (Frame1.ite (Frame1.mk h) (Frame1.mk (k6 _ _ h))) ?_
  split
  · rename_i y11 e12
    exact Frame1.mk k10
  · rename_i y13 y14 y15 e16
    extract_lets s17 v18 v19 v20
    have k21 : Frame M o s17 := frame_ite (frame_putSecs (lor_mono hM rfl) k10) k10
    clear_value s17 v18 v19 v20
    exact Frame1.ite (Frame1.mk k21) (Frame1.mk (k6 _ _ (frame_arrPut (lor_mono hM rfl) k21)))

theorem frame_gateKernel {M : Nat} {o s : State} (hM : 165 ||| M = M) (h : Frame M o s) {a1 : Image} {a2 : Nat} {a3 : List Work} :
    Frame1 M o (gateKernel s a1 a2 a3) := by
  unfold gateKernel
  exact frame_perStream (lor_mono hM rfl) h (fun x1 x2 x3 x4 k5 => frame_gateStream (lor_mono hM rfl) k5)

theorem frame_routingKernel {M : Nat} {o s : State} (hM : 167 ||| M = M) (h : Frame M o s) {a1 : Image} {a2 : Nat} {a3 : List Work} :
    Frame1 M o (routingKernel s a1 a2 a3) := by
  unfold routingKernel
  split
  · rename_i y1 e2
    exact Frame1.mk h
  · rename_i y3 y4 e5
    extract_lets v6 v7 s8
    have k9 : ∀ (x10 : State × List Nat × List (Nat × Fate)) (x11 : Work), Frame1 M o x10 → Frame1 M o (v7 x10 x11) := by
      intro x10 x11 k12
      unfold v7
      extract_lets s13 v14 v15 s16 s17
      have k18 : Frame M o s13 := k12.get
      have k19 : Frame M o s16 := frame_putOut (lor_mono hM rfl) k18
      have k20 : Frame M o s17 := by
        refine frame_foldl k19 ?_
        intro x21 x22 k23
        refine frame_ite k23 ?_
        extract_lets v24
        clear_value v24
        exact frame_evtCount (lor_mono hM rfl) (frame_count (lor_mono hM rfl) k23)
      clear_value s13 v14 v15 s16 s17
      exact Frame1.ite (Frame1.mk (frame_putOut (lor_mono hM rfl) (frame_setLive (lor_mono hM rfl) k18))) (Frame1.ite (Frame1.mk k18) (Frame1.mk k20))
    have k25 : Frame1 M o s8 := frame_foldl1 (Frame1.mk h) (fun x26 x27 k28 => k9 _ _ k28)
    clear_value v6 v7 s8
    exact Frame1.mk (frame_setImage (lor_mono hM rfl) k25.get)

theorem frame_conversionStream {M : Nat} {o s : State} (hM : 167 ||| M = M) (h : Frame M o s) {i : Nat} {m : Image} {d : Desc} {w : Work} :
    Frame1 M o (conversionStream i s m d w) := by
  unfold conversionStream
  extract_lets v1 v2 v3 v4 v5 v6 v7 v8 v9 v10
  clear_value v1 v2 v3 v4 v5 v6 v7 v8 v9 v10
  exact Frame1.ite (Frame1.mk h) (frame_emitOut (lor_mono hM rfl) h)

theorem frame_conversionKernel {M : Nat} {o s : State} (hM : 167 ||| M = M) (h : Frame M o s) {a1 : Image} {a2 : Nat} {a3 : List Work} :
    Frame1 M o (conversionKernel s a1 a2 a3) := by
  unfold conversionKernel
  exact frame_perStream (lor_mono hM rfl) h (fun x1 x2 x3 x4 k5 => frame_conversionStream (lor_mono hM rfl) k5)

end Sys2Proof.Machine
end

