-- ==== Sys2Proof/Laws/FrameRecur.lean ====
section
/-! SUPPORT. The functions of Machine/Recur.lean, Machine/Attn.lean, Machine/KvOps.lean, Machine/Spectral.lean, Machine/Collective.lean change only the parts of the state named by a mask. -/
namespace Sys2Proof.Machine
open Sys2Proof

set_option Elab.async false

theorem frame_putSec {M : Nat} {o s : State} (hM : 135 ||| M = M) (h : Frame M o s) {a : Nat} {sec : Nat} {x : Sec} {lg : SecLog} {coreAt : Nat → Nat} :
    Frame M o (State.putSec s a sec x lg coreAt) := by
  unfold State.putSec
  extract_lets s1 s2 s3 s4
  have k5 : Frame M o s1 := frame_arrPut (lor_mono hM rfl) h
  have k6 : Frame M o s2 := frame_arrPut (lor_mono hM rfl) k5
  have k7 : Frame M o s3 := frame_ite k6 (frame_arrPut (lor_mono hM rfl) k6)
  have k8 : Frame M o s4 := by
    unfold s4
    split
    · rename_i y9 e10
      exact k7
    · rename_i y11 y12 e13
      exact frame_arrPut (lor_mono hM rfl) k7
  clear_value s1 s2 s3 s4
  exact frame_foldl k8 (fun x14 x15 k16 => frame_evtCount (lor_mono hM rfl) k16)

theorem frame_leaveState {M : Nat} {o s : State} (hM : 165 ||| M = M) (h : Frame M o s) {m : Image} {d : Desc} {w : Work} {secs : List Nat} :
    Frame M o (leaveState s m d w secs) := by
  unfold leaveState
  extract_lets s1 v2
  have k3 : Frame M o s1 := frame_foldl h (fun x4 x5 k6 => frame_touchSec (lor_mono hM rfl) k6)
  clear_value s1 v2
  split
  · rename_i y7 e8
    exact k3
  · rename_i y9 y10 y11 e12
    split
    · rename_i y13
      exact k3
    · rename_i y14 y15
      exact frame_putSecs (lor_mono hM rfl) k3

theorem frame_gatedCell {M : Nat} {o s : State} (hM : 167 ||| M = M) (h : Frame M o s) {i : Nat} {m : Image} {d : Desc} {w : Work} {a : Nat} {t : Nat} :
    Frame1 M o (gatedCell i s m d w a t) := by
  unfold gatedCell
  extract_lets v1 v2 v3 v4 v5 v6 v7 v8 v9 v10 v11 v12
  clear_value v4 v5 v6 v7 v8 v9 v10 v11 v12
  exact Frame1.ite (Frame1.mk h) (Frame1.ite (frame_emitOut (lor_mono hM rfl) (frame_putSec (lor_mono hM rfl) (frame_putSec (lor_mono hM rfl) h))) (frame_emitOut (lor_mono hM rfl) (frame_putSec (lor_mono hM rfl) h)))

theorem frame_elementCell {M : Nat} {o s : State} (hM : 167 ||| M = M) (h : Frame M o s) {i : Nat} {m : Image} {d : Desc} {w : Work} {a : Nat} {t : Nat} :
    Frame1 M o (elementCell i s m d w a t) := by
  unfold elementCell
  extract_lets v1 v2 v3 v4 v5 v6 v7 v8 v9 s10
  have k11 : Frame M o s10 := frame_putSec (lor_mono hM rfl) h
  clear_value v1 v2 v3 v4 v5 v6 v7 v8 v9 s10
  exact Frame1.ite (Frame1.mk h) (frame_emitOut (lor_mono hM rfl) k11)

theorem frame_recurrenceStream {M : Nat} {o s : State} (hM : 167 ||| M = M) (h : Frame M o s) {i : Nat} {m : Image} {d : Desc} {w : Work} :
    Frame1 M o (recurrenceStream i s m d w) := by
  unfold recurrenceStream
  extract_lets v1 v2 v3 s4
  have k5 : Frame M o s4 := frame_foldl h (fun x6 x7 k8 => frame_touchSec (lor_mono hM rfl) k8)
  clear_value v1 v2 v3 s4
  refine Frame1.ite (Frame1.mk (frame_emitZero (lor_mono hM rfl) (frame_leaveState (lor_mono hM rfl) h))) ?_
  split
  · rename_i y9 e10
    exact Frame1.mk k5
  · rename_i y11 y12 y13 e14
    exact Frame1.ite (frame_gatedCell (lor_mono hM rfl) k5) (frame_elementCell (lor_mono hM rfl) k5)

theorem frame_recurrenceKernel {M : Nat} {o s : State} (hM : 167 ||| M = M) (h : Frame M o s) {a1 : Image} {a2 : Nat} {a3 : List Work} :
    Frame1 M o (recurrenceKernel s a1 a2 a3) := by
  unfold recurrenceKernel
  exact frame_perStream (lor_mono hM rfl) h (fun x1 x2 x3 x4 k5 => frame_recurrenceStream (lor_mono hM rfl) k5)

theorem frame_scanStream {M : Nat} {o s : State} (hM : 167 ||| M = M) (h : Frame M o s) {i : Nat} {m : Image} {d : Desc} {w : Work} :
    Frame1 M o (scanStream i s m d w) := by
  unfold scanStream
  extract_lets v1 v2 v3 v4 v5 s6 v7 v8 v9 v10 v11 v12 v13 v14 v15
  have k16 : Frame M o s6 := frame_touchSec (lor_mono hM rfl) h
  clear_value v1 v2 v3 v4 v5 s6 v7 v8 v9 v10 v11 v12 v13 v14 v15
  refine Frame1.ite (Frame1.mk (frame_emitZero (lor_mono hM rfl) (frame_leaveState (lor_mono hM rfl) h))) ?_
  split
  · rename_i y17 e18
    exact Frame1.mk k16
  · rename_i y19 y20 y21 e22
    extract_lets v23 v24 v25 v26 v27 v28 v29 v30 v31 s32
    have k33 : Frame M o s32 := frame_putSec (lor_mono hM rfl) k16
    clear_value v23 v24 v25 v26 v27 v28 v29 v30 v31 s32
    exact Frame1.ite (Frame1.mk k16) (frame_emitOut (lor_mono hM rfl) k33)

theorem frame_scanKernel {M : Nat} {o s : State} (hM : 167 ||| M = M) (h : Frame M o s) {a1 : Image} {a2 : Nat} {a3 : List Work} :
    Frame1 M o (scanKernel s a1 a2 a3) := by
  unfold scanKernel
  exact frame_perStream (lor_mono hM rfl) h (fun x1 x2 x3 x4 k5 => frame_scanStream (lor_mono hM rfl) k5)

theorem frame_countRow {M : Nat} {o s : State} (hM : 3 ||| M = M) (h : Frame M o s) {r : Row} {core : Nat} :
    Frame M o (countRow s r core) := by
  unfold countRow
  exact frame_ite (frame_count (lor_mono hM rfl) h) (frame_ite h (frame_evtCount (lor_mono hM rfl) (frame_count (lor_mono hM rfl) h)))

theorem frame_finishRow {M : Nat} {o s : State} (hM : 3 ||| M = M) (h : Frame M o s) {path : List Nat} {d : Desc} {r : Row} {isRecord : Bool} {incoming : Option Row} {core : Nat} :
    Frame1 M o (finishRow s path d r isRecord incoming core) := by
  unfold finishRow
  extract_lets v1 v2 v3 v4 v5
  clear_value v1 v2 v3 v4 v5
  exact Frame1.ite (Frame1.mk h) (Frame1.mk (frame_countRow (lor_mono hM rfl) h))

theorem frame_putParts {M : Nat} {o s : State} (_hM : 0 ||| M = M) (h : Frame M o s) {put : State → Nat → List Byte → State} (hput : ∀ x0 x1 x2, Frame M o x0 → Frame M o (put x0 x1 x2)) {bs : List Byte} {parts : List (Nat × Nat)} :
    Frame M o (putParts s put bs parts) := by
  unfold putParts
  exact frame_foldl h (fun x1 x2 k3 => hput _ _ _ k3)

theorem frame_putRecords {M : Nat} {o s : State} (hM : 165 ||| M = M) (h : Frame M o s) {m : Image} {d : Desc} {w : Work} {bs : List Byte} {parts : List (Nat × Nat)} :
    Frame M o (putRecords s m d w bs parts) := by
  unfold putRecords
  split
  · rename_i y1 e2
    exact h
  · rename_i y3 y4 e5
    exact frame_putParts (lor_mono hM rfl) h (fun x6 x7 x8 k9 => frame_noteWritten (lor_mono hM rfl) (frame_regWrite (lor_mono hM rfl) k9))

theorem frame_attnEmit {M : Nat} {o s : State} (hM : 165 ||| M = M) (h : Frame M o s) {m : Image} {d : Desc} {w : Work} {rows : List (Option RowOut)} {was : List Nat} {head : Bool} :
    Frame M o (attnEmit s m d w rows was head) := by
  unfold attnEmit
  extract_lets v1 v2 v3 v4 v5 s6 v7 v8 v9 v10 v11 s12 v13 v14 v15 v16
  have k17 : Frame M o s6 := frame_ite (frame_putParts (lor_mono hM rfl) h (fun x18 x19 x20 k21 => frame_refPut (lor_mono hM rfl) k21)) h
  have k22 : ∀ (x23 : State) (x24 : Nat) (x25 : List Byte), Frame M o x23 → Frame M o (v8 x23 x24 x25) := fun x23 x24 x25 k26 => frame_noteWritten (lor_mono hM rfl) (frame_refPut (lor_mono hM rfl) k26)
  have k27 : Frame M o s12 := frame_putParts (lor_mono hM rfl) k17 k22
  clear_value v1 v2 v3 v4 v5 s6 v7 v8 v9 v10 v11 s12 v13 v14 v15 v16
  refine frame_ite (frame_putRecords (lor_mono hM rfl) k17) ?_
  exact frame_ite (frame_putParts (lor_mono hM rfl) k27 (fun x28 x29 x30 k31 => frame_refPut (lor_mono hM rfl) k31)) (frame_ite (frame_putParts (lor_mono hM rfl) k17 k22) (frame_putParts (lor_mono hM rfl) k17 k22))

theorem frame_attnLeft {M : Nat} {o s : State} (hM : 167 ||| M = M) (h : Frame M o s) {m : Image} {i : Nat} {d : Desc} {w : Work} :
    Frame M o (attnLeft s m i d w) := by
  unfold attnLeft
  extract_lets v1 s2 v3 s4
  have k5 : Frame M o s2 := frame_setLive (lor_mono hM rfl) h
  have k6 : Frame M o s4 := frame_ite (frame_refPut (lor_mono hM rfl) h) h
  clear_value v1 s2 v3 s4
  exact frame_ite (frame_putRecords (lor_mono hM rfl) k5) (frame_emitZero (lor_mono hM rfl) k6)

theorem frame_attnRows {M : Nat} {o s : State} (hM : 3 ||| M = M) (h : Frame M o s) {m : Image} {i : Nat} {d : Desc} {w : Work} {q : ABlock} {incoming : List Byte} {first : Nat} :
    Frame1 M o (attnRows s m i d w q incoming first) := by
  unfold attnRows
  extract_lets v1 v2 v3 v4 v5 v6 s7
  have k8 : ∀ (x9 : State × Nat × List (Nat × Nat × RowOut) × List ((Nat × Nat × Nat) × Row)) (x10 : Nat × Nat), Frame1 M o x9 → Frame1 M o (v6 x9 x10) := by
    intro x9 x10 k11
    unfold v6
    split
    · rename_i y12 y13 y14 y15 y16
      split
      · rename_i y17 y18 y19
        extract_lets v20 s21 v22 v23 v24 v25 v26 v27 s28 v29
        have k30 : Frame M o s21 := frame_ite (frame_count (lor_mono hM rfl) k11.get) k11.get
        have k31 : Frame1 M o s28 := by
          refine frame_foldl1 (Frame1.mk k30) ?_
          intro x32 x33 k34
          extract_lets s35
          have k36 : Frame1 M o s35 := frame_finishRow (lor_mono hM rfl) k34.get
          clear_value s35
          exact Frame1.mk k36.get
        clear_value v20 s21 v22 v23 v24 v25 v26 v27 s28 v29
        exact Frame1.ite (Frame1.mk k31.get) (Frame1.mk k30)
  have k37 : Frame1 M o s7 := frame_foldl1 (Frame1.mk h) (fun x38 x39 k40 => k8 _ _ k40)
  clear_value v1 v2 v3 v4 v5 v6 s7
  exact Frame1.mk k37.get

theorem frame_attnOne {M : Nat} {o s : State} (hM : 167 ||| M = M) (h : Frame M o s) {m : Image} {i : Nat} {d : Desc} {before : List Work} {base : Nat} {w : Work} :
    Frame1 M o (attnOne s m i d before base w) := by
  unfold attnOne
  refine Frame1.ite (Frame1.mk (frame_attnLeft (lor_mono hM rfl) h)) ?_
  extract_lets v1 v2 v3 v4 v5 v6 v7 v8 s9 s10 s11 v12 s13 v14 s15
  have k16 : Frame M o s9 := frame_count (lor_mono hM rfl) h
  have k17 : Frame1 M o s10 := frame_attnRows (lor_mono hM rfl) k16
  have k18 : Frame M o s11 := k17.get
  have k19 : Frame M o s13 := frame_attnEmit (lor_mono hM rfl) k18
  have k20 : Frame M o s15 := by
    unfold s15
    split
    · rename_i y21 e22
      exact k19
    · rename_i y23 y24 e25
      refine frame_foldl k19 ?_
      intro x26 x27 k28
      split
      · rename_i y29 e30
        exact k28
      · rename_i y31 y32 e33
        exact frame_regWrite (lor_mono hM rfl) k28
  clear_value v1 v2 v3 v4 v5 v6 v7 v8 s9 s10 s11 v12 s13 v14 s15
  exact Frame1.ite (Frame1.mk h) (Frame1.ite (Frame1.mk k19) (Frame1.mk k20))

theorem frame_attentionKernel {M : Nat} {o s : State} (hM : 167 ||| M = M) (h : Frame M o s) {a1 : Image} {a2 : Nat} {a3 : List Work} :
    Frame1 M o (attentionKernel s a1 a2 a3) := by
  unfold attentionKernel
  split
  · rename_i y1 e2
    exact Frame1.mk h
  · rename_i y3 y4 e5
    extract_lets s6
    have k7 : Frame1 M o s6 := by
      refine frame_foldl1 (Frame1.mk h) ?_
      intro x8 x9 k10
      extract_lets s11
      have k12 : Frame1 M o s11 := frame_attnOne (lor_mono hM rfl) k10.get
      clear_value s11
      exact Frame1.mk (frame_ite k10.get k12.get)
    clear_value s6
    exact Frame1.mk k7.get

theorem frame_mergeStream {M : Nat} {o s : State} (hM : 167 ||| M = M) (h : Frame M o s) {i : Nat} {info : List Nat} {m : Image} {d : Desc} {w : Work} :
    Frame1 M o (mergeStream i info s m d w) := by
  unfold mergeStream
  split
  · rename_i y1 e2
    exact Frame1.mk h
  · rename_i y3 y4 y5 y6 y7 y8 e9
    extract_lets v10 v11 v12 v13 v14 v15 v16 s17
    have k18 : Frame1 M o s17 := by
      refine frame_foldl1 (Frame1.mk h) ?_
      intro x19 x20 k21
      extract_lets v22 v23 v24 s25
      have k26 : Frame1 M o s25 := frame_finishRow (lor_mono hM rfl) k21.get
      clear_value v22 v23 v24 s25
      exact Frame1.mk k26.get
    clear_value v10 v11 v12 v13 v14 v15 v16 s17
    exact Frame1.ite (Frame1.mk h) (Frame1.mk (frame_attnEmit (lor_mono hM rfl) k18.get))

theorem frame_kvLeft {M : Nat} {o s : State} (hM : 32 ||| M = M) (h : Frame M o s) {w : Work} :
    Frame M o (kvLeft s w) := by
  unfold kvLeft
  exact frame_setLive (lor_mono hM rfl) h

theorem frame_appendStream {M : Nat} {o s : State} (hM : 4261 ||| M = M) (h : Frame M o s) {m : Image} {d : Desc} {w : Work} :
    Frame1 M o (appendStream s m d w) := by
  unfold appendStream
  refine Frame1.ite (Frame1.mk (frame_kvLeft (lor_mono hM rfl) h)) ?_
  extract_lets v1 v2 v3 v4 v5
  clear_value v1 v2 v3 v4 v5
  refine Frame1.ite (Frame1.mk h) ?_
  split
  · rename_i y6 e7
    exact Frame1.mk h
  · rename_i y8 y9 e10
    have k11 : Frame M o y9 := FrameOpt.of_eq e10 (frame_kvAppendAll (lor_mono hM rfl) h)
    exact Frame1.mk k11

theorem frame_appendKernel {M : Nat} {o s : State} (hM : 4261 ||| M = M) (h : Frame M o s) {a1 : Image} {a2 : Nat} {a3 : List Work} :
    Frame1 M o (appendKernel s a1 a2 a3) := by
  unfold appendKernel
  exact frame_perStream (lor_mono hM rfl) h (fun x1 x2 x3 x4 k5 => frame_appendStream (lor_mono hM rfl) k5)

theorem frame_stageKernel {M : Nat} {o s : State} (hM : 4261 ||| M = M) (h : Frame M o s) {a1 : Image} {a2 : Nat} {a3 : List Work} :
    Frame1 M o (stageKernel s a1 a2 a3) := by
  unfold stageKernel
  split
  · rename_i y1 e2
    exact Frame1.mk h
  · rename_i y3 y4 e5
    extract_lets s6 s7 s8
    have k9 : Frame M o s6 := frame_foldl h (fun x10 x11 k12 => frame_kvLeft (lor_mono hM rfl) k12)
    have k13 : Frame1 M o s7 := frame_kvStage (lor_mono hM rfl) k9
    have k14 : Frame M o s8 := by
      unfold s8
      split
      · rename_i y15 e16
        exact k13.get
      · rename_i y17 y18 e19
        exact frame_foldl k13.get (fun x20 x21 k22 => frame_regWrite (lor_mono hM rfl) k22)
    clear_value s6 s7 s8
    exact Frame1.mk k14

theorem frame_restoreStream {M : Nat} {o s : State} (hM : 165 ||| M = M) (h : Frame M o s) {m : Image} {d : Desc} {w : Work} :
    Frame1 M o (restoreStream s m d w) := by
  unfold restoreStream
  refine Frame1.ite (Frame1.mk (frame_kvLeft (lor_mono hM rfl) h)) ?_
  extract_lets v1 v2 v3
  clear_value v1 v2 v3
  exact Frame1.ite (Frame1.mk h) (Frame1.mk (frame_kvRestore (lor_mono hM rfl) h))

theorem frame_restoreKernel {M : Nat} {o s : State} (hM : 165 ||| M = M) (h : Frame M o s) {a1 : Image} {a2 : Nat} {a3 : List Work} :
    Frame1 M o (restoreKernel s a1 a2 a3) := by
  unfold restoreKernel
  exact frame_perStream (lor_mono hM rfl) h (fun x1 x2 x3 x4 k5 => frame_restoreStream (lor_mono hM rfl) k5)

theorem frame_putHistory {M : Nat} {o s : State} (hM : 133 ||| M = M) (h : Frame M o s) {d : Desc} {w : Work} {x : Maps} :
    Frame M o (putHistory s d w x) := by
  unfold putHistory
  refine frame_ite h ?_
  extract_lets v1 v2 v3
  clear_value v1 v2 v3
  exact frame_arrPut (lor_mono hM rfl) h

theorem frame_emitMap {M : Nat} {o s : State} (hM : 167 ||| M = M) (h : Frame M o s) {m : Image} {i : Nat} {d : Desc} {w : Work} {xs : List Nat} :
    Frame1 M o (emitMap s m i d w xs) := by
  unfold emitMap
  extract_lets v1
  clear_value v1
  exact Frame1.ite (Frame1.mk (frame_putOut (lor_mono hM rfl) h)) (frame_emitOut (lor_mono hM rfl) h)

theorem frame_leftMap {M : Nat} {o s : State} (hM : 167 ||| M = M) (h : Frame M o s) {m : Image} {i : Nat} {d : Desc} {w : Work} :
    Frame M o (leftMap s m i d w) := by
  unfold leftMap
  extract_lets s1
  have k2 : Frame M o s1 := frame_ite (frame_leaveState (lor_mono hM rfl) h) h
  clear_value s1
  exact frame_ite (Frame1.get (frame_emitMap (lor_mono hM rfl) (frame_setLive (lor_mono hM rfl) k2))) (frame_emitZero (lor_mono hM rfl) k2)

theorem frame_convStream {M : Nat} {o s : State} (hM : 167 ||| M = M) (h : Frame M o s) {i : Nat} {m : Image} {d : Desc} {w : Work} :
    Frame1 M o (convStream i s m d w) := by
  unfold convStream
  refine Frame1.ite (Frame1.mk (frame_leftMap (lor_mono hM rfl) h)) ?_
  extract_lets s1 v2 v3 v4 v5 v6 v7 v8 v9
  have k10 : Frame M o s1 := frame_ite (frame_touchSec (lor_mono hM rfl) h) h
  clear_value s1 v2 v3 v4 v5 v6 v7 v8 v9
  exact Frame1.ite (Frame1.mk k10) (frame_emitMap (lor_mono hM rfl) (frame_putHistory (lor_mono hM rfl) k10))

theorem frame_convKernel {M : Nat} {o s : State} (hM : 167 ||| M = M) (h : Frame M o s) {a1 : Image} {a2 : Nat} {a3 : List Work} :
    Frame1 M o (convKernel s a1 a2 a3) := by
  unfold convKernel
  exact frame_perStream (lor_mono hM rfl) h (fun x1 x2 x3 x4 k5 => frame_convStream (lor_mono hM rfl) k5)

theorem frame_poolStream {M : Nat} {o s : State} (hM : 167 ||| M = M) (h : Frame M o s) {i : Nat} {m : Image} {d : Desc} {w : Work} :
    Frame1 M o (poolStream i s m d w) := by
  unfold poolStream
  refine Frame1.ite (Frame1.mk (frame_leftMap (lor_mono hM rfl) h)) ?_
  extract_lets s1 v2 v3 s4
  have k5 : Frame M o s1 := frame_ite (frame_touchSec (lor_mono hM rfl) h) h
  have k6 : Frame M o s4 := frame_count (lor_mono hM rfl) k5
  clear_value s1 v2 v3 s4
  exact Frame1.ite (Frame1.mk k5) (frame_emitMap (lor_mono hM rfl) (frame_putHistory (lor_mono hM rfl) k6))

theorem frame_poolKernel {M : Nat} {o s : State} (hM : 167 ||| M = M) (h : Frame M o s) {a1 : Image} {a2 : Nat} {a3 : List Work} :
    Frame1 M o (poolKernel s a1 a2 a3) := by
  unfold poolKernel
  exact frame_perStream (lor_mono hM rfl) h (fun x1 x2 x3 x4 k5 => frame_poolStream (lor_mono hM rfl) k5)

theorem frame_eventStream {M : Nat} {o s : State} (hM : 165 ||| M = M) (h : Frame M o s) {m : Image} {d : Desc} {w : Work} :
    Frame1 M o (eventStream s m d w) := by
  unfold eventStream
  refine Frame1.ite (Frame1.mk (frame_putOut (lor_mono hM rfl) (frame_setLive (lor_mono hM rfl) h))) ?_
  extract_lets v1 v2 v3 v4 v5 v6 v7 s8 v9 s10
  have k11 : Frame M o s8 := frame_count (lor_mono hM rfl) h
  have k12 : Frame M o s10 := frame_ite k11 (frame_count (lor_mono hM rfl) k11)
  clear_value v1 v2 v3 v4 v5 v6 v7 s8 v9 s10
  exact Frame1.ite (Frame1.mk h) (Frame1.mk (frame_putOut (lor_mono hM rfl) k12))

theorem frame_eventKernel {M : Nat} {o s : State} (hM : 165 ||| M = M) (h : Frame M o s) {a1 : Image} {a2 : Nat} {a3 : List Work} :
    Frame1 M o (eventKernel s a1 a2 a3) := by
  unfold eventKernel
  exact frame_perStream (lor_mono hM rfl) h (fun x1 x2 x3 x4 k5 => frame_eventStream (lor_mono hM rfl) k5)

theorem frame_setRound {M : Nat} {o s : State} (hM : 32 ||| M = M) (h : Frame M o s) {p : Round → Bool} {f : Round → Round} :
    Frame M o (State.setRound s p f) := by
  unfold State.setRound
  exact frame_with_gaf (lor_mono hM rfl) h

theorem frame_checkRound {M : Nat} {o s : State} (hM : 32 ||| M = M) (h : Frame M o s) {image : Nat} {coll : Nat} {entry : Nat} {chunk : Nat} :
    Frame M o (State.checkRound s image coll entry chunk) := by
  unfold State.checkRound
  split
  · rename_i y1 y2 y3 y4 e5 e6
    split
    · rename_i y7 e8
      exact h
    · rename_i y9 y10 e11
      extract_lets v12 v13
      exact frame_ite (frame_setRound (lor_mono hM rfl) h) h
  · rename_i y14 y15 y16
    exact h

theorem frame_applyUnit {M : Nat} {o s : State} (hM : 167 ||| M = M) (h : Frame M o s) {r : Round} {g : Msg} :
    Frame M o (State.applyUnit s r g) := by
  unfold State.applyUnit
  split
  · rename_i y1 y2 y3 y4 e5 e6
    split
    · rename_i y7 e8
      exact h
    · rename_i y9 y10 e11
      extract_lets v12 v13 v14 v15 v16 s17 s18
      have k19 : Frame M o s17 := by
        refine frame_ite h ?_
        split
        · rename_i y20 e21
          exact h
        · rename_i y22 y23 e24
          extract_lets s25
          have k26 : Frame M o s25 := frame_ite (Frame2.get (frame_spadAtomic (lor_mono hM rfl) h)) (frame_narrowWrite (lor_mono hM rfl) h)
          clear_value s25
          exact frame_ite (frame_poisonSpad (lor_mono hM rfl) k26) k26
      have k27 : Frame M o s18 := frame_setRound (lor_mono hM rfl) k19
      clear_value v12 v13 v14 v15 v16 s17 s18
      exact frame_ite h (frame_checkRound (lor_mono hM rfl) k27)
  · rename_i y28 y29 y30
    exact h

theorem frame_oweCredit {M : Nat} {o s : State} (hM : 8192 ||| M = M) (h : Frame M o s) {p : Nat} {vc : Nat} :
    Frame M o (State.oweCredit s p vc) := by
  unfold State.oweCredit
  exact frame_setPort (lor_mono hM rfl) h

theorem frame_releaseHeld {M : Nat} {o s : State} (hM : 8359 ||| M = M) (h : Frame M o s) :
    Frame M o (State.releaseHeld s) := by
  unfold State.releaseHeld
  refine frame_foldl h ?_
  intro x1 x2 k3
  split
  · rename_i y4 e5
    exact k3
  · rename_i y6 y7 e8
    extract_lets v9 s10
    have k11 : Frame M o s10 := frame_with_gaf (lor_mono hM rfl) k3
    clear_value s10
    exact frame_oweCredit (lor_mono hM rfl) (frame_applyUnit (lor_mono hM rfl) k11)

theorem frame_openRound {M : Nat} {o s : State} (hM : 8231 ||| M = M) (h : Frame M o s) {m : Image} {i : Nat} {d : Desc} {w : Work} :
    Frame M o (State.openRound s m i d w) := by
  unfold State.openRound
  extract_lets v1 v2 v3 v4 s5 v6 s7
  have k8 : Frame M o s5 := frame_with_gaf (lor_mono hM rfl) h
  have k9 : Frame M o s7 := by
    refine frame_foldl k8 ?_
    intro x10 x11 k12
    refine frame_ite (frame_getD (frame_sendMsg (lor_mono hM rfl) k12) k12) ?_
    extract_lets v13
    clear_value v13
    refine frame_foldl k12 ?_
    intro x14 x15 k16
    split
    · rename_i y17 e18
      exact k16
    · rename_i y19 y20 e21
      extract_lets v22 s23
      have k24 : Frame2 M o s23 := frame_narrowRead (lor_mono hM rfl) k16
      clear_value v22 s23
      exact frame_getD (frame_sendMsg (lor_mono hM rfl) k24.get) k24.get
  clear_value v1 v2 v3 s5 v6 s7
  exact frame_checkRound (lor_mono hM rfl) k9

theorem frame_collectiveStream {M : Nat} {o s : State} (hM : 8359 ||| M = M) (h : Frame M o s) {i : Nat} {m : Image} {d : Desc} {w : Work} :
    Frame1 M o (collectiveStream i s m d w) := by
  unfold collectiveStream
  extract_lets v1 v2 v3 v4 s5 v6 v7 s8 s9
  have k10 : Frame M o s5 := frame_ite (frame_setLive (lor_mono hM rfl) h) h
  have k11 : Frame M o s8 := by
    refine frame_ite k10 ?_
    split
    · rename_i y12 e13
      exact k10
    · rename_i y14 y15 e16
      exact frame_arrPut (lor_mono hM rfl) k10
  have k17 : Frame M o s9 := by
    refine frame_ite k11 ?_
    refine frame_foldl k11 ?_
    intro x18 x19 k20
    split
    · rename_i y21 e22
      exact k20
    · rename_i y23 y24 e25
      exact frame_arrPut (lor_mono hM rfl) k20
  clear_value v1 v2 v3 v4 s5 v6 v7 s8 s9
  exact Frame1.ite (Frame1.mk h) (Frame1.ite (Frame1.mk h) (Frame1.mk (frame_releaseHeld (lor_mono hM rfl) (frame_openRound (lor_mono hM rfl) k17))))

theorem frame_rotationDone {M : Nat} {o s : State} (hM : 8224 ||| M = M) (h : Frame M o s) {image : Nat} {e : Nat} :
    Frame M o (State.rotationDone s image e) := by
  unfold State.rotationDone
  split
  · rename_i y1 e2
    exact h
  · rename_i y3 y4 e5
    extract_lets s6 v7
    have k8 : Frame M o s6 := frame_setRound (lor_mono hM rfl) h
    clear_value s6 v7
    exact frame_getD (frame_sendMsg (lor_mono hM rfl) k8) k8

theorem frame_rotationKernel {M : Nat} {o s : State} (hM : 12327 ||| M = M) (h : Frame M o s) {a1 : Image} {a2 : Nat} {a3 : List Work} :
    Frame1 M o (rotationKernel s a1 a2 a3) := by
  unfold rotationKernel
  split
  · rename_i y1 e2
    exact Frame1.mk h
  · rename_i y3 y4 e5
    extract_lets v6 v7 v8 v9 v10 v11 v12 v13 v14 v15 v16 v17 v18 v19 v20 v21 s22 v23 s24 s25
    have k26 : Frame M o s22 := frame_setImage (lor_mono hM rfl) h
    have k27 : Frame M o s24 := by
      refine frame_foldl k26 ?_
      intro x28 x29 k30
      extract_lets v31 v32 s33
      have k34 : Frame M o s33 := frame_openRound (lor_mono hM rfl) k30
      clear_value v31 v32 s33
      exact frame_ite (frame_rotationDone (lor_mono hM rfl) k34) (frame_addBuiltIn (lor_mono hM rfl) k34)
    have k35 : Frame M o s25 := frame_foldl k27 (fun x36 x37 k38 => frame_kvLeft (lor_mono hM rfl) k38)
    clear_value v6 v7 v8 v9 v10 v11 v12 v13 v14 v15 v16 v17 v18 v19 v20 v21 s22 v23 s24 s25
    exact Frame1.mk k35

theorem frame_collectiveKernel {M : Nat} {o s : State} (hM : 8359 ||| M = M) (h : Frame M o s) {a1 : Image} {a2 : Nat} {a3 : List Work} :
    Frame1 M o (collectiveKernel s a1 a2 a3) := by
  unfold collectiveKernel
  exact frame_perStream (lor_mono hM rfl) h (fun x1 x2 x3 x4 k5 => frame_collectiveStream (lor_mono hM rfl) k5)

end Sys2Proof.Machine
end

