-- ==== Sys2Proof/Laws/FrameChoose.lean ====
section
/-! SUPPORT. The functions of Machine/Choose.lean, Machine/Gaffer.lean change only the parts of the state named by a mask. -/
namespace Sys2Proof.Machine
open Sys2Proof

set_option Elab.async false

theorem frame_kernelOf {M : Nat} {o s : State} (hM : 12455 ||| M = M) (h : Frame M o s) {d : Desc} {m : Image} {i : Nat} {ws : List Work} :
    Frame1 M o (kernelOf d s m i ws) := by
  generalize hk : kernelOf d = k
  unfold kernelOf at hk
  split at hk
  case h_9 =>
    split at hk
    · exact hk ▸ frame_appendKernel (lor_mono hM rfl) h
    · split at hk
      · exact hk ▸ frame_stageKernel (lor_mono hM rfl) h
      · exact hk ▸ frame_restoreKernel (lor_mono hM rfl) h
  case h_13 =>
    split at hk
    · exact hk ▸ frame_rotationKernel (lor_mono hM rfl) h
    · exact hk ▸ frame_collectiveKernel (lor_mono hM rfl) h
  · exact hk ▸ frame_matrixKernel (lor_mono hM rfl) h
  · exact hk ▸ frame_vectorKernel (lor_mono hM rfl) h
  · exact hk ▸ frame_gateKernel (lor_mono hM rfl) h
  · exact hk ▸ frame_routingKernel (lor_mono hM rfl) h
  · exact hk ▸ frame_conversionKernel (lor_mono hM rfl) h
  · exact hk ▸ frame_recurrenceKernel (lor_mono hM rfl) h
  · exact hk ▸ frame_scanKernel (lor_mono hM rfl) h
  · exact hk ▸ frame_attentionKernel (lor_mono hM rfl) h
  · exact hk ▸ frame_convKernel (lor_mono hM rfl) h
  · exact hk ▸ frame_poolKernel (lor_mono hM rfl) h
  · exact hk ▸ frame_eventKernel (lor_mono hM rfl) h
  · exact hk ▸ h

theorem frame_startReload {M : Nat} {o s : State} (hM : 4096 ||| M = M) (h : Frame M o s) {a : Nat} :
    Frame M o (State.startReload s a) := by
  unfold State.startReload
  split
  · rename_i y1 e2
    exact h
  · rename_i y3 y4 e5
    split
    · rename_i y6 e7
      exact h
    · rename_i y8 y9 e10
      exact frame_addBuiltIn (lor_mono hM rfl) h

theorem frame_addRestore {M : Nat} {o s : State} (hM : 4096 ||| M = M) (h : Frame M o s) {m : Image} {t : Stream} {dl : Nat} {j : Nat} {xs : List Xfer} :
    Frame M o (State.addRestore s m t dl j xs) := by
  unfold State.addRestore
  exact frame_addBuiltIn (lor_mono hM rfl) h

theorem frame_applyFate {M : Nat} {o s : State} (hM : 529063 ||| M = M) (h : Frame M o s) {m : Image} {w : Work} {f : Fate} {met : List Nat} :
    Frame M o (State.applyFate s m w f met) := by
  unfold State.applyFate
  split
  · rename_i y1 y2 e3
    exact frame_streamFault (lor_mono hM rfl) h
  · rename_i y4 e5
    refine frame_ite h ?_
    refine frame_ite (frame_streamFault (lor_mono hM rfl) h) ?_
    extract_lets s6 s7
    have k8 : Frame M o s6 := frame_ite (frame_setStream (lor_mono hM rfl) h) h
    have k9 : Frame M o s7 := frame_with_spad (lor_mono hM rfl) k8
    clear_value s6 s7
    split
    · rename_i y10 e11
      exact k8
    · rename_i y12 y13 e14
      refine frame_ite (frame_streamFault (lor_mono hM rfl) k8) ?_
      extract_lets s15 s16
      have k17 : Frame M o s15 := frame_ite (frame_addRestore (lor_mono hM rfl) k8) k8
      have k18 : Frame M o s16 := frame_ite (frame_setStream (lor_mono hM rfl) k17) k17
      clear_value s15 s16
      exact frame_rollback (lor_mono hM rfl) k18

theorem frame_applyFates {M : Nat} {o s : State} (hM : 529063 ||| M = M) (h : Frame M o s) {m : Image} {ws : List Work} {fs : List (Nat × Fate)} {met : List (Nat × List Nat)} :
    Frame M o (State.applyFates s m ws fs met) := by
  unfold State.applyFates
  refine frame_foldl h ?_
  intro x1 x2 k3
  split
  · rename_i y4 e5
    exact k3
  · rename_i y6 y7 e8
    exact frame_applyFate (lor_mono hM rfl) k3

theorem frame_advanceRings {M : Nat} {o s : State} (hM : 288 ||| M = M) (h : Frame M o s) {m : Image} {d : Desc} :
    Frame M o (State.advanceRings s m d) := by
  unfold State.advanceRings
  refine frame_foldl h ?_
  intro x1 x2 k3
  split
  · rename_i y4 e5
    exact k3
  · rename_i y6 y7 e8
    extract_lets v9 s10
    have k11 : Frame M o s10 := frame_setRegion (lor_mono hM rfl) k3
    clear_value v9 s10
    exact frame_ite k11 (frame_setImage (lor_mono hM rfl) k11)

theorem frame_finishStream {M : Nat} {o s : State} (hM : 931495 ||| M = M) (h : Frame M o s) {m : Image} {i : Nat} {d : Desc} {w : Work} :
    Frame M o (State.finishStream s m i d w) := by
  unfold State.finishStream
  split
  · rename_i y1 e2
    exact h
  · rename_i y3 y4 e5
    refine frame_ite ?_ ?_
    · extract_lets s6
      have k7 : Frame M o s6 := frame_setLive (lor_mono hM rfl) (frame_exitMark (lor_mono hM rfl) h)
      clear_value s6
      split
      · rename_i y8 y9 e10
        exact frame_commit (lor_mono hM rfl) k7
      · rename_i y11 e12
        exact frame_setStream (lor_mono hM rfl) k7
    · refine frame_ite ?_ h
      split
      · rename_i y13 y14 e15
        exact frame_commit (lor_mono hM rfl) h
      · rename_i y16 e17
        exact h

theorem frame_oweP {M : Nat} {o s : State} (hM : 32 ||| M = M) (h : Frame M o s) {x : Pass} :
    Frame M o (State.oweP s x) := by
  unfold State.oweP
  exact frame_with_gaf (lor_mono hM rfl) h

theorem frame_setNext {M : Nat} {o s : State} (hM : 32 ||| M = M) (h : Frame M o s) {id : Nat} {next : Nat} :
    Frame M o (State.setNext s id next) := by
  unfold State.setNext
  exact frame_setImage (lor_mono hM rfl) h

theorem frame_kernelRun {M : Nat} {o s : State} (hM : 12455 ||| M = M) (h : Frame M o s) {m : Image} {i : Nat} {d : Desc} {pass : Nat} {info : List Nat} {ws : List Work} :
    Frame1 M o (State.kernelRun s m i d pass info ws) := by
  unfold State.kernelRun
  extract_lets v1 s2
  have k3 : Frame1 M o s2 := frame_kernelOf (lor_mono hM rfl) h
  clear_value v1 s2
  refine Frame1.ite (frame_perStream (lor_mono hM rfl) h (fun x4 x5 x6 x7 k8 => frame_redoStream (lor_mono hM rfl) k8)) ?_
  exact Frame1.ite (frame_perStream (lor_mono hM rfl) h (fun x9 x10 x11 x12 k13 => frame_mergeStream (lor_mono hM rfl) k13)) (Frame1.mk k3.get)

theorem frame_countMet {M : Nat} {o s : State} (hM : 7 ||| M = M) (h : Frame M o s) {met : List (Nat × List Nat)} {soft : List Nat} {part : Bool} :
    Frame M o (State.countMet s met soft part) := by
  unfold State.countMet
  extract_lets s1 s2
  have k3 : Frame M o s1 := frame_foldl h (fun x4 x5 k6 => frame_uncorrWord (lor_mono hM rfl) k6)
  have k7 : Frame M o s2 := frame_foldl k3 (fun x8 x9 k10 => frame_corrWord (lor_mono hM rfl) k10)
  clear_value s1 s2
  exact frame_ite (frame_setErr (lor_mono hM rfl) k7) k7

theorem frame_complete {M : Nat} {o s : State} (hM : 931751 ||| M = M) (h : Frame M o s) {m : Image} {i : Nat} {d : Desc} {pass : Nat} {info : List Nat} {mask : Nat} {ws : List Work} :
    Frame M o (State.complete s m i d pass info mask ws) := by
  unfold State.complete
  extract_lets v1 s2 v3 v4 s5 s6 v7 v8 v9 v10 v11 s12 s13
  have k14 : Frame1 M o s2 := frame_kernelRun (lor_mono hM rfl) h
  have k15 : Frame M o s5 := frame_applyFates (lor_mono hM rfl) (frame_countMet (lor_mono hM rfl) k14.get)
  have k16 : Frame M o s6 := frame_ite k15 (frame_setNext (lor_mono hM rfl) (frame_advanceRings (lor_mono hM rfl) k15))
  have k17 : Frame M o s12 := frame_ite k16 (frame_oweP (lor_mono hM rfl) k16)
  have k18 : Frame M o s13 := frame_ite k17 (frame_oweP (lor_mono hM rfl) k17)
  clear_value v1 s2 v3 v4 s5 s6 v7 v8 v9 v10 v11 s12 s13
  exact frame_foldl k18 (fun x19 x20 k21 => frame_finishStream (lor_mono hM rfl) k21)

theorem frame_loadState {M : Nat} {o s : State} (hM : 4261 ||| M = M) (h : Frame M o s) {m : Image} {t : Stream} {j : Nat} {dl : Nat} :
    Frame M o (State.loadState s m t j dl) := by
  unfold State.loadState
  refine frame_ite (frame_carryOver (lor_mono hM rfl) h) ?_
  refine frame_ite (frame_setStream (lor_mono hM rfl) h) ?_
  refine frame_ite h ?_
  split
  · rename_i y1 y2 y3 y4 y5 y6 e7 e8
    extract_lets v9
    clear_value v9
    exact frame_addBuiltIn (lor_mono hM rfl) h
  · rename_i y10 y11 y12
    exact h

theorem frame_loadInitial {M : Nat} {o s : State} (hM : 4128 ||| M = M) (h : Frame M o s) {m : Image} {t : Stream} {dl : Nat} :
    Frame M o (State.loadInitial s m t dl) := by
  unfold State.loadInitial
  extract_lets v1 s2
  have k3 : Frame M o s2 := frame_setStream (lor_mono hM rfl) h
  clear_value v1 s2
  exact frame_ite h (frame_addBuiltIn (lor_mono hM rfl) k3)

theorem frame_admitMember {M : Nat} {o s : State} (hM : 529063 ||| M = M) (h : Frame M o s) {m : Image} {x : Member} :
    Frame M o (State.admitMember s m x) := by
  unfold State.admitMember
  split
  · rename_i y1 e2
    exact h
  · rename_i y3 y4 e5
    extract_lets v6 v7 v8 s9 s10 s11
    have k12 : Frame M o s9 := frame_putStream (lor_mono hM rfl) h
    have k13 : Frame M o s10 := frame_ite k12 (frame_announceSession (lor_mono hM rfl) k12)
    have k14 : Frame M o s11 := frame_ite k13 (frame_puntyTurn (lor_mono hM rfl) k13)
    clear_value v6 v8 s9 s10 s11
    refine frame_ite (frame_setStream (lor_mono hM rfl) k14) ?_
    split
    · rename_i y15 e16
      exact k14
    · rename_i y17 y18 y19 e20
      extract_lets s21 s22 v23 v24 s25 v26 s27
      have k28 : Frame M o s21 := frame_loadState (lor_mono hM rfl) (frame_flushHeld (lor_mono hM rfl) k14)
      have k29 : Frame M o s22 := frame_ite (frame_foldl k28 (fun x30 x31 k32 => frame_narrowWrite (lor_mono hM rfl) k32)) k28
      have k33 : Frame M o s25 := frame_ite (frame_loadInitial (lor_mono hM rfl) k29) k29
      have k34 : Frame M o s27 := frame_setStream (lor_mono hM rfl) k33
      clear_value s21 s22 v23 v24 s25 v26 s27
      exact frame_lpNarrowPut (lor_mono hM rfl) k34

theorem frame_openSweep {M : Nat} {o s : State} (hM : 530087 ||| M = M) (h : Frame M o s) {m : Image} {xs : List Member} :
    Frame M o (State.openSweep s m xs) := by
  unfold State.openSweep
  extract_lets s1 v2 s3
  have k4 : Frame M o s1 := frame_foldl h (fun x5 x6 k7 => frame_gafRead (lor_mono hM rfl) k7)
  have k8 : Frame M o s3 := frame_foldl k4 (fun x9 x10 k11 => frame_admitMember (lor_mono hM rfl) k11)
  clear_value s1 v2 s3
  exact frame_ite k8 (frame_setImage (lor_mono hM rfl) k8)

theorem frame_starve {M : Nat} {o s : State} (hM : 35 ||| M = M) (h : Frame M o s) {id : Nat} {es : List Nat} :
    Frame M o (State.starve s id es) := by
  unfold State.starve
  extract_lets s1 s2 s3
  have k4 : Frame M o s1 := frame_wr (lor_mono hM rfl) h
  have k5 : Frame M o s2 := frame_setImage (lor_mono hM rfl) k4
  have k6 : Frame M o s3 := frame_evtDev (lor_mono hM rfl) (frame_count (lor_mono hM rfl) k5)
  clear_value s1 s2 s3
  exact frame_ite k4 (frame_foldl k6 (fun x7 x8 k9 => frame_evtCount (lor_mono hM rfl) k9))

theorem frame_spend {M : Nat} {o s : State} (hM : 64 ||| M = M) (h : Frame M o s) {m : Image} {cost : Nat} :
    Frame M o (State.spend s m cost) := by
  unfold State.spend
  extract_lets v1 v2
  clear_value v1 v2
  exact frame_with_dmp (lor_mono hM rfl) h

theorem frame_issue {M : Nat} {o s : State} (hM : 1048675 ||| M = M) (h : Frame M o s) {m : Image} {i : Nat} {d : Desc} {x : Pass} {cost : Nat} {ws : List Work} :
    Frame M o (State.issue s m i d x cost ws) := by
  unfold State.issue
  extract_lets v1 v2 v3 v4 s5 s6 s7 s8 s9 v10 v11
  have k12 : Frame M o s5 := frame_foldl h (fun x13 x14 k15 => frame_wr (lor_mono hM rfl) (frame_wr (lor_mono hM rfl) k15))
  have k16 : Frame M o s6 := by
    refine frame_foldl k12 ?_
    intro x17 x18 k19
    extract_lets v20 s21
    have k22 : Frame M o s21 := frame_ite (frame_count (lor_mono hM rfl) k19) (frame_evtCount (lor_mono hM rfl) (frame_count (lor_mono hM rfl) k19))
    clear_value v20 s21
    exact frame_ite k22 (frame_evtCount (lor_mono hM rfl) k22)
  have k23 : Frame M o s7 := frame_evtDev (lor_mono hM rfl) (frame_spend (lor_mono hM rfl) k16)
  have k24 : Frame M o s8 := frame_ite (frame_evtDev (lor_mono hM rfl) k23) (frame_ite (frame_count (lor_mono hM rfl) k23) k23)
  have k25 : Frame M o s9 := frame_setImage (lor_mono hM rfl) k24
  clear_value v1 v2 v3 v4 s5 s6 s7 s8 s9 v10
  exact frame_syncDamper (lor_mono hM rfl) (frame_with_gaf (lor_mono hM rfl) k25)

theorem frame_retire {M : Nat} {o s : State} (hM : 931751 ||| M = M) (h : Frame M o s) {m : Image} {i : Nat} {d : Desc} {ws : List Work} :
    Frame M o (State.retire s m i d ws) := by
  unfold State.retire
  extract_lets s1
  have k2 : Frame M o s1 := frame_evtDev (lor_mono hM rfl) (frame_complete (lor_mono hM rfl) h)
  clear_value s1
  exact frame_setImage (lor_mono hM rfl) k2

theorem frame_dropPass {M : Nat} {o s : State} (hM : 32 ||| M = M) (h : Frame M o s) {x : Pass} :
    Frame M o (State.dropPass s x) := by
  unfold State.dropPass
  exact frame_with_gaf (lor_mono hM rfl) h

theorem frame_takePass {M : Nat} {o s : State} (hM : 1980391 ||| M = M) (h : Frame M o s) {m : Image} {x : Pass} {d : Desc} {ps : List Work} :
    Frame1 M o (State.takePass s m x d ps) := by
  unfold State.takePass
  extract_lets v1
  clear_value v1
  refine Frame1.ite (Frame1.mk (frame_retire (lor_mono hM rfl) (frame_dropPass (lor_mono hM rfl) h))) ?_
  exact Frame1.ite (Frame1.mk (frame_dropPass (lor_mono hM rfl) h)) (Frame1.ite (Frame1.mk h) (Frame1.mk (frame_issue (lor_mono hM rfl) (frame_dropPass (lor_mono hM rfl) h))))

theorem frame_dropStarved {M : Nat} {o s : State} (hM : 32 ||| M = M) (h : Frame M o s) {cs : List Choice} :
    Frame M o (State.dropStarved s cs) := by
  unfold State.dropStarved
  exact frame_with_gaf (lor_mono hM rfl) h

theorem frame_takeCand {M : Nat} {o s : State} (hM : 1980391 ||| M = M) (h : Frame M o s) {c : Choice} :
    Frame1 M o (State.takeCand s c) := by
  unfold State.takeCand
  split
  · rename_i y1 y2 e3
    exact frame_takePass (lor_mono hM rfl) h
  · rename_i y4 e5
    refine Frame1.ite (Frame1.ite (Frame1.mk (frame_openSweep (lor_mono hM rfl) h)) (Frame1.mk (frame_ite h (frame_starve (lor_mono hM rfl) h)))) ?_
    extract_lets v6
    clear_value v6
    exact Frame1.ite (Frame1.ite (Frame1.mk (frame_retire (lor_mono hM rfl) h)) (Frame1.mk h)) (Frame1.ite (Frame1.mk (frame_issue (lor_mono hM rfl) h)) (Frame1.mk (frame_starve (lor_mono hM rfl) h)))

theorem frame_chooseOnce {M : Nat} {o s : State} (hM : 1980391 ||| M = M) (h : Frame M o s) :
    Frame1 M o (State.chooseOnce s) := by
  unfold State.chooseOnce
  extract_lets s1 v2 s3
  have k4 : Frame M o s1 := frame_wr (lor_mono hM rfl) (frame_wr (lor_mono hM rfl) h)
  have k5 : Frame M o s3 := frame_dropStarved (lor_mono hM rfl) k4
  clear_value s1 v2 s3
  split
  · rename_i y6 y7 e8
    split
    · rename_i y9 e10
      exact Frame1.mk (frame_dropPass (lor_mono hM rfl) k4)
    · rename_i y11 y12 e13
      split
      · rename_i y14 e15
        exact Frame1.mk (frame_dropPass (lor_mono hM rfl) k4)
      · rename_i y16 y17 e18
        exact frame_takePass (lor_mono hM rfl) k4
  · rename_i y19 e20
    split
    · rename_i y21 y22 e23
      exact frame_takeCand (lor_mono hM rfl) k5
    · rename_i y24 e25
      exact Frame1.mk (frame_wr (lor_mono hM rfl) (frame_evtDev (lor_mono hM rfl) (frame_count (lor_mono hM rfl) k5)))

theorem frame_sweepBoundary {M : Nat} {o s : State} (hM : 17 ||| M = M) (h : Frame M o s) :
    Frame M o (State.sweepBoundary s) := by
  unfold State.sweepBoundary
  extract_lets s1
  have k2 : Frame M o s1 := frame_count (lor_mono hM rfl) h
  clear_value s1
  exact frame_ite (frame_instantCome (lor_mono hM rfl) k2) k2

theorem frame_settleSweeps {M : Nat} {o s : State} (hM : 561975 ||| M = M) (h : Frame M o s) :
    Frame M o (State.settleSweeps s) := by
  unfold State.settleSweeps
  extract_lets s1
  have k2 : Frame M o s1 := frame_settle (lor_mono hM rfl) h
  clear_value s1
  exact frame_foldl k2 (fun x3 x4 k5 => frame_sweepBoundary (lor_mono hM rfl) k5)

theorem frame_chooseN {M : Nat} {o s : State} (hM : 2013175 ||| M = M) (h : Frame M o s) {a0 : Nat} :
    Frame M o (State.chooseN a0 s) := by
  induction a0 generalizing s with
  | zero =>
    unfold State.chooseN
    exact h
  | succ w0 ih =>
    unfold State.chooseN
    refine frame_ite h ?_
    extract_lets s1
    have k2 : Frame1 M o s1 := frame_chooseOnce (lor_mono hM rfl) h
    clear_value s1
    exact frame_ite (ih (frame_settleSweeps (lor_mono hM rfl) k2.get)) k2.get

theorem frame_faultFailed {M : Nat} {o s : State} (hM : 528935 ||| M = M) (h : Frame M o s) :
    Frame M o (State.faultFailed s) := by
  unfold State.faultFailed
  exact frame_ite h (frame_foldl h (fun x1 x2 k3 => frame_imageFault (lor_mono hM rfl) k3))

theorem frame_choose {M : Nat} {o s : State} (hM : 2013175 ||| M = M) (h : Frame M o s) :
    Frame M o (State.choose s) := by
  unfold State.choose
  extract_lets v1
  clear_value v1
  exact frame_parWatch (lor_mono hM rfl) (frame_chooseN (lor_mono hM rfl) (frame_faultFailed (lor_mono hM rfl) h))

theorem frame_chooseIfReady {M : Nat} {o s : State} (hM : 2013175 ||| M = M) (h : Frame M o s) {was : State} :
    Frame M o (State.chooseIfReady s was) := by
  unfold State.chooseIfReady
  exact frame_ite h (frame_choose (lor_mono hM rfl) h)

theorem frame_boundary {M : Nat} {o s : State} (hM : 2095095 ||| M = M) (h : Frame M o s) :
    Frame M o (State.boundary s) := by
  unfold State.boundary
  refine frame_ite h ?_
  extract_lets s1 s2
  have k3 : Frame M o s1 := frame_ite (frame_instantCome (lor_mono hM rfl) h) h
  have k4 : Frame M o s2 := frame_ite (frame_resetNow (lor_mono hM rfl) k3) (frame_settleSweeps (lor_mono hM rfl) k3)
  clear_value s1 s2
  exact frame_choose (lor_mono hM rfl) (frame_syncDamper (lor_mono hM rfl) k4)

theorem frame_countBusy {M : Nat} {o s : State} (hM : 3 ||| M = M) (h : Frame M o s) {r : Running} :
    Frame M o (State.countBusy s r) := by
  unfold State.countBusy
  exact frame_foldl h (fun x1 x2 k3 => frame_ite k3 (frame_evtCount (lor_mono hM rfl) (frame_count64 (lor_mono hM rfl) k3)))

theorem frame_weightError {M : Nat} {o s : State} (hM : 2045863 ||| M = M) (h : Frame M o s) {m : Image} {d : Desc} {r : Running} {ws : List Work} {rows : List Nat} :
    Frame M o (State.weightError s m d r ws rows) := by
  unfold State.weightError
  extract_lets v1 s2 v3 v4 v5 s6 s7 v8 v9 s10
  have k11 : Frame M o s2 := frame_with_spad (lor_mono hM rfl) h
  have k12 : Frame M o s6 := frame_foldl (frame_countMet (lor_mono hM rfl) h) (fun x13 x14 k15 => frame_uncorrWord (lor_mono hM rfl) k15)
  have k16 : Frame M o s7 := frame_applyFates (lor_mono hM rfl) k12
  have k17 : Frame M o s10 := frame_foldl (frame_count (lor_mono hM rfl) k16) (fun x18 x19 k20 => frame_startReload (lor_mono hM rfl) k20)
  clear_value v1 s2 v3 v4 v5 s6 s7 v8 v9 s10
  exact frame_ite (frame_failStop (lor_mono hM rfl) k16) (frame_ite (frame_retire (lor_mono hM rfl) k17) (frame_oweP (lor_mono hM rfl) k17))

theorem frame_atBarrier {M : Nat} {o s : State} (hM : 2045863 ||| M = M) (h : Frame M o s) {r : Running} {b : BarrierReads} :
    Frame M o (State.atBarrier s r b) := by
  unfold State.atBarrier
  extract_lets s1 s2 s3
  have k4 : Frame M o s1 := frame_countBusy (lor_mono hM rfl) h
  have k5 : Frame M o s2 := frame_foldl k4 (fun x6 x7 k8 => frame_corrWord (lor_mono hM rfl) k8)
  have k9 : Frame M o s3 := frame_foldl k5 (fun x10 x11 k12 => frame_poisonSpad (lor_mono hM rfl) k12)
  clear_value s1 s2 s3
  split
  · rename_i y13 e14
    exact k5
  · rename_i y15 y16 e17
    split
    · rename_i y18 e19
      exact k5
    · rename_i y20 y21 e22
      extract_lets v23 v24 s25
      have k26 : Frame M o s25 := frame_ite (frame_complete (lor_mono hM rfl) k9) (frame_weightError (lor_mono hM rfl) k9)
      clear_value v23 v24 s25
      exact frame_noteSoft (lor_mono hM rfl) k26

theorem frame_barrier {M : Nat} {o s : State} (hM : 2095095 ||| M = M) (h : Frame M o s) {due : Running → Desc → Bool} {b : BarrierReads} :
    Frame M o (State.barrier s due b) := by
  unfold State.barrier
  split
  · rename_i y1 e2
    exact h
  · rename_i y3 y4 e5
    extract_lets v6 s7 v8
    have k9 : Frame M o s7 := frame_atBarrier (lor_mono hM rfl) h
    clear_value v6 s7
    exact frame_ite h (frame_boundary (lor_mono hM rfl) (frame_with_gaf (lor_mono hM rfl) k9))

theorem frame_opBarrier {M : Nat} {o s : State} (hM : 2095095 ||| M = M) (h : Frame M o s) {kind : Nat} {b : BarrierReads} :
    Frame M o (State.opBarrier s kind b) := by
  unfold State.opBarrier
  exact frame_barrier (lor_mono hM rfl) h

theorem frame_subBarrier {M : Nat} {o s : State} (hM : 2095095 ||| M = M) (h : Frame M o s) {kind : Nat} {sub : Nat} {b : BarrierReads} :
    Frame M o (State.subBarrier s kind sub b) := by
  unfold State.subBarrier
  exact frame_barrier (lor_mono hM rfl) h

theorem frame_passBarrier {M : Nat} {o s : State} (hM : 2095095 ||| M = M) (h : Frame M o s) {pass : Nat} {b : BarrierReads} :
    Frame M o (State.passBarrier s pass b) := by
  unfold State.passBarrier
  exact frame_barrier (lor_mono hM rfl) h

theorem frame_closeSweep {M : Nat} {o s : State} (hM : 2013175 ||| M = M) (h : Frame M o s) {m : Image} :
    Frame M o (State.closeSweep s m) := by
  unfold State.closeSweep
  extract_lets s1 v2 s3
  have k4 : Frame M o s1 := frame_setImage (lor_mono hM rfl) h
  have k5 : Frame M o s3 := frame_with_gaf (lor_mono hM rfl) k4
  clear_value s1 s3
  exact frame_choose (lor_mono hM rfl) (frame_sweepBoundary (lor_mono hM rfl) k5)

theorem frame_execMatrix {M : Nat} {o s : State} (hM : 2095095 ||| M = M) (h : Frame M o s) {b : BarrierReads} :
    FrameNext M o (execMatrix b s) := by
  unfold execMatrix
  exact FrameNext.next (frame_opBarrier (lor_mono hM rfl) (frame_begin_ (lor_mono hM rfl) h))

theorem frame_execVector {M : Nat} {o s : State} (hM : 2095095 ||| M = M) (h : Frame M o s) {b : BarrierReads} :
    FrameNext M o (execVector b s) := by
  unfold execVector
  exact FrameNext.next (frame_opBarrier (lor_mono hM rfl) (frame_begin_ (lor_mono hM rfl) h))

theorem frame_execGate {M : Nat} {o s : State} (hM : 2095095 ||| M = M) (h : Frame M o s) {b : BarrierReads} :
    FrameNext M o (execGate b s) := by
  unfold execGate
  exact FrameNext.next (frame_opBarrier (lor_mono hM rfl) (frame_begin_ (lor_mono hM rfl) h))

theorem frame_execExpertRouting {M : Nat} {o s : State} (hM : 2095095 ||| M = M) (h : Frame M o s) {b : BarrierReads} :
    FrameNext M o (execExpertRouting b s) := by
  unfold execExpertRouting
  exact FrameNext.next (frame_opBarrier (lor_mono hM rfl) (frame_begin_ (lor_mono hM rfl) h))

theorem frame_execConversion {M : Nat} {o s : State} (hM : 2095095 ||| M = M) (h : Frame M o s) {b : BarrierReads} :
    FrameNext M o (execConversion b s) := by
  unfold execConversion
  exact FrameNext.next (frame_opBarrier (lor_mono hM rfl) (frame_begin_ (lor_mono hM rfl) h))

theorem frame_execRecurrence {M : Nat} {o s : State} (hM : 2095095 ||| M = M) (h : Frame M o s) {b : BarrierReads} :
    FrameNext M o (execRecurrence b s) := by
  unfold execRecurrence
  exact FrameNext.next (frame_opBarrier (lor_mono hM rfl) (frame_begin_ (lor_mono hM rfl) h))

theorem frame_execParallelScan {M : Nat} {o s : State} (hM : 2095095 ||| M = M) (h : Frame M o s) {b : BarrierReads} :
    FrameNext M o (execParallelScan b s) := by
  unfold execParallelScan
  exact FrameNext.next (frame_opBarrier (lor_mono hM rfl) (frame_begin_ (lor_mono hM rfl) h))

theorem frame_execAttention {M : Nat} {o s : State} (hM : 2095095 ||| M = M) (h : Frame M o s) {b : BarrierReads} :
    FrameNext M o (execAttention b s) := by
  unfold execAttention
  exact FrameNext.next (frame_opBarrier (lor_mono hM rfl) (frame_begin_ (lor_mono hM rfl) h))

theorem frame_execKvAppend {M : Nat} {o s : State} (hM : 2095095 ||| M = M) (h : Frame M o s) {b : BarrierReads} :
    FrameNext M o (execKvAppend b s) := by
  unfold execKvAppend
  exact FrameNext.next (frame_subBarrier (lor_mono hM rfl) (frame_begin_ (lor_mono hM rfl) h))

theorem frame_execKvStage {M : Nat} {o s : State} (hM : 2095095 ||| M = M) (h : Frame M o s) {b : BarrierReads} :
    FrameNext M o (execKvStage b s) := by
  unfold execKvStage
  exact FrameNext.next (frame_subBarrier (lor_mono hM rfl) (frame_begin_ (lor_mono hM rfl) h))

theorem frame_execKvRestore {M : Nat} {o s : State} (hM : 2095095 ||| M = M) (h : Frame M o s) {b : BarrierReads} :
    FrameNext M o (execKvRestore b s) := by
  unfold execKvRestore
  exact FrameNext.next (frame_subBarrier (lor_mono hM rfl) (frame_begin_ (lor_mono hM rfl) h))

theorem frame_execConvolution {M : Nat} {o s : State} (hM : 2095095 ||| M = M) (h : Frame M o s) {b : BarrierReads} :
    FrameNext M o (execConvolution b s) := by
  unfold execConvolution
  exact FrameNext.next (frame_opBarrier (lor_mono hM rfl) (frame_begin_ (lor_mono hM rfl) h))

theorem frame_execPooling {M : Nat} {o s : State} (hM : 2095095 ||| M = M) (h : Frame M o s) {b : BarrierReads} :
    FrameNext M o (execPooling b s) := by
  unfold execPooling
  exact FrameNext.next (frame_opBarrier (lor_mono hM rfl) (frame_begin_ (lor_mono hM rfl) h))

theorem frame_execEventDecoding {M : Nat} {o s : State} (hM : 2095095 ||| M = M) (h : Frame M o s) {b : BarrierReads} :
    FrameNext M o (execEventDecoding b s) := by
  unfold execEventDecoding
  exact FrameNext.next (frame_opBarrier (lor_mono hM rfl) (frame_begin_ (lor_mono hM rfl) h))

theorem frame_execAllReduce {M : Nat} {o s : State} (hM : 2095095 ||| M = M) (h : Frame M o s) {b : BarrierReads} :
    FrameNext M o (execAllReduce b s) := by
  unfold execAllReduce
  exact FrameNext.next (frame_subBarrier (lor_mono hM rfl) (frame_begin_ (lor_mono hM rfl) h))

theorem frame_execReduceScatter {M : Nat} {o s : State} (hM : 2095095 ||| M = M) (h : Frame M o s) {b : BarrierReads} :
    FrameNext M o (execReduceScatter b s) := by
  unfold execReduceScatter
  exact FrameNext.next (frame_subBarrier (lor_mono hM rfl) (frame_begin_ (lor_mono hM rfl) h))

theorem frame_execAllGather {M : Nat} {o s : State} (hM : 2095095 ||| M = M) (h : Frame M o s) {b : BarrierReads} :
    FrameNext M o (execAllGather b s) := by
  unfold execAllGather
  exact FrameNext.next (frame_subBarrier (lor_mono hM rfl) (frame_begin_ (lor_mono hM rfl) h))

theorem frame_execBroadcast {M : Nat} {o s : State} (hM : 2095095 ||| M = M) (h : Frame M o s) {b : BarrierReads} :
    FrameNext M o (execBroadcast b s) := by
  unfold execBroadcast
  exact FrameNext.next (frame_subBarrier (lor_mono hM rfl) (frame_begin_ (lor_mono hM rfl) h))

theorem frame_execKvRingRotation {M : Nat} {o s : State} (hM : 2095095 ||| M = M) (h : Frame M o s) {b : BarrierReads} :
    FrameNext M o (execKvRingRotation b s) := by
  unfold execKvRingRotation
  exact FrameNext.next (frame_subBarrier (lor_mono hM rfl) (frame_begin_ (lor_mono hM rfl) h))

theorem frame_execSecondChancePass {M : Nat} {o s : State} (hM : 2095095 ||| M = M) (h : Frame M o s) {b : BarrierReads} :
    FrameNext M o (execSecondChancePass b s) := by
  unfold execSecondChancePass
  exact FrameNext.next (frame_passBarrier (lor_mono hM rfl) (frame_begin_ (lor_mono hM rfl) h))

theorem frame_execAttentionMergePass {M : Nat} {o s : State} (hM : 2095095 ||| M = M) (h : Frame M o s) {b : BarrierReads} :
    FrameNext M o (execAttentionMergePass b s) := by
  unfold execAttentionMergePass
  exact FrameNext.next (frame_passBarrier (lor_mono hM rfl) (frame_begin_ (lor_mono hM rfl) h))

theorem frame_execWeightReissue {M : Nat} {o s : State} (hM : 2095095 ||| M = M) (h : Frame M o s) {b : BarrierReads} :
    FrameNext M o (execWeightReissue b s) := by
  unfold execWeightReissue
  exact FrameNext.next (frame_passBarrier (lor_mono hM rfl) (frame_begin_ (lor_mono hM rfl) h))

theorem frame_execWeightReloadComplete {M : Nat} {o s : State} (hM : 2013175 ||| M = M) (h : Frame M o s) {image : Nat} :
    FrameNext M o (execWeightReloadComplete image s) := by
  unfold execWeightReloadComplete
  extract_lets s1 v2 v3
  have k4 : Frame M o s1 := frame_begin_ (lor_mono hM rfl) h
  clear_value s1 v2
  exact FrameNext.next (frame_ite k4 (frame_choose (lor_mono hM rfl) (frame_with_gaf (lor_mono hM rfl) k4)))

theorem frame_execSweepClose {M : Nat} {o s : State} (hM : 2013175 ||| M = M) (h : Frame M o s) {image : Nat} :
    FrameNext M o (execSweepClose image s) := by
  unfold execSweepClose
  extract_lets s1
  have k2 : Frame M o s1 := frame_begin_ (lor_mono hM rfl) h
  clear_value s1
  refine FrameNext.next ?_
  split
  · rename_i y3 e4
    exact k2
  · rename_i y5 y6 e7
    exact frame_ite (frame_closeSweep (lor_mono hM rfl) k2) k2

theorem frame_execSourceTimeout {M : Nat} {o s : State} (hM : 561975 ||| M = M) (h : Frame M o s) {entry : Nat} :
    FrameNext M o (execSourceTimeout entry s) := by
  unfold execSourceTimeout
  extract_lets s1
  have k2 : Frame M o s1 := frame_begin_ (lor_mono hM rfl) h
  clear_value s1
  refine FrameNext.next ?_
  split
  · rename_i y3 e4
    exact k2
  · rename_i y5 y6 e7
    exact frame_ite (frame_settleWatch (lor_mono hM rfl) (frame_streamFault (lor_mono hM rfl) k2)) k2

theorem frame_execBarrierWatchdog {M : Nat} {o s : State} (hM : 1908773 ||| M = M) (h : Frame M o s) :
    FrameNext M o (execBarrierWatchdog s) := by
  unfold execBarrierWatchdog
  extract_lets s1
  have k2 : Frame M o s1 := frame_begin_ (lor_mono hM rfl) h
  clear_value s1
  exact FrameNext.next (frame_ite (frame_failStop (lor_mono hM rfl) k2) k2)

theorem frame_execWindowOpen {M : Nat} {o s : State} (hM : 2078711 ||| M = M) (h : Frame M o s) {w : WindowIn} :
    FrameNext M o (execWindowOpen w s) := by
  unfold execWindowOpen
  extract_lets s1
  have k2 : Frame M o s1 := frame_begin_ (lor_mono hM rfl) h
  clear_value s1
  exact FrameNext.next (frame_ite (frame_choose (lor_mono hM rfl) (frame_window (lor_mono hM rfl) k2)) k2)

theorem frame_execBenchPowerGood {M : Nat} {o s : State} (hM : 1048641 ||| M = M) (h : Frame M o s) {bench : Nat} :
    FrameNext M o (execBenchPowerGood bench s) := by
  unfold execBenchPowerGood
  extract_lets s1 v2
  have k3 : Frame M o s1 := frame_begin_ (lor_mono hM rfl) h
  clear_value s1
  exact FrameNext.next (frame_ite (frame_syncDamper (lor_mono hM rfl) (frame_with_dmp (lor_mono hM rfl) k3)) k3)

theorem frame_execScratchpadPatrol {M : Nat} {o s : State} (hM : 4231 ||| M = M) (h : Frame M o s) {core : Nat} {corrected : List Nat} {bad : List Nat} :
    FrameNext M o (execScratchpadPatrol core corrected bad s) := by
  unfold execScratchpadPatrol
  extract_lets s1 v2
  have k3 : Frame M o s1 := frame_begin_ (lor_mono hM rfl) h
  clear_value s1 v2
  exact FrameNext.next (frame_ite k3 (frame_patrolSlice (lor_mono hM rfl) k3 (fun x4 x5 k6 => frame_startReload (lor_mono hM rfl) k6)))

theorem frame_scrubHoldWrite {M : Nat} {o s : State} (hM : 5 ||| M = M) (h : Frame M o s) {value : Nat} :
    Frame M o (State.scrubHoldWrite s value) := by
  unfold State.scrubHoldWrite
  exact frame_ite (frame_badWrite (lor_mono hM rfl) h) (frame_ite h (frame_wr (lor_mono hM rfl) h))

theorem frame_execScrubHold {M : Nat} {o s : State} (hM : 5 ||| M = M) (h : Frame M o s) {value : Nat} :
    FrameNext M o (execScrubHold value s) := by
  unfold execScrubHold
  exact FrameNext.next (frame_gated (lor_mono hM rfl) (frame_begin_ (lor_mono hM rfl) h) (fun x1 k2 => frame_scrubHoldWrite (lor_mono hM rfl) k2))

end Sys2Proof.Machine
end

