-- ==== Sys2Proof/Laws/Barrier.lean ====
section
/-! SUPPORT. What the barrier of an operation or pass on one chunk alone does, once: nothing but its kernel's stores, when no read met an
error; and what the kernels read and write of the array then. -/
namespace Sys2Proof.Machine
open Sys2Proof

/-- `u` holds what `k` holds, but for regions, images and owed passes: memories, registers, links, transfers, streams, rounds. -/
structure SameWork (k u : State) : Prop where
  frame : Frame 288 k u
  streams : u.gaf.streams = k.gaf.streams
  rounds : u.gaf.rounds = k.gaf.rounds
  held : u.gaf.held = k.gaf.held

/-- A state holds its own work. -/
theorem SameWork.refl (k : State) : SameWork k k := ⟨frame_refl k, rfl, rfl, rfl⟩

/-- A fold of steps that keep the work keeps it. -/
theorem sameWork_foldl {k s : State} {α : Type} {f : State → α → State} {xs : List α} (h : SameWork k s)
    (hf : ∀ q x, SameWork k q → SameWork k (f q x)) : SameWork k (xs.foldl f s) := by
  induction xs generalizing s with
  | nil => exact h
  | cons x xs ih => exact ih (hf s x h)

/-- A region is no part of the work. -/
theorem sameWork_setRegion {k s : State} (h : SameWork k s) {i e : Nat} {f : Region → Region} : SameWork k (s.setRegion i e f) :=
  ⟨frame_setRegion rfl h.frame, h.streams, h.rounds, h.held⟩

/-- An image is no part of the work. -/
theorem sameWork_setImage {k s : State} (h : SameWork k s) {i : Nat} {f : Image → Image} : SameWork k (s.setImage i f) :=
  ⟨frame_setImage rfl h.frame, h.streams, h.rounds, h.held⟩

/-- Either branch keeps the work. -/
theorem sameWork_ite {k s t : State} {c : Prop} [Decidable c] (h : SameWork k s) (h' : SameWork k t) : SameWork k (if c then s else t) := by
  split
  · exact h
  · exact h'

/-- Ring regions that move on leave the work. -/
theorem sameWork_advanceRings {k s : State} (h : SameWork k s) {m : Image} {d : Desc} : SameWork k (s.advanceRings m d) := by
  unfold State.advanceRings
  refine sameWork_foldl h fun q x hq => ?_
  dsimp only
  split
  · exact hq
  · exact sameWork_ite (sameWork_setRegion hq) (sameWork_setImage (sameWork_setRegion hq))

/-- A pass that is owed leaves the work. -/
theorem sameWork_oweP {k s : State} (h : SameWork k s) {x : Pass} : SameWork k (s.oweP x) :=
  ⟨frame_oweP rfl h.frame, h.streams, h.rounds, h.held⟩

/-- An operation that neither commits nor leaves a segment ends no chunk (03 R57, 06 R167). -/
theorem finishStream_plain {s : State} {m : Image} {i : Nat} {d : Desc} {w : Work} (hc : d.commit = false) (hx : d.exitPoint = false) :
    s.finishStream m i d w = s := by
  unfold State.finishStream
  split
  · rfl
  · simp [hc, hx]

/-- No word is uncorrectable in a clean array (10 R246). -/
theorem anyBad_clean {s : State} (h : s.spadBad = []) (a n : Nat) : s.anyBad a n = false := by
  simp [State.anyBad, State.spadBadIn, h]

/-- Nor is one of a state that is carried into a version. -/
theorem carryBad_clean {s : State} (h : s.spadBad = []) (m : Image) (d : Desc) (w : Work) : s.carryBad m d w = false := by
  unfold State.carryBad
  split <;> simp [anyBad_clean h]

/-- Nor a weight row. -/
theorem badRows_clean {s : State} (h : s.spadBad = []) (m : Image) (i : Nat) (d : Desc) (ws : List Work) : s.badRows m i d ws [] = [] := by
  simp [State.badRows, h, dedup]

/-- In a clean array the run of an operation, or of a merge pass, is its kernel. -/
theorem kernelRun_clean {s : State} (h : s.spadBad = []) {m : Image} {i : Nat} {d : Desc} {pass : Nat} (h1 : pass ≠ 1) (h2 : pass ≠ 2)
    (info : List Nat) (ws : List Work) : s.kernelRun m i d pass info ws = kernelOf d s m i ws := by
  simp [State.kernelRun, h1, h2, carryBad_clean h]

/-- The completion of an operation on one chunk whose reads met nothing leaves the kernel's stores as they are. -/
theorem complete_alone {s k : State} {m : Image} {i : Nat} {d : Desc} {pass : Nat} {info : List Nat} {mask : Nat} {w : Work} {f : Fate}
    (hs : s.spadSoft = []) (hp : s.rd Fd.SPD_MODE_Partitioned = 0) (hc : d.commit = false) (hx : d.exitPoint = false)
    (hr : s.kernelRun m i d pass info [w] = (k, [(w.entry, f)])) (h1 : f.mism = false) (h2 : f.bad = false) (h3 : f.fault = none) :
    SameWork k (s.complete m i d pass info mask [w]) := by
  have hmet : s.metWords (fun s => (s.kernelRun m i d pass info [w]).2) = [] := by simp [State.metWords, hr, h2]
  have hsoft (spans) : s.metSoft spans (fun s => (s.kernelRun m i d pass info [w]).2) = [] := by simp [State.metSoft, hs, dedup]
  have hpart (spans) : s.metPart spans (fun s => (s.kernelRun m i d pass info [w]).2) = false := by simp [State.metPart, hp]
  unfold State.complete
  simp only [hmet, hsoft, hpart, hr]
  have ha : (k.countMet [] [] false).applyFates m [w] [(w.entry, f)] [] = k := by
    simp [State.countMet, State.applyFates, State.applyFate, h1, h2, h3]
  rw [ha]
  refine sameWork_foldl ?_ fun q x hq => by rw [finishStream_plain hc hx]; exact hq
  refine sameWork_ite ?_ (sameWork_oweP ?_) <;>
    refine sameWork_ite ?_ (sameWork_oweP ?_) <;>
    exact sameWork_ite (SameWork.refl k) (sameWork_setImage (sameWork_advanceRings (SameWork.refl k)))

/-- Every command that ends an operation or a pass is its barrier. -/
theorem exec_barrier {s : State} {c : Instr} {due : Running → Desc → Bool} {b : BarrierReads} (h : barrierOf c = some (due, b)) :
    exec c s = .next (s.begin_.barrier due b) := by
  cases c <;> simp only [barrierOf, Option.some.injEq, Prod.mk.injEq, reduceCtorEq] at h <;> obtain ⟨rfl, rfl⟩ := h <;> rfl

/-- The barrier of an operation on one chunk alone: the command answers, nothing runs after it before the next choice, and the kernel's work stands. -/
theorem exec_alone {s k : State} {c : Instr} {r : Running} {m : Image} {d : Desc} {w : Work} {f : Fate} (h : s.runsAlone r m d w)
    {due : Running → Desc → Bool} (hbar : barrierOf c = some (due, clean)) (hdue : due r d = true)
    (hr : (s.atEnd r).kernelRun m r.desc d r.pass r.info [w] = (k, [(w.entry, f)])) (h1 : f.mism = false) (h2 : f.bad = false) (h3 : f.fault = none) :
    ∃ u : State, exec c s = .next u.boundary ∧ u.gaf.running = none ∧ Frame 288 k { u with spadSoft := k.spadSoft } ∧ u.gaf.streams = k.gaf.streams ∧ u.gaf.rounds = k.gaf.rounds ∧ u.gaf.held = k.gaf.held := by
  obtain ⟨hrun, him, hd, hw, hl, hc, hx, hf, hbad, hsoft, hpart⟩ := h
  have hfr : Frame 3 s.begin_ (s.atEnd r) := frame_countBusy rfl (frame_refl _)
  have hg : (s.atEnd r).gaf = s.gaf := hfr.gaf rfl
  have hsp := hfr.spad rfl
  have hb' : (s.atEnd r).spadBad = [] := hsp.2.1.trans hbad
  have hs' : (s.atEnd r).spadSoft = [] := hsp.2.2.trans hsoft
  have him' : (s.atEnd r).image r.image = some m := by unfold State.image; rw [hg]; exact him
  have hw' : (s.atEnd r).partWorks d r.parts = [w] := by
    rw [← hw]; unfold State.partWorks State.stream; rw [hg]
  have hsw := complete_alone (pass := r.pass) (info := r.info) (mask := r.mask) hs' hpart hc hx hr h1 h2 h3
  have hat : s.begin_.atBarrier r clean = ((s.atEnd r).complete m r.desc d r.pass r.info r.mask [w]).noteSoft [] := by
    have := badRows_clean hb' m r.desc d [w]
    simp only [State.atBarrier, clean, List.filter_nil, List.foldl_nil]
    change (match (s.atEnd r).image r.image with | none => _ | some m => _) = _
    rw [him']
    dsimp only
    rw [hd]
    dsimp only
    have e : s.begin_.countBusy r = s.atEnd r := rfl
    simp only [e, hw', this, ite_self, List.isEmpty_nil, if_true]
  refine ⟨{ (((s.atEnd r).complete m r.desc d r.pass r.info r.mask [w]).noteSoft []) with
    gaf := { (((s.atEnd r).complete m r.desc d r.pass r.info r.mask [w]).noteSoft []).gaf with running := none } }, ?_, rfl, ?_, hsw.streams, hsw.rounds, hsw.held⟩
  · rw [exec_barrier hbar]
    unfold State.barrier
    have hrun' : s.begin_.gaf.running = some r := hrun
    rw [hrun']
    dsimp only
    have him2 : s.begin_.image r.image = some m := him
    have hf2 : s.begin_.failStopped = false := hf
    rw [him2, hat]
    simp only [Option.bind_some, hd, Option.any_some, hdue, Bool.not_true, hf2, Bool.or_false, Bool.false_eq_true, if_false]
  · have F := hsw.frame
    generalize (s.atEnd r).complete m r.desc d r.pass r.info r.mask [w] = z at F ⊢
    exact { pending := F.pending, regs := F.regs, evt := F.evt, log := F.log, clk := F.clk, par := F.par, gaf := (fun h => nomatch h), dmp := F.dmp,
            spad := fun h => ⟨(F.spad h).1, (F.spad h).2.1, rfl⟩, regions := F.regions, lpddr := F.lpddr, sites := F.sites, host := F.host, dma := F.dma,
            lnk := F.lnk, servo := F.servo, apt := F.apt, fo := F.fo, rings := F.rings, sec := F.sec, tly := F.tly, pow := F.pow }

/-- A region read in a clean array meets no error. -/
theorem regBad_clean {s : State} (h : s.spadBad = []) (r : Region) (core o n : Nat) : regBad s r core o n = false := by
  simp [regBad, h]

/-- Nor does a read of a reference. -/
theorem refBytes_bad {s : State} (h : s.spadBad = []) (m : Image) (d : Desc) (w : Work) (i o n : Nat) :
    (refBytes s m d w i o n).bad = false := by
  unfold refBytes
  split
  · rfl
  · exact regBad_clean h ..

/-- A read of a reference compares no tag. -/
theorem refBytes_mism {s : State} (m : Image) (d : Desc) (w : Work) (i o n : Nat) : (refBytes s m d w i o n).mism = false := by
  unfold refBytes
  split <;> rfl

/-- Nor does a read of float32 values. -/
theorem readF32_bad {s : State} (h : s.spadBad = []) (m : Image) (d : Desc) (w : Work) (i o n : Nat) :
    (readF32 s m d w i o n).bad = false := refBytes_bad h ..

/-- Nor does a read of shared data (weights, biases). -/
theorem sharedBytes_bad {s : State} (h : s.spadBad = []) (m : Image) (d : Desc) (w : Work) (i o n : Nat) :
    (sharedBytes s m d w i o n).bad = false := by
  unfold sharedBytes
  split
  · rfl
  · split
    · exact refBytes_bad h ..
    · exact regBad_clean h ..

/-- Nor does a read of a block with its scales. -/
theorem readBlock_bad {s : State} (h : s.spadBad = []) (m : Image) (d : Desc) (w : Work) (i si fmt glog n width p comp : Nat) :
    (readBlock s m d w i si fmt glog n width p comp).bad = false := by
  unfold readBlock
  dsimp only
  rw [refBytes_bad h, Bool.false_or]
  split
  · exact refBytes_bad h ..
  · rfl

/-- Nor does a read of a row of values. -/
theorem readVals_bad {s : State} (h : s.spadBad = []) (m : Image) (d : Desc) (w : Work) (fmt si n width : Nat) :
    (readVals s m d w fmt si n width).bad = false := by
  unfold readVals
  split
  · exact readF32_bad h ..
  · exact readBlock_bad h ..

/-- Nor does a read of a matrix operation's activations. -/
theorem matrixActs_bad {s : State} (h : s.spadBad = []) (m : Image) (d : Desc) (w : Work) : (matrixActs s m d w).bad = false := by
  unfold matrixActs
  dsimp only
  split
  · exact refBytes_bad h ..
  · exact readBlock_bad h ..

/-- Nor does a read of the scales in force. -/
theorem readSet_bad {s : State} (h : s.spadBad = []) (m : Image) (i : Nat) (d : Desc) (w : Work) : (readSet s m i d w).bad = false := by
  unfold readSet
  split
  · rfl
  · exact regBad_clean h ..

/-- A kernel that runs stream by stream, on one stream. -/
theorem perStream_one {f : State → Image → Desc → Work → State × Fate} {s u : State} {m : Image} {i : Nat} {d : Desc} {w : Work} {g : Fate}
    (hd : m.descs[i]? = some d) (hf : f s m d w = (u, g)) (h1 : g.mism = false) (h2 : g.bad = false) :
    perStream f s m i [w] = (u, [(w.entry, g)]) := by
  unfold perStream
  rw [hd]
  simp [hf, h1, h2]

/-- A block goes to the scratchpad without an error when nothing read is bad. -/
theorem emitOut_fate {s : State} (h : s.spadBad = []) (m : Image) (i : Nat) (d : Desc) (w : Work) (xs : List Nat) (core : Nat → Nat) :
    (emitOut s m i d w xs core).2.mism = false ∧ (emitOut s m i d w xs core).2.bad = false ∧ (emitOut s m i d w xs core).2.fault = none := by
  unfold emitOut
  dsimp only
  split
  · simp only [readSet_bad h, Bool.and_false, Bool.false_eq_true, if_false]
    generalize convertGroups d.conv (rowGroups d.conv.glog d.outWidth xs) _ = gs
    by_cases hg : (gs.any fun x => x.exceeds) = true
    · simp [hg]
    · simp [hg]
  · split <;> exact ⟨rfl, rfl, rfl⟩

/-- What `s` reads and writes of the array agrees with `t`. -/
structure SameArray (s t : State) : Prop where
  spad : t.spad = s.spad
  regions : t.regions = s.regions
  part : t.rd Fd.SPD_MODE_Partitioned = 0
  part' : s.rd Fd.SPD_MODE_Partitioned = 0

/-- An array that is not partitioned has no wrong side (10 R235). -/
theorem wrongSide_off {s : State} (h : s.rd Fd.SPD_MODE_Partitioned = 0) (n : Bool) (a : Nat) : s.wrongSide n a = false := by
  simp [State.wrongSide, h]

/-- What a write to the array leaves where the banks are not partitioned. -/
theorem regWrite_spad {s : State} (h : s.rd Fd.SPD_MODE_Partitioned = 0) (r : Region) (core o : Nat) (bs : List Byte) :
    (regWrite s r core o bs).spad = bs.zipIdx.foldl (fun y x => sparseSet State.zeroByte y (r.arrAddr core (o + x.2)) x.1) s.spad ∧
      (regWrite s r core o bs).regs = s.regs ∧ (regWrite s r core o bs).regions = s.regions ∧ (regWrite s r core o bs).gaf = s.gaf ∧
      (regWrite s r core o bs).spadBad = s.spadBad.filter (fun w => !((List.range 8).all fun k => (List.range bs.length).any fun i => r.arrAddr core (o + i) == w + k)) ∧
      (regWrite s r core o bs).builtIns = s.builtIns := by
  have key : ∀ (xs : List (Byte × Nat)) (t : State), t.rd Fd.SPD_MODE_Partitioned = 0 →
      let go : State → Byte × Nat → State := fun t x =>
        if t.wrongSide false (r.arrAddr core (o + x.2)) then t.setErr Fd.SPD_PAGE_ERR_PartViolation
        else { t with spad := sparseSet State.zeroByte t.spad (r.arrAddr core (o + x.2)) x.1 }
      xs.foldl go t = { t with spad := xs.foldl (fun y x => sparseSet State.zeroByte y (r.arrAddr core (o + x.2)) x.1) t.spad } := by
    intro xs
    induction xs with
    | nil => intro t _; rfl
    | cons x xs ih =>
      intro t ht
      dsimp only [List.foldl_cons]
      rw [wrongSide_off ht]
      exact ih _ (by exact ht)
  have := key bs.zipIdx s h
  dsimp only at this
  unfold regWrite
  dsimp only
  rw [this]
  exact ⟨rfl, rfl, rfl, rfl, rfl, rfl⟩

/-- A write to the array depends on the array and the regions alone. -/
theorem regWrite_same {s t : State} (h : SameArray s t) (r : Region) (core o : Nat) (bs : List Byte) :
    SameArray (regWrite s r core o bs) (regWrite t r core o bs) := by
  have a := regWrite_spad h.part' r core o bs
  have b := regWrite_spad h.part r core o bs
  exact ⟨by rw [a.1, b.1, h.spad], by rw [a.2.2.1, b.2.2.1, h.regions], by unfold State.rd State.rdAt State.word; rw [b.2.1]; exact h.part,
    by unfold State.rd State.rdAt State.word; rw [a.2.1]; exact h.part'⟩

/-- A reference names the same region where the regions are the same. -/
theorem refRegion_same {s t : State} (h : t.regions = s.regions) (m : Image) (d : Desc) (i : Nat) : t.refRegion m d i = s.refRegion m d i := by
  unfold State.refRegion State.regionOf; rw [h]

/-- A write through a reference depends on the array and the regions alone. -/
theorem refPut_same {s t : State} (h : SameArray s t) (m : Image) (d : Desc) (w : Work) (i o : Nat) (bs : List Byte) :
    SameArray (refPut s m d w i o bs) (refPut t m d w i o bs) := by
  unfold refPut
  rw [refRegion_same h.regions]
  split
  · exact h
  · exact regWrite_same h ..

/-- The reads of a barrier alone met no error: what holds of the kernel's state in all but regions, images and owed passes holds after. -/
theorem ends_alone {s k : State} {c : Instr} {r : Running} {m : Image} {d : Desc} {w : Work} {f : Fate} {p : State → Prop} (h : s.runsAlone r m d w)
    {due : Running → Desc → Bool} (hbar : barrierOf c = some (due, clean)) (hdue : due r d = true)
    (hr : (s.atEnd r).kernelRun m r.desc d r.pass r.info [w] = (k, [(w.entry, f)])) (h1 : f.mism = false) (h2 : f.bad = false) (h3 : f.fault = none)
    (hp : ∀ u : State, Frame 288 k { u with spadSoft := k.spadSoft } → u.gaf.streams = k.gaf.streams → u.gaf.rounds = k.gaf.rounds → p u) :
    s.endsWith c p := by
  obtain ⟨u, he, hn, hf, hs, hro, -⟩ := exec_alone h hbar hdue hr h1 h2 h3
  exact ⟨u, he, hn, hp u hf hs hro⟩

/-- The count of busy benches leaves the array, its errors and its soft words. -/
theorem atEnd_spad (s : State) (r : Running) : (s.atEnd r).spad = s.spad ∧ (s.atEnd r).spadBad = s.spadBad ∧ (s.atEnd r).spadSoft = s.spadSoft := by
  have hfr : Frame 3 s.begin_ (s.atEnd r) := frame_countBusy rfl (frame_refl _)
  exact hfr.spad rfl

/-- Nor has the count of busy benches changed what the gaffer holds. -/
theorem atEnd_gaf (s : State) (r : Running) : (s.atEnd r).gaf = s.gaf := by
  have hfr : Frame 3 s.begin_ (s.atEnd r) := frame_countBusy rfl (frame_refl _)
  exact hfr.gaf rfl

/-- An operation's barrier on a chunk alone. -/
theorem ends_op {s k : State} {x c : Instr} {r : Running} {m : Image} {d : Desc} {w : Work} {kind : Nat} {f : Fate} {p : State → Prop}
    (h : s.opEnds x c r m d w kind) {due : Running → Desc → Bool} (hbar : barrierOf x = some (due, clean)) (hdue : r.pass = 0 → due r d = true)
    (hr : kernelOf d (s.atEnd r) m r.desc [w] = (k, [(w.entry, f)])) (h1 : f.mism = false) (h2 : f.bad = false) (h3 : f.fault = none)
    (hp : ∀ u : State, Frame 288 k { u with spadSoft := k.spadSoft } → u.gaf.streams = k.gaf.streams → u.gaf.rounds = k.gaf.rounds → p u) :
    s.endsWith c p := by
  obtain ⟨ha, -, hc⟩ := h
  have hb : (s.atEnd r).spadBad = [] := (atEnd_spad s r).2.1.trans ha.2.2.2.2.2.2.2.2.1
  have hpass : r.pass ≠ 1 ∧ r.pass ≠ 2 := by rcases hc with ⟨-, h⟩ | ⟨-, h⟩ <;> omega
  have hr' := (kernelRun_clean hb (m := m) (i := r.desc) (d := d) hpass.1 hpass.2 r.info [w]).trans hr
  rcases hc with ⟨rfl, h0⟩ | ⟨rfl, h3'⟩
  · exact ends_alone ha hbar (hdue h0) hr' h1 h2 h3 hp
  · exact ends_alone ha rfl (by simp [h3']) hr' h1 h2 h3 hp

/-- Only what the array holds matters. -/
theorem ends_spad {s k : State} {x c : Instr} {r : Running} {m : Image} {d : Desc} {w : Work} {kind : Nat} {f : Fate} {p : List Host.Cell → Prop}
    (h : s.opEnds x c r m d w kind) {due : Running → Desc → Bool} (hbar : barrierOf x = some (due, clean)) (hdue : r.pass = 0 → due r d = true)
    (hr : kernelOf d (s.atEnd r) m r.desc [w] = (k, [(w.entry, f)])) (h1 : f.mism = false) (h2 : f.bad = false) (h3 : f.fault = none)
    (hp : p k.spad) : s.endsWith c fun u => p u.spad :=
  ends_op h hbar hdue hr h1 h2 h3 fun u hf _ _ => by have := (hf.spad rfl).1; rw [show u.spad = k.spad from this]; exact hp

end Sys2Proof.Machine
end

