-- ==== Sys2Proof/Laws/FrameGather.lean ====
section
/-! SUPPORT. The functions of Machine/Gather.lean, Machine/Audio.lean change only the parts of the state named by a mask. -/
namespace Sys2Proof.Machine
open Sys2Proof

set_option Elab.async false

theorem frame_setWalk {M : Nat} {o s : State} (hM : 32 ||| M = M) (h : Frame M o s) {id : Nat} {ix : Nat} {f : Walk → Walk} :
    Frame M o (State.setWalk s id ix f) := by
  unfold State.setWalk
  exact frame_setImage (lor_mono hM rfl) h

theorem frame_weightFails {M : Nat} {o s : State} (hM : 529191 ||| M = M) (h : Frame M o s) {m : Image} {region : Nat} {blocks : Nat} :
    Frame M o (State.weightFails s m region blocks) := by
  unfold State.weightFails
  extract_lets s1 s2
  have k3 : Frame M o s1 := frame_foldl h (fun x4 x5 k6 => frame_setErrLog (lor_mono hM rfl) (frame_count (lor_mono hM rfl) k6))
  have k7 : Frame M o s2 := frame_setRegion (lor_mono hM rfl) k3
  clear_value s1 s2
  exact frame_imageFault (lor_mono hM rfl) k7

theorem frame_slotDone {M : Nat} {o s : State} (hM : 529191 ||| M = M) (h : Frame M o s) {x : WalkEnv} {ix : Nat} {w : Walk} :
    Frame M o (State.slotDone s x ix w) := by
  unfold State.slotDone
  extract_lets v1 v2 v3 v4 v5 s6
  have k7 : ∀ (x8 : State), Frame M o x8 → Frame M o (v1 x8) := by
    intro x8 k9
    unfold v1
    extract_lets s10 s11
    have k12 : Frame M o s10 := frame_setRegion (lor_mono hM rfl) k9
    have k13 : Frame M o s11 := frame_ite (frame_setImage (lor_mono hM rfl) k12) k12
    clear_value s10 s11
    exact frame_setWalk (lor_mono hM rfl) k13
  have k14 : Frame M o s6 := frame_foldl h (fun x15 x16 k17 => frame_count (lor_mono hM rfl) k17)
  clear_value v1 v2 v3 v4 v5 s6
  exact frame_ite (frame_ite (k7 _ h) (frame_ite (frame_setWalk (lor_mono hM rfl) k14) (frame_setWalk (lor_mono hM rfl) (frame_weightFails (lor_mono hM rfl) h)))) (k7 _ h)

theorem frame_pumpOne {M : Nat} {o s : State} (hM : 529191 ||| M = M) (h : Frame M o s) {id : Nat} {ix : Nat} {a2 : Nat} :
    Frame M o (State.pumpOne id ix a2 s) := by
  induction a2 generalizing id ix s with
  | zero =>
    unfold State.pumpOne
    exact h
  | succ w0 ih =>
    unfold State.pumpOne
    split
    · rename_i y1 e2
      exact h
    · rename_i y3 y4 e5
      split
      · rename_i y6 y7 y8 y9 e10 e11
        extract_lets v12 v13
        have k14 : ∀ (x15 : State), Frame M o x15 → Frame M o (v12 x15) := fun x15 k16 => frame_setWalk (lor_mono hM rfl) k16
        clear_value v12
        exact frame_ite h (frame_ite (frame_ite (ih (k14 _ h)) h) (frame_ite h (frame_ite (ih (k14 _ h)) (frame_ite (ih (frame_setWalk (lor_mono hM rfl) h)) (ih (frame_slotDone (lor_mono hM rfl) h))))))
      · rename_i y17 y18 y19
        exact h

theorem frame_pumpPrograms {M : Nat} {o s : State} (hM : 2013175 ||| M = M) (h : Frame M o s) :
    Frame M o (State.pumpPrograms s) := by
  unfold State.pumpPrograms
  extract_lets s1
  have k2 : Frame M o s1 := frame_foldl h (fun x3 x4 k5 => frame_foldl k5 (fun x6 x7 k8 => frame_pumpOne (lor_mono hM rfl) k8))
  clear_value s1
  exact frame_ite k2 (frame_choose (lor_mono hM rfl) k2)

theorem frame_recordFault {M : Nat} {o s : State} (hM : 5 ||| M = M) (h : Frame M o s) {bench : Nat} {prog : Nat} {image : Nat} {cause : Nat} {entry : Option Nat} :
    Frame M o (State.recordFault s bench prog image cause entry) := by
  unfold State.recordFault
  extract_lets s1 s2 s3 s4 s5 s6
  have k7 : Frame M o s1 := frame_wr (lor_mono hM rfl) h
  have k8 : Frame M o s2 := frame_wr (lor_mono hM rfl) k7
  have k9 : Frame M o s3 := frame_wr (lor_mono hM rfl) k8
  have k10 : Frame M o s4 := frame_wr (lor_mono hM rfl) k9
  have k11 : Frame M o s5 := frame_wr (lor_mono hM rfl) k10
  have k12 : Frame M o s6 := frame_setErr (lor_mono hM rfl) k11
  clear_value s1 s2 s3 s4 s5 s6
  exact frame_ite (frame_sealedErr (lor_mono hM rfl) k12) (frame_unmappedErr (lor_mono hM rfl) k12)

theorem frame_dropBuiltIn {M : Nat} {o s : State} (hM : 4096 ||| M = M) (h : Frame M o s) {id : Nat} :
    Frame M o (State.dropBuiltIn s id) := by
  unfold State.dropBuiltIn
  exact frame_with_dma (lor_mono hM rfl) h

theorem frame_xferFault {M : Nat} {o s : State} (hM : 528935 ||| M = M) (h : Frame M o s) {bench : Nat} {cause : Nat} {owner : Owner} {x : Xfer} :
    Frame M o (State.xferFault s bench cause owner x) := by
  unfold State.xferFault
  split
  · rename_i y1 y2 y3
    extract_lets s4
    have k5 : Frame M o s4 := frame_recordFault (lor_mono hM rfl) h
    clear_value s4
    split
    · rename_i y6 y7 e8
      exact frame_streamFault (lor_mono hM rfl) (frame_setWalk (lor_mono hM rfl) k5)
    · rename_i y9 e10
      exact frame_imageFault (lor_mono hM rfl) (frame_setWalk (lor_mono hM rfl) k5)
  · rename_i y11 y12
    split
    · rename_i y13 e14
      exact h
    · rename_i y15 y16 e17
      refine frame_ite ?_ ?_
      · extract_lets s18
        have k19 : Frame M o s18 := frame_dropBuiltIn (lor_mono hM rfl) (frame_ite (frame_sealedErr (lor_mono hM rfl) h) (frame_unmappedErr (lor_mono hM rfl) h))
        clear_value s18
        split
        · rename_i y20 y21 y22 y23 e24 e25
          exact frame_puntyRefused (lor_mono hM rfl) k19
        · rename_i y26 y27 y28
          exact k19
      · extract_lets s29
        have k30 : Frame M o s29 := frame_dropBuiltIn (lor_mono hM rfl) (frame_recordFault (lor_mono hM rfl) h)
        clear_value s29
        split
        · rename_i y31 y32 e33
          exact frame_streamFault (lor_mono hM rfl) k30
        · rename_i y34 e35
          exact frame_imageFault (lor_mono hM rfl) k30

theorem frame_takeX {M : Nat} {o s : State} (hM : 4128 ||| M = M) (h : Frame M o s) {owner : Owner} {x : Xfer} :
    Frame M o (State.takeX s owner x) := by
  unfold State.takeX
  split
  · rename_i y1 y2 y3
    exact frame_setWalk (lor_mono hM rfl) h
  · rename_i y4 y5
    exact frame_with_dma (lor_mono hM rfl) h

theorem frame_readEnd {M : Nat} {o s : State} (hM : 1031 ||| M = M) (h : Frame M o s) {x : Xfer} {n : Nat} {m : MemOutcome} :
    Frame3 M o (State.readEnd s x n m) := by
  unfold State.readEnd
  split
  · rename_i y1 y2 e3
    exact Frame3.mk h
  · rename_i y4 e5
    split
    · rename_i y6 y7 e8
      refine Frame3.ite (Frame3.mk (frame_sealedErr (lor_mono hM rfl) h)) ?_
      extract_lets v9
      clear_value v9
      split
      · rename_i y10 y11 y12 e13
        have k14 : Frame M o y12 := Frame2.of_eq e13 (frame_narrowRead (lor_mono hM rfl) h)
        exact Frame3.mk k14
    · rename_i y15 y16 e17
      extract_lets v18 v19
      clear_value v18 v19
      split
      · rename_i y20 y21 y22 y23 e24
        have k25 : Frame M o y23 := Frame3.of_eq e24 (frame_memReads (lor_mono hM rfl) h)
        extract_lets v26
        clear_value v26
        exact Frame3.mk k25
    · rename_i y27 y28 e29
      exact Frame3.mk h
    · rename_i y30 y31 y32 y33
      exact Frame3.mk h

theorem frame_remoteMsg {M : Nat} {o s : State} (hM : 1031 ||| M = M) (h : Frame M o s) {id : Nat} {kind : Option BKind} {x : Xfer} :
    Frame2 M o (State.remoteMsg s id kind x) := by
  unfold State.remoteMsg
  extract_lets v1 v2
  clear_value v1 v2
  split
  · rename_i y3 y4
    exact Frame2.mk h
  · rename_i y5 y6
    split
    · rename_i y7 y8 y9 y10 e11
      exact Frame2.ite (Frame2.mk h) (Frame2.mk h)
    · rename_i y12 y13 y14 y15 e16 y17
      split
      · rename_i y18 y19 y20 y21 e22
        have k23 : Frame M o y21 := Frame3.of_eq e22 (frame_readEnd (lor_mono hM rfl) h)
        extract_lets v24
        clear_value v24
        exact Frame2.mk k23
    · rename_i y25 y26 y27 y28
      exact Frame2.mk h

theorem frame_launch {M : Nat} {o s : State} (hM : 538151 ||| M = M) (h : Frame M o s) {bench : Nat} {it : WorkItem} :
    Frame M o (State.launch s bench it) := by
  unfold State.launch
  extract_lets v1 v2 v3 v4 s5 v6 v7 v8 v9
  have k10 : Frame M o s5 := frame_takeX (lor_mono hM rfl) h
  clear_value v1 v2 v3 v4 s5 v6 v7 v8 v9
  refine frame_ite (frame_xferFault (lor_mono hM rfl) k10) ?_
  split
  · rename_i y11 y12 e13
    have k14 : Frame M o y12 := Frame2.of_eq e13 (frame_remoteMsg (lor_mono hM rfl) k10)
    exact frame_with_dma (lor_mono hM rfl) k10
  · rename_i y15 y16 y17 e18
    have k19 : Frame M o y17 := Frame2.of_eq e18 (frame_remoteMsg (lor_mono hM rfl) k10)
    split
    · rename_i y20 e21
      exact frame_xferFault (lor_mono hM rfl) k10
    · rename_i y22 y23 e24
      have k25 : Frame M o y23 := FrameOpt.of_eq e24 (frame_sendMsg (lor_mono hM rfl) k19)
      exact frame_with_dma (lor_mono hM rfl) k25

theorem frame_gatherIssue {M : Nat} {o s : State} (hM : 2013175 ||| M = M) (h : Frame M o s) {bench : Nat} :
    Frame M o (State.gatherIssue s bench) := by
  unfold State.gatherIssue
  extract_lets s1
  have k2 : Frame M o s1 := frame_pumpPrograms (lor_mono hM rfl) h
  clear_value s1
  split
  · rename_i y3 e4
    exact k2
  · rename_i y5 y6 y7 e8
    exact frame_ite (frame_count (lor_mono hM rfl) k2) (frame_syncGth (lor_mono hM rfl) (frame_launch (lor_mono hM rfl) k2))

theorem frame_landPoison {M : Nat} {o s : State} (hM : 133 ||| M = M) (h : Frame M o s) {bench : Nat} {a : Nat} {words : List Nat} :
    Frame M o (State.landPoison s bench a words) := by
  unfold State.landPoison
  refine frame_ite h ?_
  extract_lets s1
  have k2 : Frame M o s1 := frame_foldl h (fun x3 x4 k5 => frame_poisonSpad (lor_mono hM rfl) k5)
  clear_value s1
  exact frame_setErr (lor_mono hM rfl) (frame_count (lor_mono hM rfl) k2)

theorem frame_hostDrop {M : Nat} {o s : State} (hM : 131079 ||| M = M) (h : Frame M o s) {f : Flight} :
    Frame M o (State.hostDrop s f) := by
  unfold State.hostDrop
  split
  · rename_i y1 y2 e3
    exact frame_ringDrop (lor_mono hM rfl) h
  · rename_i y4 y5
    exact frame_evtDev (lor_mono hM rfl) h

theorem frame_writeEnd {M : Nat} {o s : State} (hM : 134791 ||| M = M) (h : Frame M o s) {f : Flight} {d : List Byte} {words : List Nat} {m : MemOutcome} {msg : Bool} :
    Frame M o (State.writeEnd s f d words m msg) := by
  unfold State.writeEnd
  split
  · rename_i y1 y2 e3
    split
    · rename_i y4 e5
      exact frame_landPoison (lor_mono hM rfl) (frame_narrowWrite (lor_mono hM rfl) h)
    · rename_i y6 e7
      exact frame_sealedErr (lor_mono hM rfl) h
    · rename_i y8 y9 y10
      exact h
  · rename_i y11 y12 e13
    extract_lets s14
    have k15 : Frame M o s14 := frame_memWrites (lor_mono hM rfl) h
    clear_value s14
    exact frame_ite (frame_spoilLp (lor_mono hM rfl) k15) k15
  · rename_i y16 y17 e18
    exact frame_ite (frame_hostPut (lor_mono hM rfl) h) (frame_hostDrop (lor_mono hM rfl) h)
  · rename_i y19 y20 y21 y22
    exact h

theorem frame_atomicEnd {M : Nat} {o s : State} (hM : 135 ||| M = M) (h : Frame M o s) {f : Flight} {d : List Byte} {words : List Nat} :
    Frame2 M o (State.atomicEnd s f d words) := by
  unfold State.atomicEnd
  extract_lets v1 v2
  clear_value v1 v2
  split
  · rename_i y3 y4 y5 e6
    have k7 : Frame M o y5 := Frame2.of_eq e6 (frame_spadAtomic (lor_mono hM rfl) h)
    exact Frame2.mk (frame_ite (frame_landPoison (lor_mono hM rfl) k7) k7)

theorem frame_landData {M : Nat} {o s : State} (hM : 134791 ||| M = M) (h : Frame M o s) {f : Flight} {d : List Byte} {words : List Nat} {m : MemOutcome} :
    Frame M o (State.landData s f d words m) := by
  unfold State.landData
  extract_lets v1
  clear_value v1
  split
  · rename_i y2 e3
    exact frame_writeEnd (lor_mono hM rfl) h
  · rename_i y4 e5
    exact frame_writeEnd (lor_mono hM rfl) h
  · rename_i y6 e7
    exact Frame2.get (frame_atomicEnd (lor_mono hM rfl) h)
  · rename_i y8 e9
    split
    · rename_i y10 y11 y12 e13
      have k14 : Frame M o y12 := Frame2.of_eq e13 (frame_atomicEnd (lor_mono hM rfl) h)
      exact frame_writeEnd (lor_mono hM rfl) k14
  · rename_i y15 e16
    split
    · rename_i y17 y18 e19
      exact Frame3.get (frame_unitAtomic (lor_mono hM rfl) h)
    · rename_i y20 y21
      exact h
  · rename_i y22 y23 y24 y25 y26 y27
    exact frame_writeEnd (lor_mono hM rfl) h

theorem frame_perform {M : Nat} {o s : State} (hM : 134791 ||| M = M) (h : Frame M o s) {f : Flight} {kind : Option BKind} {m : MemOutcome} :
    Frame1 M o (State.perform s f kind m) := by
  unfold State.perform
  extract_lets v1 v2
  clear_value v1 v2
  split
  · rename_i y3 y4 y5 y6 e7
    have k8 : Frame M o y6 := Frame3.of_eq e7 (frame_readEnd (lor_mono hM rfl) h)
    exact Frame1.mk (frame_ite k8 (frame_landData (lor_mono hM rfl) k8))

theorem frame_fillInitial {M : Nat} {o s : State} (hM : 1063 ||| M = M) (h : Frame M o s) {f : Flight} {m : MemOutcome} :
    Frame1 M o (State.fillInitial s f m) := by
  unfold State.fillInitial
  split
  · rename_i y1 y2 y3 y4 e5
    have k6 : Frame M o y4 := Frame3.of_eq e5 (frame_readEnd (lor_mono hM rfl) h)
    refine Frame1.mk ?_
    split
    · rename_i y7 e8
      exact k6
    · rename_i y9 y10 e11
      exact frame_ite (frame_setStream (lor_mono hM rfl) k6) k6

theorem frame_weightLanded {M : Nat} {o s : State} (hM : 529191 ||| M = M) (h : Frame M o s) {b : BuiltIn} {region : Nat} :
    Frame M o (State.weightLanded s b region) := by
  unfold State.weightLanded
  split
  · rename_i y1 y2 y3 y4 e5 e6
    extract_lets v7 s8 v9
    have k10 : Frame M o s8 := frame_foldl h (fun x11 x12 k13 => frame_count (lor_mono hM rfl) k13)
    clear_value v7 s8 v9
    exact frame_ite (frame_setRegion (lor_mono hM rfl) (frame_dropBuiltIn (lor_mono hM rfl) h)) (frame_ite (frame_with_dma (lor_mono hM rfl) k10) (frame_weightFails (lor_mono hM rfl) (frame_dropBuiltIn (lor_mono hM rfl) h)))
  · rename_i y14 y15 y16
    exact frame_dropBuiltIn (lor_mono hM rfl) h

theorem frame_zeroCounters {M : Nat} {o s : State} (hM : 519 ||| M = M) (h : Frame M o s) {a : Nat} :
    Frame M o (State.zeroCounters s a) := by
  unfold State.zeroCounters
  extract_lets s1 s2 s3
  have k4 : Frame M o s1 := frame_lpNarrowPut (lor_mono hM rfl) h
  have k5 : Frame M o s2 := frame_lpNarrowPut (lor_mono hM rfl) k4
  have k6 : Frame M o s3 := frame_lpNarrowPut (lor_mono hM rfl) k5
  clear_value s1 s2 s3
  exact frame_lpNarrowPut (lor_mono hM rfl) k6

theorem frame_builtDone {M : Nat} {o s : State} (hM : 571191 ||| M = M) (h : Frame M o s) {b : BuiltIn} :
    Frame M o (State.builtDone s b) := by
  unfold State.builtDone
  extract_lets v1 s2
  have k3 : Frame M o s2 := frame_dropBuiltIn (lor_mono hM rfl) h
  clear_value v1 s2
  split
  · rename_i y4 y5 e6
    exact frame_weightLanded (lor_mono hM rfl) h
  · rename_i y7 y8
    split
    · rename_i y9 y10 e11
      exact frame_setStream (lor_mono hM rfl) k3
    · rename_i y12 e13
      exact frame_setStream (lor_mono hM rfl) k3
    · rename_i y14 e15
      split
      · rename_i y16 e17
        exact k3
      · rename_i y18 y19 e20
        exact frame_setStream (lor_mono hM rfl) (frame_zeroCounters (lor_mono hM rfl) k3)
    · rename_i y21 e22
      exact frame_settleWatch (lor_mono hM rfl) (frame_puntyStart (lor_mono hM rfl) k3)
    · rename_i y23 e24
      exact frame_settleWatch (lor_mono hM rfl) (frame_puntyStart (lor_mono hM rfl) k3)
    · rename_i y25 y26 e27
      exact frame_puntyDone (lor_mono hM rfl) k3
    · rename_i y28 y29 e30
      exact frame_rotationDone (lor_mono hM rfl) k3
    · rename_i y31 y32 y33 y34 y35 y36 y37 y38
      exact k3

theorem frame_leaveFlight {M : Nat} {o s : State} (hM : 4099 ||| M = M) (h : Frame M o s) {f : Flight} :
    Frame M o (State.leaveFlight s f) := by
  unfold State.leaveFlight
  extract_lets s1
  have k2 : Frame M o s1 := frame_with_dma (lor_mono hM rfl) h
  clear_value s1
  exact frame_syncGth (lor_mono hM rfl) (frame_evtCount (lor_mono hM rfl) (frame_count64 (lor_mono hM rfl) k2))

theorem frame_flightOver {M : Nat} {o s : State} (hM : 2013175 ||| M = M) (h : Frame M o s) {f : Flight} {poison : Bool} :
    Frame M o (State.flightOver s f poison) := by
  unfold State.flightOver
  split
  · rename_i y1 y2 y3 e4
    extract_lets s5
    have k6 : Frame M o s5 := frame_setWalk (lor_mono hM rfl) h
    clear_value s5
    exact frame_pumpPrograms (lor_mono hM rfl) k6
  · rename_i y7 y8 e9
    split
    · rename_i y10 e11
      exact h
    · rename_i y12 y13 e14
      refine frame_ite (frame_streamFault (lor_mono hM rfl) (frame_dropBuiltIn (lor_mono hM rfl) h)) ?_
      refine frame_ite (frame_streamFault (lor_mono hM rfl) (frame_dropBuiltIn (lor_mono hM rfl) h)) ?_
      refine frame_ite ?_ h
      extract_lets s15
      have k16 : Frame M o s15 := frame_builtDone (lor_mono hM rfl) h
      clear_value s15
      exact frame_ite (frame_choose (lor_mono hM rfl) k16) k16

theorem frame_endFlight {M : Nat} {o s : State} (hM : 2013175 ||| M = M) (h : Frame M o s) {f : Flight} {poison : Bool} :
    Frame M o (State.endFlight s f poison) := by
  unfold State.endFlight
  exact frame_flightOver (lor_mono hM rfl) (frame_leaveFlight (lor_mono hM rfl) h)

theorem frame_failFlight {M : Nat} {o s : State} (hM : 528935 ||| M = M) (h : Frame M o s) {f : Flight} :
    Frame M o (State.failFlight s f) := by
  unfold State.failFlight
  exact frame_xferFault (lor_mono hM rfl) (frame_syncGth (lor_mono hM rfl) (frame_with_dma (lor_mono hM rfl) h))

theorem frame_landFlight {M : Nat} {o s : State} (hM : 2015223 ||| M = M) (h : Frame M o s) {f : Flight} {m : MemOutcome} :
    Frame M o (State.landFlight s f m) := by
  unfold State.landFlight
  extract_lets v1 v2 s3
  have k4 : Frame M o s3 := frame_ite (frame_wr (lor_mono hM rfl) h) h
  clear_value v1 v2 s3
  refine frame_ite (frame_failFlight (lor_mono hM rfl) h) ?_
  split
  · rename_i y5 y6 y7 e8
    have k9 : Frame M o y6 := Frame1.of_eq e8 (Frame1.ite (frame_fillInitial (lor_mono hM rfl) k4) (frame_perform (lor_mono hM rfl) k4))
    exact frame_endFlight (lor_mono hM rfl) k9

theorem frame_execGatherTransferIssue {M : Nat} {o s : State} (hM : 2013175 ||| M = M) (h : Frame M o s) {bench : Nat} :
    FrameNext M o (execGatherTransferIssue bench s) := by
  unfold execGatherTransferIssue
  extract_lets s1
  have k2 : Frame M o s1 := frame_begin_ (lor_mono hM rfl) h
  clear_value s1
  exact FrameNext.next (frame_ite k2 (frame_gatherIssue (lor_mono hM rfl) k2))

theorem frame_execTransferLand {M : Nat} {o s : State} (hM : 2015223 ||| M = M) (h : Frame M o s) {id : Nat} {m : MemOutcome} :
    FrameNext M o (execTransferLand id m s) := by
  unfold execTransferLand
  extract_lets s1
  have k2 : Frame M o s1 := frame_begin_ (lor_mono hM rfl) h
  clear_value s1
  refine FrameNext.next ?_
  split
  · rename_i y3 e4
    exact k2
  · rename_i y5 y6 e7
    exact frame_ite k2 (frame_landFlight (lor_mono hM rfl) (frame_noteSoft (lor_mono hM rfl) k2))

theorem frame_execLpddrDeferExpire {M : Nat} {o s : State} (hM : 4096 ||| M = M) (h : Frame M o s) {id : Nat} :
    FrameNext M o (execLpddrDeferExpire id s) := by
  unfold execLpddrDeferExpire
  extract_lets s1
  have k2 : Frame M o s1 := frame_begin_ (lor_mono hM rfl) h
  clear_value s1
  exact FrameNext.next (frame_with_dma (lor_mono hM rfl) k2)

theorem frame_aptBegin {M : Nat} {o s : State} (hM : 32769 ||| M = M) (h : Frame M o s) {p : Nat} :
    Frame M o (State.aptBegin s p) := by
  unfold State.aptBegin
  extract_lets s1 s2 s3 s4
  have k5 : Frame M o s1 := frame_setAport (lor_mono hM rfl) h
  have k6 : Frame M o s2 := frame_wr (lor_mono hM rfl) (frame_wr (lor_mono hM rfl) (frame_wr (lor_mono hM rfl) k5))
  have k7 : Frame M o s3 := frame_wr (lor_mono hM rfl) (frame_wr (lor_mono hM rfl) k6)
  have k8 : Frame M o s4 := frame_setAport (lor_mono hM rfl) k7
  clear_value s1 s2 s3 s4
  exact frame_idleSlots (lor_mono hM rfl) (frame_driveClocks (lor_mono hM rfl) k8)

theorem frame_aptEnable {M : Nat} {o s : State} (hM : 32769 ||| M = M) (h : Frame M o s) {p : Nat} {v : Nat} :
    Frame M o (State.aptEnable s p v) := by
  unfold State.aptEnable
  extract_lets v1
  clear_value v1
  exact frame_ite (frame_aptHalt (lor_mono hM rfl) (frame_wr (lor_mono hM rfl) h)) (frame_ite (frame_ite h (frame_aptBegin (lor_mono hM rfl) h)) (frame_ite (frame_wr (lor_mono hM rfl) h) h))

theorem frame_aptPrerollEnd {M : Nat} {o s : State} (hM : 32769 ||| M = M) (h : Frame M o s) {p : Nat} :
    Frame M o (State.aptPrerollEnd s p) := by
  unfold State.aptPrerollEnd
  refine frame_ite h ?_
  refine frame_ite h ?_
  extract_lets s1
  have k2 : Frame M o s1 := frame_setAport (lor_mono hM rfl) (frame_wr (lor_mono hM rfl) h)
  clear_value s1
  exact frame_idleSlots (lor_mono hM rfl) k2

theorem frame_keepStamp {M : Nat} {o s : State} (hM : 1 ||| M = M) (h : Frame M o s) {p : Nat} :
    Frame M o (State.keepStamp s p) := by
  unfold State.keepStamp
  extract_lets v1 s2 v3
  have k4 : Frame M o s2 := frame_wr (lor_mono hM rfl) (frame_wr (lor_mono hM rfl) h)
  clear_value v1 s2 v3
  exact frame_ite k4 (frame_wr (lor_mono hM rfl) (frame_wr (lor_mono hM rfl) (frame_wr (lor_mono hM rfl) k4)))

theorem frame_aptStopEnd {M : Nat} {o s : State} (hM : 32769 ||| M = M) (h : Frame M o s) {p : Nat} :
    Frame M o (State.aptStopEnd s p) := by
  unfold State.aptStopEnd
  refine frame_ite h ?_
  extract_lets s1
  have k2 : Frame M o s1 := frame_put (lor_mono hM rfl) (frame_wr (lor_mono hM rfl) (frame_wr (lor_mono hM rfl) (frame_keepStamp (lor_mono hM rfl) h)))
  clear_value s1
  exact frame_ite (frame_aptBegin (lor_mono hM rfl) k2) k2

theorem frame_aptSamples {M : Nat} {o s : State} (hM : 32769 ||| M = M) (h : Frame M o s) {p : Nat} {frames : List (List Nat)} :
    Frame1 M o (State.aptSamples s p frames) := by
  unfold State.aptSamples
  extract_lets v1 v2 v3 v4 v5 v6
  have k7 : ∀ (x8 : State × List (List Nat) × List Int × List (List Int)) (x9 : Nat), Frame1 M o x8 → Frame1 M o (v6 x8 x9) := by
    intro x8 x9 k10
    unfold v6
    split
    · rename_i y11 y12 y13 y14 y15
      extract_lets v16 v17 v18 v19
      clear_value v16 v17 v18 v19
      refine Frame1.ite (Frame1.mk k10.get) ?_
      split
      · rename_i y20 y21 y22 y23 y24 e25
        extract_lets s26 s27 v28 v29
        have k30 : Frame M o s26 := frame_ite k10.get (frame_count (lor_mono hM rfl) k10.get)
        have k31 : Frame M o s27 := frame_ite k30 (frame_count (lor_mono hM rfl) k30)
        clear_value s26 s27 v28 v29
        exact Frame1.ite (Frame1.mk k31) (Frame1.mk k31)
  clear_value v1 v2 v3 v4 v5 v6
  split
  · rename_i y32 y33 y34 y35 y36 e37
    have k38 : Frame M o y33 := Frame1.of_eq e37 (frame_foldl1 (Frame1.mk h) (fun x39 x40 k41 => k7 _ _ k41))
    exact Frame1.mk (frame_setAport (lor_mono hM rfl) k38)

theorem frame_noteOverrun {M : Nat} {o s : State} (hM : 5 ||| M = M) (h : Frame M o s) {p : Nat} {n : Nat} {pin : Nat} {first : Bool} :
    Frame M o (State.noteOverrun s p n pin first) := by
  unfold State.noteOverrun
  extract_lets s1
  have k2 : Frame M o s1 := frame_setErr (lor_mono hM rfl) (frame_count (lor_mono hM rfl) h)
  clear_value s1
  exact frame_ite (frame_wr64 (lor_mono hM rfl) k2) k2

theorem frame_landFrames {M : Nat} {o s : State} (hM : 570023 ||| M = M) (h : Frame M o s) {p : Nat} {frames : List (List Nat)} {pin : Nat} {stamp : Nat} :
    Frame M o (State.landFrames s p frames pin stamp) := by
  unfold State.landFrames
  extract_lets v1 v2
  clear_value v1 v2
  split
  · rename_i y3 y4 y5 e6
    have k7 : Frame M o y4 := Frame1.of_eq e6 (frame_aptSamples (lor_mono hM rfl) h)
    extract_lets v8 v9 s10
    have k11 : ∀ (x12 : State) (x13 : Stream), Frame M o x12 → Frame M o (v9 x12 x13) := by
      intro x12 x13 k14
      unfold v9
      extract_lets s15 v16 s17 s18 v19
      have k20 : Frame M o s15 := frame_ite k14 (frame_fillMissing (lor_mono hM rfl) k14)
      have k21 : Frame M o s17 := frame_landBlock (lor_mono hM rfl) k20
      have k22 : Frame M o s18 := frame_ite (frame_setStream (lor_mono hM rfl) k21) k21
      clear_value s15 v16 s17 s18 v19
      exact frame_ite k22 (frame_noteOverrun (lor_mono hM rfl) k22)
    have k23 : Frame M o s10 := frame_foldl k7 (fun x24 x25 k26 => k11 _ _ k26)
    clear_value v8 v9 s10
    exact frame_setAport (lor_mono hM rfl) k23

theorem frame_inputBlock {M : Nat} {o s : State} (hM : 2013175 ||| M = M) (h : Frame M o s) {p : Nat} {frames : List (List Nat)} {pin : Nat} {pend : Nat} :
    Frame M o (State.inputBlock s p frames pin pend) := by
  unfold State.inputBlock
  extract_lets v1 v2 v3 s4 s5 s6 s7
  have k8 : Frame M o s4 := h
  have k9 : Frame M o s5 := frame_knowFrame (lor_mono hM rfl) (frame_setAport (lor_mono hM rfl) h)
  have k10 : Frame M o s6 := frame_landFrames (lor_mono hM rfl) k9
  have k11 : Frame M o s7 := frame_wr (lor_mono hM rfl) (frame_wr (lor_mono hM rfl) k10)
  clear_value v1 v2 v3 s4 s5 s6 s7
  exact frame_ite h (frame_chooseIfReady (lor_mono hM rfl) (frame_settleWatch (lor_mono hM rfl) (frame_wr (lor_mono hM rfl) k11)))

theorem frame_loseLock {M : Nat} {o s : State} (hM : 570023 ||| M = M) (h : Frame M o s) {p : Nat} {frames : List (List Nat)} {pin : Nat} {pend : Nat} :
    Frame M o (State.loseLock s p frames pin pend) := by
  unfold State.loseLock
  refine frame_ite h ?_
  extract_lets v1 v2 v3 s4 s5 s6
  have k7 : Frame M o s4 := frame_ite (frame_landFrames (lor_mono hM rfl) h) h
  have k8 : Frame M o s5 := frame_count (lor_mono hM rfl) (frame_wr (lor_mono hM rfl) k7)
  have k9 : Frame M o s6 := frame_setErr (lor_mono hM rfl) k8
  clear_value v1 v2 v3 s4 s5 s6
  exact frame_setAport (lor_mono hM rfl) k9

theorem frame_gainLock {M : Nat} {o s : State} (hM : 2013175 ||| M = M) (h : Frame M o s) {p : Nat} {gap : Nat} :
    Frame M o (State.gainLock s p gap) := by
  unfold State.gainLock
  refine frame_ite h ?_
  extract_lets s1 v2 s3 v4 v5 s6
  have k7 : Frame M o s1 := frame_wr (lor_mono hM rfl) h
  have k8 : Frame M o s3 := k7
  have k9 : ∀ (x10 : State) (x11 : Stream), Frame M o x10 → Frame M o (v4 x10 x11) := by
    intro x10 x11 k12
    unfold v4
    extract_lets v13 v14 s15 s16
    have k17 : Frame M o s15 := frame_landRun (lor_mono hM rfl) k12
    have k18 : Frame M o s16 := frame_setErr (lor_mono hM rfl) (frame_count (lor_mono hM rfl) k17)
    clear_value v13 v14 s15 s16
    exact frame_ite k12 (frame_ite k17 (frame_ite (frame_wr64 (lor_mono hM rfl) k18) k18))
  have k19 : Frame M o s6 := frame_ite (frame_foldl k7 (fun x20 x21 k22 => k9 _ _ k22)) k7
  clear_value s1 v2 s3 v4 v5 s6
  exact frame_ite (frame_ite k7 (frame_setAport (lor_mono hM rfl) k7)) (frame_chooseIfReady (lor_mono hM rfl) (frame_settleWatch (lor_mono hM rfl) (frame_setAport (lor_mono hM rfl) k19)))

theorem frame_iecBlock {M : Nat} {o s : State} (hM : 5 ||| M = M) (h : Frame M o s) {p : Nat} {status : List Bool} {user : List Bool} :
    Frame M o (State.iecBlock s p status user) := by
  unfold State.iecBlock
  refine frame_ite h ?_
  extract_lets v1 v2 s3
  have k4 : Frame M o s3 := frame_foldl h (fun x5 x6 k7 => frame_wrAt (lor_mono hM rfl) k7)
  clear_value v1 v2 s3
  exact frame_ite (frame_setErr (lor_mono hM rfl) (frame_count (lor_mono hM rfl) k4)) (frame_foldl k4 (fun x8 x9 k10 => frame_wrAt (lor_mono hM rfl) (frame_wrAt (lor_mono hM rfl) k10)))

theorem frame_takeChunk {M : Nat} {o s : State} (hM : 32807 ||| M = M) (h : Frame M o s) {t : Stream} {frame : Nat} {pin : Nat} :
    Frame M o (State.takeChunk s t frame pin) := by
  unfold State.takeChunk
  extract_lets v1 v2 v3 v4 v5 v6 v7 v8 v9 v10 v11
  clear_value v1 v2 v3 v4 v5 v6 v7 v8 v9 v10 v11
  refine frame_ite h ?_
  split
  · rename_i y12 y13 y14 e15
    have k16 : Frame M o y14 := by
      refine Frame2.of_eq e15 ?_
      split
      · rename_i y17 y18 y19
        split
        · rename_i y20 y21 y22 e23
          have k24 : Frame M o y22 := Frame2.of_eq e23 (frame_narrowRead (lor_mono hM rfl) h)
          exact Frame2.mk k24
      · rename_i y25
        exact Frame2.mk h
    extract_lets s26 v27 s28 v29 v30 s31 s32
    have k33 : Frame M o s26 := frame_ite k16 (frame_setErr (lor_mono hM rfl) (frame_wr64 (lor_mono hM rfl) (frame_count (lor_mono hM rfl) k16)))
    have k34 : Frame M o s28 := frame_ite k33 (frame_knowFrame (lor_mono hM rfl) k33)
    have k35 : Frame M o s31 := frame_setAport (lor_mono hM rfl) k34
    have k36 : Frame M o s32 := frame_setStream (lor_mono hM rfl) k35
    clear_value s26 v27 s28 v29 v30 s31 s32
    exact frame_ite (frame_sendAhead (lor_mono hM rfl) k36) (frame_put (lor_mono hM rfl) k36)

theorem frame_setTrim {M : Nat} {o s : State} (hM : 32769 ||| M = M) (h : Frame M o s) {i : Nat} {trim : Int} :
    Frame M o (State.setTrim s i trim) := by
  unfold State.setTrim
  extract_lets v1 s2 v3 s4
  have k5 : Frame M o s2 := frame_foldl h (fun x6 x7 k8 => frame_rebase (lor_mono hM rfl) k8)
  have k9 : Frame M o s4 := frame_wrAt (lor_mono hM rfl) k5
  clear_value v1 s2 v3 s4
  exact frame_ite k9 (frame_retimeStops (lor_mono hM rfl) (frame_foldl k9 (fun x10 x11 k12 => frame_driveClocks (lor_mono hM rfl) k12)))

theorem frame_seePins {M : Nat} {o s : State} (hM : 32768 ||| M = M) (h : Frame M o s) {pins : List (Nat × Nat × Nat)} :
    Frame M o (State.seePins s pins) := by
  unfold State.seePins
  exact frame_foldl h (fun x1 x2 k3 => frame_ite k3 (frame_knowFrame (lor_mono hM rfl) k3))

theorem frame_steer {M : Nat} {o s : State} (hM : 32769 ||| M = M) (h : Frame M o s) {i : Nat} :
    Frame M o (State.steer s i) := by
  unfold State.steer
  extract_lets v1 s2 v3 v4 v5 v6 v7 v8 v9 v10 v11 v12 v13 v14 v15 s16 s17 s18
  have k19 : Frame M o s2 := frame_setGen (lor_mono hM rfl) h
  have k20 : Frame M o s16 := frame_setGen (lor_mono hM rfl) k19
  have k21 : Frame M o s17 := frame_wrAt (lor_mono hM rfl) (frame_setTrim (lor_mono hM rfl) k20)
  have k22 : Frame M o s18 := frame_wrAt (lor_mono hM rfl) (frame_wrAt (lor_mono hM rfl) k21)
  clear_value v1 s2 v3 v4 v5 v6 v7 v8 v9 v10 v11 v12 v13 v14 v15 s16 s17 s18
  exact frame_ite h (frame_ite (frame_setGen (lor_mono hM rfl) (frame_wrAt (lor_mono hM rfl) k19)) (frame_wrAt (lor_mono hM rfl) (frame_wrAt (lor_mono hM rfl) k22)))

theorem frame_execInputBlockLand {M : Nat} {o s : State} (hM : 2013175 ||| M = M) (h : Frame M o s) {port : Nat} {codes : List (List Nat)} {pinTime : Nat} {lastEnd : Nat} :
    FrameNext M o (execInputBlockLand port codes pinTime lastEnd s) := by
  unfold execInputBlockLand
  exact FrameNext.next (frame_inputBlock (lor_mono hM rfl) (frame_begin_ (lor_mono hM rfl) h))

theorem frame_execOutputTake {M : Nat} {o s : State} (hM : 32807 ||| M = M) (h : Frame M o s) {entry : Nat} {frame : Nat} {pin : Nat} :
    FrameNext M o (execOutputTake entry frame pin s) := by
  unfold execOutputTake
  extract_lets s1
  have k2 : Frame M o s1 := frame_begin_ (lor_mono hM rfl) h
  clear_value s1
  refine FrameNext.next ?_
  split
  · rename_i y3 y4 e5
    exact frame_takeChunk (lor_mono hM rfl) k2
  · rename_i y6 e7
    exact k2

theorem frame_execIecBlockReceive {M : Nat} {o s : State} (hM : 5 ||| M = M) (h : Frame M o s) {port : Nat} {status : List Bool} {user : List Bool} :
    FrameNext M o (execIecBlockReceive port status user s) := by
  unfold execIecBlockReceive
  exact FrameNext.next (frame_iecBlock (lor_mono hM rfl) (frame_begin_ (lor_mono hM rfl) h))

theorem frame_execLockLoss {M : Nat} {o s : State} (hM : 570023 ||| M = M) (h : Frame M o s) {port : Nat} {codes : List (List Nat)} {pinTime : Nat} {lastEnd : Nat} :
    FrameNext M o (execLockLoss port codes pinTime lastEnd s) := by
  unfold execLockLoss
  exact FrameNext.next (frame_loseLock (lor_mono hM rfl) (frame_begin_ (lor_mono hM rfl) h))

theorem frame_execLockAcquire {M : Nat} {o s : State} (hM : 2013175 ||| M = M) (h : Frame M o s) {port : Nat} {gap : Nat} :
    FrameNext M o (execLockAcquire port gap s) := by
  unfold execLockAcquire
  exact FrameNext.next (frame_gainLock (lor_mono hM rfl) (frame_begin_ (lor_mono hM rfl) h))

theorem frame_execAptStart {M : Nat} {o s : State} (hM : 32773 ||| M = M) (h : Frame M o s) {port : Nat} :
    FrameNext M o (execAptStart port s) := by
  unfold execAptStart
  exact FrameNext.next (frame_gated (lor_mono hM rfl) (frame_begin_ (lor_mono hM rfl) h) (fun x1 k2 => frame_aptEnable (lor_mono hM rfl) k2))

theorem frame_execAptStop {M : Nat} {o s : State} (hM : 32773 ||| M = M) (h : Frame M o s) {port : Nat} :
    FrameNext M o (execAptStop port s) := by
  unfold execAptStop
  exact FrameNext.next (frame_gated (lor_mono hM rfl) (frame_begin_ (lor_mono hM rfl) h) (fun x1 k2 => frame_aptEnable (lor_mono hM rfl) k2))

theorem frame_execPrerollEnd {M : Nat} {o s : State} (hM : 32769 ||| M = M) (h : Frame M o s) {port : Nat} :
    FrameNext M o (execPrerollEnd port s) := by
  unfold execPrerollEnd
  exact FrameNext.next (frame_aptPrerollEnd (lor_mono hM rfl) (frame_begin_ (lor_mono hM rfl) h))

theorem frame_execStopEnd {M : Nat} {o s : State} (hM : 32769 ||| M = M) (h : Frame M o s) {port : Nat} :
    FrameNext M o (execStopEnd port s) := by
  unfold execStopEnd
  exact FrameNext.next (frame_aptStopEnd (lor_mono hM rfl) (frame_begin_ (lor_mono hM rfl) h))

theorem frame_execSteerUpdate {M : Nat} {o s : State} (hM : 32769 ||| M = M) (h : Frame M o s) {gen : Nat} {pins : List (Nat × Nat × Nat)} :
    FrameNext M o (execSteerUpdate gen pins s) := by
  unfold execSteerUpdate
  exact FrameNext.next (frame_steer (lor_mono hM rfl) (frame_seePins (lor_mono hM rfl) (frame_begin_ (lor_mono hM rfl) h)))

end Sys2Proof.Machine
end

