-- ==== Sys2Proof/Laws/FrameParison.lean ====
section
/-! SUPPORT. The functions of Machine/Parison.lean, Machine/Failover.lean change only the parts of the state named by a mask. -/
namespace Sys2Proof.Machine
open Sys2Proof

set_option Elab.async false

theorem frame_commitGate {M : Nat} {o s : State} (hM : 5 ||| M = M) (h : Frame M o s) {f : State → State} (hf : ∀ x0, Frame M o x0 → Frame M o (f x0)) :
    Frame M o (State.commitGate s f) := by
  unfold State.commitGate
  exact frame_gated (lor_mono hM rfl) h (fun x1 k2 => frame_ite (frame_setErr (lor_mono hM rfl) k2) (hf _ k2))

theorem frame_setWhere {M : Nat} {o s : State} (hM : 1 ||| M = M) (h : Frame M o s) {kind : Nat} {where_ : Nat} {entry : Nat} :
    Frame M o (State.setWhere s kind where_ entry) := by
  unfold State.setWhere
  exact frame_wr (lor_mono hM rfl) (frame_wr (lor_mono hM rfl) (frame_wr (lor_mono hM rfl) h))

theorem frame_startCheck {M : Nat} {o s : State} (hM : 5 ||| M = M) (h : Frame M o s) :
    Frame M o (State.startCheck s) := by
  unfold State.startCheck
  exact frame_commitGate (lor_mono hM rfl) h (fun x1 k2 => frame_ite (frame_setCode (lor_mono hM rfl) k2) (frame_ite (frame_setCode (lor_mono hM rfl) k2) (frame_wr (lor_mono hM rfl) k2)))

theorem frame_checkResult {M : Nat} {o s : State} (hM : 17 ||| M = M) (h : Frame M o s) {r : Except Refuse (List Image × State)} :
    Frame M o (State.checkResult s r) := by
  unfold State.checkResult
  split
  · rename_i y1 y2
    extract_lets v3 s4
    have k5 : Frame M o s4 := frame_with_par (lor_mono hM rfl) h
    clear_value s4
    exact frame_setWhere (lor_mono hM rfl) (frame_setCode (lor_mono hM rfl) (frame_setParState (lor_mono hM rfl) k5))
  · rename_i y6 y7 y8
    extract_lets v9 v10 s11
    have k12 : Frame M o s11 := frame_setClaims (lor_mono hM rfl) (frame_with_par (lor_mono hM rfl) h)
    clear_value v9 s11
    exact frame_setWhere (lor_mono hM rfl) (frame_setCode (lor_mono hM rfl) (frame_setParState (lor_mono hM rfl) k12))

theorem frame_checkArm {M : Nat} {o s : State} (hM : 1031 ||| M = M) (h : Frame M o s) {e : Nat} :
    Frame M o (State.checkArm s e) := by
  unfold State.checkArm
  extract_lets v1 v2 v3 s4 s5
  have k6 : Frame M o s4 := frame_ite h (Frame2.get (frame_devRead (lor_mono hM rfl) h))
  have k7 : Frame M o s5 := frame_ite k6 (Frame2.get (frame_devRead (lor_mono hM rfl) k6))
  clear_value v1 v2 v3 s4 s5
  exact frame_ite h (frame_ite k7 (Frame2.get (frame_devRead (lor_mono hM rfl) k7)))

theorem frame_checkImage {M : Nat} {o s : State} (hM : 1031 ||| M = M) (h : Frame M o s) {id : Nat} :
    Frame M o (State.checkImage s id) := by
  unfold State.checkImage
  split
  · rename_i y1 y2 y3 y4 e5
    exact frame_ite h (frame_bulkRead (lor_mono hM rfl) h)

theorem frame_checkReads {M : Nat} {o s : State} (hM : 529959 ||| M = M) (h : Frame M o s) :
    Frame M o (State.checkReads s) := by
  unfold State.checkReads
  extract_lets s1
  have k2 : Frame M o s1 := by
    refine frame_foldl h ?_
    intro x3 x4 k5
    extract_lets s6
    have k7 : Frame M o s6 := frame_gafRead (lor_mono hM rfl) k5
    clear_value s6
    exact frame_checkArm (lor_mono hM rfl) (Frame2.get (frame_devRead (lor_mono hM rfl) k7))
  clear_value s1
  exact frame_foldl k2 (fun x8 x9 k10 => frame_checkImage (lor_mono hM rfl) k10)

theorem frame_endCheck_ {M : Nat} {o s : State} (hM : 529975 ||| M = M) (h : Frame M o s) :
    Frame M o (State.endCheck_ s) := by
  unfold State.endCheck_
  extract_lets s1
  have k2 : Frame M o s1 := frame_checkReads (lor_mono hM rfl) (frame_wr (lor_mono hM rfl) h)
  clear_value s1
  exact frame_checkResult (lor_mono hM rfl) k2

theorem frame_startApply {M : Nat} {o s : State} (hM : 21 ||| M = M) (h : Frame M o s) {whenBit : Nat} :
    Frame M o (State.startApply s whenBit) := by
  unfold State.startApply
  refine frame_commitGate (lor_mono hM rfl) h ?_
  intro x1 k2
  refine frame_ite (frame_setCode (lor_mono hM rfl) k2) ?_
  extract_lets v3 v4 s5
  have k6 : Frame M o s5 := frame_with_par (lor_mono hM rfl) k2
  clear_value v3 s5
  exact frame_ite (frame_setCode (lor_mono hM rfl) k2) (frame_ite (frame_setCode (lor_mono hM rfl) k2) (frame_parWatch (lor_mono hM rfl) (frame_setCode (lor_mono hM rfl) (frame_setParState (lor_mono hM rfl) k6))))

theorem frame_takeStaged {M : Nat} {o s : State} (hM : 12293 ||| M = M) (h : Frame M o s) :
    Frame M o (State.takeStaged s) := by
  unfold State.takeStaged
  extract_lets s1 v2 s3
  have k4 : Frame M o s1 := frame_foldl h (fun x5 x6 k7 => frame_setWord (lor_mono hM rfl) k7)
  have k8 : Frame M o s3 := frame_with_lnk (lor_mono hM rfl) k4
  clear_value s1 s3
  exact frame_ite k4 (frame_reroute (lor_mono hM rfl) k8)

theorem frame_applyTally {M : Nat} {o s : State} (hM : 786437 ||| M = M) (h : Frame M o s) :
    Frame M o (State.applyTally s) := by
  unfold State.applyTally
  extract_lets v1 s2 s3 v4 s5 s6 v7 s8
  have k9 : Frame M o s2 := frame_wr (lor_mono hM rfl) h
  have k10 : Frame M o s3 := frame_wrSh (lor_mono hM rfl) k9
  have k11 : Frame M o s5 := frame_ite (frame_with_tly (lor_mono hM rfl) k10) k10
  have k12 : Frame M o s6 := frame_ite (frame_wr (lor_mono hM rfl) k11) k11
  have k13 : Frame M o s8 := frame_with_tly (lor_mono hM rfl) k12
  clear_value v1 s2 s3 s5 s6 s8
  exact frame_tallyCarry (lor_mono hM rfl) (frame_syncTally (lor_mono hM rfl) (frame_extendM (lor_mono hM rfl) k13))

theorem frame_applyFleet {M : Nat} {o s : State} (hM : 263175 ||| M = M) (h : Frame M o s) :
    Frame M o (State.applyFleet s) := by
  unfold State.applyFleet
  extract_lets v1 s2 v3
  have k4 : Frame M o s2 := Frame2.get (frame_devRead (lor_mono hM rfl) h)
  clear_value v1 s2
  exact frame_ite k4 (frame_extendM (lor_mono hM rfl) (frame_with_sec (lor_mono hM rfl) k4))

theorem frame_zeroTable {M : Nat} {o s : State} (hM : 519 ||| M = M) (h : Frame M o s) {b : Nat} :
    Frame M o (State.zeroTable s b) := by
  unfold State.zeroTable
  extract_lets v1 v2 v3 v4 v5 v6 s7
  have k8 : Frame M o s7 := frame_foldl (frame_zeroLp (lor_mono hM rfl) h) (fun x9 x10 k11 => frame_evtDev (lor_mono hM rfl) (frame_count (lor_mono hM rfl) k11))
  clear_value v1 v2 v3 v4 v5 v6 s7
  exact frame_ite (frame_unmappedErr (lor_mono hM rfl) k8) k8

theorem frame_applyBase {M : Nat} {o s : State} (hM : 551 ||| M = M) (h : Frame M o s) :
    Frame M o (State.applyBase s) := by
  unfold State.applyBase
  extract_lets v1 s2 v3
  have k4 : Frame M o s2 := frame_zeroTable (lor_mono hM rfl) h
  clear_value v1 s2
  exact frame_with_gaf (lor_mono hM rfl) k4

theorem frame_applyMapout {M : Nat} {o s : State} (hM : 1 ||| M = M) (h : Frame M o s) {i : Nat} :
    Frame M o (State.applyMapout s i) := by
  unfold State.applyMapout
  extract_lets v1
  clear_value v1
  exact frame_wr (lor_mono hM rfl) h

theorem frame_applyGen {M : Nat} {o s : State} (hM : 32769 ||| M = M) (h : Frame M o s) {i : Nat} :
    Frame M o (State.applyGen s i) := by
  unfold State.applyGen
  extract_lets v1 s2
  have k3 : Frame M o s2 := frame_setGen (lor_mono hM rfl) h
  clear_value v1 s2
  exact frame_ite (frame_wrAt (lor_mono hM rfl) k3) k3

theorem frame_applyPtp {M : Nat} {o s : State} (hM : 16389 ||| M = M) (h : Frame M o s) :
    Frame M o (State.applyPtp s) := by
  unfold State.applyPtp
  extract_lets v1 s2 s3 s4 v5
  have k6 : Frame M o s2 := frame_ite (frame_setErrLog (lor_mono hM rfl) h) h
  have k7 : Frame M o s3 := frame_ite k6 (frame_publish (lor_mono hM rfl) k6)
  have k8 : Frame M o s4 := frame_wr (lor_mono hM rfl) k7
  clear_value v1 s2 s3
  exact frame_ite (frame_with_servo (lor_mono hM rfl) k8) (frame_ite (frame_wr (lor_mono hM rfl) h) h)

theorem frame_applyMode {M : Nat} {o s : State} (hM : 274437 ||| M = M) (h : Frame M o s) {p : Nat} :
    Frame M o (State.applyMode s p) := by
  unfold State.applyMode
  refine frame_ite (frame_wr (lor_mono hM rfl) (frame_portToDown (lor_mono hM rfl) h)) ?_
  extract_lets s1
  have k2 : Frame M o s1 := frame_wr (lor_mono hM rfl) h
  clear_value s1
  exact frame_ite (frame_startTraining (lor_mono hM rfl) k2) k2

theorem frame_applyRegs {M : Nat} {o s : State} (hM : 1898095 ||| M = M) (h : Frame M o s) :
    Frame M o (State.applyRegs s) := by
  unfold State.applyRegs
  extract_lets v1 v2 v3 v4 v5 v6 v7 v8 v9 v10 s11 v12 s13 s14 s15 s16 s17 s18 s19 s20 s21 s22 s23 s24 s25
  have k26 : Frame M o s11 := frame_foldl h (fun x27 x28 k29 => frame_rebase (lor_mono hM rfl) k29)
  have k30 : Frame M o s13 := frame_ite (frame_closeInterval (lor_mono hM rfl) k26) k26
  have k31 : Frame M o s14 := frame_foldl k30 (fun x32 x33 k34 => frame_setAport (lor_mono hM rfl) k34)
  have k35 : Frame M o s15 := frame_takeStaged (lor_mono hM rfl) k31
  have k36 : Frame M o s16 := frame_wr (lor_mono hM rfl) k35
  have k37 : Frame M o s17 := frame_ite (frame_applyTally (lor_mono hM rfl) k36) k36
  have k38 : Frame M o s18 := frame_ite (frame_applyFleet (lor_mono hM rfl) k37) k37
  have k39 : Frame M o s19 := frame_ite (frame_applyBase (lor_mono hM rfl) k38) k38
  have k40 : Frame M o s20 := frame_ite (frame_applyPtp (lor_mono hM rfl) k39) k39
  have k41 : Frame M o s21 := frame_foldl k40 (fun x42 x43 k44 => frame_applyMode (lor_mono hM rfl) k44)
  have k45 : Frame M o s22 := frame_foldl k41 (fun x46 x47 k48 => frame_applyGen (lor_mono hM rfl) k48)
  have k49 : Frame M o s23 := frame_foldl k45 (fun x50 x51 k52 => frame_txChange (lor_mono hM rfl) k52)
  have k53 : Frame M o s24 := frame_foldl k49 (fun x54 x55 k56 => frame_applyMapout (lor_mono hM rfl) k56)
  have k57 : Frame M o s25 := frame_foldl k53 (fun x58 x59 k60 => frame_ite (frame_driveClocks (lor_mono hM rfl) k60) k60)
  clear_value v1 v2 v3 v4 v5 v6 v7 v8 v9 v10 s11 v12 s13 s14 s15 s16 s17 s18 s19 s20 s21 s22 s23 s24 s25
  exact frame_syncDamper (lor_mono hM rfl) (frame_syncRole (lor_mono hM rfl) (frame_retimeStops (lor_mono hM rfl) k57))

theorem frame_copyHost {M : Nat} {o s : State} (hM : 519 ||| M = M) (h : Frame M o s) {e : Nat} :
    Frame M o (State.copyHost s e) := by
  unfold State.copyHost
  extract_lets v1
  clear_value v1
  exact frame_foldl h (fun x2 x3 k4 => frame_lpNarrowPut (lor_mono hM rfl) k4)

theorem frame_armOn {M : Nat} {o s : State} (hM : 529959 ||| M = M) (h : Frame M o s) {e : Nat} {raw : List Byte} {m : Image} :
    Frame M o (State.armOn s e raw m) := by
  unfold State.armOn
  extract_lets v1 v2 v3 s4 s5 s6 s7 s8 s9
  have k10 : Frame M o s4 := frame_setState (lor_mono hM rfl) (frame_putStream (lor_mono hM rfl) h)
  have k11 : Frame M o s5 := frame_foldl k10 (fun x12 x13 k14 => frame_announceSession (lor_mono hM rfl) k14)
  have k15 : Frame M o s6 := frame_tallyArm (lor_mono hM rfl) (frame_kvArm (lor_mono hM rfl) k11)
  have k16 : Frame M o s7 := frame_ite (frame_storePunty (lor_mono hM rfl) k15) k15
  have k17 : Frame M o s8 := frame_ite (frame_gafRead (lor_mono hM rfl) (frame_addBuiltIn (lor_mono hM rfl) k16)) k16
  have k18 : Frame M o s9 := frame_ite (frame_gafRead (lor_mono hM rfl) k17) k17
  clear_value v1 v2 v3 s4 s5 s6 s7 s8 s9
  exact frame_gafRead (lor_mono hM rfl) k18

theorem frame_armImage {M : Nat} {o s : State} (hM : 529959 ||| M = M) (h : Frame M o s) {e : Nat} {raw : List Byte} :
    Frame M o (State.armImage s e raw) := by
  unfold State.armImage
  split
  · rename_i y1 e2
    exact h
  · rename_i y3 y4 e5
    exact frame_armOn (lor_mono hM rfl) h

theorem frame_arm {M : Nat} {o s : State} (hM : 529959 ||| M = M) (h : Frame M o s) {e : Nat} :
    Frame M o (State.arm s e) := by
  unfold State.arm
  extract_lets s1 s2
  have k3 : Frame M o s1 := frame_lpNarrowPut (lor_mono hM rfl) h
  have k4 : Frame M o s2 := frame_lpNarrowPut (lor_mono hM rfl) k3
  clear_value s1 s2
  exact frame_armImage (lor_mono hM rfl) k4

theorem frame_askPause {M : Nat} {o s : State} (hM : 32 ||| M = M) (h : Frame M o s) {e : Nat} :
    Frame M o (State.askPause s e) := by
  unfold State.askPause
  exact frame_setStream (lor_mono hM rfl) h

theorem frame_askRun {M : Nat} {o s : State} (hM : 551 ||| M = M) (h : Frame M o s) {e : Nat} :
    Frame M o (State.askRun s e) := by
  unfold State.askRun
  extract_lets s1
  have k2 : Frame M o s1 := frame_silence (lor_mono hM rfl) (frame_setState (lor_mono hM rfl) h)
  clear_value s1
  exact frame_setStream (lor_mono hM rfl) k2

theorem frame_askDrain {M : Nat} {o s : State} (hM : 561959 ||| M = M) (h : Frame M o s) {e : Nat} {live : Nat} :
    Frame M o (State.askDrain s e live) := by
  unfold State.askDrain
  exact frame_ite (frame_toIdle (lor_mono hM rfl) h) (frame_setState (lor_mono hM rfl) (frame_setStream (lor_mono hM rfl) h))

theorem frame_applyEntry {M : Nat} {o s : State} (hM : 562983 ||| M = M) (h : Frame M o s) {e : Nat} :
    Frame M o (State.applyEntry s e) := by
  unfold State.applyEntry
  extract_lets v1 v2 v3 v4 s5 s6
  have k7 : Frame M o s5 := frame_copyHost (lor_mono hM rfl) h
  have k8 : Frame M o s6 := frame_setStream (lor_mono hM rfl) k7
  clear_value v1 v2 v3 v4 s5 s6
  refine frame_ite k8 ?_
  split
  · rename_i y9
    exact frame_arm (lor_mono hM rfl) k8
  · rename_i y10
    exact frame_askRun (lor_mono hM rfl) k8
  · rename_i y11
    exact frame_askPause (lor_mono hM rfl) k8
  · rename_i y12
    exact frame_askDrain (lor_mono hM rfl) k8
  · rename_i y13 y14 y15 y16 y17
    exact frame_ite (frame_toIdle (lor_mono hM rfl) k8) (frame_setStream (lor_mono hM rfl) k8)

theorem frame_readApply {M : Nat} {o s : State} (hM : 562983 ||| M = M) (h : Frame M o s) {e : Nat} :
    Frame M o (State.readApply s e) := by
  unfold State.readApply
  exact frame_gafRead (lor_mono hM rfl) (frame_applyEntry (lor_mono hM rfl) h)

theorem frame_applyEntries {M : Nat} {o s : State} (hM : 562983 ||| M = M) (h : Frame M o s) {es : List Nat} :
    Frame M o (State.applyEntries s es) := by
  unfold State.applyEntries
  extract_lets v1
  clear_value v1
  exact frame_foldl h (fun x2 x3 k4 => frame_readApply (lor_mono hM rfl) k4)

theorem frame_applyAll {M : Nat} {o s : State} (hM : 1898495 ||| M = M) (h : Frame M o s) :
    Frame M o (State.applyAll s) := by
  unfold State.applyAll
  split
  · rename_i y1 y2 e3
    exact frame_reopen (lor_mono hM rfl) h
  · rename_i y4 e5
    extract_lets v6 v7 v8 v9 s10 s11 s12 s13 s14
    have k15 : Frame M o s10 := frame_applyRegs (lor_mono hM rfl) h
    have k16 : Frame M o s11 := frame_foldl k15 (fun x17 x18 k19 => frame_loadImage (lor_mono hM rfl) k19)
    have k20 : Frame M o s12 := frame_applyEntries (lor_mono hM rfl) k16
    have k21 : Frame M o s13 := frame_syncCodebooks (lor_mono hM rfl) (frame_setClaims (lor_mono hM rfl) (frame_syncStaged (lor_mono hM rfl) (frame_with_par (lor_mono hM rfl) k20)))
    have k22 : Frame M o s14 := frame_wr (lor_mono hM rfl) (frame_wr (lor_mono hM rfl) k21)
    clear_value v6 v7 v8 v9 s10 s11 s12 s13 s14
    exact frame_setCode (lor_mono hM rfl) (frame_setParState (lor_mono hM rfl) (frame_wr (lor_mono hM rfl) k22))

theorem frame_abandonCmd {M : Nat} {o s : State} (hM : 2029567 ||| M = M) (h : Frame M o s) :
    Frame M o (State.abandonCmd s) := by
  unfold State.abandonCmd
  refine frame_commitGate (lor_mono hM rfl) h ?_
  intro x1 k2
  exact frame_ite k2 (frame_ite (frame_choose (lor_mono hM rfl) (frame_settle (lor_mono hM rfl) (frame_applyAll (lor_mono hM rfl) k2))) (frame_setCode (lor_mono hM rfl) (frame_abandonAll (lor_mono hM rfl) k2)))

theorem frame_execCheck {M : Nat} {o s : State} (hM : 5 ||| M = M) (h : Frame M o s) :
    FrameNext M o (execCheck s) := by
  unfold execCheck
  exact FrameNext.next (frame_startCheck (lor_mono hM rfl) (frame_begin_ (lor_mono hM rfl) h))

theorem frame_execCheckComplete {M : Nat} {o s : State} (hM : 529975 ||| M = M) (h : Frame M o s) :
    FrameNext M o (execCheckComplete s) := by
  unfold execCheckComplete
  extract_lets s1
  have k2 : Frame M o s1 := frame_begin_ (lor_mono hM rfl) h
  clear_value s1
  exact FrameNext.next (frame_ite k2 (frame_endCheck_ (lor_mono hM rfl) k2))

theorem frame_execApply {M : Nat} {o s : State} (hM : 21 ||| M = M) (h : Frame M o s) {whenBit : Nat} :
    FrameNext M o (execApply whenBit s) := by
  unfold execApply
  exact FrameNext.next (frame_startApply (lor_mono hM rfl) (frame_begin_ (lor_mono hM rfl) h))

theorem frame_execAbandon {M : Nat} {o s : State} (hM : 2029567 ||| M = M) (h : Frame M o s) :
    FrameNext M o (execAbandon s) := by
  unfold execAbandon
  exact FrameNext.next (frame_abandonCmd (lor_mono hM rfl) (frame_begin_ (lor_mono hM rfl) h))

theorem frame_execParisonApplication {M : Nat} {o s : State} (hM : 2029567 ||| M = M) (h : Frame M o s) :
    FrameNext M o (execParisonApplication s) := by
  unfold execParisonApplication
  extract_lets s1
  have k2 : Frame M o s1 := frame_begin_ (lor_mono hM rfl) h
  clear_value s1
  exact FrameNext.next (frame_ite (frame_choose (lor_mono hM rfl) (frame_settle (lor_mono hM rfl) (frame_applyAll (lor_mono hM rfl) k2))) k2)

theorem frame_scanStandbys {M : Nat} {o s : State} (hM : 1 ||| M = M) (h : Frame M o s) :
    Frame M o (State.scanStandbys s) := by
  unfold State.scanStandbys
  exact frame_wr (lor_mono hM rfl) h

theorem frame_lastResume {M : Nat} {o s : State} (hM : 1 ||| M = M) (h : Frame M o s) {k : Nat} {code : Nat} {origin : Nat} :
    Frame M o (State.lastResume s k code origin) := by
  unfold State.lastResume
  exact frame_wr (lor_mono hM rfl) (frame_wr (lor_mono hM rfl) (frame_wr (lor_mono hM rfl) h))

theorem frame_resumeFails {M : Nat} {o s : State} (hM : 5 ||| M = M) (h : Frame M o s) {k : Nat} {code : Nat} {e : List Byte} :
    Frame M o (State.resumeFails s k code e) := by
  unfold State.resumeFails
  exact frame_setErrLog (lor_mono hM rfl) (frame_count (lor_mono hM rfl) (frame_lastResume (lor_mono hM rfl) h))

theorem frame_kvResume {M : Nat} {o s : State} (hM : 1703 ||| M = M) (h : Frame M o s) {entry : Nat} {chunk : Nat} {pool : Nat} :
    Frame M o (State.kvResume s entry chunk pool) := by
  unfold State.kvResume
  split
  · rename_i y1 e2
    exact h
  · rename_i y3 y4 e5
    split
    · rename_i y6 e7
      exact h
    · rename_i y8 y9 e10
      refine frame_ite h ?_
      extract_lets v11 s12 v13 v14 v15 v16 s17 v18 s19 v20 s21
      have k22 : Frame M o s12 := frame_lpNarrowPut (lor_mono hM rfl) h
      have k23 : Frame M o s17 := frame_putStream (lor_mono hM rfl) k22
      have k24 : Frame M o s19 := by
        refine frame_foldl k23 ?_
        intro x25 x26 k27
        extract_lets v28
        clear_value v28
        exact frame_ite (frame_bulkRead (lor_mono hM rfl) k27) (Frame2.get (frame_devRead (lor_mono hM rfl) k27))
      have k29 : Frame M o s21 := frame_foldl k24 (fun x30 x31 k32 => frame_narrowWrite (lor_mono hM rfl) k32)
      clear_value v11 s12 v13 v14 v15 v16 s17 v18 s19 v20 s21
      exact frame_setImage (lor_mono hM rfl) k29

theorem frame_resumeStream {M : Nat} {o s : State} (hM : 530087 ||| M = M) (h : Frame M o s) {k : Nat} {e : List Byte} {sl : List Byte} {x : List Byte} {m : Image} :
    Frame M o (State.resumeStream s k e sl x m) := by
  unfold State.resumeStream
  extract_lets v1 v2 v3 v4 v5 v6 v7 v8 v9 s10 s11 s12 s13 s14
  have k15 : Frame M o s10 := frame_putStream (lor_mono hM rfl) (frame_lpNarrowPut (lor_mono hM rfl) h)
  have k16 : Frame M o s11 := frame_foldl k15 (fun x17 x18 k19 => frame_announceSession (lor_mono hM rfl) k19)
  have k20 : Frame M o s12 := frame_kvResume (lor_mono hM rfl) k16
  have k21 : Frame M o s13 := frame_storeEntry (lor_mono hM rfl) k20
  have k22 : Frame M o s14 := frame_ite (frame_gafRead (lor_mono hM rfl) k21) k21
  clear_value v1 v2 v3 v4 v5 v6 v7 v8 v9 s10 s11 s12 s13 s14
  exact frame_ite (frame_storePunty (lor_mono hM rfl) k22) k22

theorem frame_activate {M : Nat} {o s : State} (hM : 595623 ||| M = M) (h : Frame M o s) {k : Nat} :
    Frame M o (State.activate s k) := by
  unfold State.activate
  extract_lets v1 s2 s3 s4 v5 v6 v7
  have k8 : Frame M o s2 := Frame2.get (frame_devRead (lor_mono hM rfl) h)
  have k9 : Frame M o s3 := Frame2.get (frame_devRead (lor_mono hM rfl) k8)
  have k10 : Frame M o s4 := frame_lpNarrowPut (lor_mono hM rfl) k9
  have k11 : ∀ (x12 : State), Frame M o x12 → Frame M o (v7 x12) := fun x12 k13 => frame_with_fo (lor_mono hM rfl) k13
  clear_value v1 s2 s3 s4 v5 v6 v7
  refine frame_ite k8 ?_
  refine frame_ite (k11 _ (frame_resumeFails (lor_mono hM rfl) k10)) ?_
  refine frame_ite (k11 _ (frame_resumeFails (lor_mono hM rfl) k10)) ?_
  split
  · rename_i y14 e15
    exact k11 _ (frame_resumeFails (lor_mono hM rfl) k10)
  · rename_i y16 y17 e18
    extract_lets v19 s20
    have k21 : Frame M o s20 := frame_resumeStream (lor_mono hM rfl) k10
    clear_value v19 s20
    refine frame_ite (k11 _ (frame_resumeFails (lor_mono hM rfl) k10)) ?_
    exact frame_ite (k11 _ (frame_resumeFails (lor_mono hM rfl) k10)) (k11 _ (frame_setErrLog (lor_mono hM rfl) (frame_count (lor_mono hM rfl) (frame_lastResume (lor_mono hM rfl) k21))))

theorem frame_activateAll {M : Nat} {o s : State} (hM : 595623 ||| M = M) (h : Frame M o s) {origin : Nat} :
    Frame M o (State.activateAll s origin) := by
  unfold State.activateAll
  extract_lets s1
  have k2 : Frame M o s1 := frame_scanStandbys (lor_mono hM rfl) h
  clear_value s1
  exact frame_foldl k2 (fun x3 x4 k5 => frame_activate (lor_mono hM rfl) k5)

theorem frame_probeOrigin {M : Nat} {o s : State} (hM : 603815 ||| M = M) (h : Frame M o s) {suspect : Nat} :
    Frame M o (State.probeOrigin s suspect) := by
  unfold State.probeOrigin
  refine frame_ite h ?_
  extract_lets s1 v2 v3
  have k4 : Frame M o s1 := frame_scanStandbys (lor_mono hM rfl) h
  clear_value s1 v2 v3
  refine frame_ite k4 ?_
  split
  · rename_i y5 e6
    exact frame_activateAll (lor_mono hM rfl) k4
  · rename_i y7 y8 e9
    have k10 : Frame M o y8 := FrameOpt.of_eq e9 (frame_sendMsg (lor_mono hM rfl) k4)
    exact frame_with_dma_fo (lor_mono hM rfl) k10

theorem frame_probeAlive {M : Nat} {o s : State} (hM : 65541 ||| M = M) (h : Frame M o s) {suspect : Nat} :
    Frame M o (State.probeAlive s suspect) := by
  unfold State.probeAlive
  extract_lets v1 v2 s3 s4
  have k5 : Frame M o s3 := frame_with_fo (lor_mono hM rfl) h
  have k6 : Frame M o s4 := frame_lastResume (lor_mono hM rfl) k5
  clear_value v1 s3 s4
  exact frame_logPlain (lor_mono hM rfl) k6

theorem frame_tidyStandby {M : Nat} {o s : State} (hM : 65536 ||| M = M) (h : Frame M o s) :
    Frame M o (State.tidyStandby s) := by
  unfold State.tidyStandby
  exact frame_with_fo (lor_mono hM rfl) h

theorem frame_pntCmdWrite {M : Nat} {o s : State} (hM : 1908773 ||| M = M) (h : Frame M o s) {word : Nat} :
    Frame M o (State.pntCmdWrite s word) := by
  unfold State.pntCmdWrite
  exact frame_ite (frame_badWrite (lor_mono hM rfl) h) (frame_ite (frame_failStop (lor_mono hM rfl) h) h)

theorem frame_execPntFailstopCmd {M : Nat} {o s : State} (hM : 1908773 ||| M = M) (h : Frame M o s) {word : Nat} :
    FrameNext M o (execPntFailstopCmd word s) := by
  unfold execPntFailstopCmd
  exact FrameNext.next (frame_gated (lor_mono hM rfl) (frame_begin_ (lor_mono hM rfl) h) (fun x1 k2 => frame_pntCmdWrite (lor_mono hM rfl) k2))

theorem frame_execMpWatchdogExpire {M : Nat} {o s : State} (hM : 1908773 ||| M = M) (h : Frame M o s) :
    FrameNext M o (execMpWatchdogExpire s) := by
  unfold execMpWatchdogExpire
  extract_lets s1 v2 s3
  have k4 : Frame M o s1 := frame_begin_ (lor_mono hM rfl) h
  have k5 : Frame M o s3 := frame_ite (frame_with_sec (lor_mono hM rfl) k4) k4
  clear_value s1 s3
  exact FrameNext.ite (FrameNext.next (frame_failStop (lor_mono hM rfl) k5)) (FrameNext.next k4)

theorem frame_execBenchPowerLoss {M : Nat} {o s : State} (hM : 1908773 ||| M = M) (h : Frame M o s) {bench : Nat} :
    FrameNext M o (execBenchPowerLoss bench s) := by
  unfold execBenchPowerLoss
  extract_lets s1
  have k2 : Frame M o s1 := frame_begin_ (lor_mono hM rfl) h
  clear_value s1
  exact FrameNext.next (frame_ite (frame_failStop (lor_mono hM rfl) k2) k2)

theorem frame_execClockFault {M : Nat} {o s : State} (hM : 1908773 ||| M = M) (h : Frame M o s) {bench : Option Nat} :
    FrameNext M o (execClockFault bench s) := by
  unfold execClockFault
  extract_lets s1
  have k2 : Frame M o s1 := frame_begin_ (lor_mono hM rfl) h
  clear_value s1
  exact FrameNext.next (frame_ite (frame_failStop (lor_mono hM rfl) k2) k2)

theorem frame_execRailFault {M : Nat} {o s : State} (hM : 2095103 ||| M = M) (h : Frame M o s) {kind : RailKind} :
    FrameNext M o (execRailFault kind s) := by
  unfold execRailFault
  extract_lets s1 s2 v3
  have k4 : Frame M o s1 := frame_begin_ (lor_mono hM rfl) h
  have k5 : Frame M o s2 := frame_wipe (lor_mono hM rfl) k4
  clear_value s1 s2
  refine FrameNext.ite (FrameNext.next k4) ?_
  split
  · rename_i y6
    exact FrameNext.next (frame_failStop (lor_mono hM rfl) k4)
  · rename_i y7
    exact FrameNext.next (frame_failStop (lor_mono hM rfl) k4)
  · rename_i y8 y9
    exact FrameNext.next (frame_failStop (lor_mono hM rfl) k4)
  · rename_i y10
    exact FrameNext.fault
  · rename_i y11 y12
    exact FrameNext.next (frame_with_pow (lor_mono hM rfl) k5)

theorem frame_execControlStateError {M : Nat} {o s : State} (hM : 1908773 ||| M = M) (h : Frame M o s) {fabric : Bool} :
    FrameNext M o (execControlStateError fabric s) := by
  unfold execControlStateError
  extract_lets s1
  have k2 : Frame M o s1 := frame_begin_ (lor_mono hM rfl) h
  clear_value s1
  exact FrameNext.next (frame_ite (frame_failStop (lor_mono hM rfl) k2) k2)

theorem frame_execProbeTimeout {M : Nat} {o s : State} (hM : 2078711 ||| M = M) (h : Frame M o s) :
    FrameNext M o (execProbeTimeout s) := by
  unfold execProbeTimeout
  extract_lets s1 v2
  have k3 : Frame M o s1 := frame_begin_ (lor_mono hM rfl) h
  clear_value s1
  refine FrameNext.next ?_
  split
  · rename_i y4 e5
    exact k3
  · rename_i y6 y7 y8 e9
    refine frame_ite k3 ?_
    extract_lets s10
    have k11 : Frame M o s10 := frame_with_fo (lor_mono hM rfl) k3
    clear_value s10
    exact frame_ite k11 (frame_choose (lor_mono hM rfl) (frame_activateAll (lor_mono hM rfl) k11))

theorem frame_resumeWrite {M : Nat} {o s : State} (hM : 2078711 ||| M = M) (h : Frame M o s) {word : Nat} :
    Frame M o (State.resumeWrite s word) := by
  unfold State.resumeWrite
  exact frame_ite (frame_badWrite (lor_mono hM rfl) h) (frame_ite (frame_choose (lor_mono hM rfl) (frame_activate (lor_mono hM rfl) h)) h)

theorem frame_execStandbyResume {M : Nat} {o s : State} (hM : 2078711 ||| M = M) (h : Frame M o s) {word : Nat} :
    FrameNext M o (execStandbyResume word s) := by
  unfold execStandbyResume
  exact FrameNext.next (frame_gated (lor_mono hM rfl) (frame_begin_ (lor_mono hM rfl) h) (fun x1 k2 => frame_resumeWrite (lor_mono hM rfl) k2))

end Sys2Proof.Machine
end

