-- ==== Sys2Proof/Laws/FrameMessages.lean ====
section
/-! SUPPORT. The functions of Machine/Messages.lean change only the parts of the state named by a mask. -/
namespace Sys2Proof.Machine
open Sys2Proof

set_option Elab.async false

theorem frame_keepMsg {M : Nat} {o s : State} (hM : 8192 ||| M = M) (h : Frame M o s) {p : Nat} {m : Msg} :
    Frame M o (State.keepMsg s p m) := by
  unfold State.keepMsg
  exact frame_ite h (frame_setPort (lor_mono hM rfl) h)

theorem frame_onTurn {M : Nat} {o s : State} (hM : 8192 ||| M = M) (h : Frame M o s) {p : Nat} {m : Msg} {op : Nat} {f : State → State} (hf : ∀ x0, Frame M o x0 → Frame M o (f x0)) :
    Frame M o (State.onTurn s p m op f) := by
  unfold State.onTurn
  exact frame_ite h (frame_ite (hf _ h) (frame_keepMsg (lor_mono hM rfl) h))

theorem frame_onMsg {M : Nat} {o s : State} (hM : 8192 ||| M = M) (h : Frame M o s) {p : Nat} {m : Msg} {op : Nat} {f : State → State} (hf : ∀ x0, Frame M o x0 → Frame M o (f x0)) :
    Frame M o (State.onMsg s p m op f) := by
  unfold State.onMsg
  exact frame_onTurn (lor_mono hM rfl) h (fun x1 k2 => hf _ (frame_takeInbox (lor_mono hM rfl) k2))

theorem frame_reply {M : Nat} {o s : State} (hM : 8192 ||| M = M) (h : Frame M o s) {m : Msg} {g : Msg} :
    Frame M o (State.reply s m g) := by
  unfold State.reply
  exact frame_getD (frame_sendMsg (lor_mono hM rfl) h) h

theorem frame_serveRead {M : Nat} {o s : State} (hM : 9223 ||| M = M) (h : Frame M o s) {m : Msg} {mem : MemOutcome} :
    Frame M o (State.serveRead s m mem) := by
  unfold State.serveRead
  extract_lets v1
  clear_value v1
  split
  · rename_i y2 e3
    exact frame_reply (lor_mono hM rfl) h
  · rename_i y4 y5 e6
    split
    · rename_i y7 y8 y9 y10 e11
      have k12 : Frame M o y10 := Frame3.of_eq e11 (frame_memReads (lor_mono hM rfl) (frame_narrow (lor_mono hM rfl) h))
      exact frame_reply (lor_mono hM rfl) k12
  · rename_i y13 y14 e15
    split
    · rename_i y16 e17
      extract_lets v18
      clear_value v18
      split
      · rename_i y19 y20 y21 e22
        have k23 : Frame M o y21 := Frame2.of_eq e22 (frame_narrowRead (lor_mono hM rfl) h)
        exact frame_reply (lor_mono hM rfl) k23
    · rename_i y24 e25
      exact frame_reply (lor_mono hM rfl) (frame_sealedErr (lor_mono hM rfl) h)
    · rename_i y26 y27 y28
      exact frame_reply (lor_mono hM rfl) h

theorem frame_servePull {M : Nat} {o s : State} (hM : 8199 ||| M = M) (h : Frame M o s) {p : Nat} {m : Msg} :
    Frame M o (State.servePull s p m) := by
  unfold State.servePull
  split
  · rename_i y1 e2
    exact frame_keepMsg (lor_mono hM rfl) h
  · rename_i y3 y4 y5 y6 e7
    extract_lets v8 v9 v10 s11 v12
    have k13 : Frame M o s11 := frame_takeInbox (lor_mono hM rfl) h
    clear_value v8 v9 v10 s11 v12
    split
    · rename_i y14 y15 y16 e17
      have k18 : Frame M o y16 := Frame2.of_eq e17 (frame_narrowRead (lor_mono hM rfl) k13)
      exact frame_reply (lor_mono hM rfl) k18

theorem frame_serveWrite {M : Nat} {o s : State} (hM : 9863 ||| M = M) (h : Frame M o s) {m : Msg} {mem : MemOutcome} :
    Frame M o (State.serveWrite s m mem) := by
  unfold State.serveWrite
  extract_lets v1 v2
  clear_value v1 v2
  split
  · rename_i y3 e4
    exact frame_reply (lor_mono hM rfl) h
  · rename_i y5 y6 e7
    extract_lets s8 s9
    have k10 : Frame M o s8 := frame_memWrites (lor_mono hM rfl) (frame_narrow (lor_mono hM rfl) h)
    have k11 : Frame M o s9 := frame_ite (frame_spoilLp (lor_mono hM rfl) k10) k10
    clear_value s8 s9
    exact frame_reply (lor_mono hM rfl) k11
  · rename_i y12 y13 e14
    split
    · rename_i y15 e16
      extract_lets s17
      have k18 : Frame M o s17 := frame_narrowWrite (lor_mono hM rfl) h
      clear_value s17
      exact frame_reply (lor_mono hM rfl) (frame_ite (frame_poisonSpad (lor_mono hM rfl) k18) k18)
    · rename_i y19 e20
      exact frame_reply (lor_mono hM rfl) (frame_sealedErr (lor_mono hM rfl) h)
    · rename_i y21 y22 y23
      exact frame_reply (lor_mono hM rfl) h

theorem frame_answerAtomic {M : Nat} {o s : State} (hM : 8192 ||| M = M) (h : Frame M o s) {m : Msg} {old : List Byte} {bad : Bool} {code : Nat} :
    Frame M o (State.answerAtomic s m old bad code) := by
  unfold State.answerAtomic
  exact frame_reply (lor_mono hM rfl) h

theorem frame_serveSpadAtomic {M : Nat} {o s : State} (hM : 8327 ||| M = M) (h : Frame M o s) {m : Msg} :
    Frame M o (State.serveSpadAtomic s m) := by
  unfold State.serveSpadAtomic
  split
  · rename_i y1 y2 e3
    refine frame_ite (frame_answerAtomic (lor_mono hM rfl) h) ?_
    extract_lets v4
    clear_value v4
    split
    · rename_i y5 y6 y7 e8
      have k9 : Frame M o y7 := Frame2.of_eq e8 (frame_spadAtomic (lor_mono hM rfl) h)
      exact frame_answerAtomic (lor_mono hM rfl) k9
  · rename_i y10 y11
    exact frame_answerAtomic (lor_mono hM rfl) h

theorem frame_serveMemAtomic {M : Nat} {o s : State} (hM : 9735 ||| M = M) (h : Frame M o s) {m : Msg} {mem : MemOutcome} :
    Frame M o (State.serveMemAtomic s m mem) := by
  unfold State.serveMemAtomic
  split
  · rename_i y1 y2 e3
    refine frame_ite (frame_answerAtomic (lor_mono hM rfl) h) ?_
    split
    · rename_i y4 y5 y6 y7 e8
      have k9 : Frame M o y7 := Frame3.of_eq e8 (frame_unitAtomic (lor_mono hM rfl) (frame_narrow (lor_mono hM rfl) h))
      exact frame_answerAtomic (lor_mono hM rfl) k9
  · rename_i y10 y11
    exact frame_answerAtomic (lor_mono hM rfl) h

theorem frame_landRemote {M : Nat} {o s : State} (hM : 134791 ||| M = M) (h : Frame M o s) {f : Flight} {m : Msg} {mem : MemOutcome} :
    Frame M o (State.landRemote s f m mem) := by
  unfold State.landRemote
  extract_lets v1 v2 v3 v4
  clear_value v1 v2 v3 v4
  exact frame_ite h (frame_landData (lor_mono hM rfl) h)

theorem frame_atomicBack {M : Nat} {o s : State} (hM : 8327 ||| M = M) (h : Frame M o s) {f : Flight} {m : Msg} :
    Frame2 M o (State.atomicBack s f m) := by
  unfold State.atomicBack
  extract_lets v1
  clear_value v1
  split
  · rename_i y2 y3 y4 e5
    have k6 : Frame M o y4 := Frame2.of_eq e5 (frame_atomicEnd (lor_mono hM rfl) h)
    split
    · rename_i y7 y8 y9 e10
      split
      · rename_i y11 y12 e13
        have k14 : Frame M o y12 := FrameOpt.of_eq e13 (frame_sendMsg (lor_mono hM rfl) k6)
        exact Frame2.mk k14
      · rename_i y15 e16
        exact Frame2.mk k6
    · rename_i y17 y18
      exact Frame2.mk k6

theorem frame_takeResponse {M : Nat} {o s : State} (hM : 2080759 ||| M = M) (h : Frame M o s) {m : Msg} {mem : MemOutcome} :
    Frame M o (State.takeResponse s m mem) := by
  unfold State.takeResponse
  split
  · rename_i y1 y2 e3
    exact frame_probeAlive (lor_mono hM rfl) h
  · rename_i y4 e5
    split
    · rename_i y6 e7
      exact h
    · rename_i y8 y9 e10
      refine frame_ite (frame_failFlight (lor_mono hM rfl) (frame_unmappedErr (lor_mono hM rfl) h)) ?_
      extract_lets v11 v12
      clear_value v11
      split
      · rename_i y13 y14 y15 e16
        have k17 : Frame M o y15 := Frame2.of_eq e16 (Frame2.ite (frame_atomicBack (lor_mono hM rfl) h) (Frame2.ite (Frame2.mk (frame_landRemote (lor_mono hM rfl) h)) (Frame2.mk (frame_writeEnd (lor_mono hM rfl) h))))
        exact frame_ite k17 (frame_endFlight (lor_mono hM rfl) k17)

theorem frame_takeAckMsg {M : Nat} {o s : State} (hM : 2013175 ||| M = M) (h : Frame M o s) {m : Msg} :
    Frame M o (State.takeAckMsg s m) := by
  unfold State.takeAckMsg
  split
  · rename_i y1 e2
    exact h
  · rename_i y3 y4 e5
    exact frame_ite (frame_failFlight (lor_mono hM rfl) (frame_unmappedErr (lor_mono hM rfl) h)) (frame_endFlight (lor_mono hM rfl) h)

theorem frame_writeUnit {M : Nat} {o s : State} (hM : 529063 ||| M = M) (h : Frame M o s) {t : Stream} {u : Nat} {bs : List Byte} {poison : Bool} :
    Frame M o (State.writeUnit s t u bs poison) := by
  unfold State.writeUnit
  split
  · rename_i y1 e2
    exact frame_streamFault (lor_mono hM rfl) h
  · rename_i y3 y4 e5
    extract_lets v6 s7 s8 v9 v10 s11 s12 v13
    have k14 : Frame M o s7 := frame_ite h (frame_narrowWrite (lor_mono hM rfl) h)
    have k15 : Frame M o s8 := frame_ite (frame_poisonSpad (lor_mono hM rfl) k14) k14
    have k16 : Frame M o s11 := frame_replayPut (lor_mono hM rfl) k15
    have k17 : Frame M o s12 := frame_ite (frame_replayPut (lor_mono hM rfl) k16) k16
    clear_value v6 s7 s8 v9 v10 s11 s12 v13
    exact frame_ite k15 (frame_ite k17 (frame_addBuiltIn (lor_mono hM rfl) k17))

theorem frame_landUnit {M : Nat} {o s : State} (hM : 537255 ||| M = M) (h : Frame M o s) {t0 : Stream} {u : Nat} {m : Msg} :
    Frame M o (State.landUnit s t0 u m) := by
  unfold State.landUnit
  extract_lets v1 v2 v3 v4 v5 s6 s7 s8
  have k9 : Frame M o s6 := frame_putStream (lor_mono hM rfl) h
  have k10 : Frame M o s7 := frame_ite k9 (frame_writeUnit (lor_mono hM rfl) k9)
  have k11 : Frame M o s8 := frame_setStream (lor_mono hM rfl) k10
  clear_value v1 v2 v3 v4 v5 s6 s7 s8
  exact frame_ite h (frame_ite (frame_chunkDone (lor_mono hM rfl) k11) k11)

theorem frame_arriveUnit {M : Nat} {o s : State} (hM : 537255 ||| M = M) (h : Frame M o s) {t : Stream} {u : Nat} {m : Msg} :
    Frame M o (State.arriveUnit s t u m) := by
  unfold State.arriveUnit
  refine frame_ite ?_ (frame_ite (frame_landUnit (lor_mono hM rfl) h) h)
  refine frame_ite ?_ h
  extract_lets s1 s2
  have k3 : Frame M o s1 := frame_setStream (lor_mono hM rfl) h
  have k4 : Frame M o s2 := frame_setState (lor_mono hM rfl) k3
  clear_value s1 s2
  split
  · rename_i y5 y6 e7
    exact frame_landUnit (lor_mono hM rfl) k4
  · rename_i y8 e9
    exact k4

theorem frame_takeSamples {M : Nat} {o s : State} (hM : 2013175 ||| M = M) (h : Frame M o s) {p : Nat} {m : Msg} :
    Frame M o (State.takeSamples s p m) := by
  unfold State.takeSamples
  split
  · rename_i y1 e2
    exact frame_count (lor_mono hM rfl) (frame_takeInbox (lor_mono hM rfl) h)
  · rename_i y3 y4 e5
    exact frame_ite (frame_keepMsg (lor_mono hM rfl) h) (frame_chooseIfReady (lor_mono hM rfl) (frame_settleWatch (lor_mono hM rfl) (frame_arriveUnit (lor_mono hM rfl) (frame_takeInbox (lor_mono hM rfl) h))))

theorem frame_takeContribution {M : Nat} {o s : State} (hM : 2013175 ||| M = M) (h : Frame M o s) {p : Nat} {m : Msg} :
    Frame M o (State.takeContribution s p m) := by
  unfold State.takeContribution
  split
  · rename_i y1 y2 e3
    exact frame_choose (lor_mono hM rfl) (frame_applyUnit (lor_mono hM rfl) (frame_takeInbox (lor_mono hM rfl) h))
  · rename_i y4 e5
    refine frame_ite (frame_count (lor_mono hM rfl) (frame_takeInbox (lor_mono hM rfl) h)) ?_
    extract_lets s6 v7
    have k8 : Frame M o s6 := frame_setPort (lor_mono hM rfl) h
    clear_value s6
    exact frame_with_gaf (lor_mono hM rfl) k8

theorem frame_takeSlow {M : Nat} {o s : State} (hM : 32 ||| M = M) (h : Frame M o s) {m : Msg} :
    Frame M o (State.takeSlow s m) := by
  unfold State.takeSlow
  extract_lets v1 v2
  clear_value v1
  exact frame_with_gaf (lor_mono hM rfl) h

theorem frame_takeDone {M : Nat} {o s : State} (hM : 2013175 ||| M = M) (h : Frame M o s) {m : Msg} :
    Frame M o (State.takeDone s m) := by
  unfold State.takeDone
  extract_lets v1 v2 v3 v4
  clear_value v1 v2 v3
  exact frame_choose (lor_mono hM rfl) (frame_with_gaf (lor_mono hM rfl) h)

theorem frame_takeReport {M : Nat} {o s : State} (hM : 2078711 ||| M = M) (h : Frame M o s) {p : Nat} {m : Msg} :
    Frame M o (State.takeReport s p m) := by
  unfold State.takeReport
  extract_lets v1 v2 v3 v4 s5 s6 s7
  have k8 : Frame M o s5 := frame_noteReport (lor_mono hM rfl) h
  have k9 : Frame M o s6 := frame_seeReport (lor_mono hM rfl) k8
  have k10 : Frame M o s7 := frame_flood (lor_mono hM rfl) k9
  clear_value v1 v2 v3 v4 s5 s6 s7
  exact frame_ite h (frame_ite (frame_choose (lor_mono hM rfl) (frame_probeOrigin (lor_mono hM rfl) k10)) k10)

theorem frame_sendSlow {M : Nat} {o s : State} (hM : 8193 ||| M = M) (h : Frame M o s) :
    Frame M o (State.sendSlow s) := by
  unfold State.sendSlow
  extract_lets v1 v2 s3
  have k4 : Frame M o s3 := frame_with_lnk (lor_mono hM rfl) h
  clear_value v1 s3
  refine frame_foldl k4 ?_
  intro x5 x6 k7
  extract_lets v8
  clear_value v8
  split
  · rename_i y9 y10 e11
    have k12 : Frame M o y10 := FrameOpt.of_eq e11 (frame_sendMsg (lor_mono hM rfl) k7)
    exact frame_count (lor_mono hM rfl) k12
  · rename_i y13 e14
    exact k7

theorem frame_agentErr {M : Nat} {o s : State} (hM : 5 ||| M = M) (h : Frame M o s) {a : MemAgent} :
    Frame M o (State.agentErr s a) := by
  unfold State.agentErr
  split
  · rename_i y1 y2
    exact frame_unmappedErr (lor_mono hM rfl) h
  · rename_i y3 y4
    exact frame_unmappedErr (lor_mono hM rfl) h
  · rename_i y5 y6
    exact frame_unmappedErr (lor_mono hM rfl) h
  · rename_i y7 y8 y9 y10
    exact frame_unmappedErr (lor_mono hM rfl) h

theorem frame_agentNarrow {M : Nat} {o s : State} (hM : 1 ||| M = M) (h : Frame M o s) {a : MemAgent} {o2 : Nat} {n : Nat} :
    Frame M o (State.agentNarrow s a o2 n) := by
  unfold State.agentNarrow
  split
  · rename_i y1 y2
    exact h
  · rename_i y3 y4
    exact frame_narrow (lor_mono hM rfl) h

theorem frame_serveAccess {M : Nat} {o s : State} (hM : 1543 ||| M = M) (h : Frame M o s) {a : MemAgent} {o2 : Nat} {n : Nat} {write : Option (List Byte)} {m : MemOutcome} :
    Frame3 M o (State.serveAccess s a o2 n write m) := by
  unfold State.serveAccess
  extract_lets s1
  have k2 : Frame M o s1 := frame_agentNarrow (lor_mono hM rfl) h
  clear_value s1
  split
  · rename_i y3 y4
    exact Frame3.mk (frame_memWrites (lor_mono hM rfl) k2)
  · rename_i y5
    exact frame_memReads (lor_mono hM rfl) k2

theorem frame_execReadRequest {M : Nat} {o s : State} (hM : 9351 ||| M = M) (h : Frame M o s) {port : Nat} {m : Msg} {mem : MemOutcome} :
    FrameNext M o (execReadRequest port m mem s) := by
  unfold execReadRequest
  extract_lets s1 s2
  have k3 : Frame M o s1 := frame_begin_ (lor_mono hM rfl) h
  have k4 : Frame M o s2 := frame_ite (frame_noteSoft (lor_mono hM rfl) k3) k3
  clear_value s1 s2
  exact FrameNext.next (frame_onTurn (lor_mono hM rfl) k4 (fun x5 k6 => frame_ite (frame_servePull (lor_mono hM rfl) k6) (frame_serveRead (lor_mono hM rfl) (frame_takeInbox (lor_mono hM rfl) k6))))

theorem frame_execReadResponse {M : Nat} {o s : State} (hM : 2080759 ||| M = M) (h : Frame M o s) {port : Nat} {m : Msg} {mem : MemOutcome} :
    FrameNext M o (execReadResponse port m s mem) := by
  unfold execReadResponse
  exact FrameNext.next (frame_onMsg (lor_mono hM rfl) (frame_begin_ (lor_mono hM rfl) h) (fun x1 k2 => frame_takeResponse (lor_mono hM rfl) k2))

theorem frame_execWrite {M : Nat} {o s : State} (hM : 9863 ||| M = M) (h : Frame M o s) {port : Nat} {m : Msg} {mem : MemOutcome} :
    FrameNext M o (execWrite port m mem s) := by
  unfold execWrite
  exact FrameNext.next (frame_onMsg (lor_mono hM rfl) (frame_begin_ (lor_mono hM rfl) h) (fun x1 k2 => frame_serveWrite (lor_mono hM rfl) k2))

theorem frame_execWriteAcknowledgement {M : Nat} {o s : State} (hM : 2013175 ||| M = M) (h : Frame M o s) {port : Nat} {m : Msg} :
    FrameNext M o (execWriteAcknowledgement port m s) := by
  unfold execWriteAcknowledgement
  exact FrameNext.next (frame_onMsg (lor_mono hM rfl) (frame_begin_ (lor_mono hM rfl) h) (fun x1 k2 => frame_takeAckMsg (lor_mono hM rfl) k2))

theorem frame_execRemoteScratchpadAtomic {M : Nat} {o s : State} (hM : 8327 ||| M = M) (h : Frame M o s) {port : Nat} {m : Msg} :
    FrameNext M o (execRemoteScratchpadAtomic port m s) := by
  unfold execRemoteScratchpadAtomic
  exact FrameNext.next (frame_onMsg (lor_mono hM rfl) (frame_begin_ (lor_mono hM rfl) h) (fun x1 k2 => frame_serveSpadAtomic (lor_mono hM rfl) k2))

theorem frame_execRemoteMemoryAtomic {M : Nat} {o s : State} (hM : 9735 ||| M = M) (h : Frame M o s) {port : Nat} {m : Msg} {mem : MemOutcome} :
    FrameNext M o (execRemoteMemoryAtomic port m mem s) := by
  unfold execRemoteMemoryAtomic
  exact FrameNext.next (frame_onMsg (lor_mono hM rfl) (frame_begin_ (lor_mono hM rfl) h) (fun x1 k2 => frame_serveMemAtomic (lor_mono hM rfl) k2))

theorem frame_execStreamSamples {M : Nat} {o s : State} (hM : 2013175 ||| M = M) (h : Frame M o s) {port : Nat} {m : Msg} :
    FrameNext M o (execStreamSamples port m s) := by
  unfold execStreamSamples
  extract_lets s1
  have k2 : Frame M o s1 := frame_begin_ (lor_mono hM rfl) h
  clear_value s1
  exact FrameNext.next (frame_onTurn (lor_mono hM rfl) k2 (fun x3 k4 => frame_takeSamples (lor_mono hM rfl) k4))

theorem frame_execCollective {M : Nat} {o s : State} (hM : 2013175 ||| M = M) (h : Frame M o s) {port : Nat} {m : Msg} :
    FrameNext M o (execCollective port m s) := by
  unfold execCollective
  extract_lets s1
  have k2 : Frame M o s1 := frame_begin_ (lor_mono hM rfl) h
  clear_value s1
  exact FrameNext.next (frame_onTurn (lor_mono hM rfl) k2 (fun x3 k4 => frame_takeContribution (lor_mono hM rfl) k4))

theorem frame_execSlowNotice {M : Nat} {o s : State} (hM : 8224 ||| M = M) (h : Frame M o s) {port : Nat} {m : Msg} :
    FrameNext M o (execSlowNotice port m s) := by
  unfold execSlowNotice
  exact FrameNext.next (frame_onMsg (lor_mono hM rfl) (frame_begin_ (lor_mono hM rfl) h) (fun x1 k2 => frame_ite (frame_takeSlow (lor_mono hM rfl) k2) k2))

theorem frame_execDoneNotice {M : Nat} {o s : State} (hM : 2013175 ||| M = M) (h : Frame M o s) {port : Nat} {m : Msg} :
    FrameNext M o (execDoneNotice port m s) := by
  unfold execDoneNotice
  exact FrameNext.next (frame_onMsg (lor_mono hM rfl) (frame_begin_ (lor_mono hM rfl) h) (fun x1 k2 => frame_ite (frame_takeDone (lor_mono hM rfl) k2) k2))

theorem frame_execSuspectReport {M : Nat} {o s : State} (hM : 2078711 ||| M = M) (h : Frame M o s) {port : Nat} {m : Msg} :
    FrameNext M o (execSuspectReport port m s) := by
  unfold execSuspectReport
  exact FrameNext.next (frame_onMsg (lor_mono hM rfl) (frame_begin_ (lor_mono hM rfl) h) (fun x1 k2 => frame_ite (frame_takeReport (lor_mono hM rfl) k2) k2))

theorem frame_execSlowNoticeSend {M : Nat} {o s : State} (hM : 8193 ||| M = M) (h : Frame M o s) :
    FrameNext M o (execSlowNoticeSend s) := by
  unfold execSlowNoticeSend
  extract_lets s1
  have k2 : Frame M o s1 := frame_begin_ (lor_mono hM rfl) h
  clear_value s1
  exact FrameNext.next (frame_ite (frame_sendSlow (lor_mono hM rfl) k2) k2)

theorem frame_execRoundTimeout {M : Nat} {o s : State} (hM : 8197 ||| M = M) (h : Frame M o s) {image : Nat} {collId : Nat} {entry : Nat} {chunk : Nat} :
    FrameNext M o (execRoundTimeout image collId entry chunk s) := by
  unfold execRoundTimeout
  extract_lets s1 s2
  have k3 : Frame M o s1 := frame_begin_ (lor_mono hM rfl) h
  have k4 : Frame M o s2 := frame_count (lor_mono hM rfl) k3
  clear_value s1 s2
  refine FrameNext.next ?_
  split
  · rename_i y5 e6
    exact k3
  · rename_i y7 y8 e9
    exact frame_ite k3 (frame_foldl k4 (fun x10 x11 k12 => frame_originate (lor_mono hM rfl) k12))

theorem frame_execLpddrAccess {M : Nat} {o s : State} (hM : 529959 ||| M = M) (h : Frame M o s) {agent : MemAgent} {addr : Nat} {len : Nat} {write : Option (List Byte)} {m : MemOutcome} :
    FrameNext M o (execLpddrAccess agent addr len write m s) := by
  unfold execLpddrAccess
  extract_lets s1 v2
  have k3 : Frame M o s1 := frame_begin_ (lor_mono hM rfl) h
  clear_value s1 v2
  refine FrameNext.ite (FrameNext.next k3) ?_
  refine FrameNext.ite (FrameNext.next (frame_put (lor_mono hM rfl) (frame_agentErr (lor_mono hM rfl) k3))) ?_
  split
  · rename_i y4 y5 y6 y7 e8
    have k9 : Frame M o y7 := Frame3.of_eq e8 (frame_serveAccess (lor_mono hM rfl) k3)
    refine FrameNext.ite (FrameNext.next k9) ?_
    split
    · rename_i y10
      exact FrameNext.next (frame_put (lor_mono hM rfl) k9)
    · rename_i y11 y12
      exact FrameNext.next (frame_ite (frame_streamFault (lor_mono hM rfl) k9) (frame_put (lor_mono hM rfl) k9))
    · rename_i y13 y14 y15
      exact FrameNext.next (frame_put (lor_mono hM rfl) k9)

theorem frame_execLpddrAtomic {M : Nat} {o s : State} (hM : 1543 ||| M = M) (h : Frame M o s) {agent : MemAgent} {addr : Nat} {code : Nat} {data : List Byte} {returnOld : Bool} {m : MemOutcome} :
    FrameNext M o (execLpddrAtomic agent addr code data returnOld m s) := by
  unfold execLpddrAtomic
  extract_lets s1 v2 v3 v4 s5
  have k6 : Frame M o s1 := frame_begin_ (lor_mono hM rfl) h
  have k7 : Frame M o s5 := frame_agentErr (lor_mono hM rfl) k6
  clear_value s1 v2 v3 v4 s5
  refine FrameNext.ite (FrameNext.next k6) ?_
  refine FrameNext.ite (FrameNext.next (frame_ite (frame_put (lor_mono hM rfl) k7) k7)) ?_
  refine FrameNext.ite (FrameNext.next (Frame3.get (frame_unitAtomic (lor_mono hM rfl) k6))) ?_
  split
  · rename_i y8 y9 y10 y11 e12
    have k13 : Frame M o y11 := Frame3.of_eq e12 (frame_burstAtomic (lor_mono hM rfl) (frame_evtDev (lor_mono hM rfl) (frame_evtDev (lor_mono hM rfl) (frame_agentNarrow (lor_mono hM rfl) k6))))
    exact FrameNext.next (frame_ite (frame_put (lor_mono hM rfl) k13) k13)

theorem frame_execStackTempRead {M : Nat} {o s : State} (hM : 1909797 ||| M = M) (h : Frame M o s) {site : Nat} {reading : Reading} :
    FrameNext M o (execStackTempRead site reading s) := by
  unfold execStackTempRead
  extract_lets s1 s2
  have k3 : Frame M o s1 := frame_begin_ (lor_mono hM rfl) h
  have k4 : Frame M o s2 := frame_pollTemp (lor_mono hM rfl) k3
  clear_value s1 s2
  exact FrameNext.ite (FrameNext.next k3) (FrameNext.next (frame_ite (frame_failStop (lor_mono hM rfl) k4) k4))

end Sys2Proof.Machine
end

