-- ==== Sys2Proof/Laws/FramePorts.lean ====
section
/-! SUPPORT. The functions of Machine/Ports.lean, Machine/Packet.lean change only the parts of the state named by a mask. -/
namespace Sys2Proof.Machine
open Sys2Proof

set_option Elab.async false

theorem frame_comeUp {M : Nat} {o s : State} (hM : 8193 ||| M = M) (h : Frame M o s) {p : Nat} {fresh : Bool} :
    Frame M o (State.comeUp s p fresh) := by
  unfold State.comeUp
  extract_lets s1 s2 s3
  have k4 : Frame M o s1 := frame_wr (lor_mono hM rfl) h
  have k5 : Frame M o s2 := frame_setPort (lor_mono hM rfl) k4
  have k6 : Frame M o s3 := frame_ite (frame_setPort (lor_mono hM rfl) k5) k5
  clear_value s1 s2 s3
  exact frame_pump (lor_mono hM rfl) k6

theorem frame_keysFail {M : Nat} {o s : State} (hM : 274437 ||| M = M) (h : Frame M o s) {p : Nat} {code : Nat} :
    Frame M o (State.keysFail s p code) := by
  unfold State.keysFail
  extract_lets s1 v2 s3 s4 s5
  have k6 : Frame M o s1 := frame_setPort (lor_mono hM rfl) h
  have k7 : Frame M o s3 := frame_with_sec (lor_mono hM rfl) k6
  have k8 : Frame M o s4 := frame_wr (lor_mono hM rfl) k7
  have k9 : Frame M o s5 := frame_setErrLog (lor_mono hM rfl) k8
  clear_value s1 s3 s4 s5
  exact frame_ite k9 (frame_portToDown (lor_mono hM rfl) k9)

theorem frame_startHandshake {M : Nat} {o s : State} (hM : 8192 ||| M = M) (h : Frame M o s) {p : Nat} :
    Frame M o (State.startHandshake s p) := by
  unfold State.startHandshake
  refine frame_ite h ?_
  extract_lets v1 v2 s3
  have k4 : Frame M o s3 := frame_setPort (lor_mono hM rfl) h
  clear_value v1 v2 s3
  exact frame_put (lor_mono hM rfl) (frame_emitKeys (lor_mono hM rfl) k4)

theorem frame_finishKeys {M : Nat} {o s : State} (hM : 8193 ||| M = M) (h : Frame M o s) {p : Nat} :
    Frame M o (State.finishKeys s p) := by
  unfold State.finishKeys
  extract_lets v1 s2 v3
  have k4 : Frame M o s2 := frame_count (lor_mono hM rfl) h
  clear_value v1 s2 v3
  split
  · rename_i y5 y6 y7 y8 e9 e10
    refine frame_ite h ?_
    extract_lets v11 v12 v13 v14 v15
    clear_value v11 v12 v13 v14 v15
    split
    · rename_i y16 e17
      exact frame_wr (lor_mono hM rfl) (frame_comeUp (lor_mono hM rfl) (frame_setPort (lor_mono hM rfl) k4))
    · rename_i y18 y19 e20
      extract_lets s21
      have k22 : Frame M o s21 := frame_setPort (lor_mono hM rfl) k4
      clear_value s21
      exact frame_pump (lor_mono hM rfl) (frame_wr (lor_mono hM rfl) k22)
  · rename_i y23 y24 y25
    exact h

theorem frame_sendKey {M : Nat} {o s : State} (hM : 270337 ||| M = M) (h : Frame M o s) {p : Nat} :
    Frame M o (State.sendKey s p) := by
  unfold State.sendKey
  extract_lets v1 v2 s3
  have k4 : Frame M o s3 := frame_with_sec (lor_mono hM rfl) h
  clear_value v1 s3
  split
  · rename_i y5 y6 y7 y8 e9 e10
    refine frame_ite (frame_noteExhausted (lor_mono hM rfl) h) ?_
    refine frame_ite (frame_askBlock (lor_mono hM rfl) (frame_with_sec (lor_mono hM rfl) h)) ?_
    split
    · rename_i y11 y12 y13 e14
      have k15 : Frame M o y13 := Frame2.of_eq e14 (frame_signWith (lor_mono hM rfl) k4)
      exact frame_finishKeys (lor_mono hM rfl) (frame_put (lor_mono hM rfl) (frame_emitKeys (lor_mono hM rfl) k15))
  · rename_i y16 y17 y18
    exact h

theorem frame_takeHello {M : Nat} {o s : State} (hM : 270337 ||| M = M) (h : Frame M o s) {p : Nat} {h2 : HelloIn} :
    Frame M o (State.takeHello s p h2) := by
  unfold State.takeHello
  extract_lets s1 s2 s3 v4 s5
  have k6 : Frame M o s1 := frame_wr (lor_mono hM rfl) h
  have k7 : Frame M o s2 := frame_wr (lor_mono hM rfl) k6
  have k8 : Frame M o s3 := frame_startHandshake (lor_mono hM rfl) k7
  have k9 : Frame M o s5 := frame_setPort (lor_mono hM rfl) k8
  clear_value s1 s2 s3 v4 s5
  exact frame_ite k8 (frame_sendKey (lor_mono hM rfl) k9)

theorem frame_takeKey {M : Nat} {o s : State} (hM : 274437 ||| M = M) (h : Frame M o s) {p : Nat} {cipher : List Byte} {sig : List Byte} :
    Frame M o (State.takeKey s p cipher sig) := by
  unfold State.takeKey
  extract_lets v1
  clear_value v1
  split
  · rename_i y2 y3 y4 y5 e6 e7
    refine frame_ite h ?_
    exact frame_ite (frame_keysFail (lor_mono hM rfl) h) (frame_ite (frame_keysFail (lor_mono hM rfl) h) (frame_ite (frame_keysFail (lor_mono hM rfl) h) (frame_finishKeys (lor_mono hM rfl) (frame_setPort (lor_mono hM rfl) h))))
  · rename_i y8 y9 y10
    exact h

theorem frame_rekeyPort {M : Nat} {o s : State} (hM : 8192 ||| M = M) (h : Frame M o s) {p : Nat} :
    Frame M o (State.rekeyPort s p) := by
  unfold State.rekeyPort
  exact frame_ite h (frame_ite (frame_setPort (lor_mono hM rfl) h) (frame_startHandshake (lor_mono hM rfl) h))

theorem frame_retrainPort {M : Nat} {o s : State} (hM : 8193 ||| M = M) (h : Frame M o s) {p : Nat} :
    Frame M o (State.retrainPort s p) := by
  unfold State.retrainPort
  exact frame_ite h (frame_startTraining (lor_mono hM rfl) (frame_setPort (lor_mono hM rfl) h))

theorem frame_trained {M : Nat} {o s : State} (hM : 274437 ||| M = M) (h : Frame M o s) {p : Nat} {t : TrainIn} :
    Frame M o (State.trained s p t) := by
  unfold State.trained
  extract_lets v1 v2 v3 s4 s5 s6 s7 s8
  have k9 : Frame M o s4 := frame_setPort (lor_mono hM rfl) h
  have k10 : Frame M o s5 := frame_ite k9 (frame_wr (lor_mono hM rfl) k9)
  have k11 : Frame M o s6 := frame_wr (lor_mono hM rfl) k10
  have k12 : Frame M o s7 := frame_ite (frame_wr (lor_mono hM rfl) k11) k11
  have k13 : Frame M o s8 := frame_comeUp (lor_mono hM rfl) k12
  clear_value v1 v2 v3 s4 s5 s6 s7 s8
  refine frame_ite h ?_
  refine frame_ite ?_ ?_
  · exact frame_ite h (frame_ite (frame_portFails (lor_mono hM rfl) (frame_setPort (lor_mono hM rfl) h)) (frame_startTraining (lor_mono hM rfl) (frame_setPort (lor_mono hM rfl) h)))
  · exact frame_ite (frame_setErr (lor_mono hM rfl) (frame_portToDown (lor_mono hM rfl) k12)) (frame_ite (frame_startHandshake (lor_mono hM rfl) k12) (frame_ite (frame_startHandshake (lor_mono hM rfl) k13) k13))

theorem frame_sendStop {M : Nat} {o s : State} (hM : 0 ||| M = M) (h : Frame M o s) {p : Nat} :
    Frame M o (State.sendStop s p) := by
  unfold State.sendStop
  exact frame_put (lor_mono hM rfl) h

theorem frame_lnkEnable {M : Nat} {o s : State} (hM : 274437 ||| M = M) (h : Frame M o s) {p : Nat} {old : Nat} {new : Nat} :
    Frame M o (State.lnkEnable s p old new) := by
  unfold State.lnkEnable
  exact frame_ite h (frame_ite (frame_sendStop (lor_mono hM rfl) (frame_portToDown (lor_mono hM rfl) h)) (frame_startTraining (lor_mono hM rfl) (frame_setPort (lor_mono hM rfl) h)))

theorem frame_execHello {M : Nat} {o s : State} (hM : 270337 ||| M = M) (h : Frame M o s) {port : Nat} {h1 : HelloIn} :
    FrameNext M o (execHello port h1 s) := by
  unfold execHello
  extract_lets s1
  have k2 : Frame M o s1 := frame_begin_ (lor_mono hM rfl) h
  clear_value s1
  exact FrameNext.next (frame_ite (frame_takeHello (lor_mono hM rfl) k2) k2)

theorem frame_execKeyEncapsulation {M : Nat} {o s : State} (hM : 274437 ||| M = M) (h : Frame M o s) {port : Nat} {cipher : List Byte} {signature : List Byte} :
    FrameNext M o (execKeyEncapsulation port cipher signature s) := by
  unfold execKeyEncapsulation
  extract_lets s1
  have k2 : Frame M o s1 := frame_begin_ (lor_mono hM rfl) h
  clear_value s1
  exact FrameNext.next (frame_ite (frame_takeKey (lor_mono hM rfl) k2) k2)

theorem frame_execKeyHandshakeTimeout {M : Nat} {o s : State} (hM : 274437 ||| M = M) (h : Frame M o s) {port : Nat} :
    FrameNext M o (execKeyHandshakeTimeout port s) := by
  unfold execKeyHandshakeTimeout
  extract_lets s1
  have k2 : Frame M o s1 := frame_begin_ (lor_mono hM rfl) h
  clear_value s1
  exact FrameNext.next (frame_ite (frame_keysFail (lor_mono hM rfl) k2) k2)

theorem frame_execRekeyDue {M : Nat} {o s : State} (hM : 8192 ||| M = M) (h : Frame M o s) {port : Nat} :
    FrameNext M o (execRekeyDue port s) := by
  unfold execRekeyDue
  refine FrameNext.next ?_
  extract_lets s1
  have k2 : Frame M o s1 := frame_begin_ (lor_mono hM rfl) h
  clear_value s1
  exact frame_ite (frame_rekeyPort (lor_mono hM rfl) k2) k2

theorem frame_execRekey {M : Nat} {o s : State} (hM : 8197 ||| M = M) (h : Frame M o s) {port : Nat} :
    FrameNext M o (execRekey port s) := by
  unfold execRekey
  exact FrameNext.next (frame_gated (lor_mono hM rfl) (frame_begin_ (lor_mono hM rfl) h) (fun x1 k2 => frame_rekeyPort (lor_mono hM rfl) k2))

theorem frame_execRetrain {M : Nat} {o s : State} (hM : 8197 ||| M = M) (h : Frame M o s) {port : Nat} :
    FrameNext M o (execRetrain port s) := by
  unfold execRetrain
  exact FrameNext.next (frame_gated (lor_mono hM rfl) (frame_begin_ (lor_mono hM rfl) h) (fun x1 k2 => frame_retrainPort (lor_mono hM rfl) k2))

theorem frame_execLinkTrainComplete {M : Nat} {o s : State} (hM : 274437 ||| M = M) (h : Frame M o s) {port : Nat} {t : TrainIn} :
    FrameNext M o (execLinkTrainComplete port t s) := by
  unfold execLinkTrainComplete
  exact FrameNext.next (frame_trained (lor_mono hM rfl) (frame_begin_ (lor_mono hM rfl) h))

theorem frame_execStopMarkerReceive {M : Nat} {o s : State} (hM : 274437 ||| M = M) (h : Frame M o s) {port : Nat} :
    FrameNext M o (execStopMarkerReceive port s) := by
  unfold execStopMarkerReceive
  extract_lets s1
  have k2 : Frame M o s1 := frame_begin_ (lor_mono hM rfl) h
  clear_value s1
  exact FrameNext.next (frame_ite (frame_portFails (lor_mono hM rfl) k2) k2)

theorem frame_setFeed {M : Nat} {o s : State} (hM : 65568 ||| M = M) (h : Frame M o s) {key : Option Nat} {e : Nat} {f : Stream → Stream} :
    Frame M o (State.setFeed s key e f) := by
  unfold State.setFeed
  split
  · rename_i y1
    exact frame_setStream (lor_mono hM rfl) h
  · rename_i y2 y3
    exact frame_with_fo (lor_mono hM rfl) h

theorem frame_landSample {M : Nat} {o s : State} (hM : 529063 ||| M = M) (h : Frame M o s) {key : Option Nat} {t : Stream} {d : Nat} {pos : Nat} {index : Nat} {f : List Nat} :
    Frame M o (State.landSample s key t d pos index f) := by
  unfold State.landSample
  split
  · rename_i y1
    exact frame_ite (frame_writeInput (lor_mono hM rfl) h) (frame_setStream (lor_mono hM rfl) h)
  · rename_i y2 y3
    exact frame_ite h (frame_lpNarrowPut (lor_mono hM rfl) h)

theorem frame_closeChunk {M : Nat} {o s : State} (hM : 602791 ||| M = M) (h : Frame M o s) {key : Option Nat} {e : Nat} {tr : Nat} :
    Frame M o (State.closeChunk s key e tr) := by
  unfold State.closeChunk
  split
  · rename_i y1 e2
    exact h
  · rename_i y3 y4 e5
    extract_lets v6 v7 v8 s9 s10 v11 s12
    have k13 : Frame M o s9 := frame_chunkDone (lor_mono hM rfl) (frame_flushHeld (lor_mono hM rfl) h)
    have k14 : Frame M o s10 := frame_lpNarrowPut (lor_mono hM rfl) h
    have k15 : Frame M o s12 := by
      unfold s12
      split
      · rename_i y16
        exact frame_setStream (lor_mono hM rfl) k13
      · rename_i y17 y18
        exact frame_setFeed (lor_mono hM rfl) k14
    clear_value v6 v7 v8 s9 s10 v11 s12
    exact frame_setFeed (lor_mono hM rfl) k15

theorem frame_closeFull {M : Nat} {o s : State} (hM : 602791 ||| M = M) (h : Frame M o s) {key : Option Nat} {e : Nat} {a3 : Nat} :
    Frame M o (State.closeFull s key e a3) := by
  induction a3 generalizing s key e with
  | zero =>
    unfold State.closeFull
    exact h
  | succ w0 ih =>
    unfold State.closeFull
    split
    · rename_i y1 e2
      exact h
    · rename_i y3 y4 e5
      exact frame_ite (ih (frame_closeChunk (lor_mono hM rfl) h)) h

theorem frame_placePacket {M : Nat} {o s : State} (hM : 602791 ||| M = M) (h : Frame M o s) {p : Nat} {key : Option Nat} {e : Nat} {k : Int} {fs : List (List Nat)} :
    Frame M o (State.placePacket s p key e k fs) := by
  unfold State.placePacket
  split
  · rename_i y1 e2
    exact h
  · rename_i y3 y4 e5
    extract_lets v6 v7 v8 s9 v10
    have k11 : Frame M o s9 := frame_setFeed (lor_mono hM rfl) h
    have k12 : ∀ (x13 : State × List Nat × Bool) (x14 : List Nat × Nat), Frame1 M o x13 → Frame1 M o (v10 x13 x14) := by
      intro x13 x14 k15
      unfold v10
      extract_lets v16 v17
      clear_value v16 v17
      exact Frame1.ite (Frame1.mk k15.get) (Frame1.ite k15 (Frame1.mk (frame_landSample (lor_mono hM rfl) k15.get)))
    clear_value v6 v7 v8 s9 v10
    refine frame_ite (frame_count (lor_mono hM rfl) h) ?_
    refine frame_ite (frame_count (lor_mono hM rfl) h) ?_
    split
    · rename_i y18 y19 y20 y21 e22
      have k23 : Frame M o y19 := Frame1.of_eq e22 (frame_foldl1 (Frame1.mk k11) (fun x24 x25 k26 => k12 _ _ k26))
      extract_lets s27 s28
      have k29 : Frame M o s27 := frame_ite (frame_count (lor_mono hM rfl) k23) k23
      have k30 : Frame M o s28 := frame_setFeed (lor_mono hM rfl) k29
      clear_value s27 s28
      exact frame_ite k29 (frame_closeFull (lor_mono hM rfl) k30)

theorem frame_takeFrames {M : Nat} {o s : State} (hM : 602791 ||| M = M) (h : Frame M o s) {p : Nat} {key : Option Nat} {t : Stream} {rtp : Bool} {at_ : Nat} {fs : List (List Nat)} :
    Frame M o (State.takeFrames s p key t rtp at_ fs) := by
  unfold State.takeFrames
  split
  · rename_i y1 y2
    extract_lets v3 s4
    have k5 : Frame M o s4 := frame_with_fo (lor_mono hM rfl) h
    clear_value s4
    exact frame_placePacket (lor_mono hM rfl) k5
  · rename_i y6
    refine frame_ite ?_ (frame_ite (frame_placePacket (lor_mono hM rfl) h) h)
    refine frame_ite ?_ h
    extract_lets s7
    have k8 : Frame M o s7 := frame_setStream (lor_mono hM rfl) h
    clear_value s7
    exact frame_placePacket (lor_mono hM rfl) (frame_setState (lor_mono hM rfl) k8)

theorem frame_takeParsed {M : Nat} {o s : State} (hM : 602791 ||| M = M) (h : Frame M o s) {p : Nat} {key : Option Nat} {t : Stream} {x : List Byte} {parsed : Option (Nat × List Byte)} :
    Frame M o (State.takeParsed s p key t x parsed) := by
  unfold State.takeParsed
  split
  · rename_i y1
    exact frame_count (lor_mono hM rfl) h
  · rename_i y2 y3 y4
    extract_lets v5 v6
    clear_value v5 v6
    exact frame_takeFrames (lor_mono hM rfl) h

theorem frame_takeDatagram {M : Nat} {o s : State} (hM : 602791 ||| M = M) (h : Frame M o s) {p : Nat} {key : Option Nat} {t : Stream} {bs : List Byte} :
    Frame M o (State.takeDatagram s p key t bs) := by
  unfold State.takeDatagram
  extract_lets v1 v2
  clear_value v1 v2
  exact frame_takeParsed (lor_mono hM rfl) h

theorem frame_ptpMap {M : Nat} {o s : State} (hM : 1 ||| M = M) (h : Frame M o s) :
    Frame M o (State.ptpMap s) := by
  unfold State.ptpMap
  exact frame_publish (lor_mono hM rfl) h

theorem frame_delayRequest {M : Nat} {o s : State} (hM : 0 ||| M = M) (h : Frame M o s) {p : Nat} {domain : Nat} :
    Frame M o (State.delayRequest s p domain) := by
  unfold State.delayRequest
  exact frame_put (lor_mono hM rfl) (frame_put (lor_mono hM rfl) h)

theorem frame_ptpSync {M : Nat} {o s : State} (hM : 16385 ||| M = M) (h : Frame M o s) {p : Nat} {domain : Nat} {offset : Int} :
    Frame M o (State.ptpSync s p domain offset) := by
  unfold State.ptpSync
  extract_lets v1 v2 v3 s4 s5 s6
  have k7 : Frame M o s4 := frame_with_servo (lor_mono hM rfl) h
  have k8 : Frame M o s5 := frame_wr (lor_mono hM rfl) k7
  have k9 : Frame M o s6 := frame_ite k8 (frame_ptpMap (lor_mono hM rfl) k8)
  clear_value v1 v2 s4 s5 s6
  exact frame_ite h (frame_delayRequest (lor_mono hM rfl) (frame_ite (frame_wr (lor_mono hM rfl) k9) k9))

theorem frame_pktDrop {M : Nat} {o s : State} (hM : 1 ||| M = M) (h : Frame M o s) {p : Nat} :
    Frame M o (State.pktDrop s p) := by
  unfold State.pktDrop
  exact frame_count (lor_mono hM rfl) h

theorem frame_pktBad {M : Nat} {o s : State} (hM : 1 ||| M = M) (h : Frame M o s) {p : Nat} :
    Frame M o (State.pktBad s p) := by
  unfold State.pktBad
  exact frame_count (lor_mono hM rfl) h

theorem frame_takeFrame {M : Nat} {o s : State} (hM : 2095095 ||| M = M) (h : Frame M o s) {p : Nat} {f : EthFrame} :
    Frame M o (State.takeFrame s p f) := by
  unfold State.takeFrame
  split
  · rename_i y1 e2
    exact h
  · rename_i y3 y4
    refine frame_ite (frame_pktBad (lor_mono hM rfl) h) ?_
    refine frame_ite (frame_pktDrop (lor_mono hM rfl) h) ?_
    refine frame_ite (frame_pktBad (lor_mono hM rfl) h) ?_
    split
    · rename_i y5 y6 y7 y8 y9 y10 y11 y12 y13 y14 e15
      refine frame_ite (frame_pktBad (lor_mono hM rfl) h) ?_
      refine frame_ite (frame_put (lor_mono hM rfl) h) ?_
      refine frame_ite (frame_put (lor_mono hM rfl) h) ?_
      extract_lets v16
      clear_value v16
      split
      · rename_i y17 e18
        exact frame_ite h (frame_pktDrop (lor_mono hM rfl) h)
      · rename_i y19 y20 e21
        exact frame_ite h (frame_chooseIfReady (lor_mono hM rfl) (frame_settleWatch (lor_mono hM rfl) (frame_takeDatagram (lor_mono hM rfl) h)))
    · rename_i y22 y23 y24 e25
      exact frame_ptpSync (lor_mono hM rfl) (frame_put (lor_mono hM rfl) h)
    · rename_i y26 e27
      exact frame_put (lor_mono hM rfl) h
    · rename_i y28 e29
      exact frame_put (lor_mono hM rfl) h
    · rename_i y30 y31 y32 y33 y34 e35
      extract_lets s36
      have k37 : Frame M o s36 := frame_put (lor_mono hM rfl) h
      clear_value s36
      exact frame_ite (frame_put (lor_mono hM rfl) k37) k37
    · rename_i y38 y39 y40 e41
      extract_lets s42 v43
      have k44 : Frame M o s42 := frame_put (lor_mono hM rfl) h
      exact frame_with_servo (lor_mono hM rfl) k44
    · rename_i y45 y46 y47 y48 y49 e50
      extract_lets s51
      have k52 : Frame M o s51 := frame_put (lor_mono hM rfl) h
      clear_value s51
      exact frame_ite (frame_put (lor_mono hM rfl) k52) k52
    · rename_i y53 y54 e55
      exact frame_reportGroups (lor_mono hM rfl) (frame_put (lor_mono hM rfl) h)
    · rename_i y56 e57
      exact frame_put (lor_mono hM rfl) h
    · rename_i y58 y59 y60 y61 y62 y63 y64 y65 y66 y67
      exact frame_pktDrop (lor_mono hM rfl) h

theorem frame_fillChunk {M : Nat} {o s : State} (hM : 602791 ||| M = M) (h : Frame M o s) {t0 : Stream} {key : Option Nat} :
    Frame M o (State.fillChunk s t0 key) := by
  unfold State.fillChunk
  extract_lets v1 v2 v3 s4 v5 s6 s7
  have k8 : Frame M o s4 := frame_setFeed (lor_mono hM rfl) h
  have k9 : ∀ (x10 : State × List Nat) (x11 : Nat), Frame1 M o x10 → Frame1 M o (v5 x10 x11) := fun x10 x11 k12 => Frame1.ite (Frame1.mk (frame_landSample (lor_mono hM rfl) k12.get)) (Frame1.mk k12.get)
  have k13 : Frame M o s6 := frame_ite k8 (Frame1.get (frame_foldl1 (Frame1.mk k8) (fun x14 x15 k16 => k9 _ _ k16)))
  have k17 : Frame M o s7 := frame_count (lor_mono hM rfl) k13
  clear_value v1 v2 v3 s4 v5 s6 s7
  exact frame_closeFull (lor_mono hM rfl) (frame_closeChunk (lor_mono hM rfl) k17)

theorem frame_packetFrame {M : Nat} {o s : State} (hM : 7 ||| M = M) (h : Frame M o s) {t : Stream} {k : Nat} {ch : Nat} {len : Nat} {acc : List (List Nat) × List Nat × Nat} {i : Nat} :
    Frame1 M o (State.packetFrame s t k ch len acc i) := by
  unfold State.packetFrame
  split
  · rename_i y1 y2 y3 y4
    extract_lets v5
    clear_value v5
    refine Frame1.ite ?_ (Frame1.ite (Frame1.mk h) (Frame1.mk h))
    split
    · rename_i y6 e7
      exact Frame1.mk h
    · rename_i y8 y9 y10 e11
      split
      · rename_i y12 y13 y14 e15
        have k16 : Frame M o y14 := Frame2.of_eq e15 (frame_narrowRead (lor_mono hM rfl) h)
        extract_lets v17
        clear_value v17
        exact Frame1.mk k16

theorem frame_sendPacket {M : Nat} {o s : State} (hM : 37 ||| M = M) (h : Frame M o s) {t : Stream} {e0 : Nat} {sink : Nat} {frames : List (List Nat)} {last : List Nat} {under : Nat} :
    Frame M o (State.sendPacket s t e0 sink frames last under) := by
  unfold State.sendPacket
  extract_lets v1 v2 v3 v4 v5 v6 v7 s8 v9 v10 v11 v12 v13 v14 s15
  have k16 : Frame M o s8 := frame_ite h (frame_setErr (lor_mono hM rfl) (frame_count (lor_mono hM rfl) h))
  have k17 : Frame M o s15 := frame_sendPaths (lor_mono hM rfl) k16
  clear_value v1 v2 v3 v4 v5 v6 v7 s8 v9 v10 v11 v12 v13 v14 s15
  exact frame_setStream (lor_mono hM rfl) k17

theorem frame_formPacket {M : Nat} {o s : State} (hM : 39 ||| M = M) (h : Frame M o s) {t0 : Stream} :
    Frame M o (State.formPacket s t0) := by
  unfold State.formPacket
  extract_lets v1 v2 v3 v4 v5 s6
  have k7 : Frame1 M o s6 := frame_foldl1 (Frame1.mk h) (fun x8 x9 k10 => frame_packetFrame (lor_mono hM rfl) k10.get)
  clear_value v1 v2 v3 v4 v5 s6
  split
  · rename_i y11 e12
    exact h
  · rename_i y13 y14 e15
    exact frame_sendPacket (lor_mono hM rfl) k7.get

theorem frame_pktDown {M : Nat} {o s : State} (hM : 1 ||| M = M) (h : Frame M o s) {p : Nat} :
    Frame M o (State.pktDown s p) := by
  unfold State.pktDown
  exact frame_wr (lor_mono hM rfl) h

theorem frame_pktComesUp {M : Nat} {o s : State} (hM : 1 ||| M = M) (h : Frame M o s) {p : Nat} :
    Frame M o (State.pktComesUp s p) := by
  unfold State.pktComesUp
  extract_lets s1
  have k2 : Frame M o s1 := frame_reportGroups (lor_mono hM rfl) (frame_reportGroups (lor_mono hM rfl) (frame_wr (lor_mono hM rfl) h))
  clear_value s1
  exact frame_foldl k2 (fun x3 x4 k5 => frame_foldl k5 (fun x6 x7 k8 => frame_resolveHop (lor_mono hM rfl) k8))

theorem frame_execPktFrameReceive {M : Nat} {o s : State} (hM : 2095095 ||| M = M) (h : Frame M o s) {port : Nat} {f : EthFrame} :
    FrameNext M o (execPktFrameReceive port f s) := by
  unfold execPktFrameReceive
  extract_lets s1
  have k2 : Frame M o s1 := frame_begin_ (lor_mono hM rfl) h
  clear_value s1
  exact FrameNext.next (frame_ite (frame_takeFrame (lor_mono hM rfl) k2) k2)

theorem frame_execPacketFillTimeout {M : Nat} {o s : State} (hM : 2078711 ||| M = M) (h : Frame M o s) {entry : Nat} {standby : Bool} :
    FrameNext M o (execPacketFillTimeout entry s standby) := by
  unfold execPacketFillTimeout
  extract_lets s1
  have k2 : Frame M o s1 := frame_begin_ (lor_mono hM rfl) h
  clear_value s1
  refine FrameNext.next ?_
  split
  · rename_i y3 e4
    exact k2
  · rename_i y5 y6 e7
    exact frame_ite (frame_ite (frame_fillChunk (lor_mono hM rfl) k2) k2) (frame_ite (frame_chooseIfReady (lor_mono hM rfl) (frame_settleWatch (lor_mono hM rfl) (frame_fillChunk (lor_mono hM rfl) k2))) k2)

theorem frame_execPacketForm {M : Nat} {o s : State} (hM : 39 ||| M = M) (h : Frame M o s) {entry : Nat} :
    FrameNext M o (execPacketForm entry s) := by
  unfold execPacketForm
  extract_lets s1
  have k2 : Frame M o s1 := frame_begin_ (lor_mono hM rfl) h
  clear_value s1
  refine FrameNext.next ?_
  split
  · rename_i y3 e4
    exact k2
  · rename_i y5 y6 e7
    exact frame_ite (frame_formPacket (lor_mono hM rfl) k2) k2

theorem frame_execPtpAnnounceTimeout {M : Nat} {o s : State} (hM : 16389 ||| M = M) (h : Frame M o s) :
    FrameNext M o (execPtpAnnounceTimeout s) := by
  unfold execPtpAnnounceTimeout
  extract_lets s1 s2 v3 s4
  have k5 : Frame M o s1 := frame_begin_ (lor_mono hM rfl) h
  have k6 : Frame M o s2 := frame_wr (lor_mono hM rfl) k5
  have k7 : Frame M o s4 := frame_with_servo (lor_mono hM rfl) k6
  clear_value s1 s2 s4
  exact FrameNext.ite (FrameNext.next (frame_setErrLog (lor_mono hM rfl) k7)) (FrameNext.next k5)

theorem frame_execPtpHoldoverExpire {M : Nat} {o s : State} (hM : 1 ||| M = M) (h : Frame M o s) :
    FrameNext M o (execPtpHoldoverExpire s) := by
  unfold execPtpHoldoverExpire
  extract_lets s1
  have k2 : Frame M o s1 := frame_begin_ (lor_mono hM rfl) h
  clear_value s1
  exact FrameNext.next (frame_ite (frame_wr (lor_mono hM rfl) k2) k2)

theorem frame_execPacketPortDown {M : Nat} {o s : State} (hM : 1 ||| M = M) (h : Frame M o s) {port : Nat} :
    FrameNext M o (execPacketPortDown port s) := by
  unfold execPacketPortDown
  extract_lets s1
  have k2 : Frame M o s1 := frame_begin_ (lor_mono hM rfl) h
  clear_value s1
  exact FrameNext.next (frame_ite (frame_pktDown (lor_mono hM rfl) k2) k2)

theorem frame_execPacketPortUp {M : Nat} {o s : State} (hM : 1 ||| M = M) (h : Frame M o s) {port : Nat} :
    FrameNext M o (execPacketPortUp port s) := by
  unfold execPacketPortUp
  extract_lets s1
  have k2 : Frame M o s1 := frame_begin_ (lor_mono hM rfl) h
  clear_value s1
  exact FrameNext.next (frame_ite (frame_pktComesUp (lor_mono hM rfl) k2) k2)

theorem frame_execLaneFail {M : Nat} {o s : State} (hM : 274437 ||| M = M) (h : Frame M o s) {port : Nat} {lane : Nat} :
    FrameNext M o (execLaneFail port lane s) := by
  unfold execLaneFail
  extract_lets s1
  have k2 : Frame M o s1 := frame_begin_ (lor_mono hM rfl) h
  clear_value s1
  exact FrameNext.next (frame_ite (frame_pktDown (lor_mono hM rfl) k2) (frame_ite (frame_laneFails (lor_mono hM rfl) k2) k2))

end Sys2Proof.Machine
end

