-- ==== Sys2Proof/Laws/FrameHostIf.lean ====
section
/-! SUPPORT. The functions of Machine/HostIf.lean, Machine/Boot.lean change only the parts of the state named by a mask. -/
namespace Sys2Proof.Machine
open Sys2Proof

set_option Elab.async false

theorem frame_readWord {M : Nat} {o s : State} (hM : 32769 ||| M = M) (h : Frame M o s) {a : Nat} :
    Frame2 M o (State.readWord s a) := by
  unfold State.readWord
  split
  · rename_i y1 e2
    exact Frame2.mk h
  · rename_i y3 y4 y5 e6
    extract_lets v7 v8 v9 s10
    have k11 : Frame M o s10 := by
      refine frame_ite (frame_wr (lor_mono hM rfl) h) ?_
      exact frame_ite (frame_wrAt (lor_mono hM rfl) h) (frame_ite (frame_wrAt (lor_mono hM rfl) h) (frame_ite (frame_wr (lor_mono hM rfl) (frame_setAport (lor_mono hM rfl) h)) (frame_ite (frame_wr (lor_mono hM rfl) h) h)))
    clear_value v7 v8 v9 s10
    exact Frame2.ite (Frame2.mk h) (Frame2.ite (Frame2.mk h) (Frame2.mk k11))

theorem frame_servedWord {M : Nat} {o s : State} (hM : 32769 ||| M = M) (h : Frame M o s) {a : Nat} :
    Frame2 M o (State.servedWord s a) := by
  unfold State.servedWord
  exact Frame2.ite (frame_readWord (lor_mono hM rfl) h) (Frame2.mk h)

theorem frame_bar0Read {M : Nat} {o s : State} (hM : 32769 ||| M = M) (h : Frame M o s) {a : Nat} {n : Nat} :
    Frame2 M o (State.bar0Read s a n) := by
  unfold State.bar0Read
  extract_lets v1 s2
  have k3 : Frame2 M o s2 := by
    refine frame_foldl2 (Frame2.mk h) ?_
    intro x4 x5 k6
    extract_lets s7
    have k8 : Frame2 M o s7 := frame_servedWord (lor_mono hM rfl) k6.get
    clear_value s7
    exact Frame2.mk k8.get
  clear_value v1 s2
  exact Frame2.mk k3.get

theorem frame_bar0Serve {M : Nat} {o s : State} (hM : 32769 ||| M = M) (h : Frame M o s) {a : Nat} {n : Nat} :
    Frame M o (State.bar0Serve s a n) := by
  unfold State.bar0Serve
  refine frame_ite ?_ h
  extract_lets s1
  have k2 : Frame2 M o s1 := frame_bar0Read (lor_mono hM rfl) h
  clear_value s1
  exact frame_put (lor_mono hM rfl) k2.get

theorem frame_writeShadow {M : Nat} {o s : State} (hM : 8213 ||| M = M) (h : Frame M o s) {k : PageKind} {i : Nat} {off : Nat} {w : Nat} :
    Frame M o (State.writeShadow s k i off w) := by
  unfold State.writeShadow
  extract_lets v1 v2 v3 v4 v5
  clear_value v1 v2 v3 v4
  exact frame_ite (frame_badWrite (lor_mono hM rfl) h) (frame_ite (frame_staging (lor_mono hM rfl) (frame_with_lnk (lor_mono hM rfl) h)) (frame_staging (lor_mono hM rfl) (frame_setWord (lor_mono hM rfl) h)))

theorem frame_stageRevert {M : Nat} {o s : State} (hM : 8213 ||| M = M) (h : Frame M o s) {k : PageKind} {i : Nat} :
    Frame M o (State.stageRevert s k i) := by
  unfold State.stageRevert
  exact frame_ite (frame_badWrite (lor_mono hM rfl) h) (frame_staging (lor_mono hM rfl) (frame_revertPage (lor_mono hM rfl) h))

theorem frame_siteCtl {M : Nat} {o s : State} (hM : 8213 ||| M = M) (h : Frame M o s) {i : Nat} {w : Nat} :
    Frame M o (State.siteCtl s i w) := by
  unfold State.siteCtl
  refine frame_ite (frame_badWrite (lor_mono hM rfl) h) ?_
  extract_lets s1
  have k2 : Frame M o s1 := frame_wr (lor_mono hM rfl) h
  clear_value s1
  exact frame_ite (frame_stageRevert (lor_mono hM rfl) k2) k2

theorem frame_writePageCtl {M : Nat} {o s : State} (hM : 2013175 ||| M = M) (h : Frame M o s) {k : PageKind} {i : Nat} {w : Nat} :
    Frame M o (State.writePageCtl s k i w) := by
  unfold State.writePageCtl
  extract_lets v1 v2 v3
  have k4 : ∀ (x5 : State), Frame M o x5 → Frame M o (v2 x5) := fun x5 k6 => frame_ite (frame_stageRevert (lor_mono hM rfl) k6) k6
  clear_value v1 v2 v3
  split
  · rename_i y7
    exact frame_ite (frame_badWrite (lor_mono hM rfl) h) (k4 _ h)
  · rename_i y8
    exact frame_siteCtl (lor_mono hM rfl) h
  · rename_i y9
    exact k4 _ (frame_lnkEnable (lor_mono hM rfl) (frame_wr (lor_mono hM rfl) h))
  · rename_i y10
    exact k4 _ (frame_aptEnable (lor_mono hM rfl) h)
  · rename_i y11
    exact k4 _ (frame_choose (lor_mono hM rfl) (frame_wr (lor_mono hM rfl) h))
  · rename_i y12
    exact k4 _ (frame_choose (lor_mono hM rfl) (frame_syncDamper (lor_mono hM rfl) (frame_wr (lor_mono hM rfl) h)))
  · rename_i y13
    exact k4 _ (frame_wr (lor_mono hM rfl) h)
  · rename_i y14
    exact k4 _ (frame_wr (lor_mono hM rfl) h)
  · rename_i y15
    exact k4 _ (frame_wr (lor_mono hM rfl) h)
  · rename_i y16 y17 y18 y19 y20 y21 y22 y23 y24 y25
    exact k4 _ h

theorem frame_writePlain {M : Nat} {o s : State} (hM : 5 ||| M = M) (h : Frame M o s) {k : PageKind} {i : Nat} {off : Nat} {w : Nat} :
    Frame M o (State.writePlain s k i off w) := by
  unfold State.writePlain
  extract_lets v1 v2 v3 v4
  clear_value v1 v2 v3 v4
  exact frame_watchErr (lor_mono hM rfl) h (fun x5 k6 => frame_setWord (lor_mono hM rfl) k6)

theorem frame_writeTaken {M : Nat} {o s : State} (hM : 2095103 ||| M = M) (h : Frame M o s) {k : PageKind} {i : Nat} {off : Nat} {w : Nat} :
    Frame M o (State.writeTaken s k i off w) := by
  unfold State.writeTaken
  refine frame_ite (frame_writePageCtl (lor_mono hM rfl) h) ?_
  split
  · rename_i y1
    refine frame_ite ?_ ?_
    · split
      · rename_i y2 e3
        exact frame_startCheck (lor_mono hM rfl) h
      · rename_i y4 e5
        exact frame_startApply (lor_mono hM rfl) h
      · rename_i y6 y7 y8
        exact frame_abandonCmd (lor_mono hM rfl) h
    · refine frame_ite (frame_softResetWrite (lor_mono hM rfl) h) ?_
      refine frame_ite (frame_benchResetWrite (lor_mono hM rfl) h) ?_
      exact frame_ite (frame_jobKillWrite (lor_mono hM rfl) h) (frame_ite (frame_powerWrite (lor_mono hM rfl) h) (frame_ite (frame_consWrite (lor_mono hM rfl) h) (frame_writePlain (lor_mono hM rfl) h)))
  · rename_i y9
    exact frame_ite (frame_ite (frame_closeWindow (lor_mono hM rfl) h) h) (frame_ite (frame_secStart (lor_mono hM rfl) h) (frame_ite (frame_consWrite (lor_mono hM rfl) h) (frame_writePlain (lor_mono hM rfl) h)))
  · rename_i y10
    exact frame_ite (frame_consWrite (lor_mono hM rfl) h) (frame_writePlain (lor_mono hM rfl) h)
  · rename_i y11
    refine frame_ite ?_ (frame_writePlain (lor_mono hM rfl) h)
    extract_lets s12
    have k13 : Frame M o s12 := frame_ite (frame_cntAlignWrite (lor_mono hM rfl) h) h
    clear_value s12
    exact frame_ite (frame_cntSetWrite (lor_mono hM rfl) k13) k13
  · rename_i y14
    exact frame_ite (frame_ite (frame_badWrite (lor_mono hM rfl) h) (frame_writePlain (lor_mono hM rfl) h)) (frame_writePlain (lor_mono hM rfl) h)
  · rename_i y15
    exact frame_ite (frame_pntCmdWrite (lor_mono hM rfl) h) (frame_ite (frame_resumeWrite (lor_mono hM rfl) h) (frame_writePlain (lor_mono hM rfl) h))
  · rename_i y16
    refine frame_ite ?_ (frame_writePlain (lor_mono hM rfl) h)
    extract_lets s17
    have k18 : Frame M o s17 := frame_writePlain (lor_mono hM rfl) h
    clear_value s17
    exact frame_ite (frame_with_evt (lor_mono hM rfl) k18) k18
  · rename_i y19
    exact frame_ite (frame_marginWrite (lor_mono hM rfl) h) (frame_writePlain (lor_mono hM rfl) h)
  · rename_i y20
    refine frame_ite ?_ (frame_writePlain (lor_mono hM rfl) h)
    extract_lets s21
    have k22 : Frame M o s21 := frame_ite (frame_retrainPort (lor_mono hM rfl) h) h
    clear_value s21
    exact frame_ite (frame_rekeyPort (lor_mono hM rfl) k22) k22
  · rename_i y23
    exact frame_ite (frame_scrubHoldWrite (lor_mono hM rfl) h) (frame_ite (frame_ite (frame_writePlain (lor_mono hM rfl) h) (frame_badWrite (lor_mono hM rfl) h)) (frame_writePlain (lor_mono hM rfl) h))
  · rename_i y24 y25 y26 y27 y28 y29 y30 y31 y32 y33 y34
    exact frame_writePlain (lor_mono hM rfl) h

theorem frame_writeLive {M : Nat} {o s : State} (hM : 2095103 ||| M = M) (h : Frame M o s) {k : PageKind} {i : Nat} {off : Nat} {w : Nat} :
    Frame M o (State.writeLive s k i off w) := by
  unfold State.writeLive
  exact frame_ite (frame_badWrite (lor_mono hM rfl) h) (frame_writeTaken (lor_mono hM rfl) h)

theorem frame_writeWord {M : Nat} {o s : State} (hM : 2095103 ||| M = M) (h : Frame M o s) {a : Nat} {w : Nat} :
    Frame M o (State.writeWord s a w) := by
  unfold State.writeWord
  split
  · rename_i y1 e2
    exact h
  · rename_i y3 y4 y5 e6
    extract_lets v7 v8
    clear_value v7 v8
    exact frame_ite (frame_badWrite (lor_mono hM rfl) h) (frame_ite (frame_ite h (frame_badWrite (lor_mono hM rfl) h)) (frame_ite (frame_writeShadow (lor_mono hM rfl) h) (frame_writeLive (lor_mono hM rfl) h)))

theorem frame_bar0Write {M : Nat} {o s : State} (hM : 2095103 ||| M = M) (h : Frame M o s) {a : Nat} {size : Nat} {value : Nat} :
    Frame M o (State.bar0Write s a size value) := by
  unfold State.bar0Write
  refine frame_ite h ?_
  refine frame_ite (frame_writeWord (lor_mono hM rfl) h) ?_
  refine frame_ite (frame_writeWord (lor_mono hM rfl) (frame_writeWord (lor_mono hM rfl) h)) ?_
  split
  · rename_i y1 e2
    exact h
  · rename_i y3 y4 y5 e6
    exact frame_badWrite (lor_mono hM rfl) h

theorem frame_hostLpWrite {M : Nat} {o s : State} (hM : 1559 ||| M = M) (h : Frame M o s) {a : Nat} {bs : List Byte} :
    Frame M o (State.hostLpWrite s a bs) := by
  unfold State.hostLpWrite
  extract_lets v1 v2 v3 s4 v5 v6
  have k7 : ∀ (x8 : State), Frame M o x8 → Frame M o (v2 x8) := fun x8 k9 => Frame3.get (frame_serveAccess (lor_mono hM rfl) k9)
  have k10 : Frame M o s4 := k7 _ h
  clear_value v1 v2 v3 s4 v5
  refine frame_ite (frame_setErr (lor_mono hM rfl) h) ?_
  refine frame_ite (frame_ite (frame_setErr (lor_mono hM rfl) h) (frame_syncStaged (lor_mono hM rfl) (frame_staging (lor_mono hM rfl) (frame_with_par (lor_mono hM rfl) k10)))) ?_
  refine frame_ite (frame_setErr (lor_mono hM rfl) h) ?_
  split
  · rename_i y11 y12 e13
    exact frame_setErr (lor_mono hM rfl) h
  · rename_i y14 e15
    exact k7 _ h

theorem frame_bar2Lp {M : Nat} {o s : State} (hM : 1559 ||| M = M) (h : Frame M o s) {a : Nat} {n : Nat} {write : Option (List Byte)} :
    Frame M o (State.bar2Lp s a n write) := by
  unfold State.bar2Lp
  extract_lets v1 s2 s3
  have k4 : Frame M o s2 := frame_ite (frame_unmappedErr (lor_mono hM rfl) h) h
  have k5 : Frame3 M o s3 := Frame3.ite (Frame3.mk k4) (frame_serveAccess (lor_mono hM rfl) k4)
  clear_value v1 s2 s3
  split
  · rename_i y6 y7
    exact frame_ite k4 (frame_hostLpWrite (lor_mono hM rfl) k4)
  · rename_i y8
    exact frame_put (lor_mono hM rfl) k5.get

theorem frame_bar2None {M : Nat} {o s : State} (hM : 0 ||| M = M) (h : Frame M o s) {n : Nat} {write : Option (List Byte)} :
    Frame M o (State.bar2None s n write) := by
  unfold State.bar2None
  exact frame_ite h (frame_put (lor_mono hM rfl) h)

theorem frame_debugAccess {M : Nat} {o s : State} (hM : 135 ||| M = M) (h : Frame M o s) {off : Nat} {n : Nat} {write : Option (List Byte)} :
    Frame M o (State.debugAccess s off n write) := by
  unfold State.debugAccess
  extract_lets v1 s2
  have k3 : Frame2 M o s2 := frame_narrowRead (lor_mono hM rfl) h
  clear_value v1 s2
  refine frame_ite (frame_bar2None (lor_mono hM rfl) (frame_setErr (lor_mono hM rfl) h)) ?_
  refine frame_ite (frame_bar2None (lor_mono hM rfl) (frame_unmappedErr (lor_mono hM rfl) h)) ?_
  refine frame_ite (frame_bar2None (lor_mono hM rfl) (frame_sealedErr (lor_mono hM rfl) h)) ?_
  split
  · rename_i y4 y5
    exact frame_ite (frame_narrowWrite (lor_mono hM rfl) h) (frame_badWrite (lor_mono hM rfl) h)
  · rename_i y6
    exact frame_put (lor_mono hM rfl) k3.get

theorem frame_bar2Access {M : Nat} {o s : State} (hM : 1687 ||| M = M) (h : Frame M o s) {off : Nat} {n : Nat} {write : Option (List Byte)} :
    Frame M o (State.bar2Access s off n write) := by
  unfold State.bar2Access
  refine frame_ite h ?_
  refine frame_ite (frame_bar2None (lor_mono hM rfl) h) ?_
  refine frame_ite ?_ ?_
  · exact frame_ite (frame_bar2None (lor_mono hM rfl) h) (frame_ite (frame_bar2Lp (lor_mono hM rfl) h) (frame_bar2None (lor_mono hM rfl) (frame_unmappedErr (lor_mono hM rfl) h)))
  · exact frame_ite (frame_bar2None (lor_mono hM rfl) (frame_unmappedErr (lor_mono hM rfl) h)) (frame_ite (frame_ite (frame_bar2None (lor_mono hM rfl) h) (frame_bar2Lp (lor_mono hM rfl) h)) (frame_debugAccess (lor_mono hM rfl) h))

theorem frame_execRegisterWrite {M : Nat} {o s : State} (hM : 2095103 ||| M = M) (h : Frame M o s) {addr : Nat} {size : Nat} {value : Nat} :
    FrameNext M o (execRegisterWrite addr size value s) := by
  unfold execRegisterWrite
  exact FrameNext.next (frame_bar0Write (lor_mono hM rfl) (frame_begin_ (lor_mono hM rfl) h))

theorem frame_execShadowWrite {M : Nat} {o s : State} (hM : 2095103 ||| M = M) (h : Frame M o s) {addr : Nat} {value : Nat} :
    FrameNext M o (execShadowWrite addr value s) := by
  unfold execShadowWrite
  exact FrameNext.next (frame_bar0Write (lor_mono hM rfl) (frame_begin_ (lor_mono hM rfl) h))

theorem frame_execStageRevert {M : Nat} {o s : State} (hM : 8213 ||| M = M) (h : Frame M o s) {page : Nat} :
    FrameNext M o (execStageRevert page s) := by
  unfold execStageRevert
  extract_lets s1
  have k2 : Frame M o s1 := frame_begin_ (lor_mono hM rfl) h
  clear_value s1
  refine FrameNext.next ?_
  split
  · rename_i y3 y4 y5 e6
    exact frame_gated (lor_mono hM rfl) k2 (fun x7 k8 => frame_stageRevert (lor_mono hM rfl) k8)
  · rename_i y9 e10
    exact k2

theorem frame_execCodebookWrite {M : Nat} {o s : State} (hM : 2095103 ||| M = M) (h : Frame M o s) {word : Nat} {value : Nat} :
    FrameNext M o (execCodebookWrite word value s) := by
  unfold execCodebookWrite
  exact FrameNext.next (frame_gated (lor_mono hM rfl) (frame_begin_ (lor_mono hM rfl) h) (fun x1 k2 => frame_writeLive (lor_mono hM rfl) k2))

theorem frame_execLnkPortEnableWrite {M : Nat} {o s : State} (hM : 2095103 ||| M = M) (h : Frame M o s) {port : Nat} {word : Nat} :
    FrameNext M o (execLnkPortEnableWrite port word s) := by
  unfold execLnkPortEnableWrite
  exact FrameNext.next (frame_gated (lor_mono hM rfl) (frame_begin_ (lor_mono hM rfl) h) (fun x1 k2 => frame_writeLive (lor_mono hM rfl) k2))

theorem frame_execXmcEnableWrite {M : Nat} {o s : State} (hM : 8213 ||| M = M) (h : Frame M o s) {site : Nat} {value : Nat} :
    FrameNext M o (execXmcEnableWrite site value s) := by
  unfold execXmcEnableWrite
  extract_lets v1 v2
  clear_value v1 v2
  exact FrameNext.next (frame_gated (lor_mono hM rfl) (frame_begin_ (lor_mono hM rfl) h) (fun x3 k4 => frame_ite (frame_badWrite (lor_mono hM rfl) k4) (frame_siteCtl (lor_mono hM rfl) k4)))

theorem frame_execLogRdSeqWrite {M : Nat} {o s : State} (hM : 5 ||| M = M) (h : Frame M o s) {value : Nat} :
    FrameNext M o (execLogRdSeqWrite value s) := by
  unfold execLogRdSeqWrite
  exact FrameNext.next (frame_gated (lor_mono hM rfl) (frame_begin_ (lor_mono hM rfl) h) (fun x1 k2 => frame_wr (lor_mono hM rfl) k2))

theorem frame_execEvtClear {M : Nat} {o s : State} (hM : 7 ||| M = M) (h : Frame M o s) :
    FrameNext M o (execEvtClear s) := by
  unfold execEvtClear
  exact FrameNext.next (frame_gated (lor_mono hM rfl) (frame_begin_ (lor_mono hM rfl) h) (fun x1 k2 => frame_with_evt (lor_mono hM rfl) k2))

theorem frame_execCntNowRead {M : Nat} {o s : State} (hM : 32769 ||| M = M) (h : Frame M o s) {off : Nat} {size : Nat} :
    FrameNext M o (execCntNowRead s off size) := by
  unfold execCntNowRead
  exact FrameNext.next (frame_bar0Serve (lor_mono hM rfl) (frame_begin_ (lor_mono hM rfl) h))

theorem frame_execEvtCntLoRead {M : Nat} {o s : State} (hM : 32769 ||| M = M) (h : Frame M o s) {page : Nat} {off : Nat} {size : Nat} :
    FrameNext M o (execEvtCntLoRead page off s size) := by
  unfold execEvtCntLoRead
  exact FrameNext.next (frame_bar0Serve (lor_mono hM rfl) (frame_begin_ (lor_mono hM rfl) h))

theorem frame_execBar2StreamWrite {M : Nat} {o s : State} (hM : 1687 ||| M = M) (h : Frame M o s) {off : Nat} {data : List Byte} :
    FrameNext M o (execBar2StreamWrite off data s) := by
  unfold execBar2StreamWrite
  exact FrameNext.next (frame_bar2Access (lor_mono hM rfl) (frame_begin_ (lor_mono hM rfl) h))

theorem frame_execBar2ApertureAccess {M : Nat} {o s : State} (hM : 1687 ||| M = M) (h : Frame M o s) {off : Nat} {len : Nat} {write : Option (List Byte)} :
    FrameNext M o (execBar2ApertureAccess off len write s) := by
  unfold execBar2ApertureAccess
  exact FrameNext.next (frame_bar2Access (lor_mono hM rfl) (frame_begin_ (lor_mono hM rfl) h))

theorem frame_execBar2DebugAccess {M : Nat} {o s : State} (hM : 1687 ||| M = M) (h : Frame M o s) {off : Nat} {len : Nat} {write : Option (List Byte)} :
    FrameNext M o (execBar2DebugAccess off len write s) := by
  unfold execBar2DebugAccess
  exact FrameNext.next (frame_bar2Access (lor_mono hM rfl) (frame_begin_ (lor_mono hM rfl) h))

theorem frame_toRow {M : Nat} {o s : State} (hM : 1048577 ||| M = M) (h : Frame M o s) {n : Nat} :
    Frame M o (State.toRow s n) := by
  unfold State.toRow
  extract_lets s1 v2
  have k3 : Frame M o s1 := frame_wr (lor_mono hM rfl) h
  exact frame_with_pow (lor_mono hM rfl) k3

theorem frame_stopBoot {M : Nat} {o s : State} (hM : 1048577 ||| M = M) (h : Frame M o s) {fail : Nat} {detail : Nat} :
    Frame M o (State.stopBoot s fail detail) := by
  unfold State.stopBoot
  extract_lets s1 s2 v3
  have k4 : Frame M o s1 := frame_wr (lor_mono hM rfl) h
  have k5 : Frame M o s2 := frame_wr (lor_mono hM rfl) k4
  clear_value s1 s2
  exact frame_with_pow (lor_mono hM rfl) k5

theorem frame_loadFuses {M : Nat} {o s : State} (hM : 1 ||| M = M) (h : Frame M o s) :
    Frame M o (State.loadFuses s) := by
  unfold State.loadFuses
  extract_lets s1 s2 s3
  have k4 : Frame M o s1 := frame_wr (lor_mono hM rfl) h
  have k5 : Frame M o s2 := frame_wr (lor_mono hM rfl) k4
  have k6 : Frame M o s3 := frame_wr (lor_mono hM rfl) k5
  clear_value s1 s2 s3
  exact frame_syncTally (lor_mono hM rfl) (frame_wr (lor_mono hM rfl) k6)

theorem frame_fuseRow {M : Nat} {o s : State} (hM : 1310721 ||| M = M) (h : Frame M o s) :
    Frame M o (State.fuseRow s) := by
  unfold State.fuseRow
  extract_lets s1 s2 s3 s4
  have k5 : Frame M o s1 := frame_loadFuses (lor_mono hM rfl) h
  have k6 : Frame M o s2 := frame_extendM (lor_mono hM rfl) k5
  have k7 : Frame M o s3 := frame_extendM (lor_mono hM rfl) k6
  have k8 : Frame M o s4 := frame_ite (frame_extendM (lor_mono hM rfl) k7) k7
  clear_value s1 s2 s3 s4
  exact frame_toRow (lor_mono hM rfl) k8

theorem frame_release {M : Nat} {o s : State} (hM : 1048585 ||| M = M) (h : Frame M o s) :
    Frame M o (State.release s) := by
  unfold State.release
  extract_lets s1 v2
  have k3 : Frame M o s1 := frame_wr (lor_mono hM rfl) h
  exact frame_with_clk_pow (lor_mono hM rfl) k3

theorem frame_bootSlot {M : Nat} {o s : State} (hM : 1310721 ||| M = M) (h : Frame M o s) {slot : Nat} :
    Frame M o (State.bootSlot s slot) := by
  unfold State.bootSlot
  extract_lets v1 s2 s3 s4
  have k5 : Frame M o s2 := frame_with_sec (lor_mono hM rfl) h
  have k6 : Frame M o s3 := frame_wr (lor_mono hM rfl) k5
  have k7 : Frame M o s4 := frame_wr (lor_mono hM rfl) k6
  clear_value s2 s3 s4
  exact frame_toRow (lor_mono hM rfl) (frame_extendM (lor_mono hM rfl) k7)

theorem frame_fwRow {M : Nat} {o s : State} (hM : 1310725 ||| M = M) (h : Frame M o s) {codes : List Nat} :
    Frame M o (State.fwRow s codes) := by
  unfold State.fwRow
  extract_lets v1 s2 v3 s4 v5 s6
  have k7 : Frame M o s2 := frame_wr (lor_mono hM rfl) h
  have k8 : Frame M o s4 := frame_ite (frame_with_sec (lor_mono hM rfl) k7) h
  have k9 : Frame M o s6 := frame_setErr (lor_mono hM rfl) (frame_with_sec (lor_mono hM rfl) k8)
  clear_value v1 s4 s6
  split
  · rename_i y10 y11 e12
    exact frame_ite (frame_bootSlot (lor_mono hM rfl) k8) (frame_ite (frame_bootSlot (lor_mono hM rfl) k9) (frame_stopBoot (lor_mono hM rfl) k9))
  · rename_i y13 e14
    exact frame_ite (frame_bootSlot (lor_mono hM rfl) k8) (frame_stopBoot (lor_mono hM rfl) k8)

theorem frame_trainSite {M : Nat} {o s : State} (hM : 1025 ||| M = M) (h : Frame M o s) {i : Nat} {t : SiteTrain} :
    Frame M o (State.trainSite s i t) := by
  unfold State.trainSite
  extract_lets v1 s2 s3 s4 s5 s6
  have k7 : Frame M o s2 := frame_wr (lor_mono hM rfl) h
  have k8 : Frame M o s3 := frame_wr (lor_mono hM rfl) k7
  have k9 : Frame M o s4 := frame_wr (lor_mono hM rfl) k8
  have k10 : Frame M o s5 := frame_wr (lor_mono hM rfl) k9
  have k11 : Frame M o s6 := frame_wr (lor_mono hM rfl) k10
  clear_value v1 s2 s3 s4 s5 s6
  exact frame_setSite (lor_mono hM rfl) k11

theorem frame_memRow {M : Nat} {o s : State} (hM : 1311745 ||| M = M) (h : Frame M o s) {sites : List SiteTrain} :
    Frame M o (State.memRow s sites) := by
  unfold State.memRow
  extract_lets s1 v2 v3 v4 s5 s6
  have k7 : Frame M o s1 := frame_foldl h (fun x8 x9 k10 => frame_trainSite (lor_mono hM rfl) k10)
  have k11 : Frame M o s5 := frame_extendM (lor_mono hM rfl) k7
  have k12 : Frame M o s6 := frame_foldl k11 (fun x13 x14 k15 => frame_ite (frame_startTraining (lor_mono hM rfl) k15) k15)
  clear_value s1 v2 v3 v4 s5 s6
  exact frame_ite (frame_stopBoot (lor_mono hM rfl) k7) (frame_toRow (lor_mono hM rfl) k12)

theorem frame_linkRow {M : Nat} {o s : State} (hM : 1323013 ||| M = M) (h : Frame M o s) {results : List TrainIn} :
    Frame M o (State.linkRow s results) := by
  unfold State.linkRow
  extract_lets s1
  have k2 : Frame M o s1 := by
    refine frame_foldl h ?_
    intro x3 x4 k5
    split
    · rename_i y6 y7 e8
      exact frame_ite (frame_trained (lor_mono hM rfl) k5) k5
    · rename_i y9 e10
      exact k5
  clear_value s1
  exact frame_toRow (lor_mono hM rfl) k2

theorem frame_publishRow {M : Nat} {o s : State} (hM : 1048577 ||| M = M) (h : Frame M o s) :
    Frame M o (State.publishRow s) := by
  unfold State.publishRow
  extract_lets v1 v2 s3 s4 s5 s6 s7
  have k8 : Frame M o s3 := frame_wr (lor_mono hM rfl) h
  have k9 : Frame M o s4 := frame_wr (lor_mono hM rfl) k8
  have k10 : Frame M o s5 := frame_wr (lor_mono hM rfl) k9
  have k11 : Frame M o s6 := frame_wr (lor_mono hM rfl) k10
  have k12 : Frame M o s7 := frame_foldl k11 (fun x13 x14 k15 => frame_wr (lor_mono hM rfl) k15)
  clear_value v1 v2 s3 s4 s5 s6 s7
  exact frame_toRow (lor_mono hM rfl) k12

theorem frame_readyRow {M : Nat} {o s : State} (hM : 1310725 ||| M = M) (h : Frame M o s) :
    Frame M o (State.readyRow s) := by
  unfold State.readyRow
  extract_lets s1 s2 v3 v4 s5 s6
  have k7 : Frame M o s1 := frame_wr (lor_mono hM rfl) h
  have k8 : Frame M o s2 := frame_wr (lor_mono hM rfl) (frame_wr (lor_mono hM rfl) k7)
  have k9 : Frame M o s5 := frame_with_sec_pow (lor_mono hM rfl) k8
  have k10 : Frame M o s6 := frame_wr (lor_mono hM rfl) k9
  clear_value s1 s2 s5 s6
  exact frame_logAdd (lor_mono hM rfl) k10

theorem frame_resumeSigning {M : Nat} {o s : State} (hM : 796167 ||| M = M) (h : Frame M o s) :
    Frame M o (State.resumeSigning s) := by
  unfold State.resumeSigning
  extract_lets s1 v2 s3
  have k4 : Frame M o s1 := frame_syncTally (lor_mono hM rfl) (frame_signTally (lor_mono hM rfl) h)
  have k5 : Frame M o s3 := frame_ite (frame_secFinish (lor_mono hM rfl) (frame_with_sec (lor_mono hM rfl) k4)) k4
  clear_value s1 s3
  exact frame_foldl k5 (fun x6 x7 k8 => frame_sendKey (lor_mono hM rfl) k8)

theorem frame_blockWritten {M : Nat} {o s : State} (hM : 796167 ||| M = M) (h : Frame M o s) {ok : Bool} :
    Frame M o (State.blockWritten s ok) := by
  unfold State.blockWritten
  split
  · rename_i y1 e2
    exact h
  · rename_i y3 y4 e5
    refine frame_ite ?_ ?_
    · extract_lets v6 v7
      clear_value v6
      exact frame_resumeSigning (lor_mono hM rfl) (frame_with_sec (lor_mono hM rfl) h)
    · extract_lets s8 s9 s10 v11
      have k12 : Frame M o s8 := frame_setErr (lor_mono hM rfl) h
      have k13 : Frame M o s9 := frame_ite (frame_setErr (lor_mono hM rfl) k12) k12
      have k14 : Frame M o s10 := frame_ite (frame_secEnd (lor_mono hM rfl) k13) k13
      clear_value s8 s9 s10
      exact frame_with_sec (lor_mono hM rfl) k14

theorem frame_execBootFuses {M : Nat} {o s : State} (hM : 1310729 ||| M = M) (h : Frame M o s) {ok : Bool} {detail : Nat} :
    FrameNext M o (execBootFuses ok detail s) := by
  unfold execBootFuses
  extract_lets s1 s2
  have k3 : Frame M o s1 := frame_begin_ (lor_mono hM rfl) h
  have k4 : Frame M o s2 := frame_release (lor_mono hM rfl) k3
  clear_value s1 s2
  exact FrameNext.next (frame_ite k3 (frame_ite (frame_fuseRow (lor_mono hM rfl) k4) (frame_stopBoot (lor_mono hM rfl) k4)))

theorem frame_execBootFwVerify {M : Nat} {o s : State} (hM : 1310725 ||| M = M) (h : Frame M o s) {codes : List Nat} :
    FrameNext M o (execBootFwVerify codes s) := by
  unfold execBootFwVerify
  extract_lets s1
  have k2 : Frame M o s1 := frame_begin_ (lor_mono hM rfl) h
  clear_value s1
  exact FrameNext.next (frame_ite (frame_fwRow (lor_mono hM rfl) k2) k2)

theorem frame_execMpStart {M : Nat} {o s : State} (hM : 1048577 ||| M = M) (h : Frame M o s) :
    FrameNext M o (execMpStart s) := by
  unfold execMpStart
  extract_lets s1
  have k2 : Frame M o s1 := frame_begin_ (lor_mono hM rfl) h
  clear_value s1
  exact FrameNext.next (frame_ite (frame_toRow (lor_mono hM rfl) k2) k2)

theorem frame_execBist {M : Nat} {o s : State} (hM : 1048577 ||| M = M) (h : Frame M o s) {failed : Bool} {detail : Nat} :
    FrameNext M o (execBist failed detail s) := by
  unfold execBist
  extract_lets s1
  have k2 : Frame M o s1 := frame_begin_ (lor_mono hM rfl) h
  clear_value s1
  exact FrameNext.next (frame_ite k2 (frame_ite (frame_stopBoot (lor_mono hM rfl) k2) (frame_toRow (lor_mono hM rfl) k2)))

theorem frame_execMemTrain {M : Nat} {o s : State} (hM : 1311745 ||| M = M) (h : Frame M o s) {sites : List SiteTrain} :
    FrameNext M o (execMemTrain sites s) := by
  unfold execMemTrain
  extract_lets s1
  have k2 : Frame M o s1 := frame_begin_ (lor_mono hM rfl) h
  clear_value s1
  exact FrameNext.next (frame_ite (frame_memRow (lor_mono hM rfl) k2) k2)

theorem frame_execLinkTrain {M : Nat} {o s : State} (hM : 1323013 ||| M = M) (h : Frame M o s) {results : List TrainIn} :
    FrameNext M o (execLinkTrain results s) := by
  unfold execLinkTrain
  extract_lets s1
  have k2 : Frame M o s1 := frame_begin_ (lor_mono hM rfl) h
  clear_value s1
  exact FrameNext.next (frame_ite (frame_linkRow (lor_mono hM rfl) k2) k2)

theorem frame_execPublish {M : Nat} {o s : State} (hM : 1048577 ||| M = M) (h : Frame M o s) :
    FrameNext M o (execPublish s) := by
  unfold execPublish
  extract_lets s1
  have k2 : Frame M o s1 := frame_begin_ (lor_mono hM rfl) h
  clear_value s1
  exact FrameNext.next (frame_ite (frame_publishRow (lor_mono hM rfl) k2) k2)

theorem frame_execDeviceReady {M : Nat} {o s : State} (hM : 1310725 ||| M = M) (h : Frame M o s) :
    FrameNext M o (execDeviceReady s) := by
  unfold execDeviceReady
  extract_lets s1
  have k2 : Frame M o s1 := frame_begin_ (lor_mono hM rfl) h
  clear_value s1
  exact FrameNext.next (frame_ite (frame_readyRow (lor_mono hM rfl) k2) k2)

theorem frame_execConfigRequest {M : Nat} {o s : State} (hM : 1048576 ||| M = M) (h : Frame M o s) {busMaster : Option Bool} :
    FrameNext M o (execConfigRequest s busMaster) := by
  unfold execConfigRequest
  extract_lets s1 v2 v3 s4
  have k5 : Frame M o s1 := frame_begin_ (lor_mono hM rfl) h
  have k6 : Frame M o s4 := frame_ite (frame_with_pow (lor_mono hM rfl) k5) k5
  clear_value s1 v2 s4
  exact FrameNext.next (frame_ite k5 (frame_put (lor_mono hM rfl) k6))

theorem frame_execSmbusReadByte {M : Nat} {o s : State} (hM : 0 ||| M = M) (h : Frame M o s) {cmd : Nat} :
    FrameNext M o (execSmbusReadByte cmd s) := by
  unfold execSmbusReadByte
  extract_lets s1
  have k2 : Frame M o s1 := frame_begin_ (lor_mono hM rfl) h
  clear_value s1
  exact FrameNext.next (frame_ite k2 (frame_put (lor_mono hM rfl) k2))

theorem frame_execJtagInstruction {M : Nat} {o s : State} (hM : 0 ||| M = M) (h : Frame M o s) {ir : Nat} :
    FrameNext M o (execJtagInstruction ir s) := by
  unfold execJtagInstruction
  extract_lets s1
  have k2 : Frame M o s1 := frame_begin_ (lor_mono hM rfl) h
  clear_value s1
  exact FrameNext.next (frame_ite k2 (frame_put (lor_mono hM rfl) k2))

theorem frame_execNextblockWriteDone {M : Nat} {o s : State} (hM : 796167 ||| M = M) (h : Frame M o s) {ok : Bool} :
    FrameNext M o (execNextblockWriteDone ok s) := by
  unfold execNextblockWriteDone
  exact FrameNext.next (frame_blockWritten (lor_mono hM rfl) (frame_begin_ (lor_mono hM rfl) h))

end Sys2Proof.Machine
end

