-- ==== Sys2Proof/Laws/FrameDispatch.lean ====
section
/-! SUPPORT. The functions of Machine/Dispatch.lean change only the parts of the state named by a mask. -/
namespace Sys2Proof.Machine
open Sys2Proof

set_option Elab.async false

theorem frame_exec {M : Nat} {o s : State} (hM : 2097151 ||| M = M) (h : Frame M o s) {i : Instr} :
    FrameNext M o (exec i s) := by
  unfold exec
  split
  · rename_i y1 y2 y3 y4
    exact frame_execRegisterWrite (lor_mono hM rfl) h
  · rename_i y5 y6 y7
    exact frame_execShadowWrite (lor_mono hM rfl) h
  · rename_i y8 y9
    exact frame_execStageRevert (lor_mono hM rfl) h
  · rename_i y10
    exact frame_execCheck (lor_mono hM rfl) h
  · rename_i y11
    exact frame_execCheckComplete (lor_mono hM rfl) h
  · rename_i y12 y13
    exact frame_execApply (lor_mono hM rfl) h
  · rename_i y14
    exact frame_execAbandon (lor_mono hM rfl) h
  · rename_i y15
    exact frame_execParisonApplication (lor_mono hM rfl) h
  · rename_i y16 y17 y18
    exact frame_execBar2StreamWrite (lor_mono hM rfl) h
  · rename_i y19 y20 y21 y22
    exact frame_execBar2ApertureAccess (lor_mono hM rfl) h
  · rename_i y23 y24 y25 y26
    exact frame_execBar2DebugAccess (lor_mono hM rfl) h
  · rename_i y27 y28 y29
    exact frame_execCntNowRead (lor_mono hM rfl) h
  · rename_i y30 y31 y32
    exact frame_execCodebookWrite (lor_mono hM rfl) h
  · rename_i y33 y34
    exact frame_execMatrix (lor_mono hM rfl) h
  · rename_i y35 y36
    exact frame_execVector (lor_mono hM rfl) h
  · rename_i y37 y38
    exact frame_execGate (lor_mono hM rfl) h
  · rename_i y39 y40
    exact frame_execExpertRouting (lor_mono hM rfl) h
  · rename_i y41 y42
    exact frame_execConversion (lor_mono hM rfl) h
  · rename_i y43 y44
    exact frame_execRecurrence (lor_mono hM rfl) h
  · rename_i y45 y46
    exact frame_execParallelScan (lor_mono hM rfl) h
  · rename_i y47 y48
    exact frame_execAttention (lor_mono hM rfl) h
  · rename_i y49 y50
    exact frame_execKvAppend (lor_mono hM rfl) h
  · rename_i y51 y52
    exact frame_execKvStage (lor_mono hM rfl) h
  · rename_i y53 y54
    exact frame_execKvRestore (lor_mono hM rfl) h
  · rename_i y55 y56
    exact frame_execConvolution (lor_mono hM rfl) h
  · rename_i y57 y58
    exact frame_execPooling (lor_mono hM rfl) h
  · rename_i y59 y60
    exact frame_execEventDecoding (lor_mono hM rfl) h
  · rename_i y61 y62
    exact frame_execAllReduce (lor_mono hM rfl) h
  · rename_i y63 y64
    exact frame_execReduceScatter (lor_mono hM rfl) h
  · rename_i y65 y66
    exact frame_execAllGather (lor_mono hM rfl) h
  · rename_i y67 y68
    exact frame_execBroadcast (lor_mono hM rfl) h
  · rename_i y69 y70
    exact frame_execKvRingRotation (lor_mono hM rfl) h
  · rename_i y71 y72
    exact frame_execSecondChancePass (lor_mono hM rfl) h
  · rename_i y73 y74
    exact frame_execAttentionMergePass (lor_mono hM rfl) h
  · rename_i y75 y76
    exact frame_execWeightReissue (lor_mono hM rfl) h
  · rename_i y77 y78
    exact frame_execSweepClose (lor_mono hM rfl) h
  · rename_i y79 y80
    exact frame_execSourceTimeout (lor_mono hM rfl) h
  · rename_i y81
    exact frame_execBarrierWatchdog (lor_mono hM rfl) h
  · rename_i y82 y83
    exact frame_execWindowOpen (lor_mono hM rfl) h
  · rename_i y84 y85
    exact frame_execBenchPowerGood (lor_mono hM rfl) h
  · rename_i y86 y87
    exact frame_execGatherTransferIssue (lor_mono hM rfl) h
  · rename_i y88 y89 y90
    exact frame_execTransferLand (lor_mono hM rfl) h
  · rename_i y91 y92
    exact frame_execWeightReloadComplete (lor_mono hM rfl) h
  · rename_i y93 y94 y95 y96 y97 y98
    exact frame_execScratchpadAtomic (lor_mono hM rfl) h
  · rename_i y99 y100 y101 y102
    exact frame_execScratchpadPatrol (lor_mono hM rfl) h
  · rename_i y103 y104 y105
    exact frame_execScrubComplete (lor_mono hM rfl) h
  · rename_i y106 y107
    exact frame_execScrubHold (lor_mono hM rfl) h
  · rename_i y108 y109 y110 y111 y112 y113
    exact frame_execLpddrAccess (lor_mono hM rfl) h
  · rename_i y114 y115 y116 y117 y118 y119 y120
    exact frame_execLpddrAtomic (lor_mono hM rfl) h
  · rename_i y121 y122 y123 y124 y125
    exact frame_execLpddrPatrol (lor_mono hM rfl) h
  · rename_i y126 y127 y128
    exact frame_execStackTempRead (lor_mono hM rfl) h
  · rename_i y129 y130 y131
    exact frame_execXmcEnableWrite (lor_mono hM rfl) h
  · rename_i y132 y133 y134
    exact frame_execMarginGo (lor_mono hM rfl) h
  · rename_i y135 y136 y137 y138 y139
    exact frame_execMarginDone (lor_mono hM rfl) h
  · rename_i y140 y141
    exact frame_execLpddrDeferExpire (lor_mono hM rfl) h
  · rename_i y142 y143 y144 y145
    exact frame_execFrameReceive (lor_mono hM rfl) h
  · rename_i y146 y147 y148 y149
    exact frame_execReadRequest (lor_mono hM rfl) h
  · rename_i y150 y151 y152 y153
    exact frame_execReadResponse (lor_mono hM rfl) h
  · rename_i y154 y155 y156 y157
    exact frame_execWrite (lor_mono hM rfl) h
  · rename_i y158 y159 y160
    exact frame_execWriteAcknowledgement (lor_mono hM rfl) h
  · rename_i y161 y162 y163
    exact frame_execRemoteScratchpadAtomic (lor_mono hM rfl) h
  · rename_i y164 y165 y166 y167
    exact frame_execRemoteMemoryAtomic (lor_mono hM rfl) h
  · rename_i y168 y169 y170
    exact frame_execStreamSamples (lor_mono hM rfl) h
  · rename_i y171 y172 y173
    exact frame_execCollective (lor_mono hM rfl) h
  · rename_i y174 y175 y176
    exact frame_execSlowNotice (lor_mono hM rfl) h
  · rename_i y177 y178 y179
    exact frame_execDoneNotice (lor_mono hM rfl) h
  · rename_i y180 y181 y182
    exact frame_execSuspectReport (lor_mono hM rfl) h
  · rename_i y183
    exact frame_execSlowNoticeSend (lor_mono hM rfl) h
  · rename_i y184 y185 y186 y187 y188
    exact frame_execRoundTimeout (lor_mono hM rfl) h
  · rename_i y189 y190 y191
    exact frame_execHello (lor_mono hM rfl) h
  · rename_i y192 y193 y194 y195
    exact frame_execKeyEncapsulation (lor_mono hM rfl) h
  · rename_i y196 y197
    exact frame_execKeyHandshakeTimeout (lor_mono hM rfl) h
  · rename_i y198 y199
    exact frame_execRekeyDue (lor_mono hM rfl) h
  · rename_i y200 y201
    exact frame_execRekey (lor_mono hM rfl) h
  · rename_i y202 y203
    exact frame_execRetrain (lor_mono hM rfl) h
  · rename_i y204 y205 y206
    exact frame_execLinkTrainComplete (lor_mono hM rfl) h
  · rename_i y207 y208 y209
    exact frame_execLaneFail (lor_mono hM rfl) h
  · rename_i y210 y211
    exact frame_execStopMarkerReceive (lor_mono hM rfl) h
  · rename_i y212 y213 y214
    exact frame_execPktFrameReceive (lor_mono hM rfl) h
  · rename_i y215 y216 y217
    exact frame_execPacketFillTimeout (lor_mono hM rfl) h
  · rename_i y218 y219
    exact frame_execPacketForm (lor_mono hM rfl) h
  · rename_i y220
    exact frame_execPtpAnnounceTimeout (lor_mono hM rfl) h
  · rename_i y221
    exact frame_execPtpHoldoverExpire (lor_mono hM rfl) h
  · rename_i y222 y223 y224 y225 y226
    exact frame_execInputBlockLand (lor_mono hM rfl) h
  · rename_i y227 y228 y229 y230
    exact frame_execOutputTake (lor_mono hM rfl) h
  · rename_i y231 y232 y233 y234
    exact frame_execIecBlockReceive (lor_mono hM rfl) h
  · rename_i y235 y236 y237 y238 y239
    exact frame_execLockLoss (lor_mono hM rfl) h
  · rename_i y240 y241 y242
    exact frame_execLockAcquire (lor_mono hM rfl) h
  · rename_i y243 y244
    exact frame_execAptStart (lor_mono hM rfl) h
  · rename_i y245 y246
    exact frame_execPrerollEnd (lor_mono hM rfl) h
  · rename_i y247 y248
    exact frame_execAptStop (lor_mono hM rfl) h
  · rename_i y249 y250
    exact frame_execStopEnd (lor_mono hM rfl) h
  · rename_i y251 y252 y253
    exact frame_execSteerUpdate (lor_mono hM rfl) h
  · rename_i y254 y255
    exact frame_execSyncPulse (lor_mono hM rfl) h
  · rename_i y256
    exact frame_execSyncHoldover (lor_mono hM rfl) h
  · rename_i y257
    exact frame_execCntSet (lor_mono hM rfl) h
  · rename_i y258
    exact frame_execCntAlign (lor_mono hM rfl) h
  · rename_i y259 y260
    exact frame_execPntFailstopCmd (lor_mono hM rfl) h
  · rename_i y261
    exact frame_execMpWatchdogExpire (lor_mono hM rfl) h
  · rename_i y262 y263
    exact frame_execBenchPowerLoss (lor_mono hM rfl) h
  · rename_i y264 y265
    exact frame_execClockFault (lor_mono hM rfl) h
  · rename_i y266 y267
    exact frame_execRailFault (lor_mono hM rfl) h
  · rename_i y268 y269
    exact frame_execControlStateError (lor_mono hM rfl) h
  · rename_i y270
    exact frame_execProbeTimeout (lor_mono hM rfl) h
  · rename_i y271 y272
    exact frame_execStandbyResume (lor_mono hM rfl) h
  · rename_i y273
    exact frame_execPowerOn (lor_mono hM rfl) h
  · rename_i y274
    exact frame_execColdReset (lor_mono hM rfl) h
  · rename_i y275
    exact frame_execHotReset (lor_mono hM rfl) h
  · rename_i y276 y277
    exact frame_execSoftReset (lor_mono hM rfl) h
  · rename_i y278 y279
    exact frame_execBenchReset (lor_mono hM rfl) h
  · rename_i y280 y281
    exact frame_execJobKill (lor_mono hM rfl) h
  · rename_i y282 y283
    exact frame_execDormantRequest (lor_mono hM rfl) h
  · rename_i y284
    exact frame_execD3hotEnter (lor_mono hM rfl) h
  · rename_i y285
    exact frame_execD0Return (lor_mono hM rfl) h
  · rename_i y286 y287 y288
    exact frame_execConsWrite (lor_mono hM rfl) h
  · rename_i y289
    exact frame_execLogMirror (lor_mono hM rfl) h
  · rename_i y290 y291
    exact frame_execLogRdSeqWrite (lor_mono hM rfl) h
  · rename_i y292
    exact frame_execEvtClear (lor_mono hM rfl) h
  · rename_i y293
    exact frame_execPresenceOpen (lor_mono hM rfl) h
  · rename_i y294
    exact frame_execPresenceExpire (lor_mono hM rfl) h
  · rename_i y295
    exact frame_execPresenceClose (lor_mono hM rfl) h
  · rename_i y296
    exact frame_execInstall (lor_mono hM rfl) h
  · rename_i y297
    exact frame_execRotate (lor_mono hM rfl) h
  · rename_i y298
    exact frame_execDebugUnlock (lor_mono hM rfl) h
  · rename_i y299
    exact frame_execDebugLock (lor_mono hM rfl) h
  · rename_i y300
    exact frame_execAttest (lor_mono hM rfl) h
  · rename_i y301
    exact frame_execGetIdentity (lor_mono hM rfl) h
  · rename_i y302
    exact frame_execExtendM7 (lor_mono hM rfl) h
  · rename_i y303 y304
    exact frame_execSecCmdComplete (lor_mono hM rfl) h
  · rename_i y305 y306
    exact frame_execSealSample (lor_mono hM rfl) h
  · rename_i y307 y308
    exact frame_execTallyIntervalEnd (lor_mono hM rfl) h
  · rename_i y309
    exact frame_execTallyRecordCopy (lor_mono hM rfl) h
  · rename_i y310 y311 y312
    exact frame_execBootFuses (lor_mono hM rfl) h
  · rename_i y313 y314
    exact frame_execBootFwVerify (lor_mono hM rfl) h
  · rename_i y315
    exact frame_execMpStart (lor_mono hM rfl) h
  · rename_i y316 y317 y318
    exact frame_execBist (lor_mono hM rfl) h
  · rename_i y319 y320
    exact frame_execMemTrain (lor_mono hM rfl) h
  · rename_i y321 y322
    exact frame_execLinkTrain (lor_mono hM rfl) h
  · rename_i y323
    exact frame_execPublish (lor_mono hM rfl) h
  · rename_i y324
    exact frame_execDeviceReady (lor_mono hM rfl) h
  · rename_i y325 y326
    exact frame_execConfigRequest (lor_mono hM rfl) h
  · rename_i y327 y328
    exact frame_execSmbusReadByte (lor_mono hM rfl) h
  · rename_i y329 y330
    exact frame_execJtagInstruction (lor_mono hM rfl) h
  · rename_i y331
    exact frame_execPresenceRelease (lor_mono hM rfl) h
  · rename_i y332
    exact frame_execPowerLoss (lor_mono hM rfl) h
  · rename_i y333
    exact frame_execDormantEntered (lor_mono hM rfl) h
  · rename_i y334
    exact frame_execActiveReached (lor_mono hM rfl) h
  · rename_i y335 y336 y337
    exact frame_execLnkPortEnableWrite (lor_mono hM rfl) h
  · rename_i y338 y339 y340 y341
    exact frame_execEvtCntLoRead (lor_mono hM rfl) h
  · rename_i y342 y343
    exact frame_execPacketPortDown (lor_mono hM rfl) h
  · rename_i y344 y345
    exact frame_execPacketPortUp (lor_mono hM rfl) h
  · rename_i y346 y347
    exact frame_execNextblockWriteDone (lor_mono hM rfl) h

end Sys2Proof.Machine
end

