-- ==== Sys2Proof/Laws/Sparse.lean ====
section
/-! SUPPORT. Laws of the sparse maps that hold registers and memories: reading after writing, and that every operation keeps the
canonical form. -/
namespace Sys2Proof.Machine

variable {α : Type} {d : Nat → α} {m : List (Nat × α)} {a b n : Nat} {v : α}

/-- The canonical form says what it means: keys strictly rising, no entry equal to what an unlisted key reads as. -/
theorem sparseWf_iff [DecidableEq α] :
    sparseWf d m = true ↔ m.Pairwise (fun x y => x.1 < y.1) ∧ ∀ e ∈ m, e.2 ≠ d e.1 := by
  induction m with
  | nil => simp [sparseWf]
  | cons e es ih =>
    obtain ⟨k, w⟩ := e
    cases es with
    | nil => simp [sparseWf]
    | cons f fs =>
      obtain ⟨k', w'⟩ := f
      simp only [sparseWf, Bool.and_eq_true, decide_eq_true_eq, ih, List.pairwise_cons, List.mem_cons, forall_eq_or_imp]
      constructor
      · rintro ⟨⟨hw, hk⟩, ⟨h1, h2⟩, h3⟩
        exact ⟨⟨⟨hk, fun x hx => Nat.lt_trans hk (h1 x hx)⟩, h1, h2⟩, hw, h3⟩
      · rintro ⟨⟨⟨hk, _⟩, h1, h2⟩, hw, h3⟩
        exact ⟨⟨hw, hk⟩, ⟨h1, h2⟩, h3⟩

theorem sparseWf_filter [DecidableEq α] (p : Nat × α → Bool) (h : sparseWf d m = true) : sparseWf d (m.filter p) = true := by
  rw [sparseWf_iff] at h ⊢
  exact ⟨h.1.filter p, fun e he => h.2 e (List.mem_filter.1 he).1⟩

theorem sparsePut_mem {e : Nat × α} (he : e ∈ sparsePut a v m) : e = (a, v) ∨ e ∈ m := by
  induction m with
  | nil => simpa [sparsePut] using he
  | cons f fs ih =>
    obtain ⟨k, w⟩ := f
    simp only [sparsePut] at he
    split at he
    · simpa using he
    · split at he
      · rcases List.mem_cons.1 he with h | h
        · exact .inl h
        · exact .inr (List.mem_cons_of_mem _ h)
      · rcases List.mem_cons.1 he with h | h
        · exact .inr (h ▸ List.mem_cons_self)
        · exact (ih h).imp id (List.mem_cons_of_mem _)

theorem sparsePut_pairwise (h : m.Pairwise fun x y => x.1 < y.1) : (sparsePut a v m).Pairwise fun x y => x.1 < y.1 := by
  induction m with
  | nil => simp [sparsePut]
  | cons f fs ih =>
    obtain ⟨k, w⟩ := f
    obtain ⟨h1, h2⟩ := List.pairwise_cons.1 h
    simp only [sparsePut]
    split
    · rename_i hk
      refine List.pairwise_cons.2 ⟨fun x hx => ?_, h⟩
      rcases List.mem_cons.1 hx with rfl | hx
      · exact hk
      · exact Nat.lt_trans hk (h1 x hx)
    · split
      · rename_i hk
        subst hk
        exact List.pairwise_cons.2 ⟨h1, h2⟩
      · rename_i hk hk'
        refine List.pairwise_cons.2 ⟨fun x hx => ?_, ih h2⟩
        rcases sparsePut_mem hx with rfl | hx
        · show k < a
          omega
        · exact h1 x hx

theorem sparseSet_wf [DecidableEq α] (h : sparseWf d m = true) : sparseWf d (sparseSet d m a v) = true := by
  unfold sparseSet
  split
  · exact sparseWf_filter _ h
  · rename_i hv
    rw [sparseWf_iff] at h ⊢
    refine ⟨sparsePut_pairwise h.1, fun e he => ?_⟩
    rcases sparsePut_mem he with rfl | he
    · exact hv
    · exact h.2 e he

theorem sparseClear_wf [DecidableEq α] (h : sparseWf d m = true) : sparseWf d (sparseClear m a n) = true := sparseWf_filter _ h

theorem sparsePut_get : sparseGet d (sparsePut a v m) b = if b = a then v else sparseGet d m b := by
  induction m with
  | nil => simp only [sparsePut, sparseGet, eq_comm]
  | cons f fs ih =>
    obtain ⟨k, w⟩ := f
    simp only [sparsePut]
    split
    · simp only [sparseGet, eq_comm]
    · split
      · rename_i hk
        subst hk
        simp only [sparseGet, eq_comm]
        split <;> rfl
      · simp only [sparseGet, ih]
        split
        · rename_i hk hk' hkb
          subst hkb
          rw [if_neg (fun h => hk' h.symm)]
        · rfl

theorem sparseGet_filter_ne : sparseGet d (m.filter fun e => e.1 != a) b = if b = a then d a else sparseGet d m b := by
  induction m with
  | nil =>
    simp only [List.filter_nil, sparseGet]
    split
    · rename_i h
      rw [h]
    · rfl
  | cons f fs ih =>
    obtain ⟨k, w⟩ := f
    simp only [List.filter_cons, bne_iff_ne, ne_eq]
    split
    · rename_i hk
      simp only [sparseGet, ih]
      split
      · rename_i h
        subst h
        rw [if_neg hk]
      · rfl
    · rename_i hk
      rw [ih]
      simp only [sparseGet]
      split
      · rfl
      · rename_i hb
        rw [if_neg]
        intro h
        exact hb (h ▸ Classical.not_not.1 hk)

/-- Reading after writing, in any list: the value written at its key, everything else as before. -/
theorem sparseGet_set [DecidableEq α] : sparseGet d (sparseSet d m a v) b = if b = a then v else sparseGet d m b := by
  unfold sparseSet
  split
  · rename_i hv
    rw [sparseGet_filter_ne, hv]
  · exact sparsePut_get

theorem sparseGet_set_same [DecidableEq α] : sparseGet d (sparseSet d m a v) a = v := by rw [sparseGet_set, if_pos rfl]

theorem sparseGet_set_ne [DecidableEq α] (h : b ≠ a) : sparseGet d (sparseSet d m a v) b = sparseGet d m b := by
  rw [sparseGet_set, if_neg h]

/-- A range that is cleared reads as unlisted keys do, the rest as before. -/
theorem sparseGet_clear : sparseGet d (sparseClear m a n) b = if a ≤ b ∧ b < a + n then d b else sparseGet d m b := by
  unfold sparseClear
  induction m with
  | nil =>
    simp only [List.filter_nil, sparseGet]
    split <;> rfl
  | cons f fs ih =>
    obtain ⟨k, w⟩ := f
    simp only [List.filter_cons]
    split
    · rename_i hk
      simp only [sparseGet, ih]
      split
      · rename_i h
        subst h
        rw [if_neg]
        simp at hk
        omega
      · rfl
    · rename_i hk
      rw [ih]
      simp only [sparseGet]
      split
      · rfl
      · rename_i hb
        rw [if_neg]
        intro h
        subst h
        simp at hk
        omega

end Sys2Proof.Machine
end

