-- ==== Sys2Proof/Laws/Keeps.lean ====
section
/-! SUPPORT. What every function of the model keeps: the queue, the canonical form of registers and memories, and one element per
unit in the lists that stand for fixed sets of units. -/
namespace Sys2Proof.Machine
open Sys2Proof

/-- `s` comes from `o` by an effect that keeps the queue, the canonical form and the fixed sets of units. -/
structure Keeps (o s : State) : Prop where
  pending : s.pending = o.pending
  canonical : o.canonical = true → s.canonical = true
  units : o.unitsWhole = true → s.unitsWhole = true

variable {o s t u : State} {α β γ : Type}

/-- The same of a state in a pair, a triple, an option, a result. -/
def Keeps1 (o : State) (p : State × α) : Prop := Keeps o p.1
def Keeps2 (o : State) (p : α × State) : Prop := Keeps o p.2
def Keeps3 (o : State) (p : α × β × State) : Prop := Keeps o p.2.2
def KeepsOpt (o : State) (p : Option State) : Prop := ∀ t, p = some t → Keeps o t
def KeepsOk (o : State) (p : Except α State) : Prop := ∀ t, p = .ok t → Keeps o t
def KeepsNext (o : State) (p : Result) : Prop := ∀ t, p = .next t → Keeps o t

theorem keeps_refl (s : State) : Keeps s s := ⟨rfl, id, id⟩

theorem Keeps.trans (h : Keeps o s) (k : Keeps s t) : Keeps o t :=
  ⟨k.pending.trans h.pending, k.canonical ∘ h.canonical, k.units ∘ h.units⟩

/-- A change of other fields keeps them; a list of units may be replaced by one of the same length. -/
theorem keeps_mk {out' : List Out} {freeTick' : Nat} {evt' : List (Nat × Nat)} {log' : LogState} {clk' : Clock} {par' : Parison} {gaf' : Gaffer} {dmp' : Damper} {spadBad' spadSoft' : List Nat} {regions' : List Region} {scrubs' : List (Nat × List (Nat × Nat))} {lpBad' : List (Nat × Bool)} {sites' : List Site} {builtIns' : List BuiltIn} {flights' : List Flight} {nextId' : Nat} {lnk' : Links} {servo' : Servo} {apt' : List AudioPort} {gens' : List Gen} {fo' : Failover} {rings' : List RingCount} {logRing' : RingCount} {tallyRing' : RingCount} {sec' : Security} {tly' : Tally} {pow' : Power}
    (h : Keeps o u) (h1 : sites'.length = u.sites.length := by rfl) (h2 : lnk'.ports.length = u.lnk.ports.length := by rfl)
    (h3 : apt'.length = u.apt.length := by rfl) (h4 : gens'.length = u.gens.length := by rfl)
    (h5 : rings'.length = u.rings.length := by rfl) (h6 : sec'.measures.length = u.sec.measures.length := by rfl)
    (h7 : sec'.slots.length = u.sec.slots.length := by rfl) :
    Keeps o ⟨u.pending, out', freeTick', u.regs, evt', log', clk', par', gaf', dmp', u.spad, spadBad', spadSoft', regions', scrubs', u.lpddr, lpBad', sites', u.host, builtIns', flights', nextId', lnk', servo', apt', gens', fo', rings', logRing', tallyRing', sec', tly', pow'⟩ :=
  ⟨h.pending, h.canonical, fun w => by
    have k := h.units w
    simpa only [State.unitsWhole, h1, h2, h3, h4, h5, h6, h7] using k⟩

/-- A change of the canonical maps alone. -/
theorem keeps_maps {regs' : List (Nat × Word)} {spad' lpddr' host' : List Host.Cell} (h : Keeps o s)
    (h1 : sparseWf resetWord s.regs = true → sparseWf resetWord regs' = true) (h2 : Memory.wf s.spad = true → Memory.wf spad' = true)
    (h3 : Memory.wf s.lpddr = true → Memory.wf lpddr' = true) (h4 : Memory.wf s.host = true → Memory.wf host' = true) :
    Keeps o { s with regs := regs', spad := spad', lpddr := lpddr', host := host' } :=
  ⟨h.pending, fun w => by
    have k := h.canonical w
    simp only [State.canonical, Bool.and_eq_true] at k ⊢
    exact ⟨⟨⟨h1 k.1.1.1, h2 k.1.1.2⟩, h3 k.1.2⟩, h4 k.2⟩, h.units⟩

/-! Choices, runs of steps, and pairs. -/

theorem keeps_ite {c : Prop} [Decidable c] (h : Keeps o s) (k : Keeps o t) : Keeps o (if c then s else t) := by
  split
  · exact h
  · exact k

theorem keeps_foldl {f : State → α → State} {xs : List α} {s : State} (h : Keeps o s)
    (hf : ∀ t x, Keeps o t → Keeps o (f t x)) : Keeps o (xs.foldl f s) := by
  induction xs generalizing s with
  | nil => exact h
  | cons x xs ih => exact ih (hf s x h)

theorem keeps_foldl1 {f : State × β → α → State × β} {xs : List α} {p : State × β} (h : Keeps1 o p)
    (hf : ∀ q x, Keeps1 o q → Keeps1 o (f q x)) : Keeps1 o (xs.foldl f p) := by
  induction xs generalizing p with
  | nil => exact h
  | cons x xs ih => exact ih (hf p x h)

theorem keeps_foldl2 {f : β × State → α → β × State} {xs : List α} {p : β × State} (h : Keeps2 o p)
    (hf : ∀ q x, Keeps2 o q → Keeps2 o (f q x)) : Keeps2 o (xs.foldl f p) := by
  induction xs generalizing p with
  | nil => exact h
  | cons x xs ih => exact ih (hf p x h)

theorem keeps_foldl3 {f : β × γ × State → α → β × γ × State} {xs : List α} {p : β × γ × State} (h : Keeps3 o p)
    (hf : ∀ q x, Keeps3 o q → Keeps3 o (f q x)) : Keeps3 o (xs.foldl f p) := by
  induction xs generalizing p with
  | nil => exact h
  | cons x xs ih => exact ih (hf p x h)

theorem keeps_foldlOpt {f : Option State → α → Option State} {xs : List α} {p : Option State} (h : KeepsOpt o p)
    (hf : ∀ q x, KeepsOpt o q → KeepsOpt o (f q x)) : KeepsOpt o (xs.foldl f p) := by
  induction xs generalizing p with
  | nil => exact h
  | cons x xs ih => exact ih (hf p x h)

theorem Keeps1.mk {a : α} (h : Keeps o s) : Keeps1 o (s, a) := h
theorem Keeps1.get {p : State × α} (h : Keeps1 o p) : Keeps o p.1 := h
theorem Keeps1.of_eq {p : State × α} {a : α} (e : p = (s, a)) (h : Keeps1 o p) : Keeps o s := by
  rw [e] at h
  exact h
theorem Keeps1.ite {p q : State × α} {c : Prop} [Decidable c] (h : Keeps1 o p) (k : Keeps1 o q) : Keeps1 o (if c then p else q) := by
  split
  · exact h
  · exact k

theorem Keeps2.mk {a : α} (h : Keeps o s) : Keeps2 o (a, s) := h
theorem Keeps2.get {p : α × State} (h : Keeps2 o p) : Keeps o p.2 := h
theorem Keeps2.of_eq {p : α × State} {a : α} (e : p = (a, s)) (h : Keeps2 o p) : Keeps o s := by
  rw [e] at h
  exact h
theorem Keeps2.ite {p q : α × State} {c : Prop} [Decidable c] (h : Keeps2 o p) (k : Keeps2 o q) : Keeps2 o (if c then p else q) := by
  split
  · exact h
  · exact k

theorem Keeps3.mk {a : α} {b : β} (h : Keeps o s) : Keeps3 o (a, b, s) := h
theorem Keeps3.get {p : α × β × State} (h : Keeps3 o p) : Keeps o p.2.2 := h
theorem Keeps3.of_eq {p : α × β × State} {a : α} {b : β} (e : p = (a, b, s)) (h : Keeps3 o p) : Keeps o s := by
  rw [e] at h
  exact h
theorem Keeps3.ite {p q : α × β × State} {c : Prop} [Decidable c] (h : Keeps3 o p) (k : Keeps3 o q) : Keeps3 o (if c then p else q) := by
  split
  · exact h
  · exact k

theorem KeepsOpt.none : KeepsOpt o none := fun _ h => nomatch h
theorem KeepsOpt.some (h : Keeps o s) : KeepsOpt o (some s) := fun _ e => Option.some.inj e ▸ h
theorem KeepsOpt.of_eq {p : Option State} (e : p = .some s) (h : KeepsOpt o p) : Keeps o s := h s e
theorem KeepsOpt.ite {p q : Option State} {c : Prop} [Decidable c] (h : KeepsOpt o p) (k : KeepsOpt o q) :
    KeepsOpt o (if c then p else q) := by
  split
  · exact h
  · exact k

theorem KeepsOpt.map {p : Option α} {f : α → State} (hf : ∀ x, p = .some x → Keeps o (f x)) : KeepsOpt o (p.map f) := by
  intro t e
  obtain ⟨x, hx, rfl⟩ := Option.map_eq_some_iff.1 e
  exact hf x hx
theorem keeps_getD {p : Option State} (h : KeepsOpt o p) (k : Keeps o s) : Keeps o (p.getD s) := by
  cases p with
  | none => exact k
  | some t => exact h t rfl

theorem KeepsOk.error {a : α} : KeepsOk o (Except.error a) := fun _ h => nomatch h
theorem KeepsOk.ok (h : Keeps o s) : KeepsOk (α := α) o (.ok s) := fun _ e => Except.ok.inj e ▸ h
theorem KeepsOk.of_eq {p : Except α State} (e : p = .ok s) (h : KeepsOk o p) : Keeps o s := h s e
theorem KeepsOk.ite {p q : Except α State} {c : Prop} [Decidable c] (h : KeepsOk o p) (k : KeepsOk o q) :
    KeepsOk o (if c then p else q) := by
  split
  · exact h
  · exact k

theorem KeepsNext.next (h : Keeps o s) : KeepsNext o (.next s) := fun _ e => Host.Outcome.next.inj e ▸ h
theorem KeepsNext.fault {f : Fault} : KeepsNext o (.fault f) := fun _ h => nomatch h
theorem KeepsNext.ite {p q : Result} {c : Prop} [Decidable c] (h : KeepsNext o p) (k : KeepsNext o q) :
    KeepsNext o (if c then p else q) := by
  split
  · exact h
  · exact k

theorem listMod_length {xs : List α} {i : Nat} {f : α → α} : (listMod xs i f).length = xs.length := by
  induction xs generalizing i with
  | nil => rfl
  | cons x xs ih =>
    cases i with
    | zero => rfl
    | succ i => simp only [listMod, List.length_cons, ih]

/-! The writes of registers and memories. -/

theorem putBytesAt_wf {m : List Host.Cell} {a : Nat} {bs : List Byte} (h : Memory.wf m = true) :
    Memory.wf (State.putBytesAt m a bs) = true := by
  induction bs generalizing m a with
  | nil => exact h
  | cons b bs ih => exact ih (sparseSet_wf h)

theorem keeps_setWord (h : Keeps o s) {a : Nat} {w : Word} : Keeps o (s.setWord a w) :=
  keeps_maps h sparseSet_wf id id id

theorem keeps_spadPut (h : Keeps o s) {a : Nat} {bs : List Byte} : Keeps o (s.spadPut a bs) :=
  keeps_mk (u := { s with spad := State.putBytesAt s.spad a bs }) (keeps_maps h id putBytesAt_wf id id)

theorem keeps_lpPut (h : Keeps o s) {a : Nat} {bs : List Byte} : Keeps o (s.lpPut a bs) :=
  keeps_mk (u := { s with lpddr := State.putBytesAt s.lpddr a bs }) (keeps_maps h id id putBytesAt_wf id)

theorem keeps_hostPut (h : Keeps o s) {a : Nat} {bs : List Byte} : Keeps o (s.hostPut a bs) :=
  keeps_maps h id id id putBytesAt_wf

theorem keeps_zeroSpad (h : Keeps o s) {a n : Nat} : Keeps o (s.zeroSpad a n) :=
  keeps_mk (u := { s with spad := sparseClear s.spad a n }) (keeps_maps h id sparseClear_wf id id)

theorem keeps_zeroLp (h : Keeps o s) {a n : Nat} : Keeps o (s.zeroLp a n) :=
  keeps_mk (u := { s with lpddr := (s.zeroLp a n).lpddr })
    (keeps_maps h id id (fun h => by unfold State.zeroLp; dsimp only; split <;> exact sparseWf_filter _ h) id)

end Sys2Proof.Machine
end

