-- ==== Sys2Proof/Laws/KeepsOps.lean ====
section
/-! SUPPORT. The functions of Machine/Ops.lean, Machine/Tally.lean, Machine/Spad.lean, Machine/Rings.lean keep the queue, the canonical form and the fixed sets of units. -/
namespace Sys2Proof.Machine
open Sys2Proof

set_option Elab.async false

theorem keeps_tick {o s : State} (h : Keeps o s) :
    Keeps o (State.tick s) := by
  unfold State.tick
  exact keeps_mk h

theorem keeps_begin_ {o s : State} (h : Keeps o s) :
    Keeps o (State.begin_ s) := by
  unfold State.begin_
  exact keeps_mk h

theorem keeps_put {o s : State} (h : Keeps o s) {o1 : Out} :
    Keeps o (State.put s o1) := by
  unfold State.put
  exact keeps_mk h

theorem keeps_wrAt {o s : State} (h : Keeps o s) {f : Field} {inst : Nat} {ix : Nat} {v : Nat} :
    Keeps o (State.wrAt s f inst ix v) := by
  unfold State.wrAt
  exact keeps_setWord h

theorem keeps_wr {o s : State} (h : Keeps o s) {f : Field} {v : Nat} {inst : Nat} :
    Keeps o (State.wr s f v inst) := by
  unfold State.wr
  exact keeps_wrAt h

theorem keeps_wrSh {o s : State} (h : Keeps o s) {f : Field} {v : Nat} {inst : Nat} {ix : Nat} :
    Keeps o (State.wrSh s f v inst ix) := by
  unfold State.wrSh
  exact keeps_setWord h

theorem keeps_count {o s : State} (h : Keeps o s) {f : Field} {inst : Nat} {n : Nat} :
    Keeps o (State.count s f inst n) := by
  unfold State.count
  exact keeps_wr h

theorem keeps_count64 {o s : State} (h : Keeps o s) {lo : Field} {hi : Field} {inst : Nat} {n : Nat} :
    Keeps o (State.count64 s lo hi inst n) := by
  unfold State.count64
  extract_lets v1
  clear_value v1
  exact keeps_wr (keeps_wr h)

theorem keeps_wr64 {o s : State} (h : Keeps o s) {f : Field} {v : Nat} {inst : Nat} :
    Keeps o (State.wr64 s f v inst) := by
  unfold State.wr64
  exact keeps_wrAt (keeps_wrAt h)

theorem keeps_logAdd {o s : State} (h : Keeps o s) {pageType : Nat} {kind : Nat} {inst : Nat} {code : Nat} {d0 : Nat} {d1 : Nat} {d2 : Nat} :
    Keeps o (State.logAdd s pageType kind inst code d0 d1 d2) := by
  unfold State.logAdd
  extract_lets v1 v2 s3 v4 s5 v6
  have k7 : Keeps o s3 := keeps_ite h (keeps_count h)
  have k8 : Keeps o s5 := keeps_mk k7
  clear_value v1 v2 s3 v4 s5
  split
  · rename_i y9 e10
    exact k8
  · rename_i y11 y12 e13
    exact keeps_ite (keeps_mk h) k8

theorem keeps_watchErr {o s : State} (h : Keeps o s) {k : PageKind} {inst : Nat} {f : State → State} (hf : ∀ x0, Keeps o x0 → Keeps o (f x0)) :
    Keeps o (State.watchErr s k inst f) := by
  unfold State.watchErr
  extract_lets s1
  have k2 : Keeps o s1 := hf _ h
  clear_value s1
  exact keeps_ite (keeps_logAdd k2) k2

theorem keeps_setErr {o s : State} (h : Keeps o s) {f : Field} {inst : Nat} :
    Keeps o (State.setErr s f inst) := by
  unfold State.setErr
  exact keeps_watchErr h (fun x1 k2 => keeps_wr k2)

theorem keeps_setErrLog {o s : State} (h : Keeps o s) {f : Field} {inst : Nat} {d1 : Nat} {d2 : Nat} :
    Keeps o (State.setErrLog s f inst d1 d2) := by
  unfold State.setErrLog
  extract_lets s1
  have k2 : Keeps o s1 := keeps_setErr h
  clear_value s1
  exact keeps_logAdd k2

theorem keeps_badWrite {o s : State} (h : Keeps o s) {k : PageKind} {inst : Nat} :
    Keeps o (State.badWrite s k inst) := by
  unfold State.badWrite
  exact keeps_setErr h

theorem keeps_unmappedErr {o s : State} (h : Keeps o s) {k : PageKind} {inst : Nat} :
    Keeps o (State.unmappedErr s k inst) := by
  unfold State.unmappedErr
  exact keeps_setErr h

theorem keeps_evtBump {o s : State} (h : Keeps o s) {pg : Nat} {c : Nat} {n : Nat} :
    Keeps o (State.evtBump s pg c n) := by
  unfold State.evtBump
  extract_lets v1 v2 s3
  have k4 : Keeps o s3 := keeps_mk h
  clear_value v1 v2 s3
  exact keeps_ite k4 (keeps_ite (keeps_wr k4) (keeps_wr k4))

theorem keeps_evtCount {o s : State} (h : Keeps o s) {pg : Nat} {src : Nat} {n : Nat} :
    Keeps o (State.evtCount s pg src n) := by
  unfold State.evtCount
  refine keeps_ite h ?_
  refine keeps_foldl h ?_
  intro x1 x2 k3
  extract_lets v4 v5 v6
  clear_value v4 v5 v6
  exact keeps_ite (keeps_evtBump k3) k3

theorem keeps_evtDev {o s : State} (h : Keeps o s) {src : Nat} {n : Nat} :
    Keeps o (State.evtDev s src n) := by
  unfold State.evtDev
  exact keeps_evtCount h

theorem keeps_spoilLp {o s : State} (h : Keeps o s) {bursts : List Nat} {wrong : Bool} :
    Keeps o (State.spoilLp s bursts wrong) := by
  unfold State.spoilLp
  exact keeps_mk h

theorem keeps_devPut {o s : State} (h : Keeps o s) {a : Nat} {bs : List Byte} :
    Keeps o (State.devPut s a bs) := by
  unfold State.devPut
  exact keeps_ite h (keeps_ite (keeps_foldl h (fun x1 x2 k3 => keeps_ite k3 (keeps_lpPut k3))) (keeps_lpPut h))

theorem keeps_narrow {o s : State} (h : Keeps o s) {o1 : Nat} {n : Nat} :
    Keeps o (State.narrow s o1 n) := by
  unfold State.narrow
  exact keeps_foldl h (fun x1 x2 k3 => keeps_count k3)

theorem keeps_syncGth {o s : State} (h : Keeps o s) {bench : Nat} :
    Keeps o (State.syncGth s bench) := by
  unfold State.syncGth
  extract_lets v1
  clear_value v1
  exact keeps_wr (keeps_wr h)

theorem keeps_setPort {o s : State} (h : Keeps o s) {p : Nat} {f : LinkPort → LinkPort} :
    Keeps o (State.setPort s p f) := by
  unfold State.setPort
  exact keeps_mk h (h2 := listMod_length.trans rfl)

theorem keeps_setAport {o s : State} (h : Keeps o s) {p : Nat} {f : AudioPort → AudioPort} :
    Keeps o (State.setAport s p f) := by
  unfold State.setAport
  exact keeps_mk h (h3 := listMod_length.trans rfl)

theorem keeps_setGen {o s : State} (h : Keeps o s) {i : Nat} {f : Gen → Gen} :
    Keeps o (State.setGen s i f) := by
  unfold State.setGen
  exact keeps_mk h (h4 := listMod_length.trans rfl)

theorem keeps_setSite {o s : State} (h : Keeps o s) {i : Nat} {f : Site → Site} :
    Keeps o (State.setSite s i f) := by
  unfold State.setSite
  exact keeps_mk h (h1 := listMod_length.trans rfl)

theorem keeps_setStream {o s : State} (h : Keeps o s) {e : Nat} {f : Stream → Stream} :
    Keeps o (State.setStream s e f) := by
  unfold State.setStream
  exact keeps_mk h

theorem keeps_putStream {o s : State} (h : Keeps o s) {st : Stream} :
    Keeps o (State.putStream s st) := by
  unfold State.putStream
  exact keeps_mk h

theorem keeps_delStream {o s : State} (h : Keeps o s) {e : Nat} :
    Keeps o (State.delStream s e) := by
  unfold State.delStream
  exact keeps_mk h

theorem keeps_setImage {o s : State} (h : Keeps o s) {i : Nat} {f : Image → Image} :
    Keeps o (State.setImage s i f) := by
  unfold State.setImage
  exact keeps_mk h

theorem keeps_setDomains {o s : State} (h : Keeps o s) {on : List Nat} :
    Keeps o (State.setDomains s on) := by
  unfold State.setDomains
  refine keeps_foldl (keeps_mk h) ?_
  intro x1 x2 k3
  extract_lets v4
  clear_value v4
  exact keeps_ite k3 (keeps_wr k3)

theorem keeps_gated {o s : State} (h : Keeps o s) {k : PageKind} {inst : Nat} {f : State → State} (hf : ∀ x0, Keeps o x0 → Keeps o (f x0)) :
    Keeps o (State.gated s k inst f) := by
  unfold State.gated
  exact keeps_ite h (keeps_ite (keeps_badWrite h) (hf _ h))

theorem keeps_setReady {o s : State} (h : Keeps o s) :
    Keeps o (State.setReady s) := by
  unfold State.setReady
  exact keeps_wr (keeps_foldl h (fun x1 x2 k3 => keeps_wr k3))

theorem keeps_noteExhausted {o s : State} (h : Keeps o s) {k : Nat} :
    Keeps o (State.noteExhausted s k) := by
  unfold State.noteExhausted
  extract_lets v1 s2
  have k3 : Keeps o s2 := keeps_mk h
  clear_value s2
  exact keeps_ite (keeps_wr k3) (keeps_wr k3)

theorem keeps_askBlock {o s : State} (h : Keeps o s) {k : Nat} :
    Keeps o (State.askBlock s k) := by
  unfold State.askBlock
  split
  · rename_i y1 y2 e3
    exact h
  · rename_i y4 e5
    exact keeps_mk h

theorem keeps_signWith {o s : State} (h : Keeps o s) {k : Nat} {msg : List Byte} :
    Keeps2 o (State.signWith s k msg) := by
  unfold State.signWith
  extract_lets v1 v2
  clear_value v1
  exact Keeps2.mk (keeps_mk h)

theorem keeps_extendM {o s : State} (h : Keeps o s) {k : Nat} {x : List Byte} :
    Keeps o (State.extendM s k x) := by
  unfold State.extendM
  exact keeps_mk h (h6 := listMod_length.trans rfl)

theorem keeps_clearM {o s : State} (h : Keeps o s) {k : Nat} :
    Keeps o (State.clearM s k) := by
  unfold State.clearM
  exact keeps_mk h (h6 := listMod_length.trans rfl)

theorem keeps_syncTally {o s : State} (h : Keeps o s) :
    Keeps o (State.syncTally s) := by
  unfold State.syncTally
  extract_lets v1 s2 s3 s4 s5 s6 s7
  have k8 : Keeps o s2 := keeps_wr h
  have k9 : Keeps o s3 := keeps_wr k8
  have k10 : Keeps o s4 := keeps_wr k9
  have k11 : Keeps o s5 := keeps_wr64 k10
  have k12 : Keeps o s6 := keeps_wr64 k11
  have k13 : Keeps o s7 := keeps_wr64 k12
  clear_value v1 s2 s3 s4 s5 s6 s7
  exact keeps_wr k13

theorem keeps_recordLost {o s : State} (h : Keeps o s) :
    Keeps o (State.recordLost s) := by
  unfold State.recordLost
  exact keeps_setErr (keeps_count (keeps_mk h))

theorem keeps_makeRoom {o s : State} (h : Keeps o s) {n : Nat} {a2 : Nat} :
    Keeps o (State.makeRoom s n a2) := by
  induction a2 generalizing s n with
  | zero =>
    unfold State.makeRoom
    exact h
  | succ w0 ih =>
    unfold State.makeRoom
    refine keeps_ite h ?_
    extract_lets v1 v2
    clear_value v2
    split
    · rename_i y3
      exact h
    · rename_i y4 y5
      exact ih (keeps_recordLost (keeps_mk h))

theorem keeps_signTally {o s : State} (h : Keeps o s) {a1 : Nat} :
    Keeps o (State.signTally s a1) := by
  induction a1 generalizing s with
  | zero =>
    unfold State.signTally
    exact h
  | succ w0 ih =>
    unfold State.signTally
    split
    · rename_i y1 e2
      exact h
    · rename_i y3 y4 y5 e6
      extract_lets v7
      clear_value v7
      refine keeps_ite (keeps_setErr (keeps_noteExhausted h)) ?_
      refine keeps_ite (keeps_askBlock h) ?_
      split
      · rename_i y8 y9 y10 e11
        have k12 : Keeps o y10 := Keeps2.of_eq e11 (keeps_signWith h)
        extract_lets v13 v14
        clear_value v13
        exact ih (keeps_mk k12)

theorem keeps_tallyPart {o s : State} (h : Keeps o s) {close : Nat} :
    Keeps o (State.tallyPart s close) := by
  unfold State.tallyPart
  extract_lets v1
  clear_value v1
  exact keeps_ite h (keeps_mk h)

theorem keeps_closeInterval {o s : State} (h : Keeps o s) {reason : Nat} {close : Nat} {energy : Nat} :
    Keeps o (State.closeInterval s reason close energy) := by
  unfold State.closeInterval
  extract_lets s1 s2 v3 s4 v5 s6
  have k7 : Keeps o s1 := keeps_ite (keeps_tallyPart h) h
  have k8 : Keeps o s2 := keeps_makeRoom k7
  have k9 : Keeps o s4 := keeps_wr k8
  have k10 : Keeps o s6 := keeps_mk k9
  clear_value s1 s2 v3 s4 s6
  exact keeps_syncTally (keeps_signTally k10)

theorem keeps_closeEarly {o s : State} (h : Keeps o s) {reason : Nat} :
    Keeps o (State.closeEarly s reason) := by
  unfold State.closeEarly
  exact keeps_closeInterval h

theorem keeps_tallyNote {o s : State} (h : Keeps o s) {e : TallyEvent} :
    Keeps o (State.tallyNote s e) := by
  unfold State.tallyNote
  extract_lets v1
  clear_value v1
  exact keeps_ite (keeps_mk h) (keeps_mk h)

theorem keeps_noteArm {o s : State} (h : Keeps o s) {entry : Nat} :
    Keeps o (State.noteArm s entry) := by
  unfold State.noteArm
  exact keeps_mk h

theorem keeps_noteLeave {o s : State} (h : Keeps o s) {entry : Nat} :
    Keeps o (State.noteLeave s entry) := by
  unfold State.noteLeave
  exact keeps_mk h

theorem keeps_countCommit {o s : State} (h : Keeps o s) {entry : Nat} {cls : Nat} {tag : Nat} {hz : Nat} {first : Nat} {n : Nat} {left : Bool} :
    Keeps o (State.countCommit s entry cls tag hz first n left) := by
  unfold State.countCommit
  extract_lets v1 v2 v3 v4 v5 s6 v7 v8 s9 v10 s11
  have k12 : Keeps o s6 := keeps_ite (keeps_closeEarly h) h
  have k13 : Keeps o s9 := keeps_ite (keeps_mk k12) k12
  have k14 : Keeps o s11 := keeps_mk k13
  clear_value v1 v2 v3 v4 v5 s6 v7 s9 s11
  exact keeps_ite h (keeps_syncTally k14)

theorem keeps_tallyArm {o s : State} (h : Keeps o s) {entry : Nat} :
    Keeps o (State.tallyArm s entry) := by
  unfold State.tallyArm
  exact keeps_noteArm (keeps_tallyNote h)

theorem keeps_tallyLeave {o s : State} (h : Keeps o s) {entry : Nat} :
    Keeps o (State.tallyLeave s entry) := by
  unfold State.tallyLeave
  exact keeps_noteLeave (keeps_tallyNote h)

theorem keeps_tallyCommit {o s : State} (h : Keeps o s) {entry : Nat} {cls : Nat} {tag : Nat} {hz : Nat} {first : Nat} {n : Nat} {left : Bool} :
    Keeps o (State.tallyCommit s entry cls tag hz first n left) := by
  unfold State.tallyCommit
  exact keeps_countCommit (keeps_tallyNote h)

theorem keeps_tallyEvent {o s : State} (h : Keeps o s) {e : TallyEvent} :
    Keeps o (State.tallyEvent s e) := by
  unfold State.tallyEvent
  split
  · rename_i y1 y2 y3 y4 y5 y6 y7 y8
    exact keeps_tallyCommit h
  · rename_i y9 y10
    exact keeps_tallyArm h
  · rename_i y11 y12
    exact keeps_tallyLeave h

theorem keeps_tallyCarry {o s : State} (h : Keeps o s) :
    Keeps o (State.tallyCarry s) := by
  unfold State.tallyCarry
  exact keeps_foldl (keeps_mk h) (fun x1 x2 k3 => keeps_tallyEvent k3)

theorem keeps_execTallyIntervalEnd {o s : State} (h : Keeps o s) {energyUj : Nat} :
    KeepsNext o (execTallyIntervalEnd energyUj s) := by
  unfold execTallyIntervalEnd
  extract_lets s1
  have k2 : Keeps o s1 := keeps_begin_ h
  clear_value s1
  exact KeepsNext.next (keeps_ite k2 (keeps_tallyCarry (keeps_closeInterval k2)))

theorem keeps_setRegion {o s : State} (h : Keeps o s) {image : Nat} {entry : Nat} {f : Region → Region} :
    Keeps o (State.setRegion s image entry f) := by
  unfold State.setRegion
  exact keeps_mk h

theorem keeps_uncorrWord {o s : State} (h : Keeps o s) {a : Nat} {weight : Bool} :
    Keeps o (State.uncorrWord s a weight) := by
  unfold State.uncorrWord
  extract_lets v1 s2 s3 s4 s5
  have k6 : Keeps o s2 := keeps_count h
  have k7 : Keeps o s3 := keeps_wr k6
  have k8 : Keeps o s4 := keeps_wr k7
  have k9 : Keeps o s5 := keeps_setErr k8
  clear_value v1 s2 s3 s4 s5
  exact keeps_setErr k9

theorem keeps_corrWord {o s : State} (h : Keeps o s) {a : Nat} :
    Keeps o (State.corrWord s a) := by
  unfold State.corrWord
  extract_lets v1 s2 s3
  have k4 : Keeps o s2 := keeps_count h
  have k5 : Keeps o s3 := keeps_setErr k4
  clear_value v1 s2 s3
  exact keeps_evtCount k5

theorem keeps_noteSoft {o s : State} (h : Keeps o s) {ws : List Nat} :
    Keeps o (State.noteSoft s ws) := by
  unfold State.noteSoft
  exact keeps_mk h

theorem keeps_narrowCount {o s : State} (h : Keeps o s) {a : Nat} {n : Nat} :
    Keeps o (State.narrowCount s a n) := by
  unfold State.narrowCount
  refine keeps_foldl h ?_
  intro x1 x2 k3
  extract_lets v4
  clear_value v4
  exact keeps_evtCount k3

theorem keeps_narrowRead {o s : State} (h : Keeps o s) {a : Nat} {n : Nat} :
    Keeps2 o (State.narrowRead s a n) := by
  unfold State.narrowRead
  extract_lets v1 v2 s3 s4 s5
  have k6 : Keeps o s3 := keeps_foldl h (fun x7 x8 k9 => keeps_uncorrWord k9)
  have k10 : Keeps o s4 := keeps_foldl k6 (fun x11 x12 k13 => keeps_corrWord k13)
  have k14 : Keeps o s5 := keeps_narrowCount k10
  clear_value v1 v2 s3 s4 s5
  exact Keeps2.mk (keeps_ite (keeps_setErr k14) k14)

theorem keeps_narrowStore {o s : State} (h : Keeps o s) {a : Nat} {bs : List Byte} :
    Keeps o (State.narrowStore s a bs) := by
  unfold State.narrowStore
  extract_lets v1 v2 s3 s4
  have k5 : Keeps o s3 := keeps_foldl h (fun x6 x7 k8 => keeps_corrWord k8)
  have k9 : Keeps o s4 := keeps_foldl k5 (fun x10 x11 k12 => keeps_zeroSpad (keeps_count k12))
  clear_value v1 v2 s3 s4
  exact keeps_spadPut k9

theorem keeps_narrowWrite {o s : State} (h : Keeps o s) {a : Nat} {bs : List Byte} :
    Keeps o (State.narrowWrite s a bs) := by
  unfold State.narrowWrite
  extract_lets s1
  have k2 : Keeps o s1 := keeps_narrowCount h
  clear_value s1
  exact keeps_ite (keeps_foldl (keeps_setErr k2) (fun x3 x4 k5 => keeps_narrowStore k5)) (keeps_narrowStore k2)

theorem keeps_poisonSpad {o s : State} (h : Keeps o s) {a : Nat} {n : Nat} :
    Keeps o (State.poisonSpad s a n) := by
  unfold State.poisonSpad
  extract_lets v1
  clear_value v1
  exact keeps_mk h

theorem keeps_sealedErr {o s : State} (h : Keeps o s) :
    Keeps o (State.sealedErr s) := by
  unfold State.sealedErr
  exact keeps_setErr h

theorem keeps_atomicStep {o s : State} (h : Keeps o s) {a : Nat} {code : Nat} {new : Nat} :
    Keeps2 o (State.atomicStep s a code new) := by
  unfold State.atomicStep
  refine Keeps2.ite (Keeps2.mk h) ?_
  extract_lets s1 s2 v3
  have k4 : Keeps o s1 := keeps_foldl h (fun x5 x6 k7 => keeps_corrWord k7)
  have k8 : Keeps o s2 := keeps_foldl k4 (fun x9 x10 k11 => keeps_zeroSpad (keeps_count k11))
  clear_value s1 s2 v3
  split
  · rename_i y12 y13 y14 e15
    extract_lets s16
    have k17 : Keeps o s16 := keeps_spadPut k8
    clear_value s16
    exact Keeps2.mk (keeps_ite (keeps_count k17) k17)

theorem keeps_atomicWords {o s : State} (h : Keeps o s) {a : Nat} {code : Nat} {a3 : List Nat} :
    Keeps2 o (State.atomicWords s a code a3) := by
  induction a3 generalizing s a code with
  | nil =>
    unfold State.atomicWords
    exact Keeps2.mk h
  | cons w0 w1 ih =>
    unfold State.atomicWords
    split
    · rename_i y1 y2 y3 e4
      have k5 : Keeps o y3 := Keeps2.of_eq e4 (keeps_atomicStep h)
      split
      · rename_i y6 y7 y8 e9
        have k10 : Keeps o y8 := Keeps2.of_eq e9 (ih k5)
        exact Keeps2.mk k10

theorem keeps_spadAtomic {o s : State} (h : Keeps o s) {a : Nat} {code : Nat} {bs : List Byte} {old : Option Nat} :
    Keeps2 o (State.spadAtomic s a code bs old) := by
  unfold State.spadAtomic
  extract_lets s1 s2
  have k3 : Keeps2 o s1 := Keeps2.mk (keeps_setErr h)
  have k4 : Keeps o s2 := keeps_ite (keeps_setErr h) h
  clear_value s1 s2
  split
  · rename_i y5 e6
    exact Keeps2.mk h
  · rename_i y7 y8 e9
    refine Keeps2.ite (Keeps2.mk (keeps_ite h (keeps_sealedErr h))) ?_
    refine Keeps2.ite k3 ?_
    split
    · rename_i y10 y11 y12 e13
      have k14 : Keeps o y12 := Keeps2.of_eq e13 (keeps_atomicWords k4)
      exact Keeps2.mk (keeps_narrowCount k14)

theorem keeps_syncSpad {o s : State} (h : Keeps o s) :
    Keeps o (State.syncSpad s) := by
  unfold State.syncSpad
  extract_lets s1 s2 s3
  have k4 : Keeps o s1 := keeps_wr h
  have k5 : Keeps o s2 := keeps_wr k4
  have k6 : Keeps o s3 := keeps_wr k5
  clear_value s1 s2 s3
  exact keeps_wr k6

theorem keeps_sealImage {o s : State} (h : Keeps o s) {image : Nat} :
    Keeps o (State.sealImage s image) := by
  unfold State.sealImage
  exact keeps_syncSpad (keeps_mk h)

theorem keeps_releaseImage {o s : State} (h : Keeps o s) {image : Nat} :
    Keeps o (State.releaseImage s image) := by
  unfold State.releaseImage
  extract_lets v1 s2
  have k3 : Keeps o s2 := keeps_foldl h (fun x4 x5 k6 => keeps_zeroSpad k6)
  clear_value v1 s2
  exact keeps_syncSpad (keeps_mk k3)

theorem keeps_releaseRegion {o s : State} (h : Keeps o s) {image : Nat} {entry : Nat} :
    Keeps o (State.releaseRegion s image entry) := by
  unfold State.releaseRegion
  split
  · rename_i y1 e2
    exact h
  · rename_i y3 y4 e5
    extract_lets s6 s7
    have k8 : Keeps o s6 := keeps_zeroSpad h
    have k9 : Keeps o s7 := keeps_syncSpad (keeps_mk k8)
    clear_value s7
    exact keeps_foldl k9 (fun x10 x11 k12 => keeps_evtCount k12)

theorem keeps_allocRegion {o s : State} (h : Keeps o s) {r : Region} :
    KeepsOk o (State.allocRegion s r) := by
  unfold State.allocRegion
  split
  · rename_i y1 e2
    exact KeepsOk.error
  · rename_i y3 y4 e5
    split
    · rename_i y6 y7 e8
      exact KeepsOk.error
    · rename_i y9 y10 e11
      exact KeepsOk.ok (keeps_mk h)

theorem keeps_execScratchpadAtomic {o s : State} (h : Keeps o s) {bench : Nat} {addr : Nat} {code : Nat} {data : List Byte} {returnOld : Bool} :
    KeepsNext o (execScratchpadAtomic bench addr code data returnOld s) := by
  unfold execScratchpadAtomic
  extract_lets s1
  have k2 : Keeps o s1 := keeps_begin_ h
  clear_value s1
  refine KeepsNext.ite (KeepsNext.next k2) ?_
  split
  · rename_i y3 y4 y5 e6
    have k7 : Keeps o y5 := Keeps2.of_eq e6 (keeps_spadAtomic k2)
    extract_lets s8
    have k9 : Keeps o s8 := keeps_ite (keeps_unmappedErr k7) k7
    clear_value s8
    exact KeepsNext.next (keeps_ite (keeps_put k9) k9)

theorem keeps_patrolSlice {o s : State} (h : Keeps o s) {core : Nat} {corrected : List Nat} {bad : List Nat} {reload : State → Nat → State} (hreload : ∀ x0 x1, Keeps o x0 → Keeps o (reload x0 x1)) :
    Keeps o (patrolSlice s core corrected bad reload) := by
  unfold patrolSlice
  refine keeps_ite h ?_
  extract_lets v1 v2 s3 s4 s5
  have k6 : Keeps o s3 := keeps_evtCount h
  have k7 : Keeps o s4 := keeps_foldl k6 (fun x8 x9 k10 => keeps_corrWord k10)
  have k11 : Keeps o s5 := keeps_mk k7
  clear_value v1 v2 s3 s4 s5
  refine keeps_foldl k11 ?_
  intro x12 x13 k14
  extract_lets s15 s16 s17
  have k18 : Keeps o s15 := keeps_count k14
  have k19 : Keeps o s16 := keeps_uncorrWord k18
  have k20 : Keeps o s17 := keeps_poisonSpad k19
  clear_value s15 s16 s17
  exact keeps_ite (hreload _ _ (keeps_uncorrWord k18)) (keeps_logAdd k20)

theorem keeps_addBuiltIn {o s : State} (h : Keeps o s) {kind : BKind} {image : Nat} {entry : Option Nat} {bench : Nat} {todo : List Xfer} {dl : Option Nat} :
    Keeps o (State.addBuiltIn s kind image entry bench todo dl) := by
  unfold State.addBuiltIn
  exact keeps_ite h (keeps_mk h)

theorem keeps_setRing {o s : State} (h : Keeps o s) {r : Nat} {f : RingCount → RingCount} :
    Keeps o (State.setRing s r f) := by
  unfold State.setRing
  exact keeps_mk h (h5 := listMod_length.trans rfl)

theorem keeps_ringDrop {o s : State} (h : Keeps o s) {r : Nat} :
    Keeps o (State.ringDrop s r) := by
  unfold State.ringDrop
  extract_lets s1 s2
  have k3 : Keeps o s1 := keeps_wrAt h
  have k4 : Keeps o s2 := keeps_setErr k3
  clear_value s1 s2
  exact keeps_evtDev (keeps_setRing k4)

theorem keeps_resultRecord {o s : State} (h : Keeps o s) {r : Nat} {image : Nat} {entry : Nat} {tag : Nat} {late : Bool} {j : Nat} {first : Nat} {tr : Nat} {commit : Nat} {spadAddr : Nat} {bytes : Nat} {dl : Nat} :
    Keeps o (State.resultRecord s r image entry tag late j first tr commit spadAddr bytes dl) := by
  unfold State.resultRecord
  extract_lets v1 v2 v3 v4 v5 v6 v7 v8 v9 v10 v11 v12 v13 s14
  have k15 : Keeps o s14 := keeps_setRing h
  clear_value v1 v2 v3 v4 v5 v6 v7 v8 v9 v10 v11 v12 v13 s14
  exact keeps_ite (keeps_ringDrop h) (keeps_evtDev (keeps_addBuiltIn k15))

theorem keeps_mirrorOne {o s : State} (h : Keeps o s) {e : LogEntry} :
    KeepsOpt o (State.mirrorOne s e) := by
  unfold State.mirrorOne
  extract_lets v1 v2 v3 s4 v5
  have k6 : Keeps o s4 := keeps_hostPut h
  clear_value v1 v2 s4
  exact KeepsOpt.ite KeepsOpt.none (KeepsOpt.ite (KeepsOpt.some (keeps_evtDev (keeps_count (keeps_mk h)))) (KeepsOpt.some (keeps_mk k6)))

theorem keeps_mirrorAll {o s : State} (h : Keeps o s) {a1 : List LogEntry} :
    Keeps o (State.mirrorAll s a1) := by
  induction a1 generalizing s with
  | nil =>
    unfold State.mirrorAll
    exact h
  | cons w0 w1 ih =>
    unfold State.mirrorAll
    refine keeps_ite (ih h) ?_
    split
    · rename_i y1 e2
      exact h
    · rename_i y3 y4 e5
      have k6 : Keeps o y4 := KeepsOpt.of_eq e5 (keeps_mirrorOne h)
      exact ih k6

theorem keeps_logMirror {o s : State} (h : Keeps o s) :
    Keeps o (State.logMirror s) := by
  unfold State.logMirror
  refine keeps_ite h ?_
  extract_lets s1
  have k2 : Keeps o s1 := keeps_mirrorAll h
  clear_value s1
  exact keeps_ite h (keeps_hostPut k2)

theorem keeps_tallyCopy {o s : State} (h : Keeps o s) :
    Keeps o (State.tallyCopy s) := by
  unfold State.tallyCopy
  split
  · rename_i y1 e2
    exact h
  · rename_i y3 y4 y5 e6
    extract_lets v7 v8 v9 v10 v11 s12 s13 v14 s15 v16
    have k17 : Keeps o s12 := keeps_ite h (keeps_hostPut h)
    have k18 : Keeps o s13 := keeps_hostPut k17
    have k19 : Keeps o s15 := keeps_hostPut k18
    clear_value v7 v8 v9 v11 s12 s13 v14 s15
    exact keeps_ite h (keeps_ite (keeps_syncTally (keeps_evtDev (keeps_recordLost (keeps_mk h)))) (keeps_syncTally (keeps_mk k19)))

theorem keeps_execLogMirror {o s : State} (h : Keeps o s) :
    KeepsNext o (execLogMirror s) := by
  unfold execLogMirror
  exact KeepsNext.next (keeps_logMirror (keeps_begin_ h))

theorem keeps_execTallyRecordCopy {o s : State} (h : Keeps o s) :
    KeepsNext o (execTallyRecordCopy s) := by
  unfold execTallyRecordCopy
  exact KeepsNext.next (keeps_tallyCopy (keeps_begin_ h))

theorem keeps_consWrite {o s : State} (h : Keeps o s) {ring : Nat} {value : Nat} :
    Keeps o (State.consWrite s ring value) := by
  unfold State.consWrite
  refine keeps_ite ?_ ?_
  · extract_lets s1
    have k2 : Keeps o s1 := keeps_wrAt h
    clear_value s1
    exact keeps_setRing k2
  · refine keeps_ite ?_ ?_
    · extract_lets s3 v4
      have k5 : Keeps o s3 := keeps_wrAt h
      clear_value s3
      exact keeps_mk k5
    · refine keeps_ite ?_ h
      extract_lets s6 v7
      have k8 : Keeps o s6 := keeps_wrAt h
      clear_value s6
      exact keeps_mk k8

theorem keeps_execConsWrite {o s : State} (h : Keeps o s) {ring : Nat} {value : Nat} :
    KeepsNext o (execConsWrite ring value s) := by
  unfold execConsWrite
  extract_lets s1
  have k2 : Keeps o s1 := keeps_begin_ h
  clear_value s1
  exact KeepsNext.next (keeps_gated k2 (fun x3 k4 => keeps_consWrite k4))

end Sys2Proof.Machine
end

