-- ==== Sys2Proof/Laws/KeepsPresence.lean ====
section
/-! SUPPORT. The functions of Machine/Lpddr.lean, Machine/Presence.lean, Machine/Operands.lean, Machine/Image.lean, Machine/Links.lean, Machine/Pktform.lean, Machine/Wire.lean keep the queue, the canonical form and the fixed sets of units. -/
namespace Sys2Proof.Machine
open Sys2Proof

set_option Elab.async false

theorem keeps_loadErrInfo {o s : State} (h : Keeps o s) {o1 : Nat} {kind : Nat} :
    Keeps o (State.loadErrInfo s o1 kind) := by
  unfold State.loadErrInfo
  split
  · rename_i y1 y2 y3 y4 y5 e6
    extract_lets v7 s8 s9 s10 s11
    have k12 : Keeps o s8 := keeps_wr h
    have k13 : Keeps o s9 := keeps_wr k12
    have k14 : Keeps o s10 := keeps_wr k13
    have k15 : Keeps o s11 := keeps_wr k14
    clear_value v7 s8 s9 s10 s11
    exact keeps_wr k15

theorem keeps_channelBad {o s : State} (h : Keeps o s) {site : Nat} {c : Nat} :
    Keeps o (State.channelBad s site c) := by
  unfold State.channelBad
  extract_lets s1 s2
  have k3 : Keeps o s1 := keeps_setErrLog h
  have k4 : Keeps o s2 := keeps_setSite k3
  clear_value s1 s2
  exact keeps_wr k4

theorem keeps_channelEvent {o s : State} (h : Keeps o s) {site : Nat} {c : Nat} {unresponsive : Bool} :
    Keeps o (State.channelEvent s site c unresponsive) := by
  unfold State.channelEvent
  extract_lets v1 v2 s3 v4
  have k5 : Keeps o s3 := keeps_setSite h
  clear_value v1 v2 s3 v4
  exact keeps_ite k5 (keeps_ite (keeps_channelBad k5) k5)

theorem keeps_uncorrEvent {o s : State} (h : Keeps o s) {o1 : Nat} {kind : Nat} {entry : Nat} {unresponsive : Bool} {wrong : Bool} :
    Keeps o (State.uncorrEvent s o1 kind entry unresponsive wrong) := by
  unfold State.uncorrEvent
  split
  · rename_i y1 y2 y3 y4 e5
    extract_lets s6 s7 s8 s9
    have k10 : Keeps o s6 := keeps_ite (keeps_count h) (keeps_ite (keeps_count h) h)
    have k11 : Keeps o s7 := keeps_count k10
    have k12 : Keeps o s8 := keeps_loadErrInfo k11
    have k13 : Keeps o s9 := keeps_setErrLog k12
    clear_value s6 s7 s8 s9
    exact keeps_channelEvent k13

theorem keeps_lpCorrected {o s : State} (h : Keeps o s) {o1 : Nat} :
    Keeps o (State.lpCorrected s o1) := by
  unfold State.lpCorrected
  extract_lets v1
  clear_value v1
  exact keeps_setErr (keeps_count h)

theorem keeps_countRetries {o s : State} (h : Keeps o s) {site : Nat} {reads : Nat} {writes : Nat} {parity : Nat} :
    Keeps o (State.countRetries s site reads writes parity) := by
  unfold State.countRetries
  exact keeps_count h

theorem keeps_memRead {o s : State} (h : Keeps o s) {o1 : Nat} {n : Nat} {m : MemOutcome} {entry : Nat} :
    Keeps3 o (State.memRead s o1 n m entry) := by
  unfold State.memRead
  extract_lets v1 v2 v3 v4 s5 s6 s7
  have k8 : Keeps o s5 := keeps_countRetries h
  have k9 : Keeps o s6 := keeps_uncorrEvent k8
  have k10 : Keeps o s7 := keeps_ite (keeps_lpCorrected k8) k8
  clear_value v1 v2 v3 v4 s5 s6 s7
  exact Keeps3.ite (Keeps3.mk k9) (Keeps3.mk k10)

theorem keeps_memWrite {o s : State} (h : Keeps o s) {o1 : Nat} {bs : List Byte} {m : MemOutcome} {entry : Nat} :
    Keeps o (State.memWrite s o1 bs m entry) := by
  unfold State.memWrite
  extract_lets s1 s2
  have k3 : Keeps o s1 := keeps_countRetries h
  have k4 : Keeps o s2 := keeps_lpPut k3
  clear_value s1 s2
  exact keeps_ite (keeps_spoilLp (keeps_uncorrEvent k4)) k4

theorem keeps_memReads {o s : State} (h : Keeps o s) {o1 : Nat} {n : Nat} {m : MemOutcome} {entry : Nat} :
    Keeps3 o (State.memReads s o1 n m entry) := by
  unfold State.memReads
  refine keeps_foldl3 (Keeps3.mk h) ?_
  intro x1 x2 k3
  split
  · rename_i y4 y5 y6 y7 e8
    have k9 : Keeps o y7 := Keeps3.of_eq e8 (keeps_memRead k3.get)
    exact Keeps3.mk (keeps_evtDev k9)

theorem keeps_memWrites {o s : State} (h : Keeps o s) {o1 : Nat} {bs : List Byte} {m : MemOutcome} {entry : Nat} :
    Keeps o (State.memWrites s o1 bs m entry) := by
  unfold State.memWrites
  exact keeps_foldl h (fun x1 x2 k3 => keeps_evtDev (keeps_memWrite k3))

theorem keeps_evtUnits {o s : State} (h : Keeps o s) {src : Nat} {o2 : Nat} {n : Nat} :
    Keeps o (State.evtUnits s src o2 n) := by
  unfold State.evtUnits
  exact keeps_ite h (keeps_evtDev h)

theorem keeps_lpNarrowPut {o s : State} (h : Keeps o s) {a : Nat} {bs : List Byte} {k : PageKind} :
    Keeps o (State.lpNarrowPut s a bs k) := by
  unfold State.lpNarrowPut
  exact keeps_ite (keeps_unmappedErr h) (keeps_lpPut (keeps_evtUnits (keeps_narrow h)))

theorem keeps_devRead {o s : State} (h : Keeps o s) {k : PageKind} {i : Nat} {a : Nat} {n : Nat} {entry : Nat} :
    Keeps2 o (State.devRead s k i a n entry) := by
  unfold State.devRead
  refine Keeps2.ite (Keeps2.mk h) ?_
  refine Keeps2.ite (Keeps2.mk (keeps_unmappedErr h)) ?_
  extract_lets s1 v2
  have k3 : Keeps o s1 := keeps_evtUnits (keeps_narrow h)
  clear_value s1 v2
  exact Keeps2.mk (keeps_foldl k3 (fun x4 x5 k6 => Keeps3.get (keeps_memRead k6)))

theorem keeps_bulkRead {o s : State} (h : Keeps o s) {k : PageKind} {i : Nat} {a : Nat} {n : Nat} {entry : Nat} :
    Keeps o (State.bulkRead s k i a n entry) := by
  unfold State.bulkRead
  exact keeps_ite h (keeps_ite (keeps_unmappedErr h) (keeps_evtUnits (keeps_foldl h (fun x1 x2 k3 => Keeps3.get (keeps_memRead k3)))))

theorem keeps_burstAtomic {o s : State} (h : Keeps o s) {o1 : Nat} {code : Nat} {bs : List Byte} {m : MemOutcome} {entry : Nat} :
    Keeps3 o (State.burstAtomic s o1 code bs m entry) := by
  unfold State.burstAtomic
  extract_lets v1 v2 v3 v4 v5 v6 v7 v8 s9 s10 s11 s12 s13
  have k14 : Keeps o s9 := keeps_countRetries h
  have k15 : Keeps o s10 := keeps_lpPut k14
  have k16 : Keeps o s11 := keeps_count k15
  have k17 : Keeps o s12 := keeps_ite (keeps_uncorrEvent k16) (keeps_ite (keeps_lpCorrected k16) k16)
  have k18 : Keeps o s13 := keeps_ite (keeps_spoilLp (keeps_uncorrEvent k17)) k17
  clear_value v1 v2 v3 v4 v5 v6 v7 v8 s9 s10 s11 s12 s13
  exact Keeps3.mk k18

theorem keeps_unitAtomic {o s : State} (h : Keeps o s) {o1 : Nat} {code : Nat} {bs : List Byte} {m : MemOutcome} {entry : Nat} :
    Keeps3 o (State.unitAtomic s o1 code bs m entry) := by
  unfold State.unitAtomic
  refine keeps_foldl3 (Keeps3.mk (keeps_evtDev (keeps_evtDev h))) ?_
  intro x1 x2 k3
  split
  · rename_i y4 y5 y6 y7 e8
    have k9 : Keeps o y7 := Keeps3.of_eq e8 (keeps_burstAtomic k3.get)
    exact Keeps3.mk k9

theorem keeps_stepTo {o s : State} (h : Keeps o s) {site : Nat} {new : Nat} :
    Keeps o (State.stepTo s site new) := by
  unfold State.stepTo
  extract_lets v1 s2 s3
  have k4 : Keeps o s2 := keeps_wr h
  have k5 : Keeps o s3 := keeps_count k4
  clear_value v1 s2 s3
  exact keeps_ite (keeps_ite (keeps_setErrLog k5) k5) k4

theorem keeps_pollTemp {o s : State} (h : Keeps o s) {site : Nat} {reading : Option Int} :
    Keeps o (State.pollTemp s site reading) := by
  unfold State.pollTemp
  extract_lets v1 v2 s3 s4 s5 v6 v7 s8 v9
  have k10 : Keeps o s3 := keeps_setSite h
  have k11 : Keeps o s4 := keeps_wr k10
  have k12 : Keeps o s5 := keeps_setErrLog k11
  have k13 : Keeps o s8 := keeps_ite (keeps_wr h) h
  clear_value v1 v2 s3 s4 s5 v6 v7 s8 v9
  split
  · rename_i y14
    exact keeps_ite (keeps_stepTo k12) k10
  · rename_i y15 y16
    refine keeps_ite (keeps_setSite h) ?_
    extract_lets v17 v18 s19 s20 s21
    have k22 : Keeps o s19 := keeps_wr k13
    have k23 : Keeps o s20 := keeps_ite (keeps_wr k22) k22
    have k24 : Keeps o s21 := keeps_setSite k23
    clear_value v17 v18 s19 s20 s21
    exact keeps_stepTo k24

theorem keeps_patrolSite {o s : State} (h : Keeps o s) {site : Nat} {corrected : List Nat} {bad : List Nat} {wrong : List Nat} :
    Keeps o (State.patrolSite s site corrected bad wrong) := by
  unfold State.patrolSite
  refine keeps_ite h ?_
  extract_lets s1 v2
  have k3 : Keeps o s1 := keeps_foldl h (fun x4 x5 k6 => keeps_lpCorrected k6)
  have k7 : ∀ (x8 : Bool) (x9 : State) (x10 : Nat), Keeps o x9 → Keeps o (v2 x8 x9 x10) := by
    intro x8 x9 x10 k11
    unfold v2
    extract_lets v12 s13 s14
    have k15 : Keeps o s13 := keeps_ite (keeps_spoilLp k11) k11
    have k16 : Keeps o s14 := keeps_ite k15 (keeps_countRetries k15)
    clear_value v12 s13 s14
    exact keeps_uncorrEvent k16
  clear_value s1 v2
  exact keeps_foldl (keeps_foldl k3 (fun x17 x18 k19 => k7 _ _ _ k19)) (fun x20 x21 k22 => k7 _ _ _ k22)

theorem keeps_execLpddrPatrol {o s : State} (h : Keeps o s) {site : Nat} {corrected : List Nat} {bad : List Nat} {wrong : List Nat} :
    KeepsNext o (execLpddrPatrol site corrected bad s wrong) := by
  unfold execLpddrPatrol
  extract_lets s1
  have k2 : Keeps o s1 := keeps_begin_ h
  clear_value s1
  exact KeepsNext.next (keeps_ite (keeps_patrolSite k2) k2)

theorem keeps_marginWrite {o s : State} (h : Keeps o s) {site : Nat} {value : Nat} :
    Keeps o (State.marginWrite s site value) := by
  unfold State.marginWrite
  refine keeps_ite (keeps_badWrite h) ?_
  refine keeps_ite (keeps_setErr h) ?_
  extract_lets s1 s2 s3 s4 s5
  have k6 : Keeps o s1 := keeps_wr h
  have k7 : Keeps o s2 := keeps_wr k6
  have k8 : Keeps o s3 := keeps_wr k7
  have k9 : Keeps o s4 := keeps_wr k8
  have k10 : Keeps o s5 := keeps_wr k9
  clear_value s1 s2 s3 s4 s5
  exact keeps_ite (keeps_wr k10) k9

theorem keeps_execMarginGo {o s : State} (h : Keeps o s) {site : Nat} {value : Nat} :
    KeepsNext o (execMarginGo site value s) := by
  unfold execMarginGo
  exact KeepsNext.next (keeps_gated (keeps_begin_ h) (fun x1 k2 => keeps_marginWrite k2))

theorem keeps_execMarginDone {o s : State} (h : Keeps o s) {site : Nat} {low : Nat} {high : Nat} {failed : Bool} :
    KeepsNext o (execMarginDone site low high failed s) := by
  unfold execMarginDone
  extract_lets s1 v2 s3 s4 s5 s6
  have k7 : Keeps o s1 := keeps_begin_ h
  have k8 : Keeps o s3 := keeps_wr k7
  have k9 : Keeps o s4 := keeps_wr k8
  have k10 : Keeps o s5 := keeps_wr k9
  have k11 : Keeps o s6 := keeps_wr k10
  clear_value s1 v2 s3 s4 s5 s6
  exact KeepsNext.next (keeps_ite k7 (keeps_wr k11))

theorem keeps_logPlain {o s : State} (h : Keeps o s) {k : PageKind} {d2 : Nat} :
    Keeps o (State.logPlain s k d2) := by
  unfold State.logPlain
  exact keeps_logAdd h

theorem keeps_closeWindow {o s : State} (h : Keeps o s) :
    Keeps o (State.closeWindow s) := by
  unfold State.closeWindow
  refine keeps_ite h ?_
  extract_lets s1 s2 s3 v4 s5
  have k6 : Keeps o s1 := keeps_count (keeps_wr h)
  have k7 : Keeps o s2 := keeps_wr k6
  have k8 : Keeps o s3 := keeps_wr k7
  have k9 : Keeps o s5 := keeps_mk k8
  clear_value s1 s2 s3 s5
  exact keeps_logPlain k9

theorem keeps_pressPresence {o s : State} (h : Keeps o s) :
    Keeps o (State.pressPresence s) := by
  unfold State.pressPresence
  refine keeps_ite h ?_
  extract_lets v1 v2 s3 s4 s5 v6 s7
  have k8 : Keeps o s3 := keeps_mk h
  have k9 : Keeps o s4 := keeps_wr k8
  have k10 : Keeps o s5 := keeps_count k9
  have k11 : Keeps o s7 := keeps_mk k10
  clear_value s3 s4 s5 s7
  exact keeps_ite k8 (keeps_logPlain k11)

theorem keeps_sealOpen {o s : State} (h : Keeps o s) :
    Keeps o (State.sealOpen s) := by
  unfold State.sealOpen
  extract_lets v1 v2 s3 s4 s5 s6
  have k7 : Keeps o s3 := keeps_mk h
  have k8 : Keeps o s4 := keeps_wr k7
  have k9 : Keeps o s5 := keeps_wr k8
  have k10 : Keeps o s6 := keeps_ite (keeps_wr k9) k9
  clear_value v1 s3 s4 s5 s6
  exact keeps_setErrLog k10

theorem keeps_sealSample {o s : State} (h : Keeps o s) {bit : Bool} :
    Keeps o (State.sealSample s bit) := by
  unfold State.sealSample
  extract_lets v1 v2 v3 s4 v5
  have k6 : Keeps o s4 := keeps_mk h
  exact keeps_ite (keeps_ite (keeps_wr (keeps_mk k6)) k6) (keeps_ite (keeps_sealOpen k6) k6)

theorem keeps_secStart {o s : State} (h : Keeps o s) {op : Nat} {needsWindow : Bool} :
    Keeps o (State.secStart s op needsWindow) := by
  unfold State.secStart
  refine keeps_gated h ?_
  intro x1 k2
  refine keeps_ite (keeps_badWrite k2) ?_
  refine keeps_ite (keeps_setErr (keeps_wr k2)) ?_
  extract_lets s3 v4
  have k5 : Keeps o s3 := keeps_wr k2
  clear_value s3
  exact keeps_mk k5

theorem keeps_secEnd {o s : State} (h : Keeps o s) {result : Nat} :
    Keeps o (State.secEnd s result) := by
  unfold State.secEnd
  extract_lets s1 s2 v3
  have k4 : Keeps o s1 := keeps_wr h
  have k5 : Keeps o s2 := keeps_wr k4
  clear_value s1 s2
  exact keeps_mk k5

theorem keeps_fwReject {o s : State} (h : Keeps o s) {code : Nat} :
    Keeps o (State.fwReject s code) := by
  unfold State.fwReject
  exact keeps_secEnd (keeps_setErr h)

theorem keeps_installDone {o s : State} (h : Keeps o s) {flashOk : Bool} :
    Keeps o (State.installDone s flashOk) := by
  unfold State.installDone
  extract_lets v1 v2 s3 v4 v5 v6 s7 s8
  have k9 : Keeps o s3 := keeps_ite (Keeps2.get (keeps_devRead h)) h
  have k10 : Keeps o s7 := keeps_mk k9 (h7 := listMod_length.trans rfl)
  have k11 : Keeps o s8 := keeps_wr k10
  clear_value v1 v2 s3 v4 v5 s7 s8
  exact keeps_ite (keeps_fwReject k9) (keeps_ite (keeps_fwReject k9) (keeps_ite (keeps_fwReject k9) (keeps_ite (keeps_secEnd (keeps_setErr k9)) (keeps_secEnd (keeps_wr k11)))))

theorem keeps_rotateDone {o s : State} (h : Keeps o s) {flashOk : Bool} :
    Keeps o (State.rotateDone s flashOk) := by
  unfold State.rotateDone
  extract_lets v1 s2 v3 v4
  have k5 : Keeps o s2 := keeps_askBlock h
  clear_value v1 s2 v4
  refine keeps_ite (keeps_secEnd h) ?_
  refine keeps_ite (keeps_secEnd (keeps_noteExhausted h)) ?_
  refine keeps_ite (keeps_mk k5) ?_
  refine keeps_ite (keeps_secEnd (keeps_setErr h)) ?_
  split
  · rename_i y6 y7 y8 e9
    have k10 : Keeps o y8 := Keeps2.of_eq e9 (keeps_signWith h)
    extract_lets v11 s12
    have k13 : Keeps o s12 := keeps_mk k10
    clear_value s12
    exact keeps_secEnd (keeps_wr (keeps_wr k13))

theorem keeps_attestDone {o s : State} (h : Keeps o s) :
    Keeps o (State.attestDone s) := by
  unfold State.attestDone
  refine keeps_ite (keeps_secEnd h) ?_
  refine keeps_ite (keeps_secEnd (keeps_noteExhausted h)) ?_
  refine keeps_ite ?_ ?_
  · extract_lets s1 v2
    have k3 : Keeps o s1 := keeps_askBlock h
    clear_value s1
    exact keeps_mk k3
  · extract_lets v4 s5
    have k6 : Keeps o s5 := Keeps2.get (keeps_devRead h)
    clear_value v4 s5
    split
    · rename_i y7 y8 y9 e10
      have k11 : Keeps o y9 := Keeps2.of_eq e10 (keeps_signWith k6)
      exact keeps_secEnd (keeps_lpNarrowPut k11)

theorem keeps_identityDone {o s : State} (h : Keeps o s) :
    Keeps o (State.identityDone s) := by
  unfold State.identityDone
  extract_lets v1
  clear_value v1
  exact keeps_ite (keeps_secEnd h) (keeps_secEnd (keeps_lpNarrowPut h))

theorem keeps_extendDone {o s : State} (h : Keeps o s) :
    Keeps o (State.extendDone s) := by
  unfold State.extendDone
  exact keeps_ite (keeps_secEnd h) (keeps_secEnd (keeps_extendM (Keeps2.get (keeps_devRead h))))

theorem keeps_secFinish {o s : State} (h : Keeps o s) {flashOk : Bool} :
    Keeps o (State.secFinish s flashOk) := by
  unfold State.secFinish
  split
  · rename_i y1 e2
    exact keeps_installDone h
  · rename_i y3 e4
    exact keeps_rotateDone h
  · rename_i y5 e6
    exact keeps_secEnd (keeps_wr h)
  · rename_i y7 e8
    exact keeps_secEnd (keeps_wr h)
  · rename_i y9 e10
    exact keeps_attestDone h
  · rename_i y11 e12
    exact keeps_identityDone h
  · rename_i y13 e14
    exact keeps_extendDone h
  · rename_i y15 y16 y17 y18 y19 y20 y21 y22
    exact h

theorem keeps_execPresenceOpen {o s : State} (h : Keeps o s) :
    KeepsNext o (execPresenceOpen s) := by
  unfold execPresenceOpen
  extract_lets s1
  have k2 : Keeps o s1 := keeps_begin_ h
  clear_value s1
  exact KeepsNext.next (keeps_ite (keeps_pressPresence k2) k2)

theorem keeps_execPresenceRelease {o s : State} (h : Keeps o s) :
    KeepsNext o (execPresenceRelease s) := by
  unfold execPresenceRelease
  extract_lets s1 v2 v3
  have k4 : Keeps o s1 := keeps_begin_ h
  clear_value s1
  exact KeepsNext.next (keeps_mk k4)

theorem keeps_execPresenceExpire {o s : State} (h : Keeps o s) :
    KeepsNext o (execPresenceExpire s) := by
  unfold execPresenceExpire
  exact KeepsNext.next (keeps_closeWindow (keeps_begin_ h))

theorem keeps_execPresenceClose {o s : State} (h : Keeps o s) :
    KeepsNext o (execPresenceClose s) := by
  unfold execPresenceClose
  exact KeepsNext.next (keeps_gated (keeps_begin_ h) (fun x1 k2 => keeps_closeWindow k2))

theorem keeps_execInstall {o s : State} (h : Keeps o s) :
    KeepsNext o (execInstall s) := by
  unfold execInstall
  exact KeepsNext.next (keeps_secStart (keeps_begin_ h))

theorem keeps_execRotate {o s : State} (h : Keeps o s) :
    KeepsNext o (execRotate s) := by
  unfold execRotate
  exact KeepsNext.next (keeps_secStart (keeps_begin_ h))

theorem keeps_execDebugUnlock {o s : State} (h : Keeps o s) :
    KeepsNext o (execDebugUnlock s) := by
  unfold execDebugUnlock
  exact KeepsNext.next (keeps_secStart (keeps_begin_ h))

theorem keeps_execDebugLock {o s : State} (h : Keeps o s) :
    KeepsNext o (execDebugLock s) := by
  unfold execDebugLock
  exact KeepsNext.next (keeps_secStart (keeps_begin_ h))

theorem keeps_execAttest {o s : State} (h : Keeps o s) :
    KeepsNext o (execAttest s) := by
  unfold execAttest
  exact KeepsNext.next (keeps_secStart (keeps_begin_ h))

theorem keeps_execGetIdentity {o s : State} (h : Keeps o s) :
    KeepsNext o (execGetIdentity s) := by
  unfold execGetIdentity
  exact KeepsNext.next (keeps_secStart (keeps_begin_ h))

theorem keeps_execExtendM7 {o s : State} (h : Keeps o s) :
    KeepsNext o (execExtendM7 s) := by
  unfold execExtendM7
  exact KeepsNext.next (keeps_secStart (keeps_begin_ h))

theorem keeps_execSecCmdComplete {o s : State} (h : Keeps o s) {flashOk : Bool} :
    KeepsNext o (execSecCmdComplete flashOk s) := by
  unfold execSecCmdComplete
  extract_lets s1
  have k2 : Keeps o s1 := keeps_begin_ h
  clear_value s1
  exact KeepsNext.next (keeps_ite k2 (keeps_secFinish k2))

theorem keeps_execSealSample {o s : State} (h : Keeps o s) {bit : Bool} :
    KeepsNext o (execSealSample bit s) := by
  unfold execSealSample
  extract_lets s1
  have k2 : Keeps o s1 := keeps_begin_ h
  clear_value s1
  exact KeepsNext.next (keeps_ite (keeps_sealSample k2) k2)

theorem keeps_arrPut {o s : State} (h : Keeps o s) {a : Nat} {bs : List Byte} :
    Keeps o (State.arrPut s a bs) := by
  unfold State.arrPut
  exact keeps_ite (keeps_foldl (keeps_setErr h) (fun x1 x2 k3 => keeps_spadPut k3)) (keeps_spadPut h)

theorem keeps_arrCopy {o s : State} (h : Keeps o s) {a : Nat} {b : Nat} {n : Nat} :
    Keeps o (State.arrCopy s a b n) := by
  unfold State.arrCopy
  extract_lets s1 s2
  have k3 : Keeps o s1 := keeps_ite (keeps_setErr h) h
  have k4 : Keeps o s2 := keeps_arrPut k3
  clear_value s1 s2
  exact keeps_mk k4

theorem keeps_regWrite {o s : State} (h : Keeps o s) {r : Region} {core : Nat} {o2 : Nat} {bs : List Byte} :
    Keeps o (regWrite s r core o2 bs) := by
  unfold regWrite
  extract_lets s1 s2
  have k3 : ∀ (z0 : State) (z1 : Nat) (z2 : Byte), Keeps o z0 → Keeps o (s1 z0 z1 z2) := by
    intro x4 x5 x6 k7
    unfold s1
    extract_lets v8
    clear_value v8
    exact keeps_ite (keeps_setErr k7) (keeps_maps k7 id sparseSet_wf id id)
  have k9 : Keeps o s2 := keeps_foldl h (fun x10 x11 k12 => k3 _ _ _ k12)
  clear_value s1 s2
  exact keeps_mk k9

theorem keeps_refPut {o s : State} (h : Keeps o s) {m : Image} {d : Desc} {w : Work} {i : Nat} {o5 : Nat} {bs : List Byte} :
    Keeps o (refPut s m d w i o5 bs) := by
  unfold refPut
  split
  · rename_i y1 e2
    exact h
  · rename_i y3 y4 e5
    exact keeps_regWrite h

theorem keeps_placeAll {o s : State} (h : Keeps o s) {a1 : List Region} :
    KeepsOk o (State.placeAll s a1) := by
  induction a1 generalizing s with
  | nil =>
    unfold State.placeAll
    exact KeepsOk.ok h
  | cons w0 w1 ih =>
    unfold State.placeAll
    split
    · rename_i y1 y2 e3
      exact KeepsOk.error
    · rename_i y4 y5 e6
      have k7 : Keeps o y5 := KeepsOk.of_eq e6 (keeps_allocRegion h)
      exact ih k7

theorem keeps_syncCodebooks {o s : State} (h : Keeps o s) :
    Keeps o (State.syncCodebooks s) := by
  unfold State.syncCodebooks
  refine keeps_foldl h ?_
  intro x1 x2 k3
  extract_lets v4
  clear_value v4
  exact keeps_wrAt (keeps_wrAt k3)

theorem keeps_setClaims {o s : State} (h : Keeps o s) {uses : List (Nat × Nat)} :
    Keeps o (State.setClaims s uses) := by
  unfold State.setClaims
  exact keeps_foldl h (fun x1 x2 k3 => keeps_wrAt (keeps_wrAt k3))

theorem keeps_syncStore {o s : State} (h : Keeps o s) :
    Keeps o (State.syncStore s) := by
  unfold State.syncStore
  extract_lets s1 s2 v3 v4
  have k5 : Keeps o s1 := keeps_wr h
  have k6 : Keeps o s2 := keeps_wr k5
  clear_value s1 s2 v3 v4
  exact keeps_syncCodebooks (keeps_foldl k6 (fun x7 x8 k9 => keeps_wr (keeps_wr k9)))

theorem keeps_placeImage {o s : State} (h : Keeps o s) {mine : List Region} {m : Image} :
    Keeps1 o (State.placeImage s mine m) := by
  unfold State.placeImage
  refine Keeps1.ite (Keeps1.mk (keeps_mk h)) ?_
  split
  · rename_i y1 y2 e3
    have k4 : Keeps o y2 := KeepsOk.of_eq e3 (keeps_placeAll h)
    exact Keeps1.mk k4
  · rename_i y5 y6 e7
    split
    · rename_i y8 y9 e10
      have k11 : Keeps o y9 := KeepsOk.of_eq e10 (keeps_placeAll (keeps_releaseImage h))
      exact Keeps1.mk k11
    · rename_i y12 y13 e14
      exact Keeps1.mk h

theorem keeps_loadImage {o s : State} (h : Keeps o s) {id : Nat} :
    Keeps o (State.loadImage s id) := by
  unfold State.loadImage
  refine keeps_ite h ?_
  extract_lets v1 v2 s3 v4 s5 s6 v7 s8 s9
  have k10 : Keeps o s3 := keeps_bulkRead (Keeps2.get (keeps_devRead h))
  have k11 : Keeps1 o s5 := keeps_placeImage k10
  have k12 : Keeps o s6 := k11.get
  have k13 : Keeps o s8 := keeps_mk k12
  have k14 : Keeps o s9 := keeps_foldl k13 (fun x15 x16 k17 => keeps_ite (keeps_setRegion k17) (keeps_addBuiltIn k17))
  clear_value v1 v2 s3 v4 s5 s8 s9
  exact keeps_ite k10 (keeps_syncStore (keeps_syncSpad (keeps_extendM k14)))

theorem keeps_sendLanes {o s : State} (h : Keeps o s) {p : Nat} {wire : List Byte} :
    Keeps o (State.sendLanes s p wire) := by
  unfold State.sendLanes
  extract_lets v1
  clear_value v1
  refine keeps_foldl h ?_
  intro x2 x3 k4
  extract_lets v5
  clear_value v5
  exact keeps_put (keeps_setPort k4)

theorem keeps_takeLanes {o s : State} (h : Keeps o s) {p : Nat} {lines : List (List Byte)} :
    Keeps2 o (State.takeLanes s p lines) := by
  unfold State.takeLanes
  extract_lets v1 v2
  clear_value v1 v2
  exact Keeps2.mk (keeps_setPort h)

theorem keeps_emitFrame {o s : State} (h : Keeps o s) {p : Nat} {type : Nat} {slots : Slots} {consume : Bool} :
    Keeps o (State.emitFrame s p type slots consume) := by
  unfold State.emitFrame
  extract_lets v1 v2 v3 v4 v5 v6 v7 v8 v9 v10 s11
  have k12 : Keeps o s11 := keeps_setPort h
  clear_value v1 v2 v3 v4 v5 v6 v7 v8 v9 v10 s11
  exact keeps_sendLanes (keeps_put k12)

theorem keeps_emitMsgs {o s : State} (h : Keeps o s) {p : Nat} {raw : Bool} {ms : List (Option Nat × Msg)} :
    Keeps o (State.emitMsgs s p raw ms) := by
  unfold State.emitMsgs
  extract_lets v1 v2 s3
  have k4 : Keeps o s3 := keeps_setPort h
  clear_value v1 v2 s3
  exact keeps_emitFrame k4

theorem keeps_emitKey {o s : State} (h : Keeps o s) {p : Nat} {bs : List Byte} :
    Keeps o (State.emitKey s p bs) := by
  unfold State.emitKey
  refine keeps_ite (keeps_setPort h) ?_
  extract_lets v1 s2
  have k3 : Keeps o s2 := keeps_setPort h
  clear_value v1 s2
  exact keeps_emitFrame k3

theorem keeps_emitKeys {o s : State} (h : Keeps o s) {p : Nat} {kind : Nat} {bs : List Byte} :
    Keeps o (State.emitKeys s p kind bs) := by
  unfold State.emitKeys
  extract_lets v1
  clear_value v1
  exact keeps_foldl h (fun x2 x3 k4 => keeps_emitKey k4)

theorem keeps_requeue {o s : State} (h : Keeps o s) {p : Nat} {ms : List (Option Nat × Msg)} :
    Keeps o (State.requeue s p ms) := by
  unfold State.requeue
  exact keeps_setPort h

theorem keeps_emitAll {o s : State} (h : Keeps o s) {p : Nat} {raw : Bool} {n : Nat} {ms : List (Option Nat × Msg)} :
    Keeps o (State.emitAll s p raw n ms) := by
  induction n generalizing s ms with
  | zero => exact h
  | succ n ih =>
    cases ms with
    | nil => exact h
    | cons m ms =>
      unfold State.emitAll
      exact keeps_ite (keeps_requeue h) (ih (keeps_emitMsgs h))

theorem keeps_pumpFrames {o s : State} (h : Keeps o s) {p : Nat} {a2 : Nat} :
    Keeps o (State.pumpFrames s p a2) := by
  induction a2 generalizing s p with
  | zero =>
    unfold State.pumpFrames
    exact h
  | succ w0 ih =>
    unfold State.pumpFrames
    extract_lets v1 v2
    clear_value v1 v2
    refine keeps_ite h ?_
    split
    · rename_i y3 e4
      exact h
    · rename_i y5 y6 y7 e8
      extract_lets v9 v10 v11
      clear_value v9 v10 v11
      exact ih (keeps_emitMsgs (keeps_setPort h))

theorem keeps_pumpKeys {o s : State} (h : Keeps o s) {p : Nat} :
    Keeps o (State.pumpKeys s p) := by
  unfold State.pumpKeys
  extract_lets v1
  clear_value v1
  exact keeps_ite h (keeps_foldl (keeps_setPort h) (fun x2 x3 k4 => keeps_emitKey k4))

theorem keeps_pump {o s : State} (h : Keeps o s) {p : Nat} :
    Keeps o (State.pump s p) := by
  unfold State.pump
  extract_lets s1
  have k2 : Keeps o s1 := keeps_ite (keeps_pumpKeys h) h
  clear_value s1
  exact keeps_ite (keeps_pumpFrames k2) k2

theorem keeps_sendOn {o s : State} (h : Keeps o s) {p : Nat} {m : Msg} {via : Option Nat} :
    Keeps o (State.sendOn s p m via) := by
  unfold State.sendOn
  exact keeps_ite (keeps_pump (keeps_setPort h)) h

theorem keeps_sendMsg {o s : State} (h : Keeps o s) {m : Msg} :
    KeepsOpt o (State.sendMsg s m) := by
  unfold State.sendMsg
  exact KeepsOpt.ite KeepsOpt.none (KeepsOpt.map (fun x1 e2 => keeps_sendOn h))

theorem keeps_hopDrop {o s : State} (h : Keeps o s) {p : Nat} :
    Keeps o (State.hopDrop s p) := by
  unfold State.hopDrop
  exact keeps_setErr (keeps_count h)

theorem keeps_forward {o s : State} (h : Keeps o s) {p : Nat} {m : Msg} :
    Keeps o (State.forward s p m) := by
  unfold State.forward
  refine keeps_ite (keeps_hopDrop h) ?_
  split
  · rename_i y1 e2
    exact keeps_hopDrop h
  · rename_i y3 y4 e5
    exact keeps_sendOn h

theorem keeps_flood {o s : State} (h : Keeps o s) {except : Option Nat} {m : Msg} :
    Keeps o (State.flood s except m) := by
  unfold State.flood
  exact keeps_foldl h (fun x1 x2 k3 => keeps_ite (keeps_sendOn k3) k3)

theorem keeps_noteReport {o s : State} (h : Keeps o s) {suspect : Nat} {kind : Nat} {epoch : Nat} {reporter : Nat} :
    Keeps o (State.noteReport s suspect kind epoch reporter) := by
  unfold State.noteReport
  extract_lets s1 s2
  have k3 : Keeps o s1 := keeps_wr h
  have k4 : Keeps o s2 := keeps_wr k3
  clear_value s1 s2
  exact keeps_logAdd k4

theorem keeps_seeReport {o s : State} (h : Keeps o s) {suspect : Nat} {epoch : Nat} {reporter : Nat} {kind : Nat} :
    Keeps o (State.seeReport s suspect epoch reporter kind) := by
  unfold State.seeReport
  extract_lets v1 v2
  clear_value v1
  exact keeps_mk h

theorem keeps_sendReport {o s : State} (h : Keeps o s) {suspect : Nat} {kind : Nat} :
    Keeps o (State.sendReport s suspect kind) := by
  have step {t : State} (k : Keeps o t) (xs : List (Nat × Nat × Nat)) : Keeps o { t with lnk := { t.lnk with origin := xs } } :=
    keeps_mk k
  unfold State.sendReport
  exact keeps_flood (step (keeps_seeReport (keeps_noteReport (keeps_count h))) _)

theorem keeps_originate {o s : State} (h : Keeps o s) {suspect : Nat} {kind : Nat} : Keeps o (State.originate s suspect kind) := by
  unfold State.originate
  exact keeps_ite (keeps_count h) (keeps_ite (keeps_mk h) (keeps_sendReport h))

theorem keeps_sendOwedReports {o s : State} (h : Keeps o s) :
    Keeps o (State.sendOwedReports s) := by
  unfold State.sendOwedReports
  exact keeps_foldl (keeps_mk h) (fun x1 x2 k3 => keeps_sendReport k3)

theorem keeps_unrouted {o s : State} (h : Keeps o s) {m : Option Nat × Msg} :
    Keeps o (State.unrouted s m) := by
  unfold State.unrouted
  split
  · rename_i y1 y2 e3
    exact keeps_hopDrop h
  · rename_i y4 e5
    exact keeps_ite (keeps_mk h) h

theorem keeps_routeAgain {o s : State} (h : Keeps o s) {m : Option Nat × Msg} :
    Keeps o (State.routeAgain s m) := by
  unfold State.routeAgain
  split
  · rename_i y1 y2 e3
    exact keeps_sendOn h
  · rename_i y4 e5
    exact keeps_unrouted h

theorem keeps_reroute {o s : State} (h : Keeps o s) :
    Keeps o (State.reroute s) := by
  unfold State.reroute
  refine keeps_foldl h ?_
  intro x1 x2 k3
  extract_lets v4 v5
  clear_value v4 v5
  exact keeps_foldl (keeps_setPort k3) (fun x6 x7 k8 => keeps_routeAgain k8)

theorem keeps_portToDown {o s : State} (h : Keeps o s) {p : Nat} :
    Keeps o (State.portToDown s p) := by
  unfold State.portToDown
  extract_lets v1 s2 s3 s4 v5 s6
  have k7 : Keeps o s2 := keeps_wr h
  have k8 : Keeps o s3 := keeps_wr k7
  have k9 : Keeps o s4 := keeps_setPort k8
  have k10 : Keeps o s6 := keeps_mk k9
  clear_value v1 s2 s3 s4 s6
  exact keeps_foldl k10 (fun x11 x12 k13 => keeps_routeAgain k13)

theorem keeps_portFails {o s : State} (h : Keeps o s) {p : Nat} :
    Keeps o (State.portFails s p) := by
  unfold State.portFails
  extract_lets v1 v2 s3 s4
  have k5 : Keeps o s3 := keeps_portToDown h
  have k6 : Keeps o s4 := keeps_setErr k5
  clear_value v1 v2 s3 s4
  exact keeps_ite (keeps_originate k6) k6

theorem keeps_startTraining {o s : State} (h : Keeps o s) {p : Nat} :
    Keeps o (State.startTraining s p) := by
  unfold State.startTraining
  exact keeps_put (keeps_wr h)

theorem keeps_laneFails {o s : State} (h : Keeps o s) {p : Nat} {lane : Nat} :
    Keeps o (State.laneFails s p lane) := by
  unfold State.laneFails
  extract_lets v1 s2 s3
  have k4 : Keeps o s2 := keeps_setPort h
  have k5 : Keeps o s3 := keeps_count (keeps_setErrLog k4)
  clear_value v1 s2 s3
  exact keeps_ite (keeps_portFails k5) (keeps_startTraining k5)

theorem keeps_laneErrors {o s : State} (h : Keeps o s) {p : Nat} {cws : List Nat} :
    Keeps o (State.laneErrors s p cws) := by
  unfold State.laneErrors
  extract_lets v1 v2 s3
  have k4 : Keeps o s3 := keeps_setPort h
  clear_value v1 v2 s3
  split
  · rename_i y5 e6
    exact k4
  · rename_i y7 y8 e9
    exact keeps_laneFails k4

theorem keeps_replay {o s : State} (h : Keeps o s) {p : Nat} :
    Keeps o (State.replay s p) := by
  unfold State.replay
  extract_lets v1 s2 v3 v4 s5 s6
  have k7 : Keeps o s2 := keeps_evtDev (keeps_count h)
  have k8 : Keeps o s5 := keeps_setPort k7
  have k9 : Keeps o s6 := keeps_foldl k8 (fun x10 x11 k12 => keeps_emitKey k12)
  clear_value v1 s2 v3 v4 s5 s6
  exact keeps_ite h (keeps_ite (keeps_startTraining (keeps_setPort h)) (keeps_emitAll k9))

theorem keeps_takeAck {o s : State} (h : Keeps o s) {p : Nat} {ack : Nat} {credits : Nat} :
    Keeps o (State.takeAck s p ack credits) := by
  unfold State.takeAck
  exact keeps_setPort h

theorem keeps_deliver {o s : State} (h : Keeps o s) {p : Nat} {m : Msg} {spoiled : Bool} :
    Keeps o (State.deliver s p m spoiled) := by
  unfold State.deliver
  exact keeps_ite (keeps_setPort h) (keeps_forward (keeps_setPort h))

theorem keeps_takeSlot {o s : State} (h : Keeps o s) {p : Nat} {spoiled : List Nat} {n : Nat} {slot : Nat × List Byte} :
    Keeps1 o (State.takeSlot s p spoiled n slot) := by
  unfold State.takeSlot
  extract_lets v1 v2 s3 v4 s5
  have k6 : Keeps o s3 := keeps_setPort h
  have k7 : Keeps o s5 := keeps_setPort k6
  clear_value v1 v2 s3 v4 s5
  exact Keeps1.mk (keeps_foldl k7 (fun x8 x9 k10 => keeps_deliver k10))

theorem keeps_discard {o s : State} (h : Keeps o s) {p : Nat} {seq : Nat} {type : Nat} :
    Keeps o (State.discard s p seq type) := by
  unfold State.discard
  exact keeps_setPort h

theorem keeps_newEpoch {o s : State} (h : Keeps o s) {p : Nat} {epoch : Nat} :
    Keeps o (State.newEpoch s p epoch) := by
  unfold State.newEpoch
  exact keeps_setPort h

theorem keeps_answer {o s : State} (h : Keeps o s) {p : Nat} :
    Keeps o (State.answer s p) := by
  unfold State.answer
  extract_lets v1 s2
  have k3 : Keeps o s2 := keeps_pump h
  clear_value v1 s2
  exact keeps_ite (keeps_emitFrame k3) k3

theorem keeps_receiveFrame {o s : State} (h : Keeps o s) {p : Nat} {lines : List (List Byte)} {spoiled : List Nat} :
    Keeps o (State.receiveFrame s p lines spoiled) := by
  unfold State.receiveFrame
  refine keeps_ite h ?_
  split
  · rename_i y1 y2 y3 e4
    have k5 : Keeps o y3 := Keeps2.of_eq e4 (keeps_takeLanes h)
    split
    · rename_i y6 y7 y8 y9 e10
      extract_lets s11 s12 s13 v14 v15 v16 v17 v18 v19 v20 v21 v22 v23 v24 v25 v26 v27 v28 v29 v30 v31 v32 s33 s34 s35 s36 s37 s38 s39 v40 s41 s42
      have k43 : Keeps o s11 := keeps_ite (keeps_setErr (keeps_count k5)) k5
      have k44 : Keeps o s12 := keeps_ite (keeps_setErr (keeps_count k43)) k43
      have k45 : Keeps o s13 := keeps_laneErrors k44
      have k46 : Keeps o s33 := keeps_ite (keeps_count k45) k45
      have k47 : Keeps o s34 := keeps_ite (keeps_setErr (keeps_count k46)) k46
      have k48 : Keeps o s35 := keeps_ite (keeps_count64 k47) k47
      have k49 : Keeps o s36 := keeps_newEpoch k48
      have k50 : Keeps o s37 := keeps_setPort k49
      have k51 : Keeps o s38 := keeps_takeAck k50
      have k52 : Keeps o s39 := keeps_ite (keeps_replay k51) k51
      have k53 : Keeps o s41 := keeps_setPort k52
      have k54 : Keeps o s42 := keeps_ite (Keeps1.get (keeps_foldl1 (Keeps1.mk k53) (fun x55 x56 k57 => keeps_takeSlot k57.get))) k53
      clear_value s41 s42
      exact keeps_ite k47 (keeps_ite (keeps_answer (keeps_discard k47)) (keeps_ite (keeps_answer (keeps_ite k52 (keeps_discard k52))) (keeps_answer k54)))

theorem keeps_takeInbox {o s : State} (h : Keeps o s) {p : Nat} {m : Msg} :
    Keeps o (State.takeInbox s p m) := by
  unfold State.takeInbox
  exact keeps_ite (keeps_setPort h) h

theorem keeps_execFrameReceive {o s : State} (h : Keeps o s) {port : Nat} {lines : List (List Byte)} {spoiled : List Nat} :
    KeepsNext o (execFrameReceive port lines s spoiled) := by
  unfold execFrameReceive
  exact KeepsNext.next (keeps_receiveFrame (keeps_begin_ h))

theorem keeps_publish {o s : State} (h : Keeps o s) {base : Nat} {ratio : Nat} :
    Keeps o (State.publish s base ratio) := by
  unfold State.publish
  extract_lets v1
  clear_value v1
  exact keeps_wr (keeps_wr64 (keeps_wr64 h))

theorem keeps_reportGroups {o s : State} (h : Keeps o s) {p : Nat} {ipv6 : Bool} :
    Keeps o (State.reportGroups s p ipv6) := by
  unfold State.reportGroups
  extract_lets v1
  clear_value v1
  exact keeps_ite h (keeps_put h)

theorem keeps_resolveHop {o s : State} (h : Keeps o s) {p : Nat} {ipv6 : Bool} {addr : List Byte} :
    Keeps o (State.resolveHop s p ipv6 addr) := by
  unfold State.resolveHop
  exact keeps_ite h (keeps_put h)

theorem keeps_announceSession {o s : State} (h : Keeps o s) {p : Nat} {x : List Byte} :
    Keeps o (State.announceSession s p x) := by
  unfold State.announceSession
  exact keeps_foldl h (fun x1 x2 k3 => keeps_ite (keeps_reportGroups k3) (keeps_resolveHop k3))

theorem keeps_sendPaths {o s : State} (h : Keeps o s) {x : List Byte} {p : Nat} {payload : Bool → List Byte} :
    Keeps o (State.sendPaths s x p payload) := by
  unfold State.sendPaths
  refine keeps_foldl h ?_
  intro x1 x2 k3
  refine keeps_ite k3 ?_
  extract_lets v4 v5 v6 v7 s8
  have k9 : Keeps o s8 := keeps_put k3
  clear_value v4 v5 v6 v7 s8
  exact keeps_count64 k9

theorem keeps_sendUnits {o s : State} (h : Keeps o s) {t : Stream} {data : List Byte} :
    Keeps o (State.sendUnits s t data) := by
  unfold State.sendUnits
  extract_lets v1
  clear_value v1
  exact keeps_foldl h (fun x2 x3 k4 => keeps_sendOn k4)

theorem keeps_sendChunk {o s : State} (h : Keeps o s) {t : Stream} {j : Nat} {first : Nat} {frames : List (List Nat)} :
    Keeps o (State.sendChunk s t j first frames) := by
  unfold State.sendChunk
  extract_lets v1 v2 v3 s4
  have k5 : Keeps o s4 := by
    refine keeps_foldl h ?_
    intro x6 x7 k8
    extract_lets v9
    clear_value v9
    exact keeps_sendPaths k8
  clear_value v1 v2 v3 s4
  exact keeps_setStream k5

theorem keeps_rebase {o s : State} (h : Keeps o s) {p : Nat} :
    Keeps o (State.rebase s p) := by
  unfold State.rebase
  extract_lets v1
  clear_value v1
  exact keeps_ite h (keeps_setAport h)

theorem keeps_knowFrame {o s : State} (h : Keeps o s) {p : Nat} {f : Nat} {pin : Nat} :
    Keeps o (State.knowFrame s p f pin) := by
  unfold State.knowFrame
  exact keeps_setAport h

theorem keeps_timeStop {o s : State} (h : Keeps o s) {p : Nat} :
    Keeps o (State.timeStop s p) := by
  unfold State.timeStop
  extract_lets v1 v2 v3
  clear_value v1 v2 v3
  exact keeps_setAport h

theorem keeps_beginStop {o s : State} (h : Keeps o s) {p : Nat} :
    Keeps o (State.beginStop s p) := by
  unfold State.beginStop
  extract_lets s1
  have k2 : Keeps o s1 := keeps_wr h
  clear_value s1
  exact keeps_timeStop (keeps_setAport k2)

theorem keeps_retimeStops {o s : State} (h : Keeps o s) :
    Keeps o (State.retimeStops s) := by
  unfold State.retimeStops
  exact keeps_foldl h (fun x1 x2 k3 => keeps_timeStop k3)

theorem keeps_idleSlots {o s : State} (h : Keeps o s) {p : Nat} {from_ : Option Nat} :
    Keeps o (State.idleSlots s p from_) := by
  unfold State.idleSlots
  refine keeps_ite h ?_
  extract_lets v1
  clear_value v1
  exact keeps_put h

theorem keeps_driveClocks {o s : State} (h : Keeps o s) {p : Nat} :
    Keeps o (State.driveClocks s p) := by
  unfold State.driveClocks
  extract_lets v1 v2 v3 v4 v5 v6
  clear_value v1 v2 v3 v4 v5 v6
  exact keeps_put h

theorem keeps_sendAhead {o s : State} (h : Keeps o s) {p : Nat} {zero : Bool} {x : Ahead} {from_ : Nat} :
    Keeps o (State.sendAhead s p zero x from_) := by
  unfold State.sendAhead
  extract_lets v1
  clear_value v1
  exact keeps_ite h (keeps_ite (keeps_put h) (keeps_put h))

theorem keeps_resend {o s : State} (h : Keeps o s) {p : Nat} {zero : Bool} {x : Ahead} :
    Keeps o (State.resend s p zero x) := by
  unfold State.resend
  exact keeps_sendAhead h

theorem keeps_silence {o s : State} (h : Keeps o s) {e : Nat} {zero : Bool} :
    Keeps o (State.silence s e zero) := by
  unfold State.silence
  exact keeps_foldl h (fun x1 x2 k3 => keeps_foldl k3 (fun x4 x5 k6 => keeps_resend k6))

theorem keeps_txChange {o s : State} (h : Keeps o s) {p : Nat} :
    Keeps o (State.txChange s p) := by
  unfold State.txChange
  refine keeps_ite h ?_
  extract_lets v1 v2 s3 s4
  have k5 : Keeps o s3 := keeps_setAport h
  have k6 : Keeps o s4 := keeps_idleSlots k5
  clear_value v1 v2 s3 s4
  refine keeps_foldl k6 ?_
  intro x7 x8 k9
  extract_lets v10
  clear_value v10
  exact keeps_ite k9 (keeps_sendAhead k9)

theorem keeps_endSink {o s : State} (h : Keeps o s) {e : Nat} :
    Keeps o (State.endSink s e) := by
  unfold State.endSink
  extract_lets s1
  have k2 : Keeps o s1 := keeps_silence h
  clear_value s1
  exact keeps_foldl k2 (fun x3 x4 k5 => keeps_ite (keeps_setAport k5) k5)

end Sys2Proof.Machine
end

