-- ==== Sys2Proof/Laws/KeepsStreams.lean ====
section
/-! SUPPORT. The functions of Machine/Streams.lean, Machine/Kv.lean, Machine/Punty.lean, Machine/FailStop.lean, Machine/Stage.lean keep the queue, the canonical form and the fixed sets of units. -/
namespace Sys2Proof.Machine
open Sys2Proof

set_option Elab.async false

theorem keeps_storeEntry {o s : State} (h : Keeps o s) {e : Nat} :
    Keeps o (State.storeEntry s e) := by
  unfold State.storeEntry
  split
  · rename_i y1 e2
    exact h
  · rename_i y3 y4 e5
    extract_lets v6 s7 s8
    have k9 : Keeps o s7 := keeps_lpNarrowPut h
    have k10 : Keeps o s8 := keeps_lpNarrowPut k9
    clear_value v6 s7 s8
    exact keeps_lpNarrowPut k10

theorem keeps_setState {o s : State} (h : Keeps o s) {e : Nat} {v : Nat} :
    Keeps o (State.setState s e v) := by
  unfold State.setState
  extract_lets s1
  have k2 : Keeps o s1 := keeps_setStream h
  clear_value s1
  exact keeps_lpNarrowPut k2

theorem keeps_storePunty {o s : State} (h : Keeps o s) {t : Stream} :
    Keeps o (State.storePunty s t) := by
  unfold State.storePunty
  extract_lets v1 v2
  clear_value v1 v2
  exact keeps_lpNarrowPut h

theorem keeps_syncProtected {o s : State} (h : Keeps o s) :
    Keeps o (State.syncProtected s) := by
  unfold State.syncProtected
  exact keeps_wr h

theorem keeps_puntyRetire {o s : State} (h : Keeps o s) {t : Stream} :
    Keeps o (State.puntyRetire s t) := by
  unfold State.puntyRetire
  refine keeps_ite h ?_
  extract_lets s1 s2
  have k3 : Keeps o s1 := keeps_setStream h
  have k4 : Keeps o s2 := by
    unfold s2
    split
    · rename_i y5 y6 e7
      exact keeps_storePunty k3
    · rename_i y8 e9
      exact k3
  clear_value s1 s2
  exact keeps_syncProtected (keeps_addBuiltIn k4)

theorem keeps_unloadImage {o s : State} (h : Keeps o s) {id : Nat} :
    Keeps o (State.unloadImage s id) := by
  unfold State.unloadImage
  split
  · rename_i y1 e2
    exact h
  · rename_i y3 y4 e5
    extract_lets v6 v7 v8 s9
    have k10 : Keeps o s9 := keeps_mk h
    clear_value v6 v7 s9
    exact keeps_syncStore (keeps_sealImage k10)

theorem keeps_leaveSweeps {o s : State} (h : Keeps o s) {e : Nat} :
    Keeps o (State.leaveSweeps s e) := by
  unfold State.leaveSweeps
  exact keeps_mk h

theorem keeps_releaseIfUnused {o s : State} (h : Keeps o s) {id : Nat} :
    Keeps o (State.releaseIfUnused s id) := by
  unfold State.releaseIfUnused
  exact keeps_ite h (keeps_unloadImage h)

theorem keeps_toIdle {o s : State} (h : Keeps o s) {e : Nat} :
    Keeps o (State.toIdle s e) := by
  unfold State.toIdle
  split
  · rename_i y1 e2
    exact h
  · rename_i y3 y4 e5
    extract_lets s6 s7 s8 v9 v10 s11
    have k12 : Keeps o s6 := keeps_endSink (keeps_setState h)
    have k13 : Keeps o s7 := keeps_tallyLeave (keeps_puntyRetire k12)
    have k14 : Keeps o s8 := keeps_delStream (keeps_leaveSweeps k13)
    have k15 : Keeps o s11 := keeps_mk k14
    clear_value s6 s7 s8 v9 s11
    exact keeps_releaseIfUnused k15

theorem keeps_kvBack {o s : State} (h : Keeps o s) {e : Nat} :
    Keeps o (State.kvBack s e) := by
  unfold State.kvBack
  split
  · rename_i y1 e2
    exact h
  · rename_i y3 y4 e5
    exact keeps_setImage (keeps_setStream h)

theorem keeps_streamFault {o s : State} (h : Keeps o s) {e : Nat} {code : Nat} :
    Keeps o (State.streamFault s e code) := by
  unfold State.streamFault
  split
  · rename_i y1 e2
    exact h
  · rename_i y3 y4 e5
    refine keeps_ite h ?_
    extract_lets s6 s7 s8 s9 s10 s11
    have k12 : Keeps o s6 := keeps_setState h
    have k13 : Keeps o s7 := keeps_setStream k12
    have k14 : Keeps o s8 := keeps_kvBack k13
    have k15 : Keeps o s9 := keeps_lpNarrowPut k14
    have k16 : Keeps o s10 := keeps_setErrLog k15
    have k17 : Keeps o s11 := keeps_tallyLeave (keeps_puntyRetire k16)
    clear_value s6 s7 s8 s9 s10 s11
    exact keeps_leaveSweeps k17

theorem keeps_gafRead {o s : State} (h : Keeps o s) {e : Nat} {a : Nat} {n : Nat} :
    Keeps o (State.gafRead s e a n) := by
  unfold State.gafRead
  split
  · rename_i y1 y2 y3 e4
    have k5 : Keeps o y3 := Keeps2.of_eq e4 (keeps_devRead h)
    exact keeps_ite (keeps_streamFault k5) k5

theorem keeps_imageFault {o s : State} (h : Keeps o s) {id : Nat} {code : Nat} :
    Keeps o (State.imageFault s id code) := by
  unfold State.imageFault
  exact keeps_foldl h (fun x1 x2 k3 => keeps_streamFault k3)

theorem keeps_rollback {o s : State} (h : Keeps o s) {e : Nat} :
    Keeps o (State.rollback s e) := by
  unfold State.rollback
  split
  · rename_i y1 e2
    exact h
  · rename_i y3 y4 e5
    extract_lets v6 s7
    have k8 : Keeps o s7 := keeps_setStream h
    clear_value v6 s7
    exact keeps_evtDev (keeps_leaveSweeps (keeps_kvBack k8))

theorem keeps_discardChunks {o s : State} (h : Keeps o s) {e : Nat} :
    Keeps o (State.discardChunks s e) := by
  unfold State.discardChunks
  exact keeps_leaveSweeps (keeps_kvBack (keeps_setStream h))

theorem keeps_settleOne {o s : State} (h : Keeps o s) {e : Nat} :
    Keeps o (State.settleOne s e) := by
  unfold State.settleOne
  split
  · rename_i y1 e2
    exact h
  · rename_i y3 y4 e5
    refine keeps_ite ?_ ?_
    · refine keeps_ite h ?_
      extract_lets s6
      have k7 : Keeps o s6 := keeps_ite h (keeps_discardChunks h)
      clear_value s6
      exact keeps_ite k7 (keeps_toIdle k7)
    · exact keeps_ite (keeps_ite (keeps_toIdle h) h) (keeps_ite (keeps_ite (keeps_silence (keeps_setState (keeps_setStream h))) h) h)

theorem keeps_settle {o s : State} (h : Keeps o s) :
    Keeps o (State.settle s) := by
  unfold State.settle
  exact keeps_foldl h (fun x1 x2 k3 => keeps_settleOne k3)

theorem keeps_replayPut {o s : State} (h : Keeps o s) {t : Stream} {a : Nat} {bs : List Byte} :
    Keeps o (State.replayPut s t a bs) := by
  unfold State.replayPut
  refine keeps_ite (keeps_lpNarrowPut h) ?_
  extract_lets v1
  clear_value v1
  exact keeps_streamFault (keeps_unmappedErr h)

theorem keeps_writeInput {o s : State} (h : Keeps o s) {t : Stream} {j : Nat} {pos : Nat} {first : Nat} {fs : List (List Nat)} :
    Keeps o (State.writeInput s t j pos first fs) := by
  unfold State.writeInput
  split
  · rename_i y1 e2
    exact keeps_streamFault h
  · rename_i y3 y4 e5
    extract_lets v6 v7 v8 v9 v10 s11 s12
    have k13 : Keeps o s11 := keeps_ite h (keeps_narrowWrite h)
    have k14 : Keeps o s12 := keeps_ite k13 (keeps_narrowWrite k13)
    clear_value v6 v7 v8 v9 v10 s11 s12
    exact keeps_ite k14 (keeps_foldl k14 (fun x15 x16 k17 => keeps_replayPut k17))

theorem keeps_flushHeld {o s : State} (h : Keeps o s) {e : Nat} {j : Nat} {first : Nat} {len : Nat} {all : Bool} :
    Keeps o (State.flushHeld s e j first len all) := by
  unfold State.flushHeld
  split
  · rename_i y1 e2
    exact h
  · rename_i y3 y4 e5
    extract_lets v6 s7
    have k8 : Keeps o s7 := keeps_foldl h (fun x9 x10 k11 => keeps_writeInput k11)
    clear_value v6 s7
    exact keeps_ite k8 (keeps_setStream k8)

theorem keeps_mirrorInput {o s : State} (h : Keeps o s) {t : Stream} {first : Nat} {fs : List (List Nat)} :
    Keeps o (State.mirrorInput s t first fs) := by
  unfold State.mirrorInput
  refine keeps_ite h ?_
  extract_lets v1 v2
  clear_value v1 v2
  exact keeps_addBuiltIn h

theorem keeps_mirrorStamp {o s : State} (h : Keeps o s) {t : Stream} {j : Nat} {tr : Nat} :
    Keeps o (State.mirrorStamp s t j tr) := by
  unfold State.mirrorStamp
  refine keeps_ite h ?_
  extract_lets v1
  clear_value v1
  exact keeps_addBuiltIn h

theorem keeps_pausedOut {o s : State} (h : Keeps o s) {t : Stream} {c : Chunk} :
    Keeps o (State.pausedOut s t c) := by
  unfold State.pausedOut
  extract_lets v1
  clear_value v1
  split
  · rename_i y2 e3
    exact keeps_sendUnits h
  · rename_i y4 e5
    exact keeps_ite (keeps_sendChunk h) h
  · rename_i y6 y7 y8
    exact h

theorem keeps_chunkDone {o s : State} (h : Keeps o s) {e : Nat} {tr : Nat} :
    Keeps o (State.chunkDone s e tr) := by
  unfold State.chunkDone
  split
  · rename_i y1 e2
    exact h
  · rename_i y3 y4 e5
    extract_lets v6 v7 v8 s9
    have k10 : Keeps o s9 := keeps_setStream h
    clear_value v6 v7 v8 s9
    exact keeps_ite (keeps_mirrorStamp k10) (keeps_ite (keeps_pausedOut k10) k10)

theorem keeps_landRun {o s : State} (h : Keeps o s) {e stamp : Nat} {n : Nat} {fs : List (List Nat)} :
    Keeps o (State.landRun s e stamp n fs) := by
  induction n generalizing s fs with
  | zero => exact h
  | succ n ih =>
    cases fs with
    | nil => exact h
    | cons f fs =>
      unfold State.landRun
      split
      · exact h
      · refine keeps_ite (keeps_setStream h) ?_
        extract_lets s1 t len part at0 s2 tail s3 s4
        have k1 : Keeps o s1 := keeps_ite (keeps_setStream h) h
        have k2 : Keeps o s2 := keeps_ite k1 (keeps_mirrorInput (keeps_writeInput k1))
        have k4 : Keeps o s4 := keeps_ite (keeps_chunkDone (keeps_setStream k2)) (keeps_setStream k2)
        exact keeps_ite k1 (keeps_ite (keeps_setStream k1) (ih k4))

theorem keeps_fillMissing {o s : State} (h : Keeps o s) {e : Nat} :
    Keeps o (State.fillMissing s e) := by
  unfold State.fillMissing
  split
  · rename_i y1 e2
    exact h
  · rename_i y3 y4 e5
    refine keeps_ite h ?_
    extract_lets v6
    clear_value v6
    exact keeps_foldl (keeps_setStream h) (fun x7 x8 k9 => keeps_landRun k9)

theorem keeps_landBlock {o s : State} (h : Keeps o s) {e : Nat} {stamp : Nat} {starts : Bool} {fs : List (List Nat)} :
    Keeps o (State.landBlock s e stamp starts fs) := by
  unfold State.landBlock
  split
  · rename_i y1 e2
    exact h
  · rename_i y3 y4 e5
    refine keeps_ite ?_ (keeps_ite (keeps_landRun (keeps_fillMissing h)) h)
    refine keeps_ite ?_ h
    extract_lets s6
    have k7 : Keeps o s6 := keeps_setStream h
    clear_value s6
    exact keeps_landRun (keeps_setState k7)

theorem keeps_kvArm {o s : State} (h : Keeps o s) {e : Nat} :
    Keeps o (State.kvArm s e) := by
  unfold State.kvArm
  split
  · rename_i y1 e2
    exact h
  · rename_i y3 y4 e5
    split
    · rename_i y6 e7
      exact h
    · rename_i y8 y9 e10
      refine keeps_ite h ?_
      extract_lets v11 v12 v13 v14 s15 s16 s17 s18
      have k19 : Keeps o s15 := keeps_lpNarrowPut h
      have k20 : Keeps o s16 := keeps_lpNarrowPut k19
      have k21 : Keeps o s17 := keeps_lpNarrowPut k20
      have k22 : Keeps o s18 := keeps_setStream k21
      clear_value v11 v12 v13 v14 s15 s16 s17 s18
      exact keeps_setImage k22

theorem keeps_kvPut {o s : State} (h : Keeps o s) {m : Image} {t : Stream} {l : Nat} {p : KvPage} {tokens : Nat} {parts : List (Nat × List Byte)} :
    Keeps o (State.kvPut s m t l p tokens parts) := by
  unfold State.kvPut
  refine keeps_ite h ?_
  refine keeps_ite (keeps_foldl h (fun x1 x2 k3 => keeps_arrPut k3)) ?_
  extract_lets v4 s5
  have k6 : Keeps o s5 := keeps_addBuiltIn h
  clear_value v4 s5
  split
  · rename_i y7 e8
    exact k6
  · rename_i y9 y10 e11
    extract_lets v12 v13 s14
    have k15 : Keeps o s14 := keeps_ite (keeps_mk k6) (keeps_foldl k6 (fun x16 x17 k18 => keeps_arrPut k18))
    clear_value v12 v13 s14
    exact keeps_setImage k15

theorem keeps_kvToken {o s : State} (h : Keeps o s) {m : Image} {t : Stream} {l : Nat} {p : KvPage} {opened : Bool} {pos : Nat} {j : Nat} {keys : List (List Nat)} {vals : List (List Nat)} :
    Keeps o (State.kvToken s m t l p opened pos j keys vals) := by
  unfold State.kvToken
  extract_lets v1 v2 v3 v4 s5 s6
  have k7 : Keeps o s5 := keeps_count h
  have k8 : Keeps o s6 := keeps_kvPut k7
  clear_value v1 v2 v3 v4 s5 s6
  exact keeps_setStream k8

theorem keeps_kvOpen {o s : State} (h : Keeps o s) {m : Image} {t : Stream} {l : Nat} {pos : Nat} {j : Nat} {keys : List (List Nat)} {vals : List (List Nat)} :
    KeepsOpt o (State.kvOpen s m t l pos j keys vals) := by
  unfold State.kvOpen
  extract_lets v1 v2 v3 v4 s5 v6 v7 v8 v9 v10 v11 v12 v13 s14 v15
  have k16 : Keeps o s5 := keeps_setStream h
  have k17 : Keeps o s14 := by
    refine keeps_ite ?_ k16
    split
    · rename_i y18 e19
      exact k16
    · rename_i y20 y21 e22
      exact keeps_setImage k16
  clear_value v1 v2 v3 v4 s5 v6 v7 v8 v9 v10 v11 v12 v13 s14 v15
  exact KeepsOpt.ite KeepsOpt.none (KeepsOpt.some (keeps_kvToken k17))

theorem keeps_kvAppend {o s : State} (h : Keeps o s) {image : Nat} {e : Nat} {l : Nat} {pos : Nat} {j : Nat} {keys : List (List Nat)} {vals : List (List Nat)} :
    KeepsOpt o (State.kvAppend s image e l pos j keys vals) := by
  unfold State.kvAppend
  split
  · rename_i y1 y2 y3 y4 e5 e6
    extract_lets v7 v8
    clear_value v7 v8
    split
    · rename_i y9 y10 e11
      exact KeepsOpt.ite (KeepsOpt.some (keeps_kvToken h)) (keeps_kvOpen h)
    · rename_i y12 e13
      exact keeps_kvOpen h
  · rename_i y14 y15 y16
    exact KeepsOpt.some h

theorem keeps_kvAppendAll {o s : State} (h : Keeps o s) {image : Nat} {e : Nat} {l : Nat} {j : Nat} {a5 : List (Nat × List (List Nat) × List (List Nat))} :
    KeepsOpt o (State.kvAppendAll s image e l j a5) := by
  induction a5 generalizing s image e l j with
  | nil =>
    unfold State.kvAppendAll
    exact KeepsOpt.some h
  | cons w0 w1 ih =>
    unfold State.kvAppendAll
    split
    · rename_i y1 e2
      exact KeepsOpt.none
    · rename_i y3 y4 e5
      have k6 : Keeps o y4 := KeepsOpt.of_eq e5 (keeps_kvAppend h)
      exact ih k6

theorem keeps_kvStage {o s : State} (h : Keeps o s) {m : Image} {l : Nat} {es : List Nat} :
    Keeps1 o (State.kvStage s m l es) := by
  unfold State.kvStage
  extract_lets v1 v2 v3 s4 s5
  have k6 : Keeps o s4 := keeps_setImage h
  have k7 : Keeps o s5 := by
    refine keeps_foldl k6 ?_
    intro x8 x9 k10
    split
    · rename_i y11 e12
      exact k10
    · rename_i y13 y14 e15
      refine keeps_ite k10 ?_
      extract_lets v16 v17
      clear_value v16 v17
      exact keeps_count (keeps_addBuiltIn k10)
  clear_value v1 v2 v3 s4 s5
  exact Keeps1.mk k7

theorem keeps_kvRestore {o s : State} (h : Keeps o s) {image : Nat} {e : Nat} {l : Nat} {a4 : List (List (List Nat) × List (List Nat))} :
    Keeps o (State.kvRestore s image e l a4) := by
  induction a4 generalizing s image e l with
  | nil =>
    unfold State.kvRestore
    exact h
  | cons w0 w1 ih =>
    unfold State.kvRestore
    split
    · rename_i y1 y2 y3 y4 e5 e6
      extract_lets v7 v8 v9
      clear_value v7 v8 v9
      split
      · rename_i y10 e11
        exact h
      · rename_i y12 y13 e14
        split
        · rename_i y15 e16
          exact h
        · rename_i y17 y18 e19
          extract_lets v20 v21 v22 s23 v24 v25 v26 s27 s28 s29
          have k30 : Keeps o s23 := keeps_count h
          have k31 : Keeps o s27 := keeps_foldl k30 (fun x32 x33 k34 => keeps_arrPut k34)
          have k35 : Keeps o s28 := keeps_setStream k31
          have k36 : Keeps o s29 := keeps_setImage k35
          clear_value v20 v21 v22 s23 v24 v25 v26 s27 s28 s29
          exact ih k36
    · rename_i y37 y38 y39
      exact h

theorem keeps_kvCommit {o s : State} (h : Keeps o s) {e : Nat} {j : Nat} {mark : Option Nat} :
    Keeps o (State.kvCommit s e j mark) := by
  unfold State.kvCommit
  split
  · rename_i y1 e2
    exact h
  · rename_i y3 y4 e5
    split
    · rename_i y6 e7
      exact h
    · rename_i y8 y9 e10
      refine keeps_ite h ?_
      extract_lets v11 v12 v13 v14 v15 v16 v17 s18 s19 v20
      have k21 : Keeps o s18 := keeps_setStream h
      have k22 : Keeps o s19 := keeps_count k21
      clear_value v11 v12 v13 v14 v15 v16 v17 s18 s19 v20
      exact keeps_addBuiltIn k22

theorem keeps_carryIn {o s : State} (h : Keeps o s) {m : Image} {e : Nat} {j : Nat} :
    Keeps o (State.carryIn s m e j) := by
  unfold State.carryIn
  split
  · rename_i y1 e2
    exact h
  · rename_i y3 y4 e5
    refine keeps_ite h ?_
    split
    · rename_i y6 y7 y8 y9 y10 y11 e12 e13
      extract_lets s14 s15
      have k16 : Keeps o s14 := keeps_arrCopy h
      have k17 : Keeps o s15 := keeps_arrPut k16
      clear_value s14 s15
      exact keeps_setStream k17
    · rename_i y18 y19 y20
      exact h

theorem keeps_touchSec {o s : State} (h : Keeps o s) {m : Image} {e : Nat} {j : Nat} {sec : Nat} {marked : Bool} :
    Keeps o (State.touchSec s m e j sec marked) := by
  unfold State.touchSec
  extract_lets s1 v2
  have k3 : Keeps o s1 := keeps_carryIn h
  have k4 : ∀ (x5 : State), Keeps o x5 → Keeps o (v2 x5) := fun x5 k6 => keeps_setStream k6
  clear_value s1 v2
  split
  · rename_i y7 e8
    exact k3
  · rename_i y9 y10 e11
    split
    · rename_i y12 e13
      exact k3
    · rename_i y14 y15 e16
      refine keeps_ite (k4 _ k3) ?_
      split
      · rename_i y17 y18 y19 y20 y21 y22 e23 e24
        extract_lets v25
        clear_value v25
        exact k4 _ (keeps_arrCopy k3)
      · rename_i y26 y27 y28
        exact k4 _ k3

theorem keeps_carryAll {o s : State} (h : Keeps o s) {m : Image} {e : Nat} {j : Nat} :
    Keeps o (State.carryAll s m e j) := by
  unfold State.carryAll
  exact keeps_foldl (keeps_carryIn h) (fun x1 x2 k3 => keeps_touchSec k3)

theorem keeps_putSecs {o s : State} (h : Keeps o s) {a : Nat} {secs : List Nat} {bs : List Byte} :
    Keeps o (State.putSecs s a secs bs) := by
  unfold State.putSecs
  refine keeps_foldl h ?_
  intro x1 x2 k3
  extract_lets v4
  clear_value v4
  exact keeps_arrPut k3

theorem keeps_exitMark {o s : State} (h : Keeps o s) {m : Image} {e : Nat} {j : Nat} :
    Keeps o (State.exitMark s m e j) := by
  unfold State.exitMark
  extract_lets s1
  have k2 : Keeps o s1 := keeps_carryAll h
  clear_value s1
  split
  · rename_i y3 e4
    exact k2
  · rename_i y5 y6 e7
    split
    · rename_i y8 y9 y10 y11 y12 e13 e14
      exact keeps_ite k2 (keeps_putSecs k2)
    · rename_i y15 y16 y17
      exact k2

theorem keeps_carryOver {o s : State} (h : Keeps o s) {m : Image} {e : Nat} {j : Nat} :
    Keeps o (State.carryOver s m e j) := by
  unfold State.carryOver
  split
  · rename_i y1 e2
    exact h
  · rename_i y3 y4 e5
    refine keeps_ite h ?_
    split
    · rename_i y6 y7 y8 y9 y10 y11 e12 e13
      exact keeps_ite h (keeps_arrCopy h)
    · rename_i y14 y15 y16
      exact h

theorem keeps_puntyMiss {o s : State} (h : Keeps o s) {e : Nat} :
    Keeps o (State.puntyMiss s e) := by
  unfold State.puntyMiss
  extract_lets s1 s2
  have k3 : Keeps o s1 := keeps_setStream h
  have k4 : Keeps o s2 := by
    unfold s2
    split
    · rename_i y5 y6 e7
      exact keeps_storePunty k3
    · rename_i y8 e9
      exact k3
  clear_value s1 s2
  exact keeps_syncProtected (keeps_setErr (keeps_count k4))

theorem keeps_puntyLeft {o s : State} (h : Keeps o s) {e : Nat} {chunk : Option Nat} :
    Keeps o (State.puntyLeft s e chunk) := by
  unfold State.puntyLeft
  extract_lets v1 s2
  have k3 : Keeps o s2 := keeps_ite h (keeps_lpNarrowPut h)
  clear_value v1 s2
  split
  · rename_i y4 y5
    extract_lets s6
    have k7 : Keeps o s6 := keeps_ite h (keeps_lpNarrowPut (keeps_lpNarrowPut h))
    clear_value s6
    exact keeps_count k7
  · rename_i y8
    exact keeps_setErr (keeps_count k3)

theorem keeps_puntyPage {o s : State} (h : Keeps o s) {m : Image} {t : Stream} {l : Nat} {p : KvPage} {sent : Nat} :
    Keeps2 o (State.puntyPage s m t l p sent) := by
  unfold State.puntyPage
  extract_lets v1
  clear_value v1
  refine keeps_foldl2 (Keeps2.mk h) ?_
  intro x2 x3 k4
  refine Keeps2.ite ?_ ?_
  · extract_lets s5
    have k6 : Keeps2 o s5 := keeps_narrowRead k4.get
    clear_value s5
    exact Keeps2.mk k6.get
  · extract_lets v7
    clear_value v7
    exact Keeps2.mk (keeps_bulkRead k4.get)

theorem keeps_puntyStart {o s : State} (h : Keeps o s) {e : Nat} :
    Keeps o (State.puntyStart s e) := by
  unfold State.puntyStart
  split
  · rename_i y1 e2
    exact h
  · rename_i y3 y4 e5
    split
    · rename_i y6 y7 y8 y9 y10 e11 e12
      refine keeps_ite h ?_
      extract_lets v13 v14 v15 v16 v17 v18 v19 v20 v21
      clear_value v13 v14 v15 v16 v17 v18 v19 v20 v21
      split
      · rename_i y22 y23 y24 e25
        have k26 : Keeps o y24 := by
          refine Keeps2.of_eq e25 ?_
          refine keeps_foldl2 (Keeps2.mk h) ?_
          intro x27 x28 k29
          extract_lets s30
          have k31 : Keeps2 o s30 := keeps_puntyPage k29.get
          clear_value s30
          exact Keeps2.mk k31.get
        extract_lets v32 s33 s34 v35 v36 v37 s38
        have k39 : Keeps o s33 := keeps_bulkRead k26
        have k40 : Keeps o s34 := keeps_ite k39 (keeps_bulkRead k39)
        have k41 : Keeps o s38 := keeps_addBuiltIn k40
        clear_value v32 s33 s34 v35 v36 v37 s38
        exact keeps_setStream k41
    · rename_i y42 y43 y44
      exact h

theorem keeps_puntyDone {o s : State} (h : Keeps o s) {e : Nat} {j : Nat} :
    Keeps o (State.puntyDone s e j) := by
  unfold State.puntyDone
  split
  · rename_i y1 e2
    exact keeps_puntyLeft h
  · rename_i y3 y4 e5
    refine keeps_ite (keeps_puntyLeft h) ?_
    extract_lets s6 s7
    have k8 : Keeps o s6 := keeps_setStream h
    have k9 : Keeps o s7 := by
      unfold s7
      split
      · rename_i y10 y11 e12
        exact keeps_storePunty k8
      · rename_i y13 e14
        exact k8
    clear_value s6 s7
    exact keeps_puntyStart (keeps_syncProtected (keeps_count k9))

theorem keeps_puntyRefused {o s : State} (h : Keeps o s) {e : Nat} {j : Nat} {late : Bool} :
    Keeps o (State.puntyRefused s e j late) := by
  unfold State.puntyRefused
  extract_lets s1
  have k2 : Keeps o s1 := keeps_ite h (keeps_puntyLeft h)
  clear_value s1
  split
  · rename_i y3 e4
    exact k2
  · rename_i y5 y6 e7
    refine keeps_ite k2 ?_
    extract_lets s8 s9
    have k10 : Keeps o s8 := keeps_ite h (keeps_puntyMiss h)
    have k11 : Keeps o s9 := keeps_mk k10
    clear_value s8 s9
    exact keeps_setStream k11

theorem keeps_puntyCommit {o s : State} (h : Keeps o s) {e : Nat} {j : Nat} {next : Nat} :
    Keeps o (State.puntyCommit s e j next) := by
  unfold State.puntyCommit
  split
  · rename_i y1 e2
    exact h
  · rename_i y3 y4 e5
    refine keeps_ite h ?_
    extract_lets v6 s7 s8
    have k9 : Keeps o s7 := keeps_setStream (keeps_puntyMiss h)
    have k10 : Keeps o s8 := keeps_ite (keeps_mk k9) h
    clear_value v6 s7 s8
    exact keeps_ite k10 (keeps_ite (keeps_puntyMiss k10) (keeps_puntyStart (keeps_setStream k10)))

theorem keeps_puntyTurn {o s : State} (h : Keeps o s) {e : Nat} :
    Keeps o (State.puntyTurn s e) := by
  unfold State.puntyTurn
  split
  · rename_i y1 e2
    exact h
  · rename_i y3 y4 e5
    extract_lets v6 s7 s8
    have k9 : Keeps o s7 := keeps_ite (keeps_puntyMiss h) h
    have k10 : Keeps o s8 := keeps_mk k9
    clear_value v6 s7 s8
    exact keeps_setStream k10

theorem keeps_loadFailStop {o s : State} (h : Keeps o s) {cause : Nat} {bench : Nat} :
    Keeps o (State.loadFailStop s cause bench) := by
  unfold State.loadFailStop
  extract_lets s1 s2 s3
  have k4 : Keeps o s1 := keeps_wr h
  have k5 : Keeps o s2 := keeps_wr k4
  have k6 : Keeps o s3 := keeps_wr k5
  clear_value s1 s2 s3
  exact keeps_wr (keeps_wr k6)

theorem keeps_stopDevice {o s : State} (h : Keeps o s) {cause : Nat} :
    Keeps o (State.stopDevice s cause) := by
  unfold State.stopDevice
  extract_lets v1 s2 s3 s4 s5 s6 s7 s8 s9 s10 s11 v12 s13 s14 s15 v16 v17 s18
  have k19 : Keeps o s2 := keeps_mk h
  have k20 : Keeps o s3 := keeps_wr k19
  have k21 : Keeps o s4 := keeps_wr k20
  have k22 : Keeps o s5 := keeps_wr k21
  have k23 : Keeps o s6 := keeps_wr k22
  have k24 : Keeps o s7 := keeps_wr k23
  have k25 : Keeps o s8 := keeps_closeWindow k24
  have k26 : Keeps o s9 := keeps_foldl k25 (fun x27 x28 k29 => keeps_put (keeps_wr k29))
  have k30 : Keeps o s10 := keeps_foldl k26 (fun x31 x32 k33 => keeps_wr k33)
  have k34 : Keeps o s11 := by
    refine keeps_foldl k30 ?_
    intro x35 x36 k37
    refine keeps_ite k37 ?_
    extract_lets s38 s39
    have k40 : Keeps o s38 := keeps_put k37
    have k41 : Keeps o s39 := keeps_wr (keeps_wr k40)
    clear_value s38 s39
    exact keeps_setPort k41
  have k42 : Keeps o s13 := keeps_mk k34
  have k43 : Keeps o s14 := keeps_wr k42
  have k44 : Keeps o s15 := keeps_logAdd k43
  have k45 : Keeps o s18 := keeps_mk k44
  clear_value s2 s3 s4 s5 s6 s7 s8 s9 s10 s11 s13 s14 s15 s18
  exact keeps_closeEarly (keeps_setDomains k45)

theorem keeps_failStop {o s : State} (h : Keeps o s) {cause : Nat} {bench : Nat} :
    Keeps o (State.failStop s cause bench) := by
  unfold State.failStop
  refine keeps_ite ?_ (keeps_stopDevice (keeps_loadFailStop h))
  refine keeps_ite ?_ h
  extract_lets s1 v2
  have k3 : Keeps o s1 := keeps_loadFailStop h
  clear_value s1
  exact keeps_mk k3

theorem keeps_revertWord {o s : State} (h : Keeps o s) {a : Nat} :
    Keeps o (State.revertWord s a) := by
  unfold State.revertWord
  exact keeps_setWord h

theorem keeps_revertRange {o s : State} (h : Keeps o s) {lo : Nat} {n : Nat} :
    Keeps o (State.revertRange s lo n) := by
  unfold State.revertRange
  exact keeps_foldl h (fun x1 x2 k3 => keeps_ite k3 (keeps_revertWord k3))

theorem keeps_revertPage {o s : State} (h : Keeps o s) {k : PageKind} {inst : Nat} :
    Keeps o (State.revertPage s k inst) := by
  unfold State.revertPage
  extract_lets s1 v2
  have k3 : Keeps o s1 := keeps_revertRange h
  clear_value s1
  exact keeps_ite (keeps_mk k3) k3

theorem keeps_syncStaged {o s : State} (h : Keeps o s) :
    Keeps o (State.syncStaged s) := by
  unfold State.syncStaged
  extract_lets s1
  have k2 : Keeps o s1 := keeps_wr h
  clear_value s1
  exact keeps_wr k2

theorem keeps_unstageEntries {o s : State} (h : Keeps o s) :
    Keeps o (State.unstageEntries s) := by
  unfold State.unstageEntries
  extract_lets s1 v2
  have k3 : Keeps o s1 := keeps_ite (keeps_foldl h (fun x4 x5 k6 => keeps_lpNarrowPut k6)) h
  clear_value s1
  exact keeps_syncStaged (keeps_mk k3)

theorem keeps_setParState {o s : State} (h : Keeps o s) {v : Nat} :
    Keeps o (State.setParState s v) := by
  unfold State.setParState
  exact keeps_wr h

theorem keeps_setCode {o s : State} (h : Keeps o s) {v : Nat} :
    Keeps o (State.setCode s v) := by
  unfold State.setCode
  exact keeps_wr h

theorem keeps_staging {o s : State} (h : Keeps o s) :
    Keeps o (State.staging s) := by
  unfold State.staging
  exact keeps_ite (keeps_setParState (keeps_mk h)) (keeps_setParState h)

theorem keeps_instantCome {o s : State} (h : Keeps o s) :
    Keeps o (State.instantCome s) := by
  unfold State.instantCome
  exact keeps_mk h

theorem keeps_parWatch {o s : State} (h : Keeps o s) :
    Keeps o (State.parWatch s) := by
  unfold State.parWatch
  exact keeps_ite (keeps_ite (keeps_mk h) (keeps_mk h)) h

theorem keeps_settleWatch {o s : State} (h : Keeps o s) :
    Keeps o (State.settleWatch s) := by
  unfold State.settleWatch
  exact keeps_parWatch (keeps_settle h)

theorem keeps_abandonAll {o s : State} (h : Keeps o s) :
    Keeps o (State.abandonAll s) := by
  unfold State.abandonAll
  extract_lets s1 v2 s3 s4
  have k5 : Keeps o s1 := keeps_revertRange h
  have k6 : Keeps o s3 := keeps_mk k5
  have k7 : Keeps o s4 := keeps_unstageEntries k6
  clear_value s1 s3 s4
  exact keeps_setParState (keeps_setClaims (keeps_mk k7))

theorem keeps_reopen {o s : State} (h : Keeps o s) {code : Nat} {kind : Nat} {where_ : Nat} :
    Keeps o (State.reopen s code kind where_) := by
  unfold State.reopen
  extract_lets v1 s2 s3 s4 s5
  have k6 : Keeps o s2 := keeps_mk h
  have k7 : Keeps o s3 := keeps_setCode (keeps_setParState k6)
  have k8 : Keeps o s4 := keeps_wr k7
  have k9 : Keeps o s5 := keeps_wr k8
  clear_value s2 s3 s4 s5
  exact keeps_wr k9

end Sys2Proof.Machine
end

