-- ==== Sys2Proof/Laws/KeepsResets.lean ====
section
/-! SUPPORT. The functions of Machine/Resets.lean, Machine/Damper.lean, Machine/Commit.lean, Machine/Emit.lean keep the queue, the canonical form and the fixed sets of units. -/
namespace Sys2Proof.Machine
open Sys2Proof

set_option Elab.async false

theorem keeps_clearClasses {o s : State} (h : Keeps o s) {pages : PageKind → Nat → Bool} {clears : Cls → Bool} :
    Keeps o (State.clearClasses s pages clears) := by
  refine keeps_maps h (fun w => ?_) id id id
  rw [sparseWf_iff] at w ⊢
  constructor
  · refine List.pairwise_filterMap.2 (w.1.imp fun {x y} hxy b hb c hc => ?_)
    have key {e e' : Nat × Word} (he : (match pageOf e.1 with
        | none => some e
        | some (k, inst) =>
          if pages k inst then
            let w := clearedWord clears e.1 e.2
            if w = resetWord e.1 then none else some (e.1, w)
          else some e) = some e') : e'.1 = e.1 := by
      split at he
      · cases he; rfl
      · split at he
        · dsimp only at he
          split at he
          · exact nomatch he
          · cases he; rfl
        · cases he; rfl
    rw [key hb, key hc]
    exact hxy
  · intro e' he
    obtain ⟨e, hm, he⟩ := List.mem_filterMap.1 he
    split at he
    · exact Option.some.inj he ▸ w.2 e hm
    · split at he
      · dsimp only at he
        split at he
        · exact nomatch he
        · rename_i hne
          exact Option.some.inj he ▸ hne
      · exact Option.some.inj he ▸ w.2 e hm

theorem keeps_logReset {o s : State} (h : Keeps o s) {code : Nat} {d0 : Nat} :
    Keeps o (State.logReset s code d0) := by
  unfold State.logReset
  exact keeps_logAdd (keeps_wr h)

theorem keeps_abandonForReset {o s : State} (h : Keeps o s) {code : Nat} {clear : State → State} (hclear : ∀ x0, Keeps o x0 → Keeps o (clear x0)) :
    Keeps o (State.abandonForReset s code clear) := by
  unfold State.abandonForReset
  exact keeps_setCode (keeps_setParState (hclear _ (keeps_abandonAll h)))

theorem keeps_aptHalt {o s : State} (h : Keeps o s) {p : Nat} :
    Keeps o (State.aptHalt s p) := by
  unfold State.aptHalt
  extract_lets v1 s2
  have k3 : Keeps o s2 := keeps_beginStop h
  clear_value v1 s2
  exact keeps_ite (keeps_foldl k3 (fun x4 x5 k6 => keeps_resend k6)) h

theorem keeps_syncDomains {o s : State} (h : Keeps o s) :
    Keeps o (State.syncDomains s) := by
  unfold State.syncDomains
  refine keeps_ite h ?_
  extract_lets v1 v2 v3 v4 v5
  clear_value v1 v2 v3 v4
  exact keeps_setDomains (keeps_mk h)

theorem keeps_clearSoftM {o s : State} (h : Keeps o s) :
    Keeps o (State.clearSoftM s) := by
  unfold State.clearSoftM
  exact keeps_clearM (keeps_clearM (keeps_clearM h))

theorem keeps_watchAllErr {o s : State} (h : Keeps o s) {f : State → State} (hf : ∀ x0, Keeps o x0 → Keeps o (f x0)) :
    Keeps o (State.watchAllErr s f) := by
  unfold State.watchAllErr
  extract_lets s1
  have k2 : Keeps o s1 := hf _ h
  clear_value s1
  exact keeps_foldl k2 (fun x3 x4 k5 => keeps_foldl k5 (fun x6 x7 k8 => keeps_ite (keeps_logAdd k8) k8))

theorem keeps_resetCore {o s : State} (h : Keeps o s) {kind : Nat} : Keeps o (State.resetCore s kind) := by
  unfold State.resetCore
  extract_lets code stopping s1 old s2 s3 s4 s5 gaf fo sec pow s6 s7
  have k1 : Keeps o s1 := keeps_foldl h fun t x k => keeps_toIdle (keeps_discardChunks k)
  have k2 : Keeps o s2 := keeps_mk (keeps_foldl k1 fun t x k => keeps_unloadImage k)
  have k3 : Keeps o s3 := keeps_foldl k2 fun t x k => keeps_aptHalt k
  have k4 : Keeps o s4 := keeps_abandonForReset k3 fun t k => keeps_watchAllErr k fun t k => keeps_clearClasses k
  have k5 : Keeps o s5 := keeps_foldl k4 fun t x k => keeps_wr k
  clear_value s5 s4 s3 s2 old s1 stopping code
  have k6 : Keeps o s6 := by
    refine ⟨k5.pending, k5.canonical, fun w => ?_⟩
    have k := k5.units w
    simp only [State.unitsWhole, Bool.and_eq_true, beq_iff_eq] at k ⊢
    exact ⟨⟨⟨⟨k.1.1.1.1, rfl⟩, rfl⟩, k.1.2⟩, k.2⟩
  exact keeps_logReset (keeps_syncTally (keeps_syncDomains (keeps_syncStore (keeps_syncSpad (keeps_clearSoftM k6)))))

theorem keeps_toD3 {o s : State} (h : Keeps o s) :
    Keeps o (State.toD3 s) := by
  unfold State.toD3
  extract_lets v1 s2
  have k3 : Keeps o s2 := keeps_setDomains (keeps_mk h)
  clear_value s2
  exact keeps_wr k3

theorem keeps_resetNow {o s : State} (h : Keeps o s) {kind : Nat} :
    Keeps o (State.resetNow s kind) := by
  unfold State.resetNow
  extract_lets v1 s2
  have k3 : Keeps o s2 := keeps_resetCore h
  clear_value v1 s2
  exact keeps_ite (keeps_toD3 k3) k3

theorem keeps_startReset {o s : State} (h : Keeps o s) {kind : Nat} :
    Keeps o (State.startReset s kind) := by
  unfold State.startReset
  exact keeps_ite (keeps_mk h) (keeps_resetNow h)

theorem keeps_wipe {o s : State} (h : Keeps o s) : Keeps o (State.wipe s) := by
  unfold State.wipe
  refine keeps_foldl ⟨h.pending, fun w => ?_, fun w => ?_⟩ fun t x k => keeps_wr k
  · have k := h.canonical w
    simp only [State.canonical, Bool.and_eq_true] at k ⊢
    exact ⟨⟨⟨rfl, rfl⟩, rfl⟩, k.2⟩
  · have k := h.units w
    simp only [State.unitsWhole, Bool.and_eq_true, beq_iff_eq] at k ⊢
    exact ⟨⟨⟨⟨⟨⟨rfl, rfl⟩, rfl⟩, rfl⟩, rfl⟩, rfl⟩, k.2⟩

theorem keeps_coldCore {o s : State} (h : Keeps o s) : Keeps o (State.coldCore s) := by
  unfold State.coldCore
  extract_lets s1 s2 code s3 s4 s5 s6 old sec tly t
  have k2 : Keeps o s2 := keeps_closeEarly (keeps_closeWindow h)
  have k4 : Keeps o s4 := keeps_clearClasses (keeps_abandonAll k2)
  have k7 : Keeps o s6 := keeps_clearM (keeps_clearM (keeps_clearM (keeps_clearM (keeps_clearSoftM (keeps_setCode k4)))))
  clear_value s6 s5 s4 s3 code s2 s1
  have kt : Keeps o t := by
    refine ⟨k7.pending, fun w => ?_, fun w => ?_⟩
    · have k := k7.canonical w
      simp only [State.canonical, Bool.and_eq_true] at k ⊢
      exact ⟨⟨⟨k.1.1.1, rfl⟩, rfl⟩, k.2⟩
    · have k := k7.units w
      simp only [State.unitsWhole, Bool.and_eq_true, beq_iff_eq] at k ⊢
      exact ⟨⟨⟨⟨⟨⟨rfl, rfl⟩, rfl⟩, rfl⟩, rfl⟩, k.1.2⟩, k.2⟩
  exact keeps_syncTally (keeps_wr kt)

theorem keeps_abandonAtomics {o s : State} (h : Keeps o s) {image : Nat} :
    Keeps o (State.abandonAtomics s image) := by
  unfold State.abandonAtomics
  extract_lets v1 v2
  clear_value v1 v2
  exact keeps_foldl (keeps_mk h) (fun x3 x4 k5 => keeps_syncGth k5)

theorem keeps_killImage {o s : State} (h : Keeps o s) {image : Nat} :
    Keeps o (State.killImage s image) := by
  unfold State.killImage
  extract_lets s1 s2 s3 s4 s5 v6
  have k7 : Keeps o s1 := keeps_logReset h
  have k8 : Keeps o s2 := keeps_wr (keeps_wr k7)
  have k9 : Keeps o s3 := by
    refine keeps_ite ?_ k8
    split
    · rename_i y10 y11 e12
      exact keeps_reopen k8
    · rename_i y13 e14
      exact k8
  have k15 : Keeps o s4 := keeps_abandonAtomics k9
  have k16 : Keeps o s5 := keeps_setImage k15
  clear_value s1 s2 s3 s4 s5 v6
  exact keeps_settleWatch (keeps_foldl k16 (fun x17 x18 k19 => keeps_setStream k19))

theorem keeps_scrubDone {o s : State} (h : Keeps o s) {image : Nat} {region : Nat} :
    Keeps o (State.scrubDone s image region) := by
  unfold State.scrubDone
  refine keeps_ite h ?_
  extract_lets s1 v2 s3 s4
  have k5 : Keeps o s1 := keeps_releaseRegion h
  have k6 : Keeps o s3 := keeps_foldl k5 (fun x7 x8 k9 => keeps_ite (keeps_zeroLp k9) k9)
  have k10 : Keeps o s4 := keeps_mk k6
  clear_value s1 v2 s3 s4
  exact keeps_ite k5 (keeps_ite (keeps_wr k10) k10)

theorem keeps_execPowerOn {o s : State} (h : Keeps o s) :
    KeepsNext o (execPowerOn s) := by
  unfold execPowerOn
  exact KeepsNext.next (keeps_wipe (keeps_begin_ h))

theorem keeps_execPowerLoss {o s : State} (h : Keeps o s) :
    KeepsNext o (execPowerLoss s) := by
  unfold execPowerLoss
  extract_lets s1 v2
  have k3 : Keeps o s1 := keeps_wipe (keeps_begin_ h)
  clear_value s1
  exact KeepsNext.next (keeps_mk k3)

theorem keeps_execColdReset {o s : State} (h : Keeps o s) :
    KeepsNext o (execColdReset s) := by
  unfold execColdReset
  extract_lets s1
  have k2 : Keeps o s1 := keeps_begin_ h
  clear_value s1
  exact KeepsNext.next (keeps_ite (keeps_coldCore k2) k2)

theorem keeps_execHotReset {o s : State} (h : Keeps o s) :
    KeepsNext o (execHotReset s) := by
  unfold execHotReset
  extract_lets s1
  have k2 : Keeps o s1 := keeps_begin_ h
  clear_value s1
  exact KeepsNext.next (keeps_ite k2 (keeps_startReset k2))

theorem keeps_softResetWrite {o s : State} (h : Keeps o s) {word : Nat} :
    Keeps o (State.softResetWrite s word) := by
  unfold State.softResetWrite
  exact keeps_ite (keeps_badWrite h) (keeps_ite (keeps_startReset h) h)

theorem keeps_execSoftReset {o s : State} (h : Keeps o s) {word : Nat} :
    KeepsNext o (execSoftReset word s) := by
  unfold execSoftReset
  exact KeepsNext.next (keeps_gated (keeps_begin_ h) (fun x1 k2 => keeps_softResetWrite k2))

theorem keeps_benchResetWrite {o s : State} (h : Keeps o s) {word : Nat} :
    Keeps o (State.benchResetWrite s word) := by
  unfold State.benchResetWrite
  refine keeps_ite (keeps_badWrite h) ?_
  extract_lets v1 s2 s3
  have k4 : Keeps o s2 := keeps_clearClasses h
  have k5 : Keeps o s3 := keeps_mk k4
  clear_value v1 s2 s3
  exact keeps_logReset (keeps_setDomains k5)

theorem keeps_execBenchReset {o s : State} (h : Keeps o s) {word : Nat} :
    KeepsNext o (execBenchReset word s) := by
  unfold execBenchReset
  exact KeepsNext.next (keeps_gated (keeps_begin_ h) (fun x1 k2 => keeps_benchResetWrite k2))

theorem keeps_jobKillWrite {o s : State} (h : Keeps o s) {word : Nat} :
    Keeps o (State.jobKillWrite s word) := by
  unfold State.jobKillWrite
  exact keeps_ite (keeps_badWrite h) (keeps_ite (keeps_killImage h) h)

theorem keeps_execJobKill {o s : State} (h : Keeps o s) {word : Nat} :
    KeepsNext o (execJobKill word s) := by
  unfold execJobKill
  exact KeepsNext.next (keeps_gated (keeps_begin_ h) (fun x1 k2 => keeps_jobKillWrite k2))

theorem keeps_execScrubComplete {o s : State} (h : Keeps o s) {image : Nat} {region : Nat} :
    KeepsNext o (execScrubComplete image s region) := by
  unfold execScrubComplete
  extract_lets s1
  have k2 : Keeps o s1 := keeps_begin_ h
  clear_value s1
  exact KeepsNext.next (keeps_ite (keeps_scrubDone k2) k2)

theorem keeps_powerWrite {o s : State} (h : Keeps o s) {word : Nat} :
    Keeps o (State.powerWrite s word) := by
  unfold State.powerWrite
  extract_lets v1 s2
  have k3 : Keeps o s2 := keeps_wr h
  clear_value v1 s2
  exact keeps_ite (keeps_badWrite h) (keeps_ite (keeps_ite (keeps_wr k3) k3) (keeps_ite (keeps_ite (keeps_wr (keeps_wr h)) (keeps_badWrite h)) h))

theorem keeps_execDormantRequest {o s : State} (h : Keeps o s) {word : Nat} :
    KeepsNext o (execDormantRequest word s) := by
  unfold execDormantRequest
  exact KeepsNext.next (keeps_gated (keeps_begin_ h) (fun x1 k2 => keeps_powerWrite k2))

theorem keeps_execDormantEntered {o s : State} (h : Keeps o s) :
    KeepsNext o (execDormantEntered s) := by
  unfold execDormantEntered
  extract_lets s1 s2
  have k3 : Keeps o s1 := keeps_begin_ h
  have k4 : Keeps o s2 := keeps_clearClasses k3
  clear_value s1 s2
  exact KeepsNext.next (keeps_ite k3 (keeps_wr (keeps_setDomains k4)))

theorem keeps_execActiveReached {o s : State} (h : Keeps o s) :
    KeepsNext o (execActiveReached s) := by
  unfold execActiveReached
  extract_lets s1 v2
  have k3 : Keeps o s1 := keeps_begin_ h
  clear_value s1 v2
  exact KeepsNext.next (keeps_ite k3 (keeps_wr (keeps_setDomains k3)))

theorem keeps_execD3hotEnter {o s : State} (h : Keeps o s) :
    KeepsNext o (execD3hotEnter s) := by
  unfold execD3hotEnter
  extract_lets s1 s2 v3
  have k4 : Keeps o s1 := keeps_begin_ h
  have k5 : Keeps o s2 := keeps_setErr k4
  clear_value s1 s2
  exact KeepsNext.next (keeps_ite k4 (keeps_ite (keeps_toD3 k4) (keeps_startReset (keeps_mk k5))))

theorem keeps_execD0Return {o s : State} (h : Keeps o s) :
    KeepsNext o (execD0Return s) := by
  unfold execD0Return
  extract_lets s1
  have k2 : Keeps o s1 := keeps_begin_ h
  clear_value s1
  exact KeepsNext.next (keeps_ite k2 (keeps_wr (keeps_setDomains k2)))

theorem keeps_syncDamper {o s : State} (h : Keeps o s) :
    Keeps o (State.syncDamper s) := by
  unfold State.syncDamper
  extract_lets s1 s2 s3 s4 s5 v6 s7 s8
  have k9 : Keeps o s1 := keeps_syncDomains h
  have k10 : Keeps o s2 := keeps_wr k9
  have k11 : Keeps o s3 := keeps_wr k10
  have k12 : Keeps o s4 := keeps_wr k11
  have k13 : Keeps o s5 := keeps_wr k12
  have k14 : Keeps o s7 := keeps_wr k13
  have k15 : Keeps o s8 := keeps_wr k14
  clear_value s1 s2 s3 s4 s5 v6 s7 s8
  exact keeps_wr k15

theorem keeps_floorGuard {o s : State} (h : Keeps o s) {loss : Nat} {change : State → State} (hchange : ∀ x0, Keeps o x0 → Keeps o (change x0)) :
    Keeps o (State.floorGuard s loss change) := by
  unfold State.floorGuard
  exact keeps_ite (keeps_setErr (keeps_wr (keeps_count h))) (hchange _ h)

theorem keeps_setDivision {o s : State} (h : Keeps o s) {b : Nat} {code : Nat} :
    Keeps o (State.setDivision s b code) := by
  unfold State.setDivision
  exact keeps_count (keeps_mk h)

theorem keeps_gateBench {o s : State} (h : Keeps o s) {b : Nat} :
    Keeps o (State.gateBench s b) := by
  unfold State.gateBench
  extract_lets v1 s2
  have k3 : Keeps o s2 := keeps_mk h
  clear_value s2
  exact keeps_setErr (keeps_count k3)

theorem keeps_actBench {o s : State} (h : Keeps o s) {b : Nat} {t : Option Int} :
    Keeps o (State.actBench s b t) := by
  unfold State.actBench
  extract_lets v1 v2 v3 v4
  clear_value v1 v2 v3 v4
  split
  · rename_i y5
    exact keeps_ite h (keeps_floorGuard h (fun x6 k7 => keeps_setDivision k7))
  · rename_i y8 y9
    exact keeps_ite (keeps_ite (keeps_floorGuard h (fun x10 k11 => keeps_setDivision k11)) h) (keeps_ite (keeps_floorGuard h (fun x12 k13 => keeps_gateBench k13)) (keeps_ite (keeps_setDivision h) h))

theorem keeps_ungateBench {o s : State} (h : Keeps o s) {b : Nat} {t : Int} :
    Keeps o (State.ungateBench s b t) := by
  unfold State.ungateBench
  exact keeps_ite (keeps_mk h) h

theorem keeps_readSensor {o s : State} (h : Keeps o s) {n : Nat} {r : Reading} :
    Keeps1 o (State.readSensor s n r) := by
  unfold State.readSensor
  split
  · rename_i y1
    extract_lets v2 v3 s4
    have k5 : Keeps o s4 := keeps_mk h
    clear_value v2 s4
    exact Keeps1.mk (keeps_ite (keeps_setErr k5) k5)
  · rename_i y6 y7
    refine Keeps1.ite (Keeps1.mk h) ?_
    extract_lets v8 v9 v10
    clear_value v8 v9
    exact Keeps1.mk (keeps_mk h)

theorem keeps_readSensors {o s : State} (h : Keeps o s) {a1 : List (Nat × Reading)} :
    Keeps1 o (State.readSensors s a1) := by
  induction a1 generalizing s with
  | nil =>
    unfold State.readSensors
    exact Keeps1.mk h
  | cons w0 w1 ih =>
    unfold State.readSensors
    split
    · rename_i y1 y2 y3 e4
      have k5 : Keeps o y2 := Keeps1.of_eq e4 (keeps_readSensor h)
      split
      · rename_i y6 y7 y8 e9
        have k10 : Keeps o y7 := Keeps1.of_eq e9 (ih k5)
        exact Keeps1.mk k10

theorem keeps_loadTemps {o s : State} (h : Keeps o s) {vs : List (Nat × Int)} :
    Keeps o (State.loadTemps s vs) := by
  unfold State.loadTemps
  extract_lets v1 s2 s3
  have k4 : Keeps o s2 := by
    unfold s2
    split
    · rename_i y5 e6
      exact h
    · rename_i y7 y8 e9
      extract_lets v10
      clear_value v10
      exact keeps_wr (keeps_wr h)
  have k11 : Keeps o s3 := by
    refine keeps_foldl k4 ?_
    intro x12 x13 k14
    split
    · rename_i y15 e16
      exact k14
    · rename_i y17 y18 e19
      extract_lets s20
      have k21 : Keeps o s20 := keeps_wrAt k14
      clear_value s20
      exact keeps_ite (keeps_wrAt k21) k21
  clear_value v1 s2 s3
  refine keeps_foldl k11 ?_
  intro x22 x23 k24
  split
  · rename_i y25 e26
    exact k24
  · rename_i y27 y28 e29
    exact keeps_wrAt k24

theorem keeps_openWindow {o s : State} (h : Keeps o s) {meas : Nat} :
    Keeps o (State.openWindow s meas) := by
  unfold State.openWindow
  extract_lets v1 v2 v3 v4 v5 v6 v7 v8 v9 v10 v11 s12 s13 s14 s15 s16
  have k17 : Keeps o s12 := keeps_mk h
  have k18 : Keeps o s13 := keeps_count64 k17
  have k19 : Keeps o s14 := keeps_count k18
  have k20 : Keeps o s15 := keeps_wr k19
  have k21 : Keeps o s16 := keeps_ite (keeps_count k20) k20
  clear_value v1 v2 v3 v4 v5 v6 v7 v8 v9 v10 v11 s12 s13 s14 s15 s16
  exact keeps_ite (keeps_setErrLog k21) k21

theorem keeps_moveStretch {o s : State} (h : Keeps o s) :
    Keeps o (State.moveStretch s) := by
  unfold State.moveStretch
  extract_lets v1 v2
  clear_value v1 v2
  exact keeps_ite (keeps_mk h) (keeps_ite (keeps_ite (keeps_mk h) (keeps_mk h)) (keeps_mk h))

theorem keeps_thermal {o s : State} (h : Keeps o s) {vs : List (Nat × Int)} :
    Keeps o (State.thermal s vs) := by
  unfold State.thermal
  extract_lets v1 s2 s3 v4 v5 v6 s7 s8
  have k9 : Keeps o s2 := keeps_mk h
  have k10 : Keeps o s3 := keeps_wr k9
  have k11 : Keeps o s7 := keeps_foldl k10 (fun x12 x13 k14 => keeps_actBench k14)
  have k15 : Keeps o s8 := by
    refine keeps_foldl k11 ?_
    intro x16 x17 k18
    split
    · rename_i y19 y20 e21
      exact keeps_ungateBench k18
    · rename_i y22 e23
      exact k18
  clear_value s2 s3 v4 v5 v6 s7 s8
  exact keeps_syncDamper (keeps_moveStretch k15)

theorem keeps_window {o s : State} (h : Keeps o s) {w : WindowIn} :
    Keeps o (State.window s w) := by
  unfold State.window
  split
  · rename_i y1 y2 y3 e4
    have k5 : Keeps o y2 := Keeps1.of_eq e4 (keeps_readSensors h)
    extract_lets v6 s7
    have k8 : Keeps o s7 := keeps_thermal (keeps_openWindow (keeps_loadTemps k5))
    clear_value v6 s7
    split
    · rename_i y9 y10
      exact keeps_failStop k8
    · rename_i y11
      exact k8

theorem keeps_stepCounter {o s : State} (h : Keeps o s) {now : Nat} {frac : Nat} :
    Keeps o (State.stepCounter s now frac) := by
  unfold State.stepCounter
  extract_lets v1 v2 s3
  have k4 : Keeps o s3 := keeps_mk h
  exact keeps_ite (keeps_setCode (keeps_setParState k4)) k4

theorem keeps_readyTick {o s : State} (h : Keeps o s) :
    Keeps o (State.readyTick s) := by
  unfold State.readyTick
  refine keeps_ite h ?_
  extract_lets v1 s2
  have k3 : Keeps o s2 := keeps_mk h
  exact keeps_ite (keeps_setReady k3) k3

theorem keeps_tickTo {o s : State} (h : Keeps o s) {old : Nat} {new : Nat} {frac : Nat} :
    Keeps o (State.tickTo s old new frac) := by
  unfold State.tickTo
  extract_lets v1 s2 s3 s4 v5
  have k6 : Keeps o s2 := keeps_readyTick (keeps_mk h)
  have k7 : Keeps o s3 := keeps_ite (keeps_sendOwedReports k6) k6
  have k8 : Keeps o s4 := keeps_evtDev k7
  exact keeps_ite (keeps_put k8) k8

theorem keeps_idle {o s : State} (h : Keeps o s) :
    Keeps o (State.idle s) := by
  unfold State.idle
  exact keeps_ite h (keeps_tickTo h)

theorem keeps_lockState {o s : State} (h : Keeps o s) {e : Int} :
    Keeps o (State.lockState s e) := by
  unfold State.lockState
  extract_lets v1 v2 v3 s4
  have k5 : Keeps o s4 := keeps_mk h
  clear_value v1 v2 s4
  exact keeps_ite (keeps_ite (keeps_wr k5) k5) (keeps_ite (keeps_wr k5) (keeps_wr k5))

theorem keeps_syncPulse {o s : State} (h : Keeps o s) {stamp : Nat} :
    Keeps o (State.syncPulse s stamp) := by
  unfold State.syncPulse
  extract_lets v1 v2 v3 v4 s5 v6 s7 v8 v9 s10 v11 s12 v13 v14 v15 v16 s17
  have k18 : Keeps o s5 := keeps_wr h
  have k19 : Keeps o s7 := keeps_wr k18
  have k20 : Keeps o s10 := keeps_stepCounter k19
  have k21 : Keeps o s12 := keeps_mk k20
  have k22 : Keeps o s17 := keeps_mk k19
  clear_value v1 v2 v3 v4 s5 v6 s7 v8 v9 s10 s12 v13 v14 v15 s17
  exact keeps_ite (keeps_lockState (keeps_setErr (keeps_wr k21))) (keeps_lockState (keeps_wr k22))

theorem keeps_syncRole {o s : State} (h : Keeps o s) {old : Nat} :
    Keeps o (State.syncRole s old) := by
  unfold State.syncRole
  extract_lets v1 v2
  clear_value v1
  exact keeps_ite h (keeps_ite (keeps_wr (keeps_mk h)) (keeps_wr (keeps_wr (keeps_wr h))))

theorem keeps_execSyncPulse {o s : State} (h : Keeps o s) {stamp : Nat} :
    KeepsNext o (execSyncPulse stamp s) := by
  unfold execSyncPulse
  extract_lets s1
  have k2 : Keeps o s1 := keeps_begin_ h
  clear_value s1
  exact KeepsNext.next (keeps_ite (keeps_syncPulse k2) k2)

theorem keeps_execSyncHoldover {o s : State} (h : Keeps o s) :
    KeepsNext o (execSyncHoldover s) := by
  unfold execSyncHoldover
  extract_lets s1 s2
  have k3 : Keeps o s1 := keeps_begin_ h
  have k4 : Keeps o s2 := keeps_count (keeps_wr k3)
  clear_value s1 s2
  exact KeepsNext.next (keeps_ite (keeps_setErrLog k4) k3)

theorem keeps_cntSetWrite {o s : State} (h : Keeps o s) :
    Keeps o (State.cntSetWrite s) := by
  unfold State.cntSetWrite
  exact keeps_ite (keeps_badWrite h) (keeps_stepCounter h)

theorem keeps_cntAlignWrite {o s : State} (h : Keeps o s) :
    Keeps o (State.cntAlignWrite s) := by
  unfold State.cntAlignWrite
  exact keeps_ite (keeps_badWrite h) (keeps_wr h)

theorem keeps_execCntSet {o s : State} (h : Keeps o s) :
    KeepsNext o (execCntSet s) := by
  unfold execCntSet
  exact KeepsNext.next (keeps_gated (keeps_begin_ h) (fun x1 k2 => keeps_cntSetWrite k2))

theorem keeps_execCntAlign {o s : State} (h : Keeps o s) :
    KeepsNext o (execCntAlign s) := by
  unfold execCntAlign
  exact KeepsNext.next (keeps_gated (keeps_begin_ h) (fun x1 k2 => keeps_cntAlignWrite k2))

theorem keeps_perStream {o s : State} (h : Keeps o s) {f : State → Image → Desc → Work → State × Fate} (hf : ∀ x0 x1 x2 x3, Keeps o x0 → Keeps1 o (f x0 x1 x2 x3)) {a2 : Image} {a3 : Nat} {a4 : List Work} :
    Keeps1 o (perStream f s a2 a3 a4) := by
  unfold perStream
  split
  · rename_i y1 e2
    exact Keeps1.mk h
  · rename_i y3 y4 e5
    refine keeps_foldl1 (Keeps1.mk h) ?_
    intro x6 x7 k8
    extract_lets s9
    have k10 : Keeps1 o s9 := hf _ _ _ _ k8.get
    clear_value s9
    exact Keeps1.mk (keeps_ite k8.get k10.get)

theorem keeps_zeroUnwritten {o s : State} (h : Keeps o s) {t : Stream} {l : Live} :
    Keeps o (State.zeroUnwritten s t l) := by
  unfold State.zeroUnwritten
  split
  · rename_i y1 e2
    exact h
  · rename_i y3 y4 y5 e6
    exact keeps_foldl h (fun x7 x8 k9 => keeps_arrPut k9)

theorem keeps_sendSamples {o s : State} (h : Keeps o s) {t : Stream} {l : Live} :
    Keeps o (State.sendSamples s t l) := by
  unfold State.sendSamples
  split
  · rename_i y1 e2
    exact h
  · rename_i y3 y4 y5 e6
    split
    · rename_i y7 y8 y9 e10
      have k11 : Keeps o y9 := Keeps2.of_eq e10 (keeps_narrowRead h)
      exact keeps_sendUnits k11

theorem keeps_toSink {o s : State} (h : Keeps o s) {m : Image} {t : Stream} {l : Live} {late : Bool} :
    Keeps o (State.toSink s m t l late) := by
  unfold State.toSink
  split
  · rename_i y1 e2
    split
    · rename_i y3 e4
      exact h
    · rename_i y5 y6 y7 e8
      exact keeps_resultRecord h
  · rename_i y9 e10
    exact keeps_sendSamples h
  · rename_i y11 y12 y13
    refine keeps_ite ?_ (keeps_ite h (keeps_setStream h))
    split
    · rename_i y14 e15
      exact h
    · rename_i y16 y17 y18 e19
      split
      · rename_i y20 y21 y22 e23
        have k24 : Keeps o y22 := Keeps2.of_eq e23 (keeps_narrowRead h)
        exact keeps_sendChunk k24

theorem keeps_lateCommit {o s : State} (h : Keeps o s) {e : Nat} :
    Keeps o (State.lateCommit s e) := by
  unfold State.lateCommit
  extract_lets s1
  have k2 : Keeps o s1 := keeps_setStream h
  clear_value s1
  exact keeps_evtDev (keeps_setErr (keeps_count k2))

theorem keeps_noteCommit {o s : State} (h : Keeps o s) {e : Nat} {l : Live} {stays : Bool} :
    Keeps o (State.noteCommit s e l stays) := by
  unfold State.noteCommit
  exact keeps_setStream h

theorem keeps_writeState {o s : State} (h : Keeps o s) {m : Image} {t : Stream} {j : Nat} :
    Keeps o (State.writeState s m t j) := by
  unfold State.writeState
  refine keeps_ite h ?_
  split
  · rename_i y1 e2
    exact h
  · rename_i y3 y4 y5 e6
    exact keeps_addBuiltIn h

theorem keeps_commit {o s : State} (h : Keeps o s) {image : Nat} {e : Nat} {l : Live} {stays : Bool} :
    Keeps o (State.commit s image e l stays) := by
  unfold State.commit
  split
  · rename_i y1 e2
    exact h
  · rename_i y3 y4 e5
    extract_lets s6 v7 s8
    have k9 : Keeps o s6 := keeps_carryAll h
    have k10 : Keeps o s8 := keeps_ite (keeps_lateCommit k9) k9
    clear_value s6 v7 s8
    split
    · rename_i y11 e12
      exact k9
    · rename_i y13 y14 e15
      extract_lets s16 s17 s18 s19 s20 s21 s22 s23
      have k24 : Keeps o s16 := keeps_zeroUnwritten k10
      have k25 : Keeps o s17 := keeps_noteCommit k24
      have k26 : Keeps o s18 := keeps_ite (keeps_lpNarrowPut k25) k25
      have k27 : Keeps o s19 := keeps_writeState k26
      have k28 : Keeps o s20 := keeps_kvCommit k27
      have k29 : Keeps o s21 := keeps_toSink k28
      have k30 : Keeps o s22 := keeps_tallyCommit k29
      have k31 : Keeps o s23 := keeps_storeEntry (keeps_evtDev k30)
      clear_value s16 s17 s18 s19 s20 s21 s22 s23
      exact keeps_fillMissing (keeps_puntyCommit k31)

theorem keeps_writeSet {o s : State} (h : Keeps o s) {m : Image} {i : Nat} {d : Desc} {w : Work} {xs : List (Nat × Nat)} :
    Keeps o (writeSet s m i d w xs) := by
  unfold writeSet
  split
  · rename_i y1 e2
    exact h
  · rename_i y3 y4 e5
    exact keeps_regWrite h

theorem keeps_setLive {o s : State} (h : Keeps o s) {e : Nat} {j : Nat} {f : Live → Live} :
    Keeps o (State.setLive s e j f) := by
  unfold State.setLive
  extract_lets v1
  clear_value v1
  exact keeps_setStream h

theorem keeps_noteWritten {o s : State} (h : Keeps o s) {d : Desc} {w : Work} {off : Nat} {n : Nat} :
    Keeps o (noteWritten s d w off n) := by
  unfold noteWritten
  exact keeps_ite (keeps_setLive h) h

theorem keeps_putStep {o s : State} (h : Keeps o s) {m : Image} {d : Desc} {w : Work} {ref : Nat} {bs : List Byte} :
    Keeps2 o (putStep s m d w ref bs) := by
  unfold putStep
  extract_lets v1
  clear_value v1
  exact Keeps2.mk (keeps_refPut h)

theorem keeps_putOut {o s : State} (h : Keeps o s) {m : Image} {d : Desc} {w : Work} {bs : List Byte} :
    Keeps o (putOut s m d w bs) := by
  unfold putOut
  extract_lets s1
  have k2 : Keeps2 o s1 := keeps_putStep h
  clear_value s1
  exact keeps_noteWritten k2.get

theorem keeps_countPrunes {o s : State} (h : Keeps o s) {coreAt : Nat → Nat} {blocks : List Nat} :
    Keeps o (countPrunes s coreAt blocks) := by
  unfold countPrunes
  exact keeps_foldl h (fun x1 x2 k3 => keeps_evtCount (keeps_count k3))

theorem keeps_putA8 {o s : State} (h : Keeps o s) {m : Image} {i : Nat} {d : Desc} {w : Work} {gs : List GroupOut} {coreAt : Nat → Nat} :
    Keeps o (putA8 s m i d w gs coreAt) := by
  unfold putA8
  extract_lets v1 s2 s3
  have k4 : Keeps o s2 := by
    unfold s2
    split
    · rename_i y5 y6 e7
      extract_lets v8
      clear_value v8
      exact keeps_countPrunes (keeps_putOut h)
    · rename_i y9 e10
      exact keeps_putOut h
  have k11 : Keeps o s3 := Keeps2.get (keeps_putStep k4)
  clear_value v1 s2 s3
  exact keeps_ite (keeps_writeSet k11) k11

theorem keeps_emitOut {o s : State} (h : Keeps o s) {m : Image} {i : Nat} {d : Desc} {w : Work} {xs : List Nat} {coreAt : Nat → Nat} :
    Keeps1 o (emitOut s m i d w xs coreAt) := by
  unfold emitOut
  extract_lets v1 v2 v3 v4 s5 v6 s7
  have k8 : Keeps o s5 := keeps_ite (keeps_refPut h) h
  have k9 : Keeps o s7 := keeps_ite k8 (keeps_setStream k8)
  clear_value v1 v2 v3 v4 s5 v6 s7
  exact Keeps1.ite (Keeps1.ite (Keeps1.mk k8) (Keeps1.ite (Keeps1.mk k8) (Keeps1.mk (keeps_putA8 k9)))) (Keeps1.ite (Keeps1.mk (keeps_putOut h)) (Keeps1.mk (keeps_putOut h)))

theorem keeps_emitZero {o s : State} (h : Keeps o s) {m : Image} {i : Nat} {d : Desc} {w : Work} :
    Keeps o (emitZero s m i d w) := by
  unfold emitZero
  extract_lets v1 v2 s3 v4 v5 v6
  have k7 : Keeps o s3 := keeps_setLive h
  clear_value v1 v2 s3 v4 v5 v6
  exact keeps_ite (keeps_putA8 k7) (keeps_ite (keeps_putOut k7) (keeps_putOut k7))

theorem keeps_redoStream {o s : State} (h : Keeps o s) {m : Image} {i : Nat} {d : Desc} {w : Work} {coreAt : Nat → Nat} :
    Keeps1 o (redoStream s m i d w coreAt) := by
  unfold redoStream
  extract_lets v1 s2
  have k3 : Keeps o s2 := keeps_setStream h
  clear_value v1 s2
  exact Keeps1.ite (Keeps1.mk h) (Keeps1.mk (keeps_putA8 k3))

end Sys2Proof.Machine
end

