-- ==== Sys2Proof/Laws/KeepsArray.lean ====
section
/-! SUPPORT. The functions of Machine/Array.lean, Machine/Recur.lean, Machine/Attn.lean, Machine/KvOps.lean, Machine/Spectral.lean, Machine/Collective.lean keep the queue, the canonical form and the fixed sets of units. -/
namespace Sys2Proof.Machine
open Sys2Proof

set_option Elab.async false

theorem keeps_matrixStream {o s : State} (h : Keeps o s) {i : Nat} {ws : List Work} {m : Image} {d : Desc} {w : Work} :
    Keeps1 o (matrixStream i ws s m d w) := by
  unfold matrixStream
  refine Keeps1.ite (Keeps1.mk (keeps_emitZero h)) ?_
  extract_lets v1 v2
  clear_value v1 v2
  exact Keeps1.ite (Keeps1.mk h) (keeps_emitOut h)

theorem keeps_matrixKernel {o s : State} (h : Keeps o s) {a1 : Image} {a2 : Nat} {a3 : List Work} :
    Keeps1 o (matrixKernel s a1 a2 a3) := by
  unfold matrixKernel
  exact keeps_perStream h (fun x1 x2 x3 x4 k5 => keeps_matrixStream k5)

theorem keeps_vectorStream {o s : State} (h : Keeps o s) {i : Nat} {m : Image} {d : Desc} {w : Work} :
    Keeps1 o (vectorStream i s m d w) := by
  unfold vectorStream
  refine Keeps1.ite (Keeps1.mk (keeps_emitZero h)) ?_
  extract_lets v1 v2 v3 v4 v5 v6 v7 v8 v9 v10 v11 v12 v13 v14 v15
  clear_value v1 v2 v3 v4 v5 v6 v7 v8 v9 v10 v11 v12 v13 v14 v15
  exact Keeps1.ite (Keeps1.mk h) (keeps_emitOut h)

theorem keeps_vectorKernel {o s : State} (h : Keeps o s) {a1 : Image} {a2 : Nat} {a3 : List Work} :
    Keeps1 o (vectorKernel s a1 a2 a3) := by
  unfold vectorKernel
  exact keeps_perStream h (fun x1 x2 x3 x4 k5 => keeps_vectorStream k5)

theorem keeps_gateStream {o s : State} (h : Keeps o s) {m : Image} {d : Desc} {w : Work} :
    Keeps1 o (gateStream s m d w) := by
  unfold gateStream
  extract_lets v1 v2 v3 v4 s5
  have k6 : ∀ (x7 : State) (x8 : Bool), Keeps o x7 → Keeps o (v4 x7 x8) := fun x7 x8 k9 => keeps_setLive k9
  have k10 : Keeps o s5 := keeps_touchSec h
  clear_value v1 v2 v3 v4 s5
  refine Keeps1.ite (Keeps1.ite (Keeps1.mk h) (Keeps1.mk (k6 _ _ h))) ?_
  split
  · rename_i y11 e12
    exact Keeps1.mk k10
  · rename_i y13 y14 y15 e16
    extract_lets s17 v18 v19 v20
    have k21 : Keeps o s17 := keeps_ite (keeps_putSecs k10) k10
    clear_value s17 v18 v19 v20
    exact Keeps1.ite (Keeps1.mk k21) (Keeps1.mk (k6 _ _ (keeps_arrPut k21)))

theorem keeps_gateKernel {o s : State} (h : Keeps o s) {a1 : Image} {a2 : Nat} {a3 : List Work} :
    Keeps1 o (gateKernel s a1 a2 a3) := by
  unfold gateKernel
  exact keeps_perStream h (fun x1 x2 x3 x4 k5 => keeps_gateStream k5)

theorem keeps_routingKernel {o s : State} (h : Keeps o s) {a1 : Image} {a2 : Nat} {a3 : List Work} :
    Keeps1 o (routingKernel s a1 a2 a3) := by
  unfold routingKernel
  split
  · rename_i y1 e2
    exact Keeps1.mk h
  · rename_i y3 y4 e5
    extract_lets v6 v7 s8
    have k9 : ∀ (x10 : State × List Nat × List (Nat × Fate)) (x11 : Work), Keeps1 o x10 → Keeps1 o (v7 x10 x11) := by
      intro x10 x11 k12
      unfold v7
      extract_lets s13 v14 v15 s16 s17
      have k18 : Keeps o s13 := k12.get
      have k19 : Keeps o s16 := keeps_putOut k18
      have k20 : Keeps o s17 := by
        refine keeps_foldl k19 ?_
        intro x21 x22 k23
        refine keeps_ite k23 ?_
        extract_lets v24
        clear_value v24
        exact keeps_evtCount (keeps_count k23)
      clear_value s13 v14 v15 s16 s17
      exact Keeps1.ite (Keeps1.mk (keeps_putOut (keeps_setLive k18))) (Keeps1.ite (Keeps1.mk k18) (Keeps1.mk k20))
    have k25 : Keeps1 o s8 := keeps_foldl1 (Keeps1.mk h) (fun x26 x27 k28 => k9 _ _ k28)
    clear_value v6 v7 s8
    exact Keeps1.mk (keeps_setImage k25.get)

theorem keeps_conversionStream {o s : State} (h : Keeps o s) {i : Nat} {m : Image} {d : Desc} {w : Work} :
    Keeps1 o (conversionStream i s m d w) := by
  unfold conversionStream
  extract_lets v1 v2 v3 v4 v5 v6 v7 v8 v9 v10
  clear_value v1 v2 v3 v4 v5 v6 v7 v8 v9 v10
  exact Keeps1.ite (Keeps1.mk h) (keeps_emitOut h)

theorem keeps_conversionKernel {o s : State} (h : Keeps o s) {a1 : Image} {a2 : Nat} {a3 : List Work} :
    Keeps1 o (conversionKernel s a1 a2 a3) := by
  unfold conversionKernel
  exact keeps_perStream h (fun x1 x2 x3 x4 k5 => keeps_conversionStream k5)

theorem keeps_putSec {o s : State} (h : Keeps o s) {a : Nat} {sec : Nat} {x : Sec} {lg : SecLog} {coreAt : Nat → Nat} :
    Keeps o (State.putSec s a sec x lg coreAt) := by
  unfold State.putSec
  extract_lets s1 s2 s3 s4
  have k5 : Keeps o s1 := keeps_arrPut h
  have k6 : Keeps o s2 := keeps_arrPut k5
  have k7 : Keeps o s3 := keeps_ite k6 (keeps_arrPut k6)
  have k8 : Keeps o s4 := by
    unfold s4
    split
    · rename_i y9 e10
      exact k7
    · rename_i y11 y12 e13
      exact keeps_arrPut k7
  clear_value s1 s2 s3 s4
  exact keeps_foldl k8 (fun x14 x15 k16 => keeps_evtCount k16)

theorem keeps_leaveState {o s : State} (h : Keeps o s) {m : Image} {d : Desc} {w : Work} {secs : List Nat} :
    Keeps o (leaveState s m d w secs) := by
  unfold leaveState
  extract_lets s1 v2
  have k3 : Keeps o s1 := keeps_foldl h (fun x4 x5 k6 => keeps_touchSec k6)
  clear_value s1 v2
  split
  · rename_i y7 e8
    exact k3
  · rename_i y9 y10 y11 e12
    split
    · rename_i y13
      exact k3
    · rename_i y14 y15
      exact keeps_putSecs k3

theorem keeps_gatedCell {o s : State} (h : Keeps o s) {i : Nat} {m : Image} {d : Desc} {w : Work} {a : Nat} {t : Nat} :
    Keeps1 o (gatedCell i s m d w a t) := by
  unfold gatedCell
  extract_lets v1 v2 v3 v4 v5 v6 v7 v8 v9 v10 v11 v12
  clear_value v4 v5 v6 v7 v8 v9 v10 v11 v12
  exact Keeps1.ite (Keeps1.mk h) (Keeps1.ite (keeps_emitOut (keeps_putSec (keeps_putSec h))) (keeps_emitOut (keeps_putSec h)))

theorem keeps_elementCell {o s : State} (h : Keeps o s) {i : Nat} {m : Image} {d : Desc} {w : Work} {a : Nat} {t : Nat} :
    Keeps1 o (elementCell i s m d w a t) := by
  unfold elementCell
  extract_lets v1 v2 v3 v4 v5 v6 v7 v8 v9 s10
  have k11 : Keeps o s10 := keeps_putSec h
  clear_value v1 v2 v3 v4 v5 v6 v7 v8 v9 s10
  exact Keeps1.ite (Keeps1.mk h) (keeps_emitOut k11)

theorem keeps_recurrenceStream {o s : State} (h : Keeps o s) {i : Nat} {m : Image} {d : Desc} {w : Work} :
    Keeps1 o (recurrenceStream i s m d w) := by
  unfold recurrenceStream
  extract_lets v1 v2 v3 s4
  have k5 : Keeps o s4 := keeps_foldl h (fun x6 x7 k8 => keeps_touchSec k8)
  clear_value v1 v2 v3 s4
  refine Keeps1.ite (Keeps1.mk (keeps_emitZero (keeps_leaveState h))) ?_
  split
  · rename_i y9 e10
    exact Keeps1.mk k5
  · rename_i y11 y12 y13 e14
    exact Keeps1.ite (keeps_gatedCell k5) (keeps_elementCell k5)

theorem keeps_recurrenceKernel {o s : State} (h : Keeps o s) {a1 : Image} {a2 : Nat} {a3 : List Work} :
    Keeps1 o (recurrenceKernel s a1 a2 a3) := by
  unfold recurrenceKernel
  exact keeps_perStream h (fun x1 x2 x3 x4 k5 => keeps_recurrenceStream k5)

theorem keeps_scanStream {o s : State} (h : Keeps o s) {i : Nat} {m : Image} {d : Desc} {w : Work} :
    Keeps1 o (scanStream i s m d w) := by
  unfold scanStream
  extract_lets v1 v2 v3 v4 v5 s6 v7 v8 v9 v10 v11 v12 v13 v14 v15
  have k16 : Keeps o s6 := keeps_touchSec h
  clear_value v1 v2 v3 v4 v5 s6 v7 v8 v9 v10 v11 v12 v13 v14 v15
  refine Keeps1.ite (Keeps1.mk (keeps_emitZero (keeps_leaveState h))) ?_
  split
  · rename_i y17 e18
    exact Keeps1.mk k16
  · rename_i y19 y20 y21 e22
    extract_lets v23 v24 v25 v26 v27 v28 v29 v30 v31 s32
    have k33 : Keeps o s32 := keeps_putSec k16
    clear_value v23 v24 v25 v26 v27 v28 v29 v30 v31 s32
    exact Keeps1.ite (Keeps1.mk k16) (keeps_emitOut k33)

theorem keeps_scanKernel {o s : State} (h : Keeps o s) {a1 : Image} {a2 : Nat} {a3 : List Work} :
    Keeps1 o (scanKernel s a1 a2 a3) := by
  unfold scanKernel
  exact keeps_perStream h (fun x1 x2 x3 x4 k5 => keeps_scanStream k5)

theorem keeps_countRow {o s : State} (h : Keeps o s) {r : Row} {core : Nat} :
    Keeps o (countRow s r core) := by
  unfold countRow
  exact keeps_ite (keeps_count h) (keeps_ite h (keeps_evtCount (keeps_count h)))

theorem keeps_finishRow {o s : State} (h : Keeps o s) {path : List Nat} {d : Desc} {r : Row} {isRecord : Bool} {incoming : Option Row} {core : Nat} :
    Keeps1 o (finishRow s path d r isRecord incoming core) := by
  unfold finishRow
  extract_lets v1 v2 v3 v4 v5
  clear_value v1 v2 v3 v4 v5
  exact Keeps1.ite (Keeps1.mk h) (Keeps1.mk (keeps_countRow h))

theorem keeps_putParts {o s : State} (h : Keeps o s) {put : State → Nat → List Byte → State} (hput : ∀ x0 x1 x2, Keeps o x0 → Keeps o (put x0 x1 x2)) {bs : List Byte} {parts : List (Nat × Nat)} :
    Keeps o (putParts s put bs parts) := by
  unfold putParts
  exact keeps_foldl h (fun x1 x2 k3 => hput _ _ _ k3)

theorem keeps_putRecords {o s : State} (h : Keeps o s) {m : Image} {d : Desc} {w : Work} {bs : List Byte} {parts : List (Nat × Nat)} :
    Keeps o (putRecords s m d w bs parts) := by
  unfold putRecords
  split
  · rename_i y1 e2
    exact h
  · rename_i y3 y4 e5
    exact keeps_putParts h (fun x6 x7 x8 k9 => keeps_noteWritten (keeps_regWrite k9))

theorem keeps_attnEmit {o s : State} (h : Keeps o s) {m : Image} {d : Desc} {w : Work} {rows : List (Option RowOut)} {was : List Nat} {head : Bool} :
    Keeps o (attnEmit s m d w rows was head) := by
  unfold attnEmit
  extract_lets v1 v2 v3 v4 v5 s6 v7 v8 v9 v10 v11 s12 v13 v14 v15 v16
  have k17 : Keeps o s6 := keeps_ite (keeps_putParts h (fun x18 x19 x20 k21 => keeps_refPut k21)) h
  have k22 : ∀ (x23 : State) (x24 : Nat) (x25 : List Byte), Keeps o x23 → Keeps o (v8 x23 x24 x25) := fun x23 x24 x25 k26 => keeps_noteWritten (keeps_refPut k26)
  have k27 : Keeps o s12 := keeps_putParts k17 k22
  clear_value v1 v2 v3 v4 v5 s6 v7 v8 v9 v10 v11 s12 v13 v14 v15 v16
  exact keeps_ite (keeps_putRecords k17) (keeps_ite (keeps_putParts k27 (fun x28 x29 x30 k31 => keeps_refPut k31)) (keeps_ite (keeps_putParts k17 k22) (keeps_putParts k17 k22)))

theorem keeps_attnLeft {o s : State} (h : Keeps o s) {m : Image} {i : Nat} {d : Desc} {w : Work} :
    Keeps o (attnLeft s m i d w) := by
  unfold attnLeft
  extract_lets v1 s2 v3 s4
  have k5 : Keeps o s2 := keeps_setLive h
  have k6 : Keeps o s4 := keeps_ite (keeps_refPut h) h
  clear_value v1 s2 v3 s4
  exact keeps_ite (keeps_putRecords k5) (keeps_emitZero k6)

theorem keeps_attnRows {o s : State} (h : Keeps o s) {m : Image} {i : Nat} {d : Desc} {w : Work} {q : ABlock} {incoming : List Byte} {first : Nat} :
    Keeps1 o (attnRows s m i d w q incoming first) := by
  unfold attnRows
  extract_lets v1 v2 v3 v4 v5 v6 s7
  have k8 : ∀ (x9 : State × Nat × List (Nat × Nat × RowOut) × List ((Nat × Nat × Nat) × Row)) (x10 : Nat × Nat), Keeps1 o x9 → Keeps1 o (v6 x9 x10) := by
    intro x9 x10 k11
    unfold v6
    split
    · rename_i y12 y13 y14 y15 y16
      split
      · rename_i y17 y18 y19
        extract_lets v20 s21 v22 v23 v24 v25 v26 v27 s28 v29
        have k30 : Keeps o s21 := keeps_ite (keeps_count k11.get) k11.get
        have k31 : Keeps1 o s28 := by
          refine keeps_foldl1 (Keeps1.mk k30) ?_
          intro x32 x33 k34
          extract_lets s35
          have k36 : Keeps1 o s35 := keeps_finishRow k34.get
          clear_value s35
          exact Keeps1.mk k36.get
        clear_value v20 s21 v22 v23 v24 v25 v26 v27 s28 v29
        exact Keeps1.ite (Keeps1.mk k31.get) (Keeps1.mk k30)
  have k37 : Keeps1 o s7 := keeps_foldl1 (Keeps1.mk h) (fun x38 x39 k40 => k8 _ _ k40)
  clear_value v1 v2 v3 v4 v5 v6 s7
  exact Keeps1.mk k37.get

theorem keeps_attnOne {o s : State} (h : Keeps o s) {m : Image} {i : Nat} {d : Desc} {before : List Work} {base : Nat} {w : Work} :
    Keeps1 o (attnOne s m i d before base w) := by
  unfold attnOne
  refine Keeps1.ite (Keeps1.mk (keeps_attnLeft h)) ?_
  extract_lets v1 v2 v3 v4 v5 v6 v7 v8 s9 s10 s11 v12 s13 v14 s15
  have k16 : Keeps o s9 := keeps_count h
  have k17 : Keeps1 o s10 := keeps_attnRows k16
  have k18 : Keeps o s11 := k17.get
  have k19 : Keeps o s13 := keeps_attnEmit k18
  have k20 : Keeps o s15 := by
    unfold s15
    split
    · rename_i y21 e22
      exact k19
    · rename_i y23 y24 e25
      refine keeps_foldl k19 ?_
      intro x26 x27 k28
      split
      · rename_i y29 e30
        exact k28
      · rename_i y31 y32 e33
        exact keeps_regWrite k28
  clear_value v1 v2 v3 v4 v5 v6 v7 v8 s9 s10 s11 v12 s13 v14 s15
  exact Keeps1.ite (Keeps1.mk h) (Keeps1.ite (Keeps1.mk k19) (Keeps1.mk k20))

theorem keeps_attentionKernel {o s : State} (h : Keeps o s) {a1 : Image} {a2 : Nat} {a3 : List Work} :
    Keeps1 o (attentionKernel s a1 a2 a3) := by
  unfold attentionKernel
  split
  · rename_i y1 e2
    exact Keeps1.mk h
  · rename_i y3 y4 e5
    extract_lets s6
    have k7 : Keeps1 o s6 := by
      refine keeps_foldl1 (Keeps1.mk h) ?_
      intro x8 x9 k10
      extract_lets s11
      have k12 : Keeps1 o s11 := keeps_attnOne k10.get
      clear_value s11
      exact Keeps1.mk (keeps_ite k10.get k12.get)
    clear_value s6
    exact Keeps1.mk k7.get

theorem keeps_mergeStream {o s : State} (h : Keeps o s) {i : Nat} {info : List Nat} {m : Image} {d : Desc} {w : Work} :
    Keeps1 o (mergeStream i info s m d w) := by
  unfold mergeStream
  split
  · rename_i y1 e2
    exact Keeps1.mk h
  · rename_i y3 y4 y5 y6 y7 y8 e9
    extract_lets v10 v11 v12 v13 v14 v15 v16 s17
    have k18 : Keeps1 o s17 := by
      refine keeps_foldl1 (Keeps1.mk h) ?_
      intro x19 x20 k21
      extract_lets v22 v23 v24 s25
      have k26 : Keeps1 o s25 := keeps_finishRow k21.get
      clear_value v22 v23 v24 s25
      exact Keeps1.mk k26.get
    clear_value v10 v11 v12 v13 v14 v15 v16 s17
    exact Keeps1.ite (Keeps1.mk h) (Keeps1.mk (keeps_attnEmit k18.get))

theorem keeps_kvLeft {o s : State} (h : Keeps o s) {w : Work} :
    Keeps o (kvLeft s w) := by
  unfold kvLeft
  exact keeps_setLive h

theorem keeps_appendStream {o s : State} (h : Keeps o s) {m : Image} {d : Desc} {w : Work} :
    Keeps1 o (appendStream s m d w) := by
  unfold appendStream
  refine Keeps1.ite (Keeps1.mk (keeps_kvLeft h)) ?_
  extract_lets v1 v2 v3 v4 v5
  clear_value v1 v2 v3 v4 v5
  refine Keeps1.ite (Keeps1.mk h) ?_
  split
  · rename_i y6 e7
    exact Keeps1.mk h
  · rename_i y8 y9 e10
    have k11 : Keeps o y9 := KeepsOpt.of_eq e10 (keeps_kvAppendAll h)
    exact Keeps1.mk k11

theorem keeps_appendKernel {o s : State} (h : Keeps o s) {a1 : Image} {a2 : Nat} {a3 : List Work} :
    Keeps1 o (appendKernel s a1 a2 a3) := by
  unfold appendKernel
  exact keeps_perStream h (fun x1 x2 x3 x4 k5 => keeps_appendStream k5)

theorem keeps_stageKernel {o s : State} (h : Keeps o s) {a1 : Image} {a2 : Nat} {a3 : List Work} :
    Keeps1 o (stageKernel s a1 a2 a3) := by
  unfold stageKernel
  split
  · rename_i y1 e2
    exact Keeps1.mk h
  · rename_i y3 y4 e5
    extract_lets s6 s7 s8
    have k9 : Keeps o s6 := keeps_foldl h (fun x10 x11 k12 => keeps_kvLeft k12)
    have k13 : Keeps1 o s7 := keeps_kvStage k9
    have k14 : Keeps o s8 := by
      unfold s8
      split
      · rename_i y15 e16
        exact k13.get
      · rename_i y17 y18 e19
        exact keeps_foldl k13.get (fun x20 x21 k22 => keeps_regWrite k22)
    clear_value s6 s7 s8
    exact Keeps1.mk k14

theorem keeps_restoreStream {o s : State} (h : Keeps o s) {m : Image} {d : Desc} {w : Work} :
    Keeps1 o (restoreStream s m d w) := by
  unfold restoreStream
  refine Keeps1.ite (Keeps1.mk (keeps_kvLeft h)) ?_
  extract_lets v1 v2 v3
  clear_value v1 v2 v3
  exact Keeps1.ite (Keeps1.mk h) (Keeps1.mk (keeps_kvRestore h))

theorem keeps_restoreKernel {o s : State} (h : Keeps o s) {a1 : Image} {a2 : Nat} {a3 : List Work} :
    Keeps1 o (restoreKernel s a1 a2 a3) := by
  unfold restoreKernel
  exact keeps_perStream h (fun x1 x2 x3 x4 k5 => keeps_restoreStream k5)

theorem keeps_putHistory {o s : State} (h : Keeps o s) {d : Desc} {w : Work} {x : Maps} :
    Keeps o (putHistory s d w x) := by
  unfold putHistory
  refine keeps_ite h ?_
  extract_lets v1 v2 v3
  clear_value v1 v2 v3
  exact keeps_arrPut h

theorem keeps_emitMap {o s : State} (h : Keeps o s) {m : Image} {i : Nat} {d : Desc} {w : Work} {xs : List Nat} :
    Keeps1 o (emitMap s m i d w xs) := by
  unfold emitMap
  extract_lets v1
  clear_value v1
  exact Keeps1.ite (Keeps1.mk (keeps_putOut h)) (keeps_emitOut h)

theorem keeps_leftMap {o s : State} (h : Keeps o s) {m : Image} {i : Nat} {d : Desc} {w : Work} :
    Keeps o (leftMap s m i d w) := by
  unfold leftMap
  extract_lets s1
  have k2 : Keeps o s1 := keeps_ite (keeps_leaveState h) h
  clear_value s1
  exact keeps_ite (Keeps1.get (keeps_emitMap (keeps_setLive k2))) (keeps_emitZero k2)

theorem keeps_convStream {o s : State} (h : Keeps o s) {i : Nat} {m : Image} {d : Desc} {w : Work} :
    Keeps1 o (convStream i s m d w) := by
  unfold convStream
  refine Keeps1.ite (Keeps1.mk (keeps_leftMap h)) ?_
  extract_lets s1 v2 v3 v4 v5 v6 v7 v8 v9
  have k10 : Keeps o s1 := keeps_ite (keeps_touchSec h) h
  clear_value s1 v2 v3 v4 v5 v6 v7 v8 v9
  exact Keeps1.ite (Keeps1.mk k10) (keeps_emitMap (keeps_putHistory k10))

theorem keeps_convKernel {o s : State} (h : Keeps o s) {a1 : Image} {a2 : Nat} {a3 : List Work} :
    Keeps1 o (convKernel s a1 a2 a3) := by
  unfold convKernel
  exact keeps_perStream h (fun x1 x2 x3 x4 k5 => keeps_convStream k5)

theorem keeps_poolStream {o s : State} (h : Keeps o s) {i : Nat} {m : Image} {d : Desc} {w : Work} :
    Keeps1 o (poolStream i s m d w) := by
  unfold poolStream
  refine Keeps1.ite (Keeps1.mk (keeps_leftMap h)) ?_
  extract_lets s1 v2 v3 s4
  have k5 : Keeps o s1 := keeps_ite (keeps_touchSec h) h
  have k6 : Keeps o s4 := keeps_count k5
  clear_value s1 v2 v3 s4
  exact Keeps1.ite (Keeps1.mk k5) (keeps_emitMap (keeps_putHistory k6))

theorem keeps_poolKernel {o s : State} (h : Keeps o s) {a1 : Image} {a2 : Nat} {a3 : List Work} :
    Keeps1 o (poolKernel s a1 a2 a3) := by
  unfold poolKernel
  exact keeps_perStream h (fun x1 x2 x3 x4 k5 => keeps_poolStream k5)

theorem keeps_eventStream {o s : State} (h : Keeps o s) {m : Image} {d : Desc} {w : Work} :
    Keeps1 o (eventStream s m d w) := by
  unfold eventStream
  refine Keeps1.ite (Keeps1.mk (keeps_putOut (keeps_setLive h))) ?_
  extract_lets v1 v2 v3 v4 v5 v6 v7 s8 v9 s10
  have k11 : Keeps o s8 := keeps_count h
  have k12 : Keeps o s10 := keeps_ite k11 (keeps_count k11)
  clear_value v1 v2 v3 v4 v5 v6 v7 s8 v9 s10
  exact Keeps1.ite (Keeps1.mk h) (Keeps1.mk (keeps_putOut k12))

theorem keeps_eventKernel {o s : State} (h : Keeps o s) {a1 : Image} {a2 : Nat} {a3 : List Work} :
    Keeps1 o (eventKernel s a1 a2 a3) := by
  unfold eventKernel
  exact keeps_perStream h (fun x1 x2 x3 x4 k5 => keeps_eventStream k5)

theorem keeps_setRound {o s : State} (h : Keeps o s) {p : Round → Bool} {f : Round → Round} :
    Keeps o (State.setRound s p f) := by
  unfold State.setRound
  exact keeps_mk h

theorem keeps_checkRound {o s : State} (h : Keeps o s) {image : Nat} {coll : Nat} {entry : Nat} {chunk : Nat} :
    Keeps o (State.checkRound s image coll entry chunk) := by
  unfold State.checkRound
  split
  · rename_i y1 y2 y3 y4 e5 e6
    split
    · rename_i y7 e8
      exact h
    · rename_i y9 y10 e11
      extract_lets v12 v13
      exact keeps_ite (keeps_setRound h) h
  · rename_i y14 y15 y16
    exact h

theorem keeps_applyUnit {o s : State} (h : Keeps o s) {r : Round} {g : Msg} :
    Keeps o (State.applyUnit s r g) := by
  unfold State.applyUnit
  split
  · rename_i y1 y2 y3 y4 e5 e6
    split
    · rename_i y7 e8
      exact h
    · rename_i y9 y10 e11
      extract_lets v12 v13 v14 v15 v16 s17 s18
      have k19 : Keeps o s17 := by
        refine keeps_ite h ?_
        split
        · rename_i y20 e21
          exact h
        · rename_i y22 y23 e24
          extract_lets s25
          have k26 : Keeps o s25 := keeps_ite (Keeps2.get (keeps_spadAtomic h)) (keeps_narrowWrite h)
          clear_value s25
          exact keeps_ite (keeps_poisonSpad k26) k26
      have k27 : Keeps o s18 := keeps_setRound k19
      clear_value v12 v13 v14 v15 v16 s17 s18
      exact keeps_ite h (keeps_checkRound k27)
  · rename_i y28 y29 y30
    exact h

theorem keeps_oweCredit {o s : State} (h : Keeps o s) {p : Nat} {vc : Nat} :
    Keeps o (State.oweCredit s p vc) := by
  unfold State.oweCredit
  exact keeps_setPort h

theorem keeps_releaseHeld {o s : State} (h : Keeps o s) :
    Keeps o (State.releaseHeld s) := by
  unfold State.releaseHeld
  refine keeps_foldl h ?_
  intro x1 x2 k3
  split
  · rename_i y4 e5
    exact k3
  · rename_i y6 y7 e8
    extract_lets v9 s10
    have k11 : Keeps o s10 := keeps_mk k3
    clear_value s10
    exact keeps_oweCredit (keeps_applyUnit k11)

theorem keeps_openRound {o s : State} (h : Keeps o s) {m : Image} {i : Nat} {d : Desc} {w : Work} :
    Keeps o (State.openRound s m i d w) := by
  unfold State.openRound
  extract_lets v1 v2 v3 v4 s5 v6 s7
  have k8 : Keeps o s5 := keeps_mk h
  have k9 : Keeps o s7 := by
    refine keeps_foldl k8 ?_
    intro x10 x11 k12
    refine keeps_ite (keeps_getD (keeps_sendMsg k12) k12) ?_
    extract_lets v13
    clear_value v13
    refine keeps_foldl k12 ?_
    intro x14 x15 k16
    split
    · rename_i y17 e18
      exact k16
    · rename_i y19 y20 e21
      extract_lets v22 s23
      have k24 : Keeps2 o s23 := keeps_narrowRead k16
      clear_value v22 s23
      exact keeps_getD (keeps_sendMsg k24.get) k24.get
  clear_value v1 v2 v3 s5 v6 s7
  exact keeps_checkRound k9

theorem keeps_collectiveStream {o s : State} (h : Keeps o s) {i : Nat} {m : Image} {d : Desc} {w : Work} :
    Keeps1 o (collectiveStream i s m d w) := by
  unfold collectiveStream
  extract_lets v1 v2 v3 v4 s5 v6 v7 s8 s9
  have k10 : Keeps o s5 := keeps_ite (keeps_setLive h) h
  have k11 : Keeps o s8 := by
    refine keeps_ite k10 ?_
    split
    · rename_i y12 e13
      exact k10
    · rename_i y14 y15 e16
      exact keeps_arrPut k10
  have k17 : Keeps o s9 := by
    refine keeps_ite k11 ?_
    refine keeps_foldl k11 ?_
    intro x18 x19 k20
    split
    · rename_i y21 e22
      exact k20
    · rename_i y23 y24 e25
      exact keeps_arrPut k20
  clear_value v1 v2 v3 v4 s5 v6 v7 s8 s9
  exact Keeps1.ite (Keeps1.mk h) (Keeps1.ite (Keeps1.mk h) (Keeps1.mk (keeps_releaseHeld (keeps_openRound k17))))

theorem keeps_rotationDone {o s : State} (h : Keeps o s) {image : Nat} {e : Nat} :
    Keeps o (State.rotationDone s image e) := by
  unfold State.rotationDone
  split
  · rename_i y1 e2
    exact h
  · rename_i y3 y4 e5
    extract_lets s6 v7
    have k8 : Keeps o s6 := keeps_setRound h
    clear_value s6 v7
    exact keeps_getD (keeps_sendMsg k8) k8

theorem keeps_rotationKernel {o s : State} (h : Keeps o s) {a1 : Image} {a2 : Nat} {a3 : List Work} :
    Keeps1 o (rotationKernel s a1 a2 a3) := by
  unfold rotationKernel
  split
  · rename_i y1 e2
    exact Keeps1.mk h
  · rename_i y3 y4 e5
    extract_lets v6 v7 v8 v9 v10 v11 v12 v13 v14 v15 v16 v17 v18 v19 v20 v21 s22 v23 s24 s25
    have k26 : Keeps o s22 := keeps_setImage h
    have k27 : Keeps o s24 := by
      refine keeps_foldl k26 ?_
      intro x28 x29 k30
      extract_lets v31 v32 s33
      have k34 : Keeps o s33 := keeps_openRound k30
      clear_value v31 v32 s33
      exact keeps_ite (keeps_rotationDone k34) (keeps_addBuiltIn k34)
    have k35 : Keeps o s25 := keeps_foldl k27 (fun x36 x37 k38 => keeps_kvLeft k38)
    clear_value v6 v7 v8 v9 v10 v11 v12 v13 v14 v15 v16 v17 v18 v19 v20 v21 s22 v23 s24 s25
    exact Keeps1.mk k35

theorem keeps_collectiveKernel {o s : State} (h : Keeps o s) {a1 : Image} {a2 : Nat} {a3 : List Work} :
    Keeps1 o (collectiveKernel s a1 a2 a3) := by
  unfold collectiveKernel
  exact keeps_perStream h (fun x1 x2 x3 x4 k5 => keeps_collectiveStream k5)

end Sys2Proof.Machine
end

