-- ==== Sys2Proof/Laws/KeepsChoose.lean ====
section
/-! SUPPORT. The functions of Machine/Choose.lean, Machine/Gaffer.lean keep the queue, the canonical form and the fixed sets of units. -/
namespace Sys2Proof.Machine
open Sys2Proof

set_option Elab.async false

theorem keeps_kernelOf {o s : State} (h : Keeps o s) {d : Desc} {m : Image} {i : Nat} {ws : List Work} :
    Keeps1 o (kernelOf d s m i ws) := by
  generalize hk : kernelOf d = k
  unfold kernelOf at hk
  split at hk
  case h_9 =>
    split at hk
    · exact hk ▸ keeps_appendKernel h
    · split at hk
      · exact hk ▸ keeps_stageKernel h
      · exact hk ▸ keeps_restoreKernel h
  case h_13 =>
    split at hk
    · exact hk ▸ keeps_rotationKernel h
    · exact hk ▸ keeps_collectiveKernel h
  · exact hk ▸ keeps_matrixKernel h
  · exact hk ▸ keeps_vectorKernel h
  · exact hk ▸ keeps_gateKernel h
  · exact hk ▸ keeps_routingKernel h
  · exact hk ▸ keeps_conversionKernel h
  · exact hk ▸ keeps_recurrenceKernel h
  · exact hk ▸ keeps_scanKernel h
  · exact hk ▸ keeps_attentionKernel h
  · exact hk ▸ keeps_convKernel h
  · exact hk ▸ keeps_poolKernel h
  · exact hk ▸ keeps_eventKernel h
  · exact hk ▸ h

theorem keeps_startReload {o s : State} (h : Keeps o s) {a : Nat} :
    Keeps o (State.startReload s a) := by
  unfold State.startReload
  split
  · rename_i y1 e2
    exact h
  · rename_i y3 y4 e5
    split
    · rename_i y6 e7
      exact h
    · rename_i y8 y9 e10
      exact keeps_addBuiltIn h

theorem keeps_addRestore {o s : State} (h : Keeps o s) {m : Image} {t : Stream} {dl : Nat} {j : Nat} {xs : List Xfer} :
    Keeps o (State.addRestore s m t dl j xs) := by
  unfold State.addRestore
  exact keeps_addBuiltIn h

theorem keeps_applyFate {o s : State} (h : Keeps o s) {m : Image} {w : Work} {f : Fate} {met : List Nat} :
    Keeps o (State.applyFate s m w f met) := by
  unfold State.applyFate
  split
  · rename_i y1 y2 e3
    exact keeps_streamFault h
  · rename_i y4 e5
    refine keeps_ite h ?_
    refine keeps_ite (keeps_streamFault h) ?_
    extract_lets s6 s7
    have k8 : Keeps o s6 := keeps_ite (keeps_setStream h) h
    have k9 : Keeps o s7 := keeps_mk k8
    clear_value s6 s7
    split
    · rename_i y10 e11
      exact k8
    · rename_i y12 y13 e14
      refine keeps_ite (keeps_streamFault k8) ?_
      extract_lets s15 s16
      have k17 : Keeps o s15 := keeps_ite (keeps_addRestore k8) k8
      have k18 : Keeps o s16 := keeps_ite (keeps_setStream k17) k17
      clear_value s15 s16
      exact keeps_rollback k18

theorem keeps_applyFates {o s : State} (h : Keeps o s) {m : Image} {ws : List Work} {fs : List (Nat × Fate)} {met : List (Nat × List Nat)} :
    Keeps o (State.applyFates s m ws fs met) := by
  unfold State.applyFates
  refine keeps_foldl h ?_
  intro x1 x2 k3
  split
  · rename_i y4 e5
    exact k3
  · rename_i y6 y7 e8
    exact keeps_applyFate k3

theorem keeps_advanceRings {o s : State} (h : Keeps o s) {m : Image} {d : Desc} :
    Keeps o (State.advanceRings s m d) := by
  unfold State.advanceRings
  refine keeps_foldl h ?_
  intro x1 x2 k3
  split
  · rename_i y4 e5
    exact k3
  · rename_i y6 y7 e8
    extract_lets v9 s10
    have k11 : Keeps o s10 := keeps_setRegion k3
    clear_value v9 s10
    exact keeps_ite k11 (keeps_setImage k11)

theorem keeps_finishStream {o s : State} (h : Keeps o s) {m : Image} {i : Nat} {d : Desc} {w : Work} :
    Keeps o (State.finishStream s m i d w) := by
  unfold State.finishStream
  split
  · rename_i y1 e2
    exact h
  · rename_i y3 y4 e5
    refine keeps_ite ?_ ?_
    · extract_lets s6
      have k7 : Keeps o s6 := keeps_setLive (keeps_exitMark h)
      clear_value s6
      split
      · rename_i y8 y9 e10
        exact keeps_commit k7
      · rename_i y11 e12
        exact keeps_setStream k7
    · refine keeps_ite ?_ h
      split
      · rename_i y13 y14 e15
        exact keeps_commit h
      · rename_i y16 e17
        exact h

theorem keeps_oweP {o s : State} (h : Keeps o s) {x : Pass} :
    Keeps o (State.oweP s x) := by
  unfold State.oweP
  exact keeps_mk h

theorem keeps_setNext {o s : State} (h : Keeps o s) {id : Nat} {next : Nat} :
    Keeps o (State.setNext s id next) := by
  unfold State.setNext
  exact keeps_setImage h

theorem keeps_kernelRun {o s : State} (h : Keeps o s) {m : Image} {i : Nat} {d : Desc} {pass : Nat} {info : List Nat} {ws : List Work} :
    Keeps1 o (State.kernelRun s m i d pass info ws) := by
  unfold State.kernelRun
  extract_lets v1 s2
  have k3 : Keeps1 o s2 := keeps_kernelOf h
  clear_value v1 s2
  exact Keeps1.ite (keeps_perStream h (fun x4 x5 x6 x7 k8 => keeps_redoStream k8)) (Keeps1.ite (keeps_perStream h (fun x9 x10 x11 x12 k13 => keeps_mergeStream k13)) (Keeps1.mk k3.get))

theorem keeps_countMet {o s : State} (h : Keeps o s) {met : List (Nat × List Nat)} {soft : List Nat} {part : Bool} :
    Keeps o (State.countMet s met soft part) := by
  unfold State.countMet
  extract_lets s1 s2
  have k3 : Keeps o s1 := keeps_foldl h (fun x4 x5 k6 => keeps_uncorrWord k6)
  have k7 : Keeps o s2 := keeps_foldl k3 (fun x8 x9 k10 => keeps_corrWord k10)
  clear_value s1 s2
  exact keeps_ite (keeps_setErr k7) k7

theorem keeps_complete {o s : State} (h : Keeps o s) {m : Image} {i : Nat} {d : Desc} {pass : Nat} {info : List Nat} {mask : Nat} {ws : List Work} :
    Keeps o (State.complete s m i d pass info mask ws) := by
  unfold State.complete
  extract_lets v1 s2 v3 v4 s5 s6 v7 v8 v9 v10 v11 s12 s13
  have k14 : Keeps1 o s2 := keeps_kernelRun h
  have k15 : Keeps o s5 := keeps_applyFates (keeps_countMet k14.get)
  have k16 : Keeps o s6 := keeps_ite k15 (keeps_setNext (keeps_advanceRings k15))
  have k17 : Keeps o s12 := keeps_ite k16 (keeps_oweP k16)
  have k18 : Keeps o s13 := keeps_ite k17 (keeps_oweP k17)
  clear_value v1 s2 v3 v4 s5 s6 v7 v8 v9 v10 v11 s12 s13
  exact keeps_foldl k18 (fun x19 x20 k21 => keeps_finishStream k21)

theorem keeps_loadState {o s : State} (h : Keeps o s) {m : Image} {t : Stream} {j : Nat} {dl : Nat} :
    Keeps o (State.loadState s m t j dl) := by
  unfold State.loadState
  refine keeps_ite (keeps_carryOver h) ?_
  refine keeps_ite (keeps_setStream h) ?_
  refine keeps_ite h ?_
  split
  · rename_i y1 y2 y3 y4 y5 y6 e7 e8
    extract_lets v9
    clear_value v9
    exact keeps_addBuiltIn h
  · rename_i y10 y11 y12
    exact h

theorem keeps_loadInitial {o s : State} (h : Keeps o s) {m : Image} {t : Stream} {dl : Nat} :
    Keeps o (State.loadInitial s m t dl) := by
  unfold State.loadInitial
  extract_lets v1 s2
  have k3 : Keeps o s2 := keeps_setStream h
  clear_value v1 s2
  exact keeps_ite h (keeps_addBuiltIn k3)

theorem keeps_admitMember {o s : State} (h : Keeps o s) {m : Image} {x : Member} :
    Keeps o (State.admitMember s m x) := by
  unfold State.admitMember
  split
  · rename_i y1 e2
    exact h
  · rename_i y3 y4 e5
    extract_lets v6 v7 v8 s9 s10 s11
    have k12 : Keeps o s9 := keeps_putStream h
    have k13 : Keeps o s10 := keeps_ite k12 (keeps_announceSession k12)
    have k14 : Keeps o s11 := keeps_ite k13 (keeps_puntyTurn k13)
    clear_value v6 v8 s9 s10 s11
    refine keeps_ite (keeps_setStream k14) ?_
    split
    · rename_i y15 e16
      exact k14
    · rename_i y17 y18 y19 e20
      extract_lets s21 s22 v23 v24 s25 v26 s27
      have k28 : Keeps o s21 := keeps_loadState (keeps_flushHeld k14)
      have k29 : Keeps o s22 := keeps_ite (keeps_foldl k28 (fun x30 x31 k32 => keeps_narrowWrite k32)) k28
      have k33 : Keeps o s25 := keeps_ite (keeps_loadInitial k29) k29
      have k34 : Keeps o s27 := keeps_setStream k33
      clear_value s21 s22 v23 v24 s25 v26 s27
      exact keeps_lpNarrowPut k34

theorem keeps_openSweep {o s : State} (h : Keeps o s) {m : Image} {xs : List Member} :
    Keeps o (State.openSweep s m xs) := by
  unfold State.openSweep
  extract_lets s1 v2 s3
  have k4 : Keeps o s1 := keeps_foldl h (fun x5 x6 k7 => keeps_gafRead k7)
  have k8 : Keeps o s3 := keeps_foldl k4 (fun x9 x10 k11 => keeps_admitMember k11)
  clear_value s1 v2 s3
  exact keeps_ite k8 (keeps_setImage k8)

theorem keeps_starve {o s : State} (h : Keeps o s) {id : Nat} {es : List Nat} :
    Keeps o (State.starve s id es) := by
  unfold State.starve
  extract_lets s1 s2 s3
  have k4 : Keeps o s1 := keeps_wr h
  have k5 : Keeps o s2 := keeps_setImage k4
  have k6 : Keeps o s3 := keeps_evtDev (keeps_count k5)
  clear_value s1 s2 s3
  exact keeps_ite k4 (keeps_foldl k6 (fun x7 x8 k9 => keeps_evtCount k9))

theorem keeps_spend {o s : State} (h : Keeps o s) {m : Image} {cost : Nat} :
    Keeps o (State.spend s m cost) := by
  unfold State.spend
  extract_lets v1 v2
  clear_value v1 v2
  exact keeps_mk h

theorem keeps_issue {o s : State} (h : Keeps o s) {m : Image} {i : Nat} {d : Desc} {x : Pass} {cost : Nat} {ws : List Work} :
    Keeps o (State.issue s m i d x cost ws) := by
  unfold State.issue
  extract_lets v1 v2 v3 v4 s5 s6 s7 s8 s9 v10 v11
  have k12 : Keeps o s5 := keeps_foldl h (fun x13 x14 k15 => keeps_wr (keeps_wr k15))
  have k16 : Keeps o s6 := by
    refine keeps_foldl k12 ?_
    intro x17 x18 k19
    extract_lets v20 s21
    have k22 : Keeps o s21 := keeps_ite (keeps_count k19) (keeps_evtCount (keeps_count k19))
    clear_value v20 s21
    exact keeps_ite k22 (keeps_evtCount k22)
  have k23 : Keeps o s7 := keeps_evtDev (keeps_spend k16)
  have k24 : Keeps o s8 := keeps_ite (keeps_evtDev k23) (keeps_ite (keeps_count k23) k23)
  have k25 : Keeps o s9 := keeps_setImage k24
  clear_value v1 v2 v3 v4 s5 s6 s7 s8 s9 v10
  exact keeps_syncDamper (keeps_mk k25)

theorem keeps_retire {o s : State} (h : Keeps o s) {m : Image} {i : Nat} {d : Desc} {ws : List Work} :
    Keeps o (State.retire s m i d ws) := by
  unfold State.retire
  extract_lets s1
  have k2 : Keeps o s1 := keeps_evtDev (keeps_complete h)
  clear_value s1
  exact keeps_setImage k2

theorem keeps_dropPass {o s : State} (h : Keeps o s) {x : Pass} :
    Keeps o (State.dropPass s x) := by
  unfold State.dropPass
  exact keeps_mk h

theorem keeps_takePass {o s : State} (h : Keeps o s) {m : Image} {x : Pass} {d : Desc} {ps : List Work} :
    Keeps1 o (State.takePass s m x d ps) := by
  unfold State.takePass
  extract_lets v1
  clear_value v1
  exact Keeps1.ite (Keeps1.mk (keeps_retire (keeps_dropPass h))) (Keeps1.ite (Keeps1.mk (keeps_dropPass h)) (Keeps1.ite (Keeps1.mk h) (Keeps1.mk (keeps_issue (keeps_dropPass h)))))

theorem keeps_dropStarved {o s : State} (h : Keeps o s) {cs : List Choice} :
    Keeps o (State.dropStarved s cs) := by
  unfold State.dropStarved
  exact keeps_mk h

theorem keeps_takeCand {o s : State} (h : Keeps o s) {c : Choice} :
    Keeps1 o (State.takeCand s c) := by
  unfold State.takeCand
  split
  · rename_i y1 y2 e3
    exact keeps_takePass h
  · rename_i y4 e5
    refine Keeps1.ite (Keeps1.ite (Keeps1.mk (keeps_openSweep h)) (Keeps1.mk (keeps_ite h (keeps_starve h)))) ?_
    extract_lets v6
    clear_value v6
    exact Keeps1.ite (Keeps1.ite (Keeps1.mk (keeps_retire h)) (Keeps1.mk h)) (Keeps1.ite (Keeps1.mk (keeps_issue h)) (Keeps1.mk (keeps_starve h)))

theorem keeps_chooseOnce {o s : State} (h : Keeps o s) :
    Keeps1 o (State.chooseOnce s) := by
  unfold State.chooseOnce
  extract_lets s1 v2 s3
  have k4 : Keeps o s1 := keeps_wr (keeps_wr h)
  have k5 : Keeps o s3 := keeps_dropStarved k4
  clear_value s1 v2 s3
  split
  · rename_i y6 y7 e8
    split
    · rename_i y9 e10
      exact Keeps1.mk (keeps_dropPass k4)
    · rename_i y11 y12 e13
      split
      · rename_i y14 e15
        exact Keeps1.mk (keeps_dropPass k4)
      · rename_i y16 y17 e18
        exact keeps_takePass k4
  · rename_i y19 e20
    split
    · rename_i y21 y22 e23
      exact keeps_takeCand k5
    · rename_i y24 e25
      exact Keeps1.mk (keeps_wr (keeps_evtDev (keeps_count k5)))

theorem keeps_sweepBoundary {o s : State} (h : Keeps o s) :
    Keeps o (State.sweepBoundary s) := by
  unfold State.sweepBoundary
  extract_lets s1
  have k2 : Keeps o s1 := keeps_count h
  clear_value s1
  exact keeps_ite (keeps_instantCome k2) k2

theorem keeps_settleSweeps {o s : State} (h : Keeps o s) :
    Keeps o (State.settleSweeps s) := by
  unfold State.settleSweeps
  extract_lets s1
  have k2 : Keeps o s1 := keeps_settle h
  clear_value s1
  exact keeps_foldl k2 (fun x3 x4 k5 => keeps_sweepBoundary k5)

theorem keeps_chooseN {o s : State} (h : Keeps o s) {a0 : Nat} :
    Keeps o (State.chooseN a0 s) := by
  induction a0 generalizing s with
  | zero =>
    unfold State.chooseN
    exact h
  | succ w0 ih =>
    unfold State.chooseN
    refine keeps_ite h ?_
    extract_lets s1
    have k2 : Keeps1 o s1 := keeps_chooseOnce h
    clear_value s1
    exact keeps_ite (ih (keeps_settleSweeps k2.get)) k2.get

theorem keeps_faultFailed {o s : State} (h : Keeps o s) :
    Keeps o (State.faultFailed s) := by
  unfold State.faultFailed
  exact keeps_ite h (keeps_foldl h (fun x1 x2 k3 => keeps_imageFault k3))

theorem keeps_choose {o s : State} (h : Keeps o s) :
    Keeps o (State.choose s) := by
  unfold State.choose
  extract_lets v1
  clear_value v1
  exact keeps_parWatch (keeps_chooseN (keeps_faultFailed h))

theorem keeps_chooseIfReady {o s : State} (h : Keeps o s) {was : State} :
    Keeps o (State.chooseIfReady s was) := by
  unfold State.chooseIfReady
  exact keeps_ite h (keeps_choose h)

theorem keeps_boundary {o s : State} (h : Keeps o s) :
    Keeps o (State.boundary s) := by
  unfold State.boundary
  refine keeps_ite h ?_
  extract_lets s1 s2
  have k3 : Keeps o s1 := keeps_ite (keeps_instantCome h) h
  have k4 : Keeps o s2 := keeps_ite (keeps_resetNow k3) (keeps_settleSweeps k3)
  clear_value s1 s2
  exact keeps_choose (keeps_syncDamper k4)

theorem keeps_countBusy {o s : State} (h : Keeps o s) {r : Running} :
    Keeps o (State.countBusy s r) := by
  unfold State.countBusy
  exact keeps_foldl h (fun x1 x2 k3 => keeps_ite k3 (keeps_evtCount (keeps_count64 k3)))

theorem keeps_weightError {o s : State} (h : Keeps o s) {m : Image} {d : Desc} {r : Running} {ws : List Work} {rows : List Nat} :
    Keeps o (State.weightError s m d r ws rows) := by
  unfold State.weightError
  extract_lets v1 s2 v3 v4 v5 s6 s7 v8 v9 s10
  have k11 : Keeps o s2 := keeps_mk h
  have k12 : Keeps o s6 := keeps_foldl (keeps_countMet h) (fun x13 x14 k15 => keeps_uncorrWord k15)
  have k16 : Keeps o s7 := keeps_applyFates k12
  have k17 : Keeps o s10 := keeps_foldl (keeps_count k16) (fun x18 x19 k20 => keeps_startReload k20)
  clear_value v1 s2 v3 v4 v5 s6 s7 v8 v9 s10
  exact keeps_ite (keeps_failStop k16) (keeps_ite (keeps_retire k17) (keeps_oweP k17))

theorem keeps_atBarrier {o s : State} (h : Keeps o s) {r : Running} {b : BarrierReads} :
    Keeps o (State.atBarrier s r b) := by
  unfold State.atBarrier
  extract_lets s1 s2 s3
  have k4 : Keeps o s1 := keeps_countBusy h
  have k5 : Keeps o s2 := keeps_foldl k4 (fun x6 x7 k8 => keeps_corrWord k8)
  have k9 : Keeps o s3 := keeps_foldl k5 (fun x10 x11 k12 => keeps_poisonSpad k12)
  clear_value s1 s2 s3
  split
  · rename_i y13 e14
    exact k5
  · rename_i y15 y16 e17
    split
    · rename_i y18 e19
      exact k5
    · rename_i y20 y21 e22
      extract_lets v23 v24 s25
      have k26 : Keeps o s25 := keeps_ite (keeps_complete k9) (keeps_weightError k9)
      clear_value v23 v24 s25
      exact keeps_noteSoft k26

theorem keeps_barrier {o s : State} (h : Keeps o s) {due : Running → Desc → Bool} {b : BarrierReads} :
    Keeps o (State.barrier s due b) := by
  unfold State.barrier
  split
  · rename_i y1 e2
    exact h
  · rename_i y3 y4 e5
    extract_lets v6 s7 v8
    have k9 : Keeps o s7 := keeps_atBarrier h
    clear_value v6 s7
    exact keeps_ite h (keeps_boundary (keeps_mk k9))

theorem keeps_opBarrier {o s : State} (h : Keeps o s) {kind : Nat} {b : BarrierReads} :
    Keeps o (State.opBarrier s kind b) := by
  unfold State.opBarrier
  exact keeps_barrier h

theorem keeps_subBarrier {o s : State} (h : Keeps o s) {kind : Nat} {sub : Nat} {b : BarrierReads} :
    Keeps o (State.subBarrier s kind sub b) := by
  unfold State.subBarrier
  exact keeps_barrier h

theorem keeps_passBarrier {o s : State} (h : Keeps o s) {pass : Nat} {b : BarrierReads} :
    Keeps o (State.passBarrier s pass b) := by
  unfold State.passBarrier
  exact keeps_barrier h

theorem keeps_closeSweep {o s : State} (h : Keeps o s) {m : Image} :
    Keeps o (State.closeSweep s m) := by
  unfold State.closeSweep
  extract_lets s1 v2 s3
  have k4 : Keeps o s1 := keeps_setImage h
  have k5 : Keeps o s3 := keeps_mk k4
  clear_value s1 s3
  exact keeps_choose (keeps_sweepBoundary k5)

theorem keeps_execMatrix {o s : State} (h : Keeps o s) {b : BarrierReads} :
    KeepsNext o (execMatrix b s) := by
  unfold execMatrix
  exact KeepsNext.next (keeps_opBarrier (keeps_begin_ h))

theorem keeps_execVector {o s : State} (h : Keeps o s) {b : BarrierReads} :
    KeepsNext o (execVector b s) := by
  unfold execVector
  exact KeepsNext.next (keeps_opBarrier (keeps_begin_ h))

theorem keeps_execGate {o s : State} (h : Keeps o s) {b : BarrierReads} :
    KeepsNext o (execGate b s) := by
  unfold execGate
  exact KeepsNext.next (keeps_opBarrier (keeps_begin_ h))

theorem keeps_execExpertRouting {o s : State} (h : Keeps o s) {b : BarrierReads} :
    KeepsNext o (execExpertRouting b s) := by
  unfold execExpertRouting
  exact KeepsNext.next (keeps_opBarrier (keeps_begin_ h))

theorem keeps_execConversion {o s : State} (h : Keeps o s) {b : BarrierReads} :
    KeepsNext o (execConversion b s) := by
  unfold execConversion
  exact KeepsNext.next (keeps_opBarrier (keeps_begin_ h))

theorem keeps_execRecurrence {o s : State} (h : Keeps o s) {b : BarrierReads} :
    KeepsNext o (execRecurrence b s) := by
  unfold execRecurrence
  exact KeepsNext.next (keeps_opBarrier (keeps_begin_ h))

theorem keeps_execParallelScan {o s : State} (h : Keeps o s) {b : BarrierReads} :
    KeepsNext o (execParallelScan b s) := by
  unfold execParallelScan
  exact KeepsNext.next (keeps_opBarrier (keeps_begin_ h))

theorem keeps_execAttention {o s : State} (h : Keeps o s) {b : BarrierReads} :
    KeepsNext o (execAttention b s) := by
  unfold execAttention
  exact KeepsNext.next (keeps_opBarrier (keeps_begin_ h))

theorem keeps_execKvAppend {o s : State} (h : Keeps o s) {b : BarrierReads} :
    KeepsNext o (execKvAppend b s) := by
  unfold execKvAppend
  exact KeepsNext.next (keeps_subBarrier (keeps_begin_ h))

theorem keeps_execKvStage {o s : State} (h : Keeps o s) {b : BarrierReads} :
    KeepsNext o (execKvStage b s) := by
  unfold execKvStage
  exact KeepsNext.next (keeps_subBarrier (keeps_begin_ h))

theorem keeps_execKvRestore {o s : State} (h : Keeps o s) {b : BarrierReads} :
    KeepsNext o (execKvRestore b s) := by
  unfold execKvRestore
  exact KeepsNext.next (keeps_subBarrier (keeps_begin_ h))

theorem keeps_execConvolution {o s : State} (h : Keeps o s) {b : BarrierReads} :
    KeepsNext o (execConvolution b s) := by
  unfold execConvolution
  exact KeepsNext.next (keeps_opBarrier (keeps_begin_ h))

theorem keeps_execPooling {o s : State} (h : Keeps o s) {b : BarrierReads} :
    KeepsNext o (execPooling b s) := by
  unfold execPooling
  exact KeepsNext.next (keeps_opBarrier (keeps_begin_ h))

theorem keeps_execEventDecoding {o s : State} (h : Keeps o s) {b : BarrierReads} :
    KeepsNext o (execEventDecoding b s) := by
  unfold execEventDecoding
  exact KeepsNext.next (keeps_opBarrier (keeps_begin_ h))

theorem keeps_execAllReduce {o s : State} (h : Keeps o s) {b : BarrierReads} :
    KeepsNext o (execAllReduce b s) := by
  unfold execAllReduce
  exact KeepsNext.next (keeps_subBarrier (keeps_begin_ h))

theorem keeps_execReduceScatter {o s : State} (h : Keeps o s) {b : BarrierReads} :
    KeepsNext o (execReduceScatter b s) := by
  unfold execReduceScatter
  exact KeepsNext.next (keeps_subBarrier (keeps_begin_ h))

theorem keeps_execAllGather {o s : State} (h : Keeps o s) {b : BarrierReads} :
    KeepsNext o (execAllGather b s) := by
  unfold execAllGather
  exact KeepsNext.next (keeps_subBarrier (keeps_begin_ h))

theorem keeps_execBroadcast {o s : State} (h : Keeps o s) {b : BarrierReads} :
    KeepsNext o (execBroadcast b s) := by
  unfold execBroadcast
  exact KeepsNext.next (keeps_subBarrier (keeps_begin_ h))

theorem keeps_execKvRingRotation {o s : State} (h : Keeps o s) {b : BarrierReads} :
    KeepsNext o (execKvRingRotation b s) := by
  unfold execKvRingRotation
  exact KeepsNext.next (keeps_subBarrier (keeps_begin_ h))

theorem keeps_execSecondChancePass {o s : State} (h : Keeps o s) {b : BarrierReads} :
    KeepsNext o (execSecondChancePass b s) := by
  unfold execSecondChancePass
  exact KeepsNext.next (keeps_passBarrier (keeps_begin_ h))

theorem keeps_execAttentionMergePass {o s : State} (h : Keeps o s) {b : BarrierReads} :
    KeepsNext o (execAttentionMergePass b s) := by
  unfold execAttentionMergePass
  exact KeepsNext.next (keeps_passBarrier (keeps_begin_ h))

theorem keeps_execWeightReissue {o s : State} (h : Keeps o s) {b : BarrierReads} :
    KeepsNext o (execWeightReissue b s) := by
  unfold execWeightReissue
  exact KeepsNext.next (keeps_passBarrier (keeps_begin_ h))

theorem keeps_execWeightReloadComplete {o s : State} (h : Keeps o s) {image : Nat} :
    KeepsNext o (execWeightReloadComplete image s) := by
  unfold execWeightReloadComplete
  extract_lets s1 v2 v3
  have k4 : Keeps o s1 := keeps_begin_ h
  clear_value s1 v2
  exact KeepsNext.next (keeps_ite k4 (keeps_choose (keeps_mk k4)))

theorem keeps_execSweepClose {o s : State} (h : Keeps o s) {image : Nat} :
    KeepsNext o (execSweepClose image s) := by
  unfold execSweepClose
  extract_lets s1
  have k2 : Keeps o s1 := keeps_begin_ h
  clear_value s1
  refine KeepsNext.next ?_
  split
  · rename_i y3 e4
    exact k2
  · rename_i y5 y6 e7
    exact keeps_ite (keeps_closeSweep k2) k2

theorem keeps_execSourceTimeout {o s : State} (h : Keeps o s) {entry : Nat} :
    KeepsNext o (execSourceTimeout entry s) := by
  unfold execSourceTimeout
  extract_lets s1
  have k2 : Keeps o s1 := keeps_begin_ h
  clear_value s1
  refine KeepsNext.next ?_
  split
  · rename_i y3 e4
    exact k2
  · rename_i y5 y6 e7
    exact keeps_ite (keeps_settleWatch (keeps_streamFault k2)) k2

theorem keeps_execBarrierWatchdog {o s : State} (h : Keeps o s) :
    KeepsNext o (execBarrierWatchdog s) := by
  unfold execBarrierWatchdog
  extract_lets s1
  have k2 : Keeps o s1 := keeps_begin_ h
  clear_value s1
  exact KeepsNext.next (keeps_ite (keeps_failStop k2) k2)

theorem keeps_execWindowOpen {o s : State} (h : Keeps o s) {w : WindowIn} :
    KeepsNext o (execWindowOpen w s) := by
  unfold execWindowOpen
  extract_lets s1
  have k2 : Keeps o s1 := keeps_begin_ h
  clear_value s1
  exact KeepsNext.next (keeps_ite (keeps_choose (keeps_window k2)) k2)

theorem keeps_execBenchPowerGood {o s : State} (h : Keeps o s) {bench : Nat} :
    KeepsNext o (execBenchPowerGood bench s) := by
  unfold execBenchPowerGood
  extract_lets s1 v2
  have k3 : Keeps o s1 := keeps_begin_ h
  clear_value s1
  exact KeepsNext.next (keeps_ite (keeps_syncDamper (keeps_mk k3)) k3)

theorem keeps_execScratchpadPatrol {o s : State} (h : Keeps o s) {core : Nat} {corrected : List Nat} {bad : List Nat} :
    KeepsNext o (execScratchpadPatrol core corrected bad s) := by
  unfold execScratchpadPatrol
  extract_lets s1 v2
  have k3 : Keeps o s1 := keeps_begin_ h
  clear_value s1 v2
  exact KeepsNext.next (keeps_ite k3 (keeps_patrolSlice k3 (fun x4 x5 k6 => keeps_startReload k6)))

theorem keeps_scrubHoldWrite {o s : State} (h : Keeps o s) {value : Nat} :
    Keeps o (State.scrubHoldWrite s value) := by
  unfold State.scrubHoldWrite
  exact keeps_ite (keeps_badWrite h) (keeps_ite h (keeps_wr h))

theorem keeps_execScrubHold {o s : State} (h : Keeps o s) {value : Nat} :
    KeepsNext o (execScrubHold value s) := by
  unfold execScrubHold
  exact KeepsNext.next (keeps_gated (keeps_begin_ h) (fun x1 k2 => keeps_scrubHoldWrite k2))

end Sys2Proof.Machine
end

