-- ==== Sys2Proof/Laws/KeepsGather.lean ====
section
/-! SUPPORT. The functions of Machine/Gather.lean, Machine/Audio.lean keep the queue, the canonical form and the fixed sets of units. -/
namespace Sys2Proof.Machine
open Sys2Proof

set_option Elab.async false

theorem keeps_setWalk {o s : State} (h : Keeps o s) {id : Nat} {ix : Nat} {f : Walk → Walk} :
    Keeps o (State.setWalk s id ix f) := by
  unfold State.setWalk
  exact keeps_setImage h

theorem keeps_weightFails {o s : State} (h : Keeps o s) {m : Image} {region : Nat} {blocks : Nat} :
    Keeps o (State.weightFails s m region blocks) := by
  unfold State.weightFails
  extract_lets s1 s2
  have k3 : Keeps o s1 := keeps_foldl h (fun x4 x5 k6 => keeps_setErrLog (keeps_count k6))
  have k7 : Keeps o s2 := keeps_setRegion k3
  clear_value s1 s2
  exact keeps_imageFault k7

theorem keeps_slotDone {o s : State} (h : Keeps o s) {x : WalkEnv} {ix : Nat} {w : Walk} :
    Keeps o (State.slotDone s x ix w) := by
  unfold State.slotDone
  extract_lets v1 v2 v3 v4 v5 s6
  have k7 : ∀ (x8 : State), Keeps o x8 → Keeps o (v1 x8) := by
    intro x8 k9
    unfold v1
    extract_lets s10 s11
    have k12 : Keeps o s10 := keeps_setRegion k9
    have k13 : Keeps o s11 := keeps_ite (keeps_setImage k12) k12
    clear_value s10 s11
    exact keeps_setWalk k13
  have k14 : Keeps o s6 := keeps_foldl h (fun x15 x16 k17 => keeps_count k17)
  clear_value v1 v2 v3 v4 v5 s6
  exact keeps_ite (keeps_ite (k7 _ h) (keeps_ite (keeps_setWalk k14) (keeps_setWalk (keeps_weightFails h)))) (k7 _ h)

theorem keeps_pumpOne {o s : State} (h : Keeps o s) {id : Nat} {ix : Nat} {a2 : Nat} :
    Keeps o (State.pumpOne id ix a2 s) := by
  induction a2 generalizing id ix s with
  | zero =>
    unfold State.pumpOne
    exact h
  | succ w0 ih =>
    unfold State.pumpOne
    split
    · rename_i y1 e2
      exact h
    · rename_i y3 y4 e5
      split
      · rename_i y6 y7 y8 y9 e10 e11
        extract_lets v12 v13
        have k14 : ∀ (x15 : State), Keeps o x15 → Keeps o (v12 x15) := fun x15 k16 => keeps_setWalk k16
        clear_value v12
        exact keeps_ite h (keeps_ite (keeps_ite (ih (k14 _ h)) h) (keeps_ite h (keeps_ite (ih (k14 _ h)) (keeps_ite (ih (keeps_setWalk h)) (ih (keeps_slotDone h))))))
      · rename_i y17 y18 y19
        exact h

theorem keeps_pumpPrograms {o s : State} (h : Keeps o s) :
    Keeps o (State.pumpPrograms s) := by
  unfold State.pumpPrograms
  extract_lets s1
  have k2 : Keeps o s1 := keeps_foldl h (fun x3 x4 k5 => keeps_foldl k5 (fun x6 x7 k8 => keeps_pumpOne k8))
  clear_value s1
  exact keeps_ite k2 (keeps_choose k2)

theorem keeps_recordFault {o s : State} (h : Keeps o s) {bench : Nat} {prog : Nat} {image : Nat} {cause : Nat} {entry : Option Nat} :
    Keeps o (State.recordFault s bench prog image cause entry) := by
  unfold State.recordFault
  extract_lets s1 s2 s3 s4 s5 s6
  have k7 : Keeps o s1 := keeps_wr h
  have k8 : Keeps o s2 := keeps_wr k7
  have k9 : Keeps o s3 := keeps_wr k8
  have k10 : Keeps o s4 := keeps_wr k9
  have k11 : Keeps o s5 := keeps_wr k10
  have k12 : Keeps o s6 := keeps_setErr k11
  clear_value s1 s2 s3 s4 s5 s6
  exact keeps_ite (keeps_sealedErr k12) (keeps_unmappedErr k12)

theorem keeps_dropBuiltIn {o s : State} (h : Keeps o s) {id : Nat} :
    Keeps o (State.dropBuiltIn s id) := by
  unfold State.dropBuiltIn
  exact keeps_mk h

theorem keeps_xferFault {o s : State} (h : Keeps o s) {bench : Nat} {cause : Nat} {owner : Owner} {x : Xfer} :
    Keeps o (State.xferFault s bench cause owner x) := by
  unfold State.xferFault
  split
  · rename_i y1 y2 y3
    extract_lets s4
    have k5 : Keeps o s4 := keeps_recordFault h
    clear_value s4
    split
    · rename_i y6 y7 e8
      exact keeps_streamFault (keeps_setWalk k5)
    · rename_i y9 e10
      exact keeps_imageFault (keeps_setWalk k5)
  · rename_i y11 y12
    split
    · rename_i y13 e14
      exact h
    · rename_i y15 y16 e17
      refine keeps_ite ?_ ?_
      · extract_lets s18
        have k19 : Keeps o s18 := keeps_dropBuiltIn (keeps_ite (keeps_sealedErr h) (keeps_unmappedErr h))
        clear_value s18
        split
        · rename_i y20 y21 y22 y23 e24 e25
          exact keeps_puntyRefused k19
        · rename_i y26 y27 y28
          exact k19
      · extract_lets s29
        have k30 : Keeps o s29 := keeps_dropBuiltIn (keeps_recordFault h)
        clear_value s29
        split
        · rename_i y31 y32 e33
          exact keeps_streamFault k30
        · rename_i y34 e35
          exact keeps_imageFault k30

theorem keeps_takeX {o s : State} (h : Keeps o s) {owner : Owner} {x : Xfer} :
    Keeps o (State.takeX s owner x) := by
  unfold State.takeX
  split
  · rename_i y1 y2 y3
    exact keeps_setWalk h
  · rename_i y4 y5
    exact keeps_mk h

theorem keeps_readEnd {o s : State} (h : Keeps o s) {x : Xfer} {n : Nat} {m : MemOutcome} :
    Keeps3 o (State.readEnd s x n m) := by
  unfold State.readEnd
  split
  · rename_i y1 y2 e3
    exact Keeps3.mk h
  · rename_i y4 e5
    split
    · rename_i y6 y7 e8
      refine Keeps3.ite (Keeps3.mk (keeps_sealedErr h)) ?_
      extract_lets v9
      clear_value v9
      split
      · rename_i y10 y11 y12 e13
        have k14 : Keeps o y12 := Keeps2.of_eq e13 (keeps_narrowRead h)
        exact Keeps3.mk k14
    · rename_i y15 y16 e17
      extract_lets v18 v19
      clear_value v18 v19
      split
      · rename_i y20 y21 y22 y23 e24
        have k25 : Keeps o y23 := Keeps3.of_eq e24 (keeps_memReads h)
        extract_lets v26
        clear_value v26
        exact Keeps3.mk k25
    · rename_i y27 y28 e29
      exact Keeps3.mk h
    · rename_i y30 y31 y32 y33
      exact Keeps3.mk h

theorem keeps_remoteMsg {o s : State} (h : Keeps o s) {id : Nat} {kind : Option BKind} {x : Xfer} :
    Keeps2 o (State.remoteMsg s id kind x) := by
  unfold State.remoteMsg
  extract_lets v1 v2
  clear_value v1 v2
  split
  · rename_i y3 y4
    exact Keeps2.mk h
  · rename_i y5 y6
    split
    · rename_i y7 y8 y9 y10 e11
      exact Keeps2.ite (Keeps2.mk h) (Keeps2.mk h)
    · rename_i y12 y13 y14 y15 e16 y17
      split
      · rename_i y18 y19 y20 y21 e22
        have k23 : Keeps o y21 := Keeps3.of_eq e22 (keeps_readEnd h)
        extract_lets v24
        clear_value v24
        exact Keeps2.mk k23
    · rename_i y25 y26 y27 y28
      exact Keeps2.mk h

theorem keeps_launch {o s : State} (h : Keeps o s) {bench : Nat} {it : WorkItem} :
    Keeps o (State.launch s bench it) := by
  unfold State.launch
  extract_lets v1 v2 v3 v4 s5 v6 v7 v8 v9
  have k10 : Keeps o s5 := keeps_takeX h
  clear_value v1 v2 v3 v4 s5 v6 v7 v8 v9
  refine keeps_ite (keeps_xferFault k10) ?_
  split
  · rename_i y11 y12 e13
    have k14 : Keeps o y12 := Keeps2.of_eq e13 (keeps_remoteMsg k10)
    exact keeps_mk k10
  · rename_i y15 y16 y17 e18
    have k19 : Keeps o y17 := Keeps2.of_eq e18 (keeps_remoteMsg k10)
    split
    · rename_i y20 e21
      exact keeps_xferFault k10
    · rename_i y22 y23 e24
      have k25 : Keeps o y23 := KeepsOpt.of_eq e24 (keeps_sendMsg k19)
      exact keeps_mk k25

theorem keeps_gatherIssue {o s : State} (h : Keeps o s) {bench : Nat} :
    Keeps o (State.gatherIssue s bench) := by
  unfold State.gatherIssue
  extract_lets s1
  have k2 : Keeps o s1 := keeps_pumpPrograms h
  clear_value s1
  split
  · rename_i y3 e4
    exact k2
  · rename_i y5 y6 y7 e8
    exact keeps_ite (keeps_count k2) (keeps_syncGth (keeps_launch k2))

theorem keeps_landPoison {o s : State} (h : Keeps o s) {bench : Nat} {a : Nat} {words : List Nat} :
    Keeps o (State.landPoison s bench a words) := by
  unfold State.landPoison
  refine keeps_ite h ?_
  extract_lets s1
  have k2 : Keeps o s1 := keeps_foldl h (fun x3 x4 k5 => keeps_poisonSpad k5)
  clear_value s1
  exact keeps_setErr (keeps_count k2)

theorem keeps_hostDrop {o s : State} (h : Keeps o s) {f : Flight} :
    Keeps o (State.hostDrop s f) := by
  unfold State.hostDrop
  split
  · rename_i y1 y2 e3
    exact keeps_ringDrop h
  · rename_i y4 y5
    exact keeps_evtDev h

theorem keeps_writeEnd {o s : State} (h : Keeps o s) {f : Flight} {d : List Byte} {words : List Nat} {m : MemOutcome} {msg : Bool} :
    Keeps o (State.writeEnd s f d words m msg) := by
  unfold State.writeEnd
  split
  · rename_i y1 y2 e3
    split
    · rename_i y4 e5
      exact keeps_landPoison (keeps_narrowWrite h)
    · rename_i y6 e7
      exact keeps_sealedErr h
    · rename_i y8 y9 y10
      exact h
  · rename_i y11 y12 e13
    extract_lets s14
    have k15 : Keeps o s14 := keeps_memWrites h
    clear_value s14
    exact keeps_ite (keeps_spoilLp k15) k15
  · rename_i y16 y17 e18
    exact keeps_ite (keeps_hostPut h) (keeps_hostDrop h)
  · rename_i y19 y20 y21 y22
    exact h

theorem keeps_atomicEnd {o s : State} (h : Keeps o s) {f : Flight} {d : List Byte} {words : List Nat} :
    Keeps2 o (State.atomicEnd s f d words) := by
  unfold State.atomicEnd
  extract_lets v1 v2
  clear_value v1 v2
  split
  · rename_i y3 y4 y5 e6
    have k7 : Keeps o y5 := Keeps2.of_eq e6 (keeps_spadAtomic h)
    exact Keeps2.mk (keeps_ite (keeps_landPoison k7) k7)

theorem keeps_landData {o s : State} (h : Keeps o s) {f : Flight} {d : List Byte} {words : List Nat} {m : MemOutcome} :
    Keeps o (State.landData s f d words m) := by
  unfold State.landData
  extract_lets v1
  clear_value v1
  split
  · rename_i y2 e3
    exact keeps_writeEnd h
  · rename_i y4 e5
    exact keeps_writeEnd h
  · rename_i y6 e7
    exact Keeps2.get (keeps_atomicEnd h)
  · rename_i y8 e9
    split
    · rename_i y10 y11 y12 e13
      have k14 : Keeps o y12 := Keeps2.of_eq e13 (keeps_atomicEnd h)
      exact keeps_writeEnd k14
  · rename_i y15 e16
    split
    · rename_i y17 y18 e19
      exact Keeps3.get (keeps_unitAtomic h)
    · rename_i y20 y21
      exact h
  · rename_i y22 y23 y24 y25 y26 y27
    exact keeps_writeEnd h

theorem keeps_perform {o s : State} (h : Keeps o s) {f : Flight} {kind : Option BKind} {m : MemOutcome} :
    Keeps1 o (State.perform s f kind m) := by
  unfold State.perform
  extract_lets v1 v2
  clear_value v1 v2
  split
  · rename_i y3 y4 y5 y6 e7
    have k8 : Keeps o y6 := Keeps3.of_eq e7 (keeps_readEnd h)
    exact Keeps1.mk (keeps_ite k8 (keeps_landData k8))

theorem keeps_fillInitial {o s : State} (h : Keeps o s) {f : Flight} {m : MemOutcome} :
    Keeps1 o (State.fillInitial s f m) := by
  unfold State.fillInitial
  split
  · rename_i y1 y2 y3 y4 e5
    have k6 : Keeps o y4 := Keeps3.of_eq e5 (keeps_readEnd h)
    refine Keeps1.mk ?_
    split
    · rename_i y7 e8
      exact k6
    · rename_i y9 y10 e11
      exact keeps_ite (keeps_setStream k6) k6

theorem keeps_weightLanded {o s : State} (h : Keeps o s) {b : BuiltIn} {region : Nat} :
    Keeps o (State.weightLanded s b region) := by
  unfold State.weightLanded
  split
  · rename_i y1 y2 y3 y4 e5 e6
    extract_lets v7 s8 v9
    have k10 : Keeps o s8 := keeps_foldl h (fun x11 x12 k13 => keeps_count k13)
    clear_value v7 s8 v9
    exact keeps_ite (keeps_setRegion (keeps_dropBuiltIn h)) (keeps_ite (keeps_mk k10) (keeps_weightFails (keeps_dropBuiltIn h)))
  · rename_i y14 y15 y16
    exact keeps_dropBuiltIn h

theorem keeps_zeroCounters {o s : State} (h : Keeps o s) {a : Nat} :
    Keeps o (State.zeroCounters s a) := by
  unfold State.zeroCounters
  extract_lets s1 s2 s3
  have k4 : Keeps o s1 := keeps_lpNarrowPut h
  have k5 : Keeps o s2 := keeps_lpNarrowPut k4
  have k6 : Keeps o s3 := keeps_lpNarrowPut k5
  clear_value s1 s2 s3
  exact keeps_lpNarrowPut k6

theorem keeps_builtDone {o s : State} (h : Keeps o s) {b : BuiltIn} :
    Keeps o (State.builtDone s b) := by
  unfold State.builtDone
  extract_lets v1 s2
  have k3 : Keeps o s2 := keeps_dropBuiltIn h
  clear_value v1 s2
  split
  · rename_i y4 y5 e6
    exact keeps_weightLanded h
  · rename_i y7 y8
    split
    · rename_i y9 y10 e11
      exact keeps_setStream k3
    · rename_i y12 e13
      exact keeps_setStream k3
    · rename_i y14 e15
      split
      · rename_i y16 e17
        exact k3
      · rename_i y18 y19 e20
        exact keeps_setStream (keeps_zeroCounters k3)
    · rename_i y21 e22
      exact keeps_settleWatch (keeps_puntyStart k3)
    · rename_i y23 e24
      exact keeps_settleWatch (keeps_puntyStart k3)
    · rename_i y25 y26 e27
      exact keeps_puntyDone k3
    · rename_i y28 y29 e30
      exact keeps_rotationDone k3
    · rename_i y31 y32 y33 y34 y35 y36 y37 y38
      exact k3

theorem keeps_leaveFlight {o s : State} (h : Keeps o s) {f : Flight} :
    Keeps o (State.leaveFlight s f) := by
  unfold State.leaveFlight
  extract_lets s1
  have k2 : Keeps o s1 := keeps_mk h
  clear_value s1
  exact keeps_syncGth (keeps_evtCount (keeps_count64 k2))

theorem keeps_flightOver {o s : State} (h : Keeps o s) {f : Flight} {poison : Bool} :
    Keeps o (State.flightOver s f poison) := by
  unfold State.flightOver
  split
  · rename_i y1 y2 y3 e4
    extract_lets s5
    have k6 : Keeps o s5 := keeps_setWalk h
    clear_value s5
    exact keeps_pumpPrograms k6
  · rename_i y7 y8 e9
    split
    · rename_i y10 e11
      exact h
    · rename_i y12 y13 e14
      refine keeps_ite (keeps_streamFault (keeps_dropBuiltIn h)) ?_
      refine keeps_ite (keeps_streamFault (keeps_dropBuiltIn h)) ?_
      refine keeps_ite ?_ h
      extract_lets s15
      have k16 : Keeps o s15 := keeps_builtDone h
      clear_value s15
      exact keeps_ite (keeps_choose k16) k16

theorem keeps_endFlight {o s : State} (h : Keeps o s) {f : Flight} {poison : Bool} :
    Keeps o (State.endFlight s f poison) := by
  unfold State.endFlight
  exact keeps_flightOver (keeps_leaveFlight h)

theorem keeps_failFlight {o s : State} (h : Keeps o s) {f : Flight} :
    Keeps o (State.failFlight s f) := by
  unfold State.failFlight
  exact keeps_xferFault (keeps_syncGth (keeps_mk h))

theorem keeps_landFlight {o s : State} (h : Keeps o s) {f : Flight} {m : MemOutcome} :
    Keeps o (State.landFlight s f m) := by
  unfold State.landFlight
  extract_lets v1 v2 s3
  have k4 : Keeps o s3 := keeps_ite (keeps_wr h) h
  clear_value v1 v2 s3
  refine keeps_ite (keeps_failFlight h) ?_
  split
  · rename_i y5 y6 y7 e8
    have k9 : Keeps o y6 := Keeps1.of_eq e8 (Keeps1.ite (keeps_fillInitial k4) (keeps_perform k4))
    exact keeps_endFlight k9

theorem keeps_execGatherTransferIssue {o s : State} (h : Keeps o s) {bench : Nat} :
    KeepsNext o (execGatherTransferIssue bench s) := by
  unfold execGatherTransferIssue
  extract_lets s1
  have k2 : Keeps o s1 := keeps_begin_ h
  clear_value s1
  exact KeepsNext.next (keeps_ite k2 (keeps_gatherIssue k2))

theorem keeps_execTransferLand {o s : State} (h : Keeps o s) {id : Nat} {m : MemOutcome} :
    KeepsNext o (execTransferLand id m s) := by
  unfold execTransferLand
  extract_lets s1
  have k2 : Keeps o s1 := keeps_begin_ h
  clear_value s1
  refine KeepsNext.next ?_
  split
  · rename_i y3 e4
    exact k2
  · rename_i y5 y6 e7
    exact keeps_ite k2 (keeps_landFlight (keeps_noteSoft k2))

theorem keeps_execLpddrDeferExpire {o s : State} (h : Keeps o s) {id : Nat} :
    KeepsNext o (execLpddrDeferExpire id s) := by
  unfold execLpddrDeferExpire
  extract_lets s1
  have k2 : Keeps o s1 := keeps_begin_ h
  clear_value s1
  exact KeepsNext.next (keeps_mk k2)

theorem keeps_aptBegin {o s : State} (h : Keeps o s) {p : Nat} :
    Keeps o (State.aptBegin s p) := by
  unfold State.aptBegin
  extract_lets s1 s2 s3 s4
  have k5 : Keeps o s1 := keeps_setAport h
  have k6 : Keeps o s2 := keeps_wr (keeps_wr (keeps_wr k5))
  have k7 : Keeps o s3 := keeps_wr (keeps_wr k6)
  have k8 : Keeps o s4 := keeps_setAport k7
  clear_value s1 s2 s3 s4
  exact keeps_idleSlots (keeps_driveClocks k8)

theorem keeps_aptEnable {o s : State} (h : Keeps o s) {p : Nat} {v : Nat} :
    Keeps o (State.aptEnable s p v) := by
  unfold State.aptEnable
  extract_lets v1
  clear_value v1
  exact keeps_ite (keeps_aptHalt (keeps_wr h)) (keeps_ite (keeps_ite h (keeps_aptBegin h)) (keeps_ite (keeps_wr h) h))

theorem keeps_aptPrerollEnd {o s : State} (h : Keeps o s) {p : Nat} :
    Keeps o (State.aptPrerollEnd s p) := by
  unfold State.aptPrerollEnd
  refine keeps_ite h ?_
  refine keeps_ite h ?_
  extract_lets s1
  have k2 : Keeps o s1 := keeps_setAport (keeps_wr h)
  clear_value s1
  exact keeps_idleSlots k2

theorem keeps_keepStamp {o s : State} (h : Keeps o s) {p : Nat} :
    Keeps o (State.keepStamp s p) := by
  unfold State.keepStamp
  extract_lets v1 s2 v3
  have k4 : Keeps o s2 := keeps_wr (keeps_wr h)
  clear_value v1 s2 v3
  exact keeps_ite k4 (keeps_wr (keeps_wr (keeps_wr k4)))

theorem keeps_aptStopEnd {o s : State} (h : Keeps o s) {p : Nat} :
    Keeps o (State.aptStopEnd s p) := by
  unfold State.aptStopEnd
  refine keeps_ite h ?_
  extract_lets s1
  have k2 : Keeps o s1 := keeps_put (keeps_wr (keeps_wr (keeps_keepStamp h)))
  clear_value s1
  exact keeps_ite (keeps_aptBegin k2) k2

theorem keeps_aptSamples {o s : State} (h : Keeps o s) {p : Nat} {frames : List (List Nat)} :
    Keeps1 o (State.aptSamples s p frames) := by
  unfold State.aptSamples
  extract_lets v1 v2 v3 v4 v5 v6
  have k7 : ∀ (x8 : State × List (List Nat) × List Int × List (List Int)) (x9 : Nat), Keeps1 o x8 → Keeps1 o (v6 x8 x9) := by
    intro x8 x9 k10
    unfold v6
    split
    · rename_i y11 y12 y13 y14 y15
      extract_lets v16 v17 v18 v19
      clear_value v16 v17 v18 v19
      refine Keeps1.ite (Keeps1.mk k10.get) ?_
      split
      · rename_i y20 y21 y22 y23 y24 e25
        extract_lets s26 s27 v28 v29
        have k30 : Keeps o s26 := keeps_ite k10.get (keeps_count k10.get)
        have k31 : Keeps o s27 := keeps_ite k30 (keeps_count k30)
        clear_value s26 s27 v28 v29
        exact Keeps1.ite (Keeps1.mk k31) (Keeps1.mk k31)
  clear_value v1 v2 v3 v4 v5 v6
  split
  · rename_i y32 y33 y34 y35 y36 e37
    have k38 : Keeps o y33 := Keeps1.of_eq e37 (keeps_foldl1 (Keeps1.mk h) (fun x39 x40 k41 => k7 _ _ k41))
    exact Keeps1.mk (keeps_setAport k38)

theorem keeps_noteOverrun {o s : State} (h : Keeps o s) {p : Nat} {n : Nat} {pin : Nat} {first : Bool} :
    Keeps o (State.noteOverrun s p n pin first) := by
  unfold State.noteOverrun
  extract_lets s1
  have k2 : Keeps o s1 := keeps_setErr (keeps_count h)
  clear_value s1
  exact keeps_ite (keeps_wr64 k2) k2

theorem keeps_landFrames {o s : State} (h : Keeps o s) {p : Nat} {frames : List (List Nat)} {pin : Nat} {stamp : Nat} :
    Keeps o (State.landFrames s p frames pin stamp) := by
  unfold State.landFrames
  extract_lets v1 v2
  clear_value v1 v2
  split
  · rename_i y3 y4 y5 e6
    have k7 : Keeps o y4 := Keeps1.of_eq e6 (keeps_aptSamples h)
    extract_lets v8 v9 s10
    have k11 : ∀ (x12 : State) (x13 : Stream), Keeps o x12 → Keeps o (v9 x12 x13) := by
      intro x12 x13 k14
      unfold v9
      extract_lets s15 v16 s17 s18 v19
      have k20 : Keeps o s15 := keeps_ite k14 (keeps_fillMissing k14)
      have k21 : Keeps o s17 := keeps_landBlock k20
      have k22 : Keeps o s18 := keeps_ite (keeps_setStream k21) k21
      clear_value s15 v16 s17 s18 v19
      exact keeps_ite k22 (keeps_noteOverrun k22)
    have k23 : Keeps o s10 := keeps_foldl k7 (fun x24 x25 k26 => k11 _ _ k26)
    clear_value v8 v9 s10
    exact keeps_setAport k23

theorem keeps_inputBlock {o s : State} (h : Keeps o s) {p : Nat} {frames : List (List Nat)} {pin : Nat} {pend : Nat} :
    Keeps o (State.inputBlock s p frames pin pend) := by
  unfold State.inputBlock
  extract_lets v1 v2 v3 s4 s5 s6 s7
  have k8 : Keeps o s4 := h
  have k9 : Keeps o s5 := keeps_knowFrame (keeps_setAport h)
  have k10 : Keeps o s6 := keeps_landFrames k9
  have k11 : Keeps o s7 := keeps_wr (keeps_wr k10)
  clear_value v1 v2 v3 s4 s5 s6 s7
  exact keeps_ite h (keeps_chooseIfReady (keeps_settleWatch (keeps_wr k11)))

theorem keeps_loseLock {o s : State} (h : Keeps o s) {p : Nat} {frames : List (List Nat)} {pin : Nat} {pend : Nat} :
    Keeps o (State.loseLock s p frames pin pend) := by
  unfold State.loseLock
  refine keeps_ite h ?_
  extract_lets v1 v2 v3 s4 s5 s6
  have k7 : Keeps o s4 := keeps_ite (keeps_landFrames h) h
  have k8 : Keeps o s5 := keeps_count (keeps_wr k7)
  have k9 : Keeps o s6 := keeps_setErr k8
  clear_value v1 v2 v3 s4 s5 s6
  exact keeps_setAport k9

theorem keeps_gainLock {o s : State} (h : Keeps o s) {p : Nat} {gap : Nat} :
    Keeps o (State.gainLock s p gap) := by
  unfold State.gainLock
  refine keeps_ite h ?_
  extract_lets s1 v2 s3 v4 v5 s6
  have k7 : Keeps o s1 := keeps_wr h
  have k8 : Keeps o s3 := k7
  have k9 : ∀ (x10 : State) (x11 : Stream), Keeps o x10 → Keeps o (v4 x10 x11) := by
    intro x10 x11 k12
    unfold v4
    extract_lets v13 v14 s15 s16
    have k17 : Keeps o s15 := keeps_landRun k12
    have k18 : Keeps o s16 := keeps_setErr (keeps_count k17)
    clear_value v13 v14 s15 s16
    exact keeps_ite k12 (keeps_ite k17 (keeps_ite (keeps_wr64 k18) k18))
  have k19 : Keeps o s6 := keeps_ite (keeps_foldl k7 (fun x20 x21 k22 => k9 _ _ k22)) k7
  clear_value s1 v2 s3 v4 v5 s6
  exact keeps_ite (keeps_ite k7 (keeps_setAport k7)) (keeps_chooseIfReady (keeps_settleWatch (keeps_setAport k19)))

theorem keeps_iecBlock {o s : State} (h : Keeps o s) {p : Nat} {status : List Bool} {user : List Bool} :
    Keeps o (State.iecBlock s p status user) := by
  unfold State.iecBlock
  refine keeps_ite h ?_
  extract_lets v1 v2 s3
  have k4 : Keeps o s3 := keeps_foldl h (fun x5 x6 k7 => keeps_wrAt k7)
  clear_value v1 v2 s3
  exact keeps_ite (keeps_setErr (keeps_count k4)) (keeps_foldl k4 (fun x8 x9 k10 => keeps_wrAt (keeps_wrAt k10)))

theorem keeps_takeChunk {o s : State} (h : Keeps o s) {t : Stream} {frame : Nat} {pin : Nat} :
    Keeps o (State.takeChunk s t frame pin) := by
  unfold State.takeChunk
  extract_lets v1 v2 v3 v4 v5 v6 v7 v8 v9 v10 v11
  clear_value v1 v2 v3 v4 v5 v6 v7 v8 v9 v10 v11
  refine keeps_ite h ?_
  split
  · rename_i y12 y13 y14 e15
    have k16 : Keeps o y14 := by
      refine Keeps2.of_eq e15 ?_
      split
      · rename_i y17 y18 y19
        split
        · rename_i y20 y21 y22 e23
          have k24 : Keeps o y22 := Keeps2.of_eq e23 (keeps_narrowRead h)
          exact Keeps2.mk k24
      · rename_i y25
        exact Keeps2.mk h
    extract_lets s26 v27 s28 v29 v30 s31 s32
    have k33 : Keeps o s26 := keeps_ite k16 (keeps_setErr (keeps_wr64 (keeps_count k16)))
    have k34 : Keeps o s28 := keeps_ite k33 (keeps_knowFrame k33)
    have k35 : Keeps o s31 := keeps_setAport k34
    have k36 : Keeps o s32 := keeps_setStream k35
    clear_value s26 v27 s28 v29 v30 s31 s32
    exact keeps_ite (keeps_sendAhead k36) (keeps_put k36)

theorem keeps_setTrim {o s : State} (h : Keeps o s) {i : Nat} {trim : Int} :
    Keeps o (State.setTrim s i trim) := by
  unfold State.setTrim
  extract_lets v1 s2 v3 s4
  have k5 : Keeps o s2 := keeps_foldl h (fun x6 x7 k8 => keeps_rebase k8)
  have k9 : Keeps o s4 := keeps_wrAt k5
  clear_value v1 s2 v3 s4
  exact keeps_ite k9 (keeps_retimeStops (keeps_foldl k9 (fun x10 x11 k12 => keeps_driveClocks k12)))

theorem keeps_seePins {o s : State} (h : Keeps o s) {pins : List (Nat × Nat × Nat)} :
    Keeps o (State.seePins s pins) := by
  unfold State.seePins
  exact keeps_foldl h (fun x1 x2 k3 => keeps_ite k3 (keeps_knowFrame k3))

theorem keeps_steer {o s : State} (h : Keeps o s) {i : Nat} :
    Keeps o (State.steer s i) := by
  unfold State.steer
  extract_lets v1 s2 v3 v4 v5 v6 v7 v8 v9 v10 v11 v12 v13 v14 v15 s16 s17 s18
  have k19 : Keeps o s2 := keeps_setGen h
  have k20 : Keeps o s16 := keeps_setGen k19
  have k21 : Keeps o s17 := keeps_wrAt (keeps_setTrim k20)
  have k22 : Keeps o s18 := keeps_wrAt (keeps_wrAt k21)
  clear_value v1 s2 v3 v4 v5 v6 v7 v8 v9 v10 v11 v12 v13 v14 v15 s16 s17 s18
  exact keeps_ite h (keeps_ite (keeps_setGen (keeps_wrAt k19)) (keeps_wrAt (keeps_wrAt k22)))

theorem keeps_execInputBlockLand {o s : State} (h : Keeps o s) {port : Nat} {codes : List (List Nat)} {pinTime : Nat} {lastEnd : Nat} :
    KeepsNext o (execInputBlockLand port codes pinTime lastEnd s) := by
  unfold execInputBlockLand
  exact KeepsNext.next (keeps_inputBlock (keeps_begin_ h))

theorem keeps_execOutputTake {o s : State} (h : Keeps o s) {entry : Nat} {frame : Nat} {pin : Nat} :
    KeepsNext o (execOutputTake entry frame pin s) := by
  unfold execOutputTake
  extract_lets s1
  have k2 : Keeps o s1 := keeps_begin_ h
  clear_value s1
  refine KeepsNext.next ?_
  split
  · rename_i y3 y4 e5
    exact keeps_takeChunk k2
  · rename_i y6 e7
    exact k2

theorem keeps_execIecBlockReceive {o s : State} (h : Keeps o s) {port : Nat} {status : List Bool} {user : List Bool} :
    KeepsNext o (execIecBlockReceive port status user s) := by
  unfold execIecBlockReceive
  exact KeepsNext.next (keeps_iecBlock (keeps_begin_ h))

theorem keeps_execLockLoss {o s : State} (h : Keeps o s) {port : Nat} {codes : List (List Nat)} {pinTime : Nat} {lastEnd : Nat} :
    KeepsNext o (execLockLoss port codes pinTime lastEnd s) := by
  unfold execLockLoss
  exact KeepsNext.next (keeps_loseLock (keeps_begin_ h))

theorem keeps_execLockAcquire {o s : State} (h : Keeps o s) {port : Nat} {gap : Nat} :
    KeepsNext o (execLockAcquire port gap s) := by
  unfold execLockAcquire
  exact KeepsNext.next (keeps_gainLock (keeps_begin_ h))

theorem keeps_execAptStart {o s : State} (h : Keeps o s) {port : Nat} :
    KeepsNext o (execAptStart port s) := by
  unfold execAptStart
  exact KeepsNext.next (keeps_gated (keeps_begin_ h) (fun x1 k2 => keeps_aptEnable k2))

theorem keeps_execAptStop {o s : State} (h : Keeps o s) {port : Nat} :
    KeepsNext o (execAptStop port s) := by
  unfold execAptStop
  exact KeepsNext.next (keeps_gated (keeps_begin_ h) (fun x1 k2 => keeps_aptEnable k2))

theorem keeps_execPrerollEnd {o s : State} (h : Keeps o s) {port : Nat} :
    KeepsNext o (execPrerollEnd port s) := by
  unfold execPrerollEnd
  exact KeepsNext.next (keeps_aptPrerollEnd (keeps_begin_ h))

theorem keeps_execStopEnd {o s : State} (h : Keeps o s) {port : Nat} :
    KeepsNext o (execStopEnd port s) := by
  unfold execStopEnd
  exact KeepsNext.next (keeps_aptStopEnd (keeps_begin_ h))

theorem keeps_execSteerUpdate {o s : State} (h : Keeps o s) {gen : Nat} {pins : List (Nat × Nat × Nat)} :
    KeepsNext o (execSteerUpdate gen pins s) := by
  unfold execSteerUpdate
  exact KeepsNext.next (keeps_steer (keeps_seePins (keeps_begin_ h)))

end Sys2Proof.Machine
end

