-- ==== Sys2Proof/Laws/KeepsParison.lean ====
section
/-! SUPPORT. The functions of Machine/Parison.lean, Machine/Failover.lean keep the queue, the canonical form and the fixed sets of units. -/
namespace Sys2Proof.Machine
open Sys2Proof

set_option Elab.async false

theorem keeps_commitGate {o s : State} (h : Keeps o s) {f : State → State} (hf : ∀ x0, Keeps o x0 → Keeps o (f x0)) :
    Keeps o (State.commitGate s f) := by
  unfold State.commitGate
  exact keeps_gated h (fun x1 k2 => keeps_ite (keeps_setErr k2) (hf _ k2))

theorem keeps_setWhere {o s : State} (h : Keeps o s) {kind : Nat} {where_ : Nat} {entry : Nat} :
    Keeps o (State.setWhere s kind where_ entry) := by
  unfold State.setWhere
  exact keeps_wr (keeps_wr (keeps_wr h))

theorem keeps_startCheck {o s : State} (h : Keeps o s) :
    Keeps o (State.startCheck s) := by
  unfold State.startCheck
  exact keeps_commitGate h (fun x1 k2 => keeps_ite (keeps_setCode k2) (keeps_ite (keeps_setCode k2) (keeps_wr k2)))

theorem keeps_checkResult {o s : State} (h : Keeps o s) {r : Except Refuse (List Image × State)} :
    Keeps o (State.checkResult s r) := by
  unfold State.checkResult
  split
  · rename_i y1 y2
    extract_lets v3 s4
    have k5 : Keeps o s4 := keeps_mk h
    clear_value s4
    exact keeps_setWhere (keeps_setCode (keeps_setParState k5))
  · rename_i y6 y7 y8
    extract_lets v9 v10 s11
    have k12 : Keeps o s11 := keeps_setClaims (keeps_mk h)
    clear_value v9 s11
    exact keeps_setWhere (keeps_setCode (keeps_setParState k12))

theorem keeps_checkArm {o s : State} (h : Keeps o s) {e : Nat} :
    Keeps o (State.checkArm s e) := by
  unfold State.checkArm
  extract_lets v1 v2 v3 s4 s5
  have k6 : Keeps o s4 := keeps_ite h (Keeps2.get (keeps_devRead h))
  have k7 : Keeps o s5 := keeps_ite k6 (Keeps2.get (keeps_devRead k6))
  clear_value v1 v2 v3 s4 s5
  exact keeps_ite h (keeps_ite k7 (Keeps2.get (keeps_devRead k7)))

theorem keeps_checkImage {o s : State} (h : Keeps o s) {id : Nat} :
    Keeps o (State.checkImage s id) := by
  unfold State.checkImage
  split
  · rename_i y1 y2 y3 y4 e5
    exact keeps_ite h (keeps_bulkRead h)

theorem keeps_checkReads {o s : State} (h : Keeps o s) :
    Keeps o (State.checkReads s) := by
  unfold State.checkReads
  extract_lets s1
  have k2 : Keeps o s1 := by
    refine keeps_foldl h ?_
    intro x3 x4 k5
    extract_lets s6
    have k7 : Keeps o s6 := keeps_gafRead k5
    clear_value s6
    exact keeps_checkArm (Keeps2.get (keeps_devRead k7))
  clear_value s1
  exact keeps_foldl k2 (fun x8 x9 k10 => keeps_checkImage k10)

theorem keeps_endCheck_ {o s : State} (h : Keeps o s) :
    Keeps o (State.endCheck_ s) := by
  unfold State.endCheck_
  extract_lets s1
  have k2 : Keeps o s1 := keeps_checkReads (keeps_wr h)
  clear_value s1
  exact keeps_checkResult k2

theorem keeps_startApply {o s : State} (h : Keeps o s) {whenBit : Nat} :
    Keeps o (State.startApply s whenBit) := by
  unfold State.startApply
  refine keeps_commitGate h ?_
  intro x1 k2
  refine keeps_ite (keeps_setCode k2) ?_
  extract_lets v3 v4 s5
  have k6 : Keeps o s5 := keeps_mk k2
  clear_value v3 s5
  exact keeps_ite (keeps_setCode k2) (keeps_ite (keeps_setCode k2) (keeps_parWatch (keeps_setCode (keeps_setParState k6))))

theorem keeps_takeStaged {o s : State} (h : Keeps o s) :
    Keeps o (State.takeStaged s) := by
  unfold State.takeStaged
  extract_lets s1 v2 s3
  have k4 : Keeps o s1 := keeps_foldl h (fun x5 x6 k7 => keeps_setWord k7)
  have k8 : Keeps o s3 := keeps_mk k4
  clear_value s1 s3
  exact keeps_ite k4 (keeps_reroute k8)

theorem keeps_applyTally {o s : State} (h : Keeps o s) :
    Keeps o (State.applyTally s) := by
  unfold State.applyTally
  extract_lets v1 s2 s3 v4 s5 s6 v7 s8
  have k9 : Keeps o s2 := keeps_wr h
  have k10 : Keeps o s3 := keeps_wrSh k9
  have k11 : Keeps o s5 := keeps_ite (keeps_mk k10) k10
  have k12 : Keeps o s6 := keeps_ite (keeps_wr k11) k11
  have k13 : Keeps o s8 := keeps_mk k12
  clear_value v1 s2 s3 s5 s6 s8
  exact keeps_tallyCarry (keeps_syncTally (keeps_extendM k13))

theorem keeps_applyFleet {o s : State} (h : Keeps o s) :
    Keeps o (State.applyFleet s) := by
  unfold State.applyFleet
  extract_lets v1 s2 v3
  have k4 : Keeps o s2 := Keeps2.get (keeps_devRead h)
  clear_value v1 s2
  exact keeps_ite k4 (keeps_extendM (keeps_mk k4))

theorem keeps_zeroTable {o s : State} (h : Keeps o s) {b : Nat} :
    Keeps o (State.zeroTable s b) := by
  unfold State.zeroTable
  extract_lets v1 v2 v3 v4 v5 v6 s7
  have k8 : Keeps o s7 := keeps_foldl (keeps_zeroLp h) (fun x9 x10 k11 => keeps_evtDev (keeps_count k11))
  clear_value v1 v2 v3 v4 v5 v6 s7
  exact keeps_ite (keeps_unmappedErr k8) k8

theorem keeps_applyBase {o s : State} (h : Keeps o s) :
    Keeps o (State.applyBase s) := by
  unfold State.applyBase
  extract_lets v1 s2 v3
  have k4 : Keeps o s2 := keeps_zeroTable h
  clear_value v1 s2
  exact keeps_mk k4

theorem keeps_applyMapout {o s : State} (h : Keeps o s) {i : Nat} :
    Keeps o (State.applyMapout s i) := by
  unfold State.applyMapout
  extract_lets v1
  clear_value v1
  exact keeps_wr h

theorem keeps_applyGen {o s : State} (h : Keeps o s) {i : Nat} :
    Keeps o (State.applyGen s i) := by
  unfold State.applyGen
  extract_lets v1 s2
  have k3 : Keeps o s2 := keeps_setGen h
  clear_value v1 s2
  exact keeps_ite (keeps_wrAt k3) k3

theorem keeps_applyPtp {o s : State} (h : Keeps o s) :
    Keeps o (State.applyPtp s) := by
  unfold State.applyPtp
  extract_lets v1 s2 s3 s4 v5
  have k6 : Keeps o s2 := keeps_ite (keeps_setErrLog h) h
  have k7 : Keeps o s3 := keeps_ite k6 (keeps_publish k6)
  have k8 : Keeps o s4 := keeps_wr k7
  clear_value v1 s2 s3
  exact keeps_ite (keeps_mk k8) (keeps_ite (keeps_wr h) h)

theorem keeps_applyMode {o s : State} (h : Keeps o s) {p : Nat} :
    Keeps o (State.applyMode s p) := by
  unfold State.applyMode
  refine keeps_ite (keeps_wr (keeps_portToDown h)) ?_
  extract_lets s1
  have k2 : Keeps o s1 := keeps_wr h
  clear_value s1
  exact keeps_ite (keeps_startTraining k2) k2

theorem keeps_applyRegs {o s : State} (h : Keeps o s) :
    Keeps o (State.applyRegs s) := by
  unfold State.applyRegs
  extract_lets v1 v2 v3 v4 v5 v6 v7 v8 v9 v10 s11 v12 s13 s14 s15 s16 s17 s18 s19 s20 s21 s22 s23 s24 s25
  have k26 : Keeps o s11 := keeps_foldl h (fun x27 x28 k29 => keeps_rebase k29)
  have k30 : Keeps o s13 := keeps_ite (keeps_closeInterval k26) k26
  have k31 : Keeps o s14 := keeps_foldl k30 (fun x32 x33 k34 => keeps_setAport k34)
  have k35 : Keeps o s15 := keeps_takeStaged k31
  have k36 : Keeps o s16 := keeps_wr k35
  have k37 : Keeps o s17 := keeps_ite (keeps_applyTally k36) k36
  have k38 : Keeps o s18 := keeps_ite (keeps_applyFleet k37) k37
  have k39 : Keeps o s19 := keeps_ite (keeps_applyBase k38) k38
  have k40 : Keeps o s20 := keeps_ite (keeps_applyPtp k39) k39
  have k41 : Keeps o s21 := keeps_foldl k40 (fun x42 x43 k44 => keeps_applyMode k44)
  have k45 : Keeps o s22 := keeps_foldl k41 (fun x46 x47 k48 => keeps_applyGen k48)
  have k49 : Keeps o s23 := keeps_foldl k45 (fun x50 x51 k52 => keeps_txChange k52)
  have k53 : Keeps o s24 := keeps_foldl k49 (fun x54 x55 k56 => keeps_applyMapout k56)
  have k57 : Keeps o s25 := keeps_foldl k53 (fun x58 x59 k60 => keeps_ite (keeps_driveClocks k60) k60)
  clear_value v1 v2 v3 v4 v5 v6 v7 v8 v9 v10 s11 v12 s13 s14 s15 s16 s17 s18 s19 s20 s21 s22 s23 s24 s25
  exact keeps_syncDamper (keeps_syncRole (keeps_retimeStops k57))

theorem keeps_copyHost {o s : State} (h : Keeps o s) {e : Nat} :
    Keeps o (State.copyHost s e) := by
  unfold State.copyHost
  extract_lets v1
  clear_value v1
  exact keeps_foldl h (fun x2 x3 k4 => keeps_lpNarrowPut k4)

theorem keeps_armOn {o s : State} (h : Keeps o s) {e : Nat} {raw : List Byte} {m : Image} :
    Keeps o (State.armOn s e raw m) := by
  unfold State.armOn
  extract_lets v1 v2 v3 s4 s5 s6 s7 s8 s9
  have k10 : Keeps o s4 := keeps_setState (keeps_putStream h)
  have k11 : Keeps o s5 := keeps_foldl k10 (fun x12 x13 k14 => keeps_announceSession k14)
  have k15 : Keeps o s6 := keeps_tallyArm (keeps_kvArm k11)
  have k16 : Keeps o s7 := keeps_ite (keeps_storePunty k15) k15
  have k17 : Keeps o s8 := keeps_ite (keeps_gafRead (keeps_addBuiltIn k16)) k16
  have k18 : Keeps o s9 := keeps_ite (keeps_gafRead k17) k17
  clear_value v1 v2 v3 s4 s5 s6 s7 s8 s9
  exact keeps_gafRead k18

theorem keeps_armImage {o s : State} (h : Keeps o s) {e : Nat} {raw : List Byte} :
    Keeps o (State.armImage s e raw) := by
  unfold State.armImage
  split
  · rename_i y1 e2
    exact h
  · rename_i y3 y4 e5
    exact keeps_armOn h

theorem keeps_arm {o s : State} (h : Keeps o s) {e : Nat} :
    Keeps o (State.arm s e) := by
  unfold State.arm
  extract_lets s1 s2
  have k3 : Keeps o s1 := keeps_lpNarrowPut h
  have k4 : Keeps o s2 := keeps_lpNarrowPut k3
  clear_value s1 s2
  exact keeps_armImage k4

theorem keeps_askPause {o s : State} (h : Keeps o s) {e : Nat} :
    Keeps o (State.askPause s e) := by
  unfold State.askPause
  exact keeps_setStream h

theorem keeps_askRun {o s : State} (h : Keeps o s) {e : Nat} :
    Keeps o (State.askRun s e) := by
  unfold State.askRun
  extract_lets s1
  have k2 : Keeps o s1 := keeps_silence (keeps_setState h)
  clear_value s1
  exact keeps_setStream k2

theorem keeps_askDrain {o s : State} (h : Keeps o s) {e : Nat} {live : Nat} :
    Keeps o (State.askDrain s e live) := by
  unfold State.askDrain
  exact keeps_ite (keeps_toIdle h) (keeps_setState (keeps_setStream h))

theorem keeps_applyEntry {o s : State} (h : Keeps o s) {e : Nat} :
    Keeps o (State.applyEntry s e) := by
  unfold State.applyEntry
  extract_lets v1 v2 v3 v4 s5 s6
  have k7 : Keeps o s5 := keeps_copyHost h
  have k8 : Keeps o s6 := keeps_setStream k7
  clear_value v1 v2 v3 v4 s5 s6
  refine keeps_ite k8 ?_
  split
  · rename_i y9
    exact keeps_arm k8
  · rename_i y10
    exact keeps_askRun k8
  · rename_i y11
    exact keeps_askPause k8
  · rename_i y12
    exact keeps_askDrain k8
  · rename_i y13 y14 y15 y16 y17
    exact keeps_ite (keeps_toIdle k8) (keeps_setStream k8)

theorem keeps_readApply {o s : State} (h : Keeps o s) {e : Nat} :
    Keeps o (State.readApply s e) := by
  unfold State.readApply
  exact keeps_gafRead (keeps_applyEntry h)

theorem keeps_applyEntries {o s : State} (h : Keeps o s) {es : List Nat} :
    Keeps o (State.applyEntries s es) := by
  unfold State.applyEntries
  extract_lets v1
  clear_value v1
  exact keeps_foldl h (fun x2 x3 k4 => keeps_readApply k4)

theorem keeps_applyAll {o s : State} (h : Keeps o s) :
    Keeps o (State.applyAll s) := by
  unfold State.applyAll
  split
  · rename_i y1 y2 e3
    exact keeps_reopen h
  · rename_i y4 e5
    extract_lets v6 v7 v8 v9 s10 s11 s12 s13 s14
    have k15 : Keeps o s10 := keeps_applyRegs h
    have k16 : Keeps o s11 := keeps_foldl k15 (fun x17 x18 k19 => keeps_loadImage k19)
    have k20 : Keeps o s12 := keeps_applyEntries k16
    have k21 : Keeps o s13 := keeps_syncCodebooks (keeps_setClaims (keeps_syncStaged (keeps_mk k20)))
    have k22 : Keeps o s14 := keeps_wr (keeps_wr k21)
    clear_value v6 v7 v8 v9 s10 s11 s12 s13 s14
    exact keeps_setCode (keeps_setParState (keeps_wr k22))

theorem keeps_abandonCmd {o s : State} (h : Keeps o s) :
    Keeps o (State.abandonCmd s) := by
  unfold State.abandonCmd
  exact keeps_commitGate h (fun x1 k2 => keeps_ite k2 (keeps_ite (keeps_choose (keeps_settle (keeps_applyAll k2))) (keeps_setCode (keeps_abandonAll k2))))

theorem keeps_execCheck {o s : State} (h : Keeps o s) :
    KeepsNext o (execCheck s) := by
  unfold execCheck
  exact KeepsNext.next (keeps_startCheck (keeps_begin_ h))

theorem keeps_execCheckComplete {o s : State} (h : Keeps o s) :
    KeepsNext o (execCheckComplete s) := by
  unfold execCheckComplete
  extract_lets s1
  have k2 : Keeps o s1 := keeps_begin_ h
  clear_value s1
  exact KeepsNext.next (keeps_ite k2 (keeps_endCheck_ k2))

theorem keeps_execApply {o s : State} (h : Keeps o s) {whenBit : Nat} :
    KeepsNext o (execApply whenBit s) := by
  unfold execApply
  exact KeepsNext.next (keeps_startApply (keeps_begin_ h))

theorem keeps_execAbandon {o s : State} (h : Keeps o s) :
    KeepsNext o (execAbandon s) := by
  unfold execAbandon
  exact KeepsNext.next (keeps_abandonCmd (keeps_begin_ h))

theorem keeps_execParisonApplication {o s : State} (h : Keeps o s) :
    KeepsNext o (execParisonApplication s) := by
  unfold execParisonApplication
  extract_lets s1
  have k2 : Keeps o s1 := keeps_begin_ h
  clear_value s1
  exact KeepsNext.next (keeps_ite (keeps_choose (keeps_settle (keeps_applyAll k2))) k2)

theorem keeps_scanStandbys {o s : State} (h : Keeps o s) :
    Keeps o (State.scanStandbys s) := by
  unfold State.scanStandbys
  exact keeps_wr h

theorem keeps_lastResume {o s : State} (h : Keeps o s) {k : Nat} {code : Nat} {origin : Nat} :
    Keeps o (State.lastResume s k code origin) := by
  unfold State.lastResume
  exact keeps_wr (keeps_wr (keeps_wr h))

theorem keeps_resumeFails {o s : State} (h : Keeps o s) {k : Nat} {code : Nat} {e : List Byte} :
    Keeps o (State.resumeFails s k code e) := by
  unfold State.resumeFails
  exact keeps_setErrLog (keeps_count (keeps_lastResume h))

theorem keeps_kvResume {o s : State} (h : Keeps o s) {entry : Nat} {chunk : Nat} {pool : Nat} :
    Keeps o (State.kvResume s entry chunk pool) := by
  unfold State.kvResume
  split
  · rename_i y1 e2
    exact h
  · rename_i y3 y4 e5
    split
    · rename_i y6 e7
      exact h
    · rename_i y8 y9 e10
      refine keeps_ite h ?_
      extract_lets v11 s12 v13 v14 v15 v16 s17 v18 s19 v20 s21
      have k22 : Keeps o s12 := keeps_lpNarrowPut h
      have k23 : Keeps o s17 := keeps_putStream k22
      have k24 : Keeps o s19 := by
        refine keeps_foldl k23 ?_
        intro x25 x26 k27
        extract_lets v28
        clear_value v28
        exact keeps_ite (keeps_bulkRead k27) (Keeps2.get (keeps_devRead k27))
      have k29 : Keeps o s21 := keeps_foldl k24 (fun x30 x31 k32 => keeps_narrowWrite k32)
      clear_value v11 s12 v13 v14 v15 v16 s17 v18 s19 v20 s21
      exact keeps_setImage k29

theorem keeps_resumeStream {o s : State} (h : Keeps o s) {k : Nat} {e : List Byte} {sl : List Byte} {x : List Byte} {m : Image} :
    Keeps o (State.resumeStream s k e sl x m) := by
  unfold State.resumeStream
  extract_lets v1 v2 v3 v4 v5 v6 v7 v8 v9 s10 s11 s12 s13 s14
  have k15 : Keeps o s10 := keeps_putStream (keeps_lpNarrowPut h)
  have k16 : Keeps o s11 := keeps_foldl k15 (fun x17 x18 k19 => keeps_announceSession k19)
  have k20 : Keeps o s12 := keeps_kvResume k16
  have k21 : Keeps o s13 := keeps_storeEntry k20
  have k22 : Keeps o s14 := keeps_ite (keeps_gafRead k21) k21
  clear_value v1 v2 v3 v4 v5 v6 v7 v8 v9 s10 s11 s12 s13 s14
  exact keeps_ite (keeps_storePunty k22) k22

theorem keeps_activate {o s : State} (h : Keeps o s) {k : Nat} :
    Keeps o (State.activate s k) := by
  unfold State.activate
  extract_lets v1 s2 s3 s4 v5 v6 v7
  have k8 : Keeps o s2 := Keeps2.get (keeps_devRead h)
  have k9 : Keeps o s3 := Keeps2.get (keeps_devRead k8)
  have k10 : Keeps o s4 := keeps_lpNarrowPut k9
  have k11 : ∀ (x12 : State), Keeps o x12 → Keeps o (v7 x12) := fun x12 k13 => keeps_mk k13
  clear_value v1 s2 s3 s4 v5 v6 v7
  refine keeps_ite k8 ?_
  refine keeps_ite (k11 _ (keeps_resumeFails k10)) ?_
  refine keeps_ite (k11 _ (keeps_resumeFails k10)) ?_
  split
  · rename_i y14 e15
    exact k11 _ (keeps_resumeFails k10)
  · rename_i y16 y17 e18
    extract_lets v19 s20
    have k21 : Keeps o s20 := keeps_resumeStream k10
    clear_value v19 s20
    exact keeps_ite (k11 _ (keeps_resumeFails k10)) (keeps_ite (k11 _ (keeps_resumeFails k10)) (k11 _ (keeps_setErrLog (keeps_count (keeps_lastResume k21)))))

theorem keeps_activateAll {o s : State} (h : Keeps o s) {origin : Nat} :
    Keeps o (State.activateAll s origin) := by
  unfold State.activateAll
  extract_lets s1
  have k2 : Keeps o s1 := keeps_scanStandbys h
  clear_value s1
  exact keeps_foldl k2 (fun x3 x4 k5 => keeps_activate k5)

theorem keeps_probeOrigin {o s : State} (h : Keeps o s) {suspect : Nat} :
    Keeps o (State.probeOrigin s suspect) := by
  unfold State.probeOrigin
  refine keeps_ite h ?_
  extract_lets s1 v2 v3
  have k4 : Keeps o s1 := keeps_scanStandbys h
  clear_value s1 v2 v3
  refine keeps_ite k4 ?_
  split
  · rename_i y5 e6
    exact keeps_activateAll k4
  · rename_i y7 y8 e9
    have k10 : Keeps o y8 := KeepsOpt.of_eq e9 (keeps_sendMsg k4)
    exact keeps_mk k10

theorem keeps_probeAlive {o s : State} (h : Keeps o s) {suspect : Nat} :
    Keeps o (State.probeAlive s suspect) := by
  unfold State.probeAlive
  extract_lets v1 v2 s3 s4
  have k5 : Keeps o s3 := keeps_mk h
  have k6 : Keeps o s4 := keeps_lastResume k5
  clear_value v1 s3 s4
  exact keeps_logPlain k6

theorem keeps_tidyStandby {o s : State} (h : Keeps o s) :
    Keeps o (State.tidyStandby s) := by
  unfold State.tidyStandby
  exact keeps_mk h

theorem keeps_pntCmdWrite {o s : State} (h : Keeps o s) {word : Nat} :
    Keeps o (State.pntCmdWrite s word) := by
  unfold State.pntCmdWrite
  exact keeps_ite (keeps_badWrite h) (keeps_ite (keeps_failStop h) h)

theorem keeps_execPntFailstopCmd {o s : State} (h : Keeps o s) {word : Nat} :
    KeepsNext o (execPntFailstopCmd word s) := by
  unfold execPntFailstopCmd
  exact KeepsNext.next (keeps_gated (keeps_begin_ h) (fun x1 k2 => keeps_pntCmdWrite k2))

theorem keeps_execMpWatchdogExpire {o s : State} (h : Keeps o s) :
    KeepsNext o (execMpWatchdogExpire s) := by
  unfold execMpWatchdogExpire
  extract_lets s1 v2 s3
  have k4 : Keeps o s1 := keeps_begin_ h
  have k5 : Keeps o s3 := keeps_ite (keeps_mk k4) k4
  clear_value s1 s3
  exact KeepsNext.ite (KeepsNext.next (keeps_failStop k5)) (KeepsNext.next k4)

theorem keeps_execBenchPowerLoss {o s : State} (h : Keeps o s) {bench : Nat} :
    KeepsNext o (execBenchPowerLoss bench s) := by
  unfold execBenchPowerLoss
  extract_lets s1
  have k2 : Keeps o s1 := keeps_begin_ h
  clear_value s1
  exact KeepsNext.next (keeps_ite (keeps_failStop k2) k2)

theorem keeps_execClockFault {o s : State} (h : Keeps o s) {bench : Option Nat} :
    KeepsNext o (execClockFault bench s) := by
  unfold execClockFault
  extract_lets s1
  have k2 : Keeps o s1 := keeps_begin_ h
  clear_value s1
  exact KeepsNext.next (keeps_ite (keeps_failStop k2) k2)

theorem keeps_execRailFault {o s : State} (h : Keeps o s) {kind : RailKind} :
    KeepsNext o (execRailFault kind s) := by
  unfold execRailFault
  extract_lets s1 s2 v3
  have k4 : Keeps o s1 := keeps_begin_ h
  have k5 : Keeps o s2 := keeps_wipe k4
  clear_value s1 s2
  refine KeepsNext.ite (KeepsNext.next k4) ?_
  split
  · rename_i y6
    exact KeepsNext.next (keeps_failStop k4)
  · rename_i y7
    exact KeepsNext.next (keeps_failStop k4)
  · rename_i y8 y9
    exact KeepsNext.next (keeps_failStop k4)
  · rename_i y10
    exact KeepsNext.fault
  · rename_i y11 y12
    exact KeepsNext.next (keeps_mk k5)

theorem keeps_execControlStateError {o s : State} (h : Keeps o s) {fabric : Bool} :
    KeepsNext o (execControlStateError fabric s) := by
  unfold execControlStateError
  extract_lets s1
  have k2 : Keeps o s1 := keeps_begin_ h
  clear_value s1
  exact KeepsNext.next (keeps_ite (keeps_failStop k2) k2)

theorem keeps_execProbeTimeout {o s : State} (h : Keeps o s) :
    KeepsNext o (execProbeTimeout s) := by
  unfold execProbeTimeout
  extract_lets s1 v2
  have k3 : Keeps o s1 := keeps_begin_ h
  clear_value s1
  refine KeepsNext.next ?_
  split
  · rename_i y4 e5
    exact k3
  · rename_i y6 y7 y8 e9
    refine keeps_ite k3 ?_
    extract_lets s10
    have k11 : Keeps o s10 := keeps_mk k3
    clear_value s10
    exact keeps_ite k11 (keeps_choose (keeps_activateAll k11))

theorem keeps_resumeWrite {o s : State} (h : Keeps o s) {word : Nat} :
    Keeps o (State.resumeWrite s word) := by
  unfold State.resumeWrite
  exact keeps_ite (keeps_badWrite h) (keeps_ite (keeps_choose (keeps_activate h)) h)

theorem keeps_execStandbyResume {o s : State} (h : Keeps o s) {word : Nat} :
    KeepsNext o (execStandbyResume word s) := by
  unfold execStandbyResume
  exact KeepsNext.next (keeps_gated (keeps_begin_ h) (fun x1 k2 => keeps_resumeWrite k2))

end Sys2Proof.Machine
end

