-- ==== Sys2Proof/Laws/KeepsMessages.lean ====
section
/-! SUPPORT. The functions of Machine/Messages.lean, Machine/Ports.lean keep the queue, the canonical form and the fixed sets of units. -/
namespace Sys2Proof.Machine
open Sys2Proof

set_option Elab.async false

theorem keeps_keepMsg {o s : State} (h : Keeps o s) {p : Nat} {m : Msg} :
    Keeps o (State.keepMsg s p m) := by
  unfold State.keepMsg
  exact keeps_ite h (keeps_setPort h)

theorem keeps_onTurn {o s : State} (h : Keeps o s) {p : Nat} {m : Msg} {op : Nat} {f : State → State} (hf : ∀ x0, Keeps o x0 → Keeps o (f x0)) :
    Keeps o (State.onTurn s p m op f) := by
  unfold State.onTurn
  exact keeps_ite h (keeps_ite (hf _ h) (keeps_keepMsg h))

theorem keeps_onMsg {o s : State} (h : Keeps o s) {p : Nat} {m : Msg} {op : Nat} {f : State → State} (hf : ∀ x0, Keeps o x0 → Keeps o (f x0)) :
    Keeps o (State.onMsg s p m op f) := by
  unfold State.onMsg
  exact keeps_onTurn h (fun x1 k2 => hf _ (keeps_takeInbox k2))

theorem keeps_reply {o s : State} (h : Keeps o s) {m : Msg} {g : Msg} :
    Keeps o (State.reply s m g) := by
  unfold State.reply
  exact keeps_getD (keeps_sendMsg h) h

theorem keeps_serveRead {o s : State} (h : Keeps o s) {m : Msg} {mem : MemOutcome} :
    Keeps o (State.serveRead s m mem) := by
  unfold State.serveRead
  extract_lets v1
  clear_value v1
  split
  · rename_i y2 e3
    exact keeps_reply h
  · rename_i y4 y5 e6
    split
    · rename_i y7 y8 y9 y10 e11
      have k12 : Keeps o y10 := Keeps3.of_eq e11 (keeps_memReads (keeps_narrow h))
      exact keeps_reply k12
  · rename_i y13 y14 e15
    split
    · rename_i y16 e17
      extract_lets v18
      clear_value v18
      split
      · rename_i y19 y20 y21 e22
        have k23 : Keeps o y21 := Keeps2.of_eq e22 (keeps_narrowRead h)
        exact keeps_reply k23
    · rename_i y24 e25
      exact keeps_reply (keeps_sealedErr h)
    · rename_i y26 y27 y28
      exact keeps_reply h

theorem keeps_servePull {o s : State} (h : Keeps o s) {p : Nat} {m : Msg} :
    Keeps o (State.servePull s p m) := by
  unfold State.servePull
  split
  · rename_i y1 e2
    exact keeps_keepMsg h
  · rename_i y3 y4 y5 y6 e7
    extract_lets v8 v9 v10 s11 v12
    have k13 : Keeps o s11 := keeps_takeInbox h
    clear_value v8 v9 v10 s11 v12
    split
    · rename_i y14 y15 y16 e17
      have k18 : Keeps o y16 := Keeps2.of_eq e17 (keeps_narrowRead k13)
      exact keeps_reply k18

theorem keeps_serveWrite {o s : State} (h : Keeps o s) {m : Msg} {mem : MemOutcome} :
    Keeps o (State.serveWrite s m mem) := by
  unfold State.serveWrite
  extract_lets v1 v2
  clear_value v1 v2
  split
  · rename_i y3 e4
    exact keeps_reply h
  · rename_i y5 y6 e7
    extract_lets s8 s9
    have k10 : Keeps o s8 := keeps_memWrites (keeps_narrow h)
    have k11 : Keeps o s9 := keeps_ite (keeps_spoilLp k10) k10
    clear_value s8 s9
    exact keeps_reply k11
  · rename_i y12 y13 e14
    split
    · rename_i y15 e16
      extract_lets s17
      have k18 : Keeps o s17 := keeps_narrowWrite h
      clear_value s17
      exact keeps_reply (keeps_ite (keeps_poisonSpad k18) k18)
    · rename_i y19 e20
      exact keeps_reply (keeps_sealedErr h)
    · rename_i y21 y22 y23
      exact keeps_reply h

theorem keeps_answerAtomic {o s : State} (h : Keeps o s) {m : Msg} {old : List Byte} {bad : Bool} {code : Nat} :
    Keeps o (State.answerAtomic s m old bad code) := by
  unfold State.answerAtomic
  exact keeps_reply h

theorem keeps_serveSpadAtomic {o s : State} (h : Keeps o s) {m : Msg} :
    Keeps o (State.serveSpadAtomic s m) := by
  unfold State.serveSpadAtomic
  split
  · rename_i y1 y2 e3
    refine keeps_ite (keeps_answerAtomic h) ?_
    extract_lets v4
    clear_value v4
    split
    · rename_i y5 y6 y7 e8
      have k9 : Keeps o y7 := Keeps2.of_eq e8 (keeps_spadAtomic h)
      exact keeps_answerAtomic k9
  · rename_i y10 y11
    exact keeps_answerAtomic h

theorem keeps_serveMemAtomic {o s : State} (h : Keeps o s) {m : Msg} {mem : MemOutcome} :
    Keeps o (State.serveMemAtomic s m mem) := by
  unfold State.serveMemAtomic
  split
  · rename_i y1 y2 e3
    refine keeps_ite (keeps_answerAtomic h) ?_
    split
    · rename_i y4 y5 y6 y7 e8
      have k9 : Keeps o y7 := Keeps3.of_eq e8 (keeps_unitAtomic (keeps_narrow h))
      exact keeps_answerAtomic k9
  · rename_i y10 y11
    exact keeps_answerAtomic h

theorem keeps_landRemote {o s : State} (h : Keeps o s) {f : Flight} {m : Msg} {mem : MemOutcome} :
    Keeps o (State.landRemote s f m mem) := by
  unfold State.landRemote
  extract_lets v1 v2 v3 v4
  clear_value v1 v2 v3 v4
  exact keeps_ite h (keeps_landData h)

theorem keeps_atomicBack {o s : State} (h : Keeps o s) {f : Flight} {m : Msg} :
    Keeps2 o (State.atomicBack s f m) := by
  unfold State.atomicBack
  extract_lets v1
  clear_value v1
  split
  · rename_i y2 y3 y4 e5
    have k6 : Keeps o y4 := Keeps2.of_eq e5 (keeps_atomicEnd h)
    split
    · rename_i y7 y8 y9 e10
      split
      · rename_i y11 y12 e13
        have k14 : Keeps o y12 := KeepsOpt.of_eq e13 (keeps_sendMsg k6)
        exact Keeps2.mk k14
      · rename_i y15 e16
        exact Keeps2.mk k6
    · rename_i y17 y18
      exact Keeps2.mk k6

theorem keeps_takeResponse {o s : State} (h : Keeps o s) {m : Msg} {mem : MemOutcome} :
    Keeps o (State.takeResponse s m mem) := by
  unfold State.takeResponse
  split
  · rename_i y1 y2 e3
    exact keeps_probeAlive h
  · rename_i y4 e5
    split
    · rename_i y6 e7
      exact h
    · rename_i y8 y9 e10
      refine keeps_ite (keeps_failFlight (keeps_unmappedErr h)) ?_
      extract_lets v11 v12
      clear_value v11
      split
      · rename_i y13 y14 y15 e16
        have k17 : Keeps o y15 := Keeps2.of_eq e16 (Keeps2.ite (keeps_atomicBack h) (Keeps2.ite (Keeps2.mk (keeps_landRemote h)) (Keeps2.mk (keeps_writeEnd h))))
        exact keeps_ite k17 (keeps_endFlight k17)

theorem keeps_takeAckMsg {o s : State} (h : Keeps o s) {m : Msg} :
    Keeps o (State.takeAckMsg s m) := by
  unfold State.takeAckMsg
  split
  · rename_i y1 e2
    exact h
  · rename_i y3 y4 e5
    exact keeps_ite (keeps_failFlight (keeps_unmappedErr h)) (keeps_endFlight h)

theorem keeps_writeUnit {o s : State} (h : Keeps o s) {t : Stream} {u : Nat} {bs : List Byte} {poison : Bool} :
    Keeps o (State.writeUnit s t u bs poison) := by
  unfold State.writeUnit
  split
  · rename_i y1 e2
    exact keeps_streamFault h
  · rename_i y3 y4 e5
    extract_lets v6 s7 s8 v9 v10 s11 s12 v13
    have k14 : Keeps o s7 := keeps_ite h (keeps_narrowWrite h)
    have k15 : Keeps o s8 := keeps_ite (keeps_poisonSpad k14) k14
    have k16 : Keeps o s11 := keeps_replayPut k15
    have k17 : Keeps o s12 := keeps_ite (keeps_replayPut k16) k16
    clear_value v6 s7 s8 v9 v10 s11 s12 v13
    exact keeps_ite k15 (keeps_ite k17 (keeps_addBuiltIn k17))

theorem keeps_landUnit {o s : State} (h : Keeps o s) {t0 : Stream} {u : Nat} {m : Msg} :
    Keeps o (State.landUnit s t0 u m) := by
  unfold State.landUnit
  extract_lets v1 v2 v3 v4 v5 s6 s7 s8
  have k9 : Keeps o s6 := keeps_putStream h
  have k10 : Keeps o s7 := keeps_ite k9 (keeps_writeUnit k9)
  have k11 : Keeps o s8 := keeps_setStream k10
  clear_value v1 v2 v3 v4 v5 s6 s7 s8
  exact keeps_ite h (keeps_ite (keeps_chunkDone k11) k11)

theorem keeps_arriveUnit {o s : State} (h : Keeps o s) {t : Stream} {u : Nat} {m : Msg} :
    Keeps o (State.arriveUnit s t u m) := by
  unfold State.arriveUnit
  refine keeps_ite ?_ (keeps_ite (keeps_landUnit h) h)
  refine keeps_ite ?_ h
  extract_lets s1 s2
  have k3 : Keeps o s1 := keeps_setStream h
  have k4 : Keeps o s2 := keeps_setState k3
  clear_value s1 s2
  split
  · rename_i y5 y6 e7
    exact keeps_landUnit k4
  · rename_i y8 e9
    exact k4

theorem keeps_takeSamples {o s : State} (h : Keeps o s) {p : Nat} {m : Msg} :
    Keeps o (State.takeSamples s p m) := by
  unfold State.takeSamples
  split
  · rename_i y1 e2
    exact keeps_count (keeps_takeInbox h)
  · rename_i y3 y4 e5
    exact keeps_ite (keeps_keepMsg h) (keeps_chooseIfReady (keeps_settleWatch (keeps_arriveUnit (keeps_takeInbox h))))

theorem keeps_takeContribution {o s : State} (h : Keeps o s) {p : Nat} {m : Msg} :
    Keeps o (State.takeContribution s p m) := by
  unfold State.takeContribution
  split
  · rename_i y1 y2 e3
    exact keeps_choose (keeps_applyUnit (keeps_takeInbox h))
  · rename_i y4 e5
    refine keeps_ite (keeps_count (keeps_takeInbox h)) ?_
    extract_lets s6 v7
    have k8 : Keeps o s6 := keeps_setPort h
    clear_value s6
    exact keeps_mk k8

theorem keeps_takeSlow {o s : State} (h : Keeps o s) {m : Msg} :
    Keeps o (State.takeSlow s m) := by
  unfold State.takeSlow
  extract_lets v1 v2
  clear_value v1
  exact keeps_mk h

theorem keeps_takeDone {o s : State} (h : Keeps o s) {m : Msg} :
    Keeps o (State.takeDone s m) := by
  unfold State.takeDone
  extract_lets v1 v2 v3 v4
  clear_value v1 v2 v3
  exact keeps_choose (keeps_mk h)

theorem keeps_takeReport {o s : State} (h : Keeps o s) {p : Nat} {m : Msg} :
    Keeps o (State.takeReport s p m) := by
  unfold State.takeReport
  extract_lets v1 v2 v3 v4 s5 s6 s7
  have k8 : Keeps o s5 := keeps_noteReport h
  have k9 : Keeps o s6 := keeps_seeReport k8
  have k10 : Keeps o s7 := keeps_flood k9
  clear_value v1 v2 v3 v4 s5 s6 s7
  exact keeps_ite h (keeps_ite (keeps_choose (keeps_probeOrigin k10)) k10)

theorem keeps_sendSlow {o s : State} (h : Keeps o s) :
    Keeps o (State.sendSlow s) := by
  unfold State.sendSlow
  extract_lets v1 v2 s3
  have k4 : Keeps o s3 := keeps_mk h
  clear_value v1 s3
  refine keeps_foldl k4 ?_
  intro x5 x6 k7
  extract_lets v8
  clear_value v8
  split
  · rename_i y9 y10 e11
    have k12 : Keeps o y10 := KeepsOpt.of_eq e11 (keeps_sendMsg k7)
    exact keeps_count k12
  · rename_i y13 e14
    exact k7

theorem keeps_agentErr {o s : State} (h : Keeps o s) {a : MemAgent} :
    Keeps o (State.agentErr s a) := by
  unfold State.agentErr
  split
  · rename_i y1 y2
    exact keeps_unmappedErr h
  · rename_i y3 y4
    exact keeps_unmappedErr h
  · rename_i y5 y6
    exact keeps_unmappedErr h
  · rename_i y7 y8 y9 y10
    exact keeps_unmappedErr h

theorem keeps_agentNarrow {o s : State} (h : Keeps o s) {a : MemAgent} {o2 : Nat} {n : Nat} :
    Keeps o (State.agentNarrow s a o2 n) := by
  unfold State.agentNarrow
  split
  · rename_i y1 y2
    exact h
  · rename_i y3 y4
    exact keeps_narrow h

theorem keeps_serveAccess {o s : State} (h : Keeps o s) {a : MemAgent} {o2 : Nat} {n : Nat} {write : Option (List Byte)} {m : MemOutcome} :
    Keeps3 o (State.serveAccess s a o2 n write m) := by
  unfold State.serveAccess
  extract_lets s1
  have k2 : Keeps o s1 := keeps_agentNarrow h
  clear_value s1
  split
  · rename_i y3 y4
    exact Keeps3.mk (keeps_memWrites k2)
  · rename_i y5
    exact keeps_memReads k2

theorem keeps_execReadRequest {o s : State} (h : Keeps o s) {port : Nat} {m : Msg} {mem : MemOutcome} :
    KeepsNext o (execReadRequest port m mem s) := by
  unfold execReadRequest
  extract_lets s1 s2
  have k3 : Keeps o s1 := keeps_begin_ h
  have k4 : Keeps o s2 := keeps_ite (keeps_noteSoft k3) k3
  clear_value s1 s2
  exact KeepsNext.next (keeps_onTurn k4 (fun x5 k6 => keeps_ite (keeps_servePull k6) (keeps_serveRead (keeps_takeInbox k6))))

theorem keeps_execReadResponse {o s : State} (h : Keeps o s) {port : Nat} {m : Msg} {mem : MemOutcome} :
    KeepsNext o (execReadResponse port m s mem) := by
  unfold execReadResponse
  exact KeepsNext.next (keeps_onMsg (keeps_begin_ h) (fun x1 k2 => keeps_takeResponse k2))

theorem keeps_execWrite {o s : State} (h : Keeps o s) {port : Nat} {m : Msg} {mem : MemOutcome} :
    KeepsNext o (execWrite port m mem s) := by
  unfold execWrite
  exact KeepsNext.next (keeps_onMsg (keeps_begin_ h) (fun x1 k2 => keeps_serveWrite k2))

theorem keeps_execWriteAcknowledgement {o s : State} (h : Keeps o s) {port : Nat} {m : Msg} :
    KeepsNext o (execWriteAcknowledgement port m s) := by
  unfold execWriteAcknowledgement
  exact KeepsNext.next (keeps_onMsg (keeps_begin_ h) (fun x1 k2 => keeps_takeAckMsg k2))

theorem keeps_execRemoteScratchpadAtomic {o s : State} (h : Keeps o s) {port : Nat} {m : Msg} :
    KeepsNext o (execRemoteScratchpadAtomic port m s) := by
  unfold execRemoteScratchpadAtomic
  exact KeepsNext.next (keeps_onMsg (keeps_begin_ h) (fun x1 k2 => keeps_serveSpadAtomic k2))

theorem keeps_execRemoteMemoryAtomic {o s : State} (h : Keeps o s) {port : Nat} {m : Msg} {mem : MemOutcome} :
    KeepsNext o (execRemoteMemoryAtomic port m mem s) := by
  unfold execRemoteMemoryAtomic
  exact KeepsNext.next (keeps_onMsg (keeps_begin_ h) (fun x1 k2 => keeps_serveMemAtomic k2))

theorem keeps_execStreamSamples {o s : State} (h : Keeps o s) {port : Nat} {m : Msg} :
    KeepsNext o (execStreamSamples port m s) := by
  unfold execStreamSamples
  extract_lets s1
  have k2 : Keeps o s1 := keeps_begin_ h
  clear_value s1
  exact KeepsNext.next (keeps_onTurn k2 (fun x3 k4 => keeps_takeSamples k4))

theorem keeps_execCollective {o s : State} (h : Keeps o s) {port : Nat} {m : Msg} :
    KeepsNext o (execCollective port m s) := by
  unfold execCollective
  extract_lets s1
  have k2 : Keeps o s1 := keeps_begin_ h
  clear_value s1
  exact KeepsNext.next (keeps_onTurn k2 (fun x3 k4 => keeps_takeContribution k4))

theorem keeps_execSlowNotice {o s : State} (h : Keeps o s) {port : Nat} {m : Msg} :
    KeepsNext o (execSlowNotice port m s) := by
  unfold execSlowNotice
  exact KeepsNext.next (keeps_onMsg (keeps_begin_ h) (fun x1 k2 => keeps_ite (keeps_takeSlow k2) k2))

theorem keeps_execDoneNotice {o s : State} (h : Keeps o s) {port : Nat} {m : Msg} :
    KeepsNext o (execDoneNotice port m s) := by
  unfold execDoneNotice
  exact KeepsNext.next (keeps_onMsg (keeps_begin_ h) (fun x1 k2 => keeps_ite (keeps_takeDone k2) k2))

theorem keeps_execSuspectReport {o s : State} (h : Keeps o s) {port : Nat} {m : Msg} :
    KeepsNext o (execSuspectReport port m s) := by
  unfold execSuspectReport
  exact KeepsNext.next (keeps_onMsg (keeps_begin_ h) (fun x1 k2 => keeps_ite (keeps_takeReport k2) k2))

theorem keeps_execSlowNoticeSend {o s : State} (h : Keeps o s) :
    KeepsNext o (execSlowNoticeSend s) := by
  unfold execSlowNoticeSend
  extract_lets s1
  have k2 : Keeps o s1 := keeps_begin_ h
  clear_value s1
  exact KeepsNext.next (keeps_ite (keeps_sendSlow k2) k2)

theorem keeps_execRoundTimeout {o s : State} (h : Keeps o s) {image : Nat} {collId : Nat} {entry : Nat} {chunk : Nat} :
    KeepsNext o (execRoundTimeout image collId entry chunk s) := by
  unfold execRoundTimeout
  extract_lets s1 s2
  have k3 : Keeps o s1 := keeps_begin_ h
  have k4 : Keeps o s2 := keeps_count k3
  clear_value s1 s2
  refine KeepsNext.next ?_
  split
  · rename_i y5 e6
    exact k3
  · rename_i y7 y8 e9
    exact keeps_ite k3 (keeps_foldl k4 (fun x10 x11 k12 => keeps_originate k12))

theorem keeps_execLpddrAccess {o s : State} (h : Keeps o s) {agent : MemAgent} {addr : Nat} {len : Nat} {write : Option (List Byte)} {m : MemOutcome} :
    KeepsNext o (execLpddrAccess agent addr len write m s) := by
  unfold execLpddrAccess
  extract_lets s1 v2
  have k3 : Keeps o s1 := keeps_begin_ h
  clear_value s1 v2
  refine KeepsNext.ite (KeepsNext.next k3) ?_
  refine KeepsNext.ite (KeepsNext.next (keeps_put (keeps_agentErr k3))) ?_
  split
  · rename_i y4 y5 y6 y7 e8
    have k9 : Keeps o y7 := Keeps3.of_eq e8 (keeps_serveAccess k3)
    refine KeepsNext.ite (KeepsNext.next k9) ?_
    split
    · rename_i y10
      exact KeepsNext.next (keeps_put k9)
    · rename_i y11 y12
      exact KeepsNext.next (keeps_ite (keeps_streamFault k9) (keeps_put k9))
    · rename_i y13 y14 y15
      exact KeepsNext.next (keeps_put k9)

theorem keeps_execLpddrAtomic {o s : State} (h : Keeps o s) {agent : MemAgent} {addr : Nat} {code : Nat} {data : List Byte} {returnOld : Bool} {m : MemOutcome} :
    KeepsNext o (execLpddrAtomic agent addr code data returnOld m s) := by
  unfold execLpddrAtomic
  extract_lets s1 v2 v3 v4 s5
  have k6 : Keeps o s1 := keeps_begin_ h
  have k7 : Keeps o s5 := keeps_agentErr k6
  clear_value s1 v2 v3 v4 s5
  refine KeepsNext.ite (KeepsNext.next k6) ?_
  refine KeepsNext.ite (KeepsNext.next (keeps_ite (keeps_put k7) k7)) ?_
  refine KeepsNext.ite (KeepsNext.next (Keeps3.get (keeps_unitAtomic k6))) ?_
  split
  · rename_i y8 y9 y10 y11 e12
    have k13 : Keeps o y11 := Keeps3.of_eq e12 (keeps_burstAtomic (keeps_evtDev (keeps_evtDev (keeps_agentNarrow k6))))
    exact KeepsNext.next (keeps_ite (keeps_put k13) k13)

theorem keeps_execStackTempRead {o s : State} (h : Keeps o s) {site : Nat} {reading : Reading} :
    KeepsNext o (execStackTempRead site reading s) := by
  unfold execStackTempRead
  extract_lets s1 s2
  have k3 : Keeps o s1 := keeps_begin_ h
  have k4 : Keeps o s2 := keeps_pollTemp k3
  clear_value s1 s2
  exact KeepsNext.ite (KeepsNext.next k3) (KeepsNext.next (keeps_ite (keeps_failStop k4) k4))

theorem keeps_comeUp {o s : State} (h : Keeps o s) {p : Nat} {fresh : Bool} :
    Keeps o (State.comeUp s p fresh) := by
  unfold State.comeUp
  extract_lets s1 s2 s3
  have k4 : Keeps o s1 := keeps_wr h
  have k5 : Keeps o s2 := keeps_setPort k4
  have k6 : Keeps o s3 := keeps_ite (keeps_setPort k5) k5
  clear_value s1 s2 s3
  exact keeps_pump k6

theorem keeps_keysFail {o s : State} (h : Keeps o s) {p : Nat} {code : Nat} :
    Keeps o (State.keysFail s p code) := by
  unfold State.keysFail
  extract_lets s1 v2 s3 s4 s5
  have k6 : Keeps o s1 := keeps_setPort h
  have k7 : Keeps o s3 := keeps_mk k6
  have k8 : Keeps o s4 := keeps_wr k7
  have k9 : Keeps o s5 := keeps_setErrLog k8
  clear_value s1 s3 s4 s5
  exact keeps_ite k9 (keeps_portToDown k9)

theorem keeps_startHandshake {o s : State} (h : Keeps o s) {p : Nat} :
    Keeps o (State.startHandshake s p) := by
  unfold State.startHandshake
  refine keeps_ite h ?_
  extract_lets v1 v2 s3
  have k4 : Keeps o s3 := keeps_setPort h
  clear_value v1 v2 s3
  exact keeps_put (keeps_emitKeys k4)

theorem keeps_finishKeys {o s : State} (h : Keeps o s) {p : Nat} :
    Keeps o (State.finishKeys s p) := by
  unfold State.finishKeys
  extract_lets v1 s2 v3
  have k4 : Keeps o s2 := keeps_count h
  clear_value v1 s2 v3
  split
  · rename_i y5 y6 y7 y8 e9 e10
    refine keeps_ite h ?_
    extract_lets v11 v12 v13 v14 v15
    clear_value v11 v12 v13 v14 v15
    split
    · rename_i y16 e17
      exact keeps_wr (keeps_comeUp (keeps_setPort k4))
    · rename_i y18 y19 e20
      extract_lets s21
      have k22 : Keeps o s21 := keeps_setPort k4
      clear_value s21
      exact keeps_pump (keeps_wr k22)
  · rename_i y23 y24 y25
    exact h

theorem keeps_sendKey {o s : State} (h : Keeps o s) {p : Nat} :
    Keeps o (State.sendKey s p) := by
  unfold State.sendKey
  extract_lets v1 v2 s3
  have k4 : Keeps o s3 := keeps_mk h
  clear_value v1 s3
  split
  · rename_i y5 y6 y7 y8 e9 e10
    refine keeps_ite (keeps_noteExhausted h) ?_
    refine keeps_ite (keeps_askBlock (keeps_mk h)) ?_
    split
    · rename_i y11 y12 y13 e14
      have k15 : Keeps o y13 := Keeps2.of_eq e14 (keeps_signWith k4)
      exact keeps_finishKeys (keeps_put (keeps_emitKeys k15))
  · rename_i y16 y17 y18
    exact h

theorem keeps_takeHello {o s : State} (h : Keeps o s) {p : Nat} {h2 : HelloIn} :
    Keeps o (State.takeHello s p h2) := by
  unfold State.takeHello
  extract_lets s1 s2 s3 v4 s5
  have k6 : Keeps o s1 := keeps_wr h
  have k7 : Keeps o s2 := keeps_wr k6
  have k8 : Keeps o s3 := keeps_startHandshake k7
  have k9 : Keeps o s5 := keeps_setPort k8
  clear_value s1 s2 s3 v4 s5
  exact keeps_ite k8 (keeps_sendKey k9)

theorem keeps_takeKey {o s : State} (h : Keeps o s) {p : Nat} {cipher : List Byte} {sig : List Byte} :
    Keeps o (State.takeKey s p cipher sig) := by
  unfold State.takeKey
  extract_lets v1
  clear_value v1
  split
  · rename_i y2 y3 y4 y5 e6 e7
    exact keeps_ite h (keeps_ite (keeps_keysFail h) (keeps_ite (keeps_keysFail h) (keeps_ite (keeps_keysFail h) (keeps_finishKeys (keeps_setPort h)))))
  · rename_i y8 y9 y10
    exact h

theorem keeps_rekeyPort {o s : State} (h : Keeps o s) {p : Nat} :
    Keeps o (State.rekeyPort s p) := by
  unfold State.rekeyPort
  exact keeps_ite h (keeps_ite (keeps_setPort h) (keeps_startHandshake h))

theorem keeps_retrainPort {o s : State} (h : Keeps o s) {p : Nat} :
    Keeps o (State.retrainPort s p) := by
  unfold State.retrainPort
  exact keeps_ite h (keeps_startTraining (keeps_setPort h))

theorem keeps_trained {o s : State} (h : Keeps o s) {p : Nat} {t : TrainIn} :
    Keeps o (State.trained s p t) := by
  unfold State.trained
  extract_lets v1 v2 v3 s4 s5 s6 s7 s8
  have k9 : Keeps o s4 := keeps_setPort h
  have k10 : Keeps o s5 := keeps_ite k9 (keeps_wr k9)
  have k11 : Keeps o s6 := keeps_wr k10
  have k12 : Keeps o s7 := keeps_ite (keeps_wr k11) k11
  have k13 : Keeps o s8 := keeps_comeUp k12
  clear_value v1 v2 v3 s4 s5 s6 s7 s8
  refine keeps_ite h ?_
  refine keeps_ite (keeps_ite h (keeps_ite (keeps_portFails (keeps_setPort h)) (keeps_startTraining (keeps_setPort h)))) ?_
  exact keeps_ite (keeps_setErr (keeps_portToDown k12)) (keeps_ite (keeps_startHandshake k12) (keeps_ite (keeps_startHandshake k13) k13))

theorem keeps_sendStop {o s : State} (h : Keeps o s) {p : Nat} :
    Keeps o (State.sendStop s p) := by
  unfold State.sendStop
  exact keeps_put h

theorem keeps_lnkEnable {o s : State} (h : Keeps o s) {p : Nat} {old : Nat} {new : Nat} :
    Keeps o (State.lnkEnable s p old new) := by
  unfold State.lnkEnable
  exact keeps_ite h (keeps_ite (keeps_sendStop (keeps_portToDown h)) (keeps_startTraining (keeps_setPort h)))

theorem keeps_execHello {o s : State} (h : Keeps o s) {port : Nat} {h1 : HelloIn} :
    KeepsNext o (execHello port h1 s) := by
  unfold execHello
  extract_lets s1
  have k2 : Keeps o s1 := keeps_begin_ h
  clear_value s1
  exact KeepsNext.next (keeps_ite (keeps_takeHello k2) k2)

theorem keeps_execKeyEncapsulation {o s : State} (h : Keeps o s) {port : Nat} {cipher : List Byte} {signature : List Byte} :
    KeepsNext o (execKeyEncapsulation port cipher signature s) := by
  unfold execKeyEncapsulation
  extract_lets s1
  have k2 : Keeps o s1 := keeps_begin_ h
  clear_value s1
  exact KeepsNext.next (keeps_ite (keeps_takeKey k2) k2)

theorem keeps_execKeyHandshakeTimeout {o s : State} (h : Keeps o s) {port : Nat} :
    KeepsNext o (execKeyHandshakeTimeout port s) := by
  unfold execKeyHandshakeTimeout
  extract_lets s1
  have k2 : Keeps o s1 := keeps_begin_ h
  clear_value s1
  exact KeepsNext.next (keeps_ite (keeps_keysFail k2) k2)

theorem keeps_execRekeyDue {o s : State} (h : Keeps o s) {port : Nat} :
    KeepsNext o (execRekeyDue port s) := by
  unfold execRekeyDue
  refine KeepsNext.next ?_
  extract_lets s1
  have k2 : Keeps o s1 := keeps_begin_ h
  clear_value s1
  exact keeps_ite (keeps_rekeyPort k2) k2

theorem keeps_execRekey {o s : State} (h : Keeps o s) {port : Nat} :
    KeepsNext o (execRekey port s) := by
  unfold execRekey
  exact KeepsNext.next (keeps_gated (keeps_begin_ h) (fun x1 k2 => keeps_rekeyPort k2))

theorem keeps_execRetrain {o s : State} (h : Keeps o s) {port : Nat} :
    KeepsNext o (execRetrain port s) := by
  unfold execRetrain
  exact KeepsNext.next (keeps_gated (keeps_begin_ h) (fun x1 k2 => keeps_retrainPort k2))

theorem keeps_execLinkTrainComplete {o s : State} (h : Keeps o s) {port : Nat} {t : TrainIn} :
    KeepsNext o (execLinkTrainComplete port t s) := by
  unfold execLinkTrainComplete
  exact KeepsNext.next (keeps_trained (keeps_begin_ h))

theorem keeps_execStopMarkerReceive {o s : State} (h : Keeps o s) {port : Nat} :
    KeepsNext o (execStopMarkerReceive port s) := by
  unfold execStopMarkerReceive
  extract_lets s1
  have k2 : Keeps o s1 := keeps_begin_ h
  clear_value s1
  exact KeepsNext.next (keeps_ite (keeps_portFails k2) k2)

end Sys2Proof.Machine
end

