-- ==== Sys2Proof/Laws/KeepsPacket.lean ====
section
/-! SUPPORT. The functions of Machine/Packet.lean, Machine/HostIf.lean keep the queue, the canonical form and the fixed sets of units. -/
namespace Sys2Proof.Machine
open Sys2Proof

set_option Elab.async false

theorem keeps_setFeed {o s : State} (h : Keeps o s) {key : Option Nat} {e : Nat} {f : Stream → Stream} :
    Keeps o (State.setFeed s key e f) := by
  unfold State.setFeed
  split
  · rename_i y1
    exact keeps_setStream h
  · rename_i y2 y3
    exact keeps_mk h

theorem keeps_landSample {o s : State} (h : Keeps o s) {key : Option Nat} {t : Stream} {d : Nat} {pos : Nat} {index : Nat} {f : List Nat} :
    Keeps o (State.landSample s key t d pos index f) := by
  unfold State.landSample
  split
  · rename_i y1
    exact keeps_ite (keeps_writeInput h) (keeps_setStream h)
  · rename_i y2 y3
    exact keeps_ite h (keeps_lpNarrowPut h)

theorem keeps_closeChunk {o s : State} (h : Keeps o s) {key : Option Nat} {e : Nat} {tr : Nat} :
    Keeps o (State.closeChunk s key e tr) := by
  unfold State.closeChunk
  split
  · rename_i y1 e2
    exact h
  · rename_i y3 y4 e5
    extract_lets v6 v7 v8 s9 s10 v11 s12
    have k13 : Keeps o s9 := keeps_chunkDone (keeps_flushHeld h)
    have k14 : Keeps o s10 := keeps_lpNarrowPut h
    have k15 : Keeps o s12 := by
      unfold s12
      split
      · rename_i y16
        exact keeps_setStream k13
      · rename_i y17 y18
        exact keeps_setFeed k14
    clear_value v6 v7 v8 s9 s10 v11 s12
    exact keeps_setFeed k15

theorem keeps_closeFull {o s : State} (h : Keeps o s) {key : Option Nat} {e : Nat} {a3 : Nat} :
    Keeps o (State.closeFull s key e a3) := by
  induction a3 generalizing s key e with
  | zero =>
    unfold State.closeFull
    exact h
  | succ w0 ih =>
    unfold State.closeFull
    split
    · rename_i y1 e2
      exact h
    · rename_i y3 y4 e5
      exact keeps_ite (ih (keeps_closeChunk h)) h

theorem keeps_placePacket {o s : State} (h : Keeps o s) {p : Nat} {key : Option Nat} {e : Nat} {k : Int} {fs : List (List Nat)} :
    Keeps o (State.placePacket s p key e k fs) := by
  unfold State.placePacket
  split
  · rename_i y1 e2
    exact h
  · rename_i y3 y4 e5
    extract_lets v6 v7 v8 s9 v10
    have k11 : Keeps o s9 := keeps_setFeed h
    have k12 : ∀ (x13 : State × List Nat × Bool) (x14 : List Nat × Nat), Keeps1 o x13 → Keeps1 o (v10 x13 x14) := by
      intro x13 x14 k15
      unfold v10
      extract_lets v16 v17
      clear_value v16 v17
      exact Keeps1.ite (Keeps1.mk k15.get) (Keeps1.ite k15 (Keeps1.mk (keeps_landSample k15.get)))
    clear_value v6 v7 v8 s9 v10
    refine keeps_ite (keeps_count h) ?_
    refine keeps_ite (keeps_count h) ?_
    split
    · rename_i y18 y19 y20 y21 e22
      have k23 : Keeps o y19 := Keeps1.of_eq e22 (keeps_foldl1 (Keeps1.mk k11) (fun x24 x25 k26 => k12 _ _ k26))
      extract_lets s27 s28
      have k29 : Keeps o s27 := keeps_ite (keeps_count k23) k23
      have k30 : Keeps o s28 := keeps_setFeed k29
      clear_value s27 s28
      exact keeps_ite k29 (keeps_closeFull k30)

theorem keeps_takeFrames {o s : State} (h : Keeps o s) {p : Nat} {key : Option Nat} {t : Stream} {rtp : Bool} {at_ : Nat} {fs : List (List Nat)} :
    Keeps o (State.takeFrames s p key t rtp at_ fs) := by
  unfold State.takeFrames
  split
  · rename_i y1 y2
    extract_lets v3 s4
    have k5 : Keeps o s4 := keeps_mk h
    clear_value s4
    exact keeps_placePacket k5
  · rename_i y6
    refine keeps_ite ?_ (keeps_ite (keeps_placePacket h) h)
    refine keeps_ite ?_ h
    extract_lets s7
    have k8 : Keeps o s7 := keeps_setStream h
    clear_value s7
    exact keeps_placePacket (keeps_setState k8)

theorem keeps_takeParsed {o s : State} (h : Keeps o s) {p : Nat} {key : Option Nat} {t : Stream} {x : List Byte} {parsed : Option (Nat × List Byte)} :
    Keeps o (State.takeParsed s p key t x parsed) := by
  unfold State.takeParsed
  split
  · rename_i y1
    exact keeps_count h
  · rename_i y2 y3 y4
    extract_lets v5 v6
    clear_value v5 v6
    exact keeps_takeFrames h

theorem keeps_takeDatagram {o s : State} (h : Keeps o s) {p : Nat} {key : Option Nat} {t : Stream} {bs : List Byte} :
    Keeps o (State.takeDatagram s p key t bs) := by
  unfold State.takeDatagram
  extract_lets v1 v2
  clear_value v1 v2
  exact keeps_takeParsed h

theorem keeps_ptpMap {o s : State} (h : Keeps o s) :
    Keeps o (State.ptpMap s) := by
  unfold State.ptpMap
  exact keeps_publish h

theorem keeps_delayRequest {o s : State} (h : Keeps o s) {p : Nat} {domain : Nat} :
    Keeps o (State.delayRequest s p domain) := by
  unfold State.delayRequest
  exact keeps_put (keeps_put h)

theorem keeps_ptpSync {o s : State} (h : Keeps o s) {p : Nat} {domain : Nat} {offset : Int} :
    Keeps o (State.ptpSync s p domain offset) := by
  unfold State.ptpSync
  extract_lets v1 v2 v3 s4 s5 s6
  have k7 : Keeps o s4 := keeps_mk h
  have k8 : Keeps o s5 := keeps_wr k7
  have k9 : Keeps o s6 := keeps_ite k8 (keeps_ptpMap k8)
  clear_value v1 v2 s4 s5 s6
  exact keeps_ite h (keeps_delayRequest (keeps_ite (keeps_wr k9) k9))

theorem keeps_pktDrop {o s : State} (h : Keeps o s) {p : Nat} :
    Keeps o (State.pktDrop s p) := by
  unfold State.pktDrop
  exact keeps_count h

theorem keeps_pktBad {o s : State} (h : Keeps o s) {p : Nat} :
    Keeps o (State.pktBad s p) := by
  unfold State.pktBad
  exact keeps_count h

theorem keeps_takeFrame {o s : State} (h : Keeps o s) {p : Nat} {f : EthFrame} :
    Keeps o (State.takeFrame s p f) := by
  unfold State.takeFrame
  split
  · rename_i y1 e2
    exact h
  · rename_i y3 y4
    refine keeps_ite (keeps_pktBad h) ?_
    refine keeps_ite (keeps_pktDrop h) ?_
    refine keeps_ite (keeps_pktBad h) ?_
    split
    · rename_i y5 y6 y7 y8 y9 y10 y11 y12 y13 y14 e15
      refine keeps_ite (keeps_pktBad h) ?_
      refine keeps_ite (keeps_put h) ?_
      refine keeps_ite (keeps_put h) ?_
      extract_lets v16
      clear_value v16
      split
      · rename_i y17 e18
        exact keeps_ite h (keeps_pktDrop h)
      · rename_i y19 y20 e21
        exact keeps_ite h (keeps_chooseIfReady (keeps_settleWatch (keeps_takeDatagram h)))
    · rename_i y22 y23 y24 e25
      exact keeps_ptpSync (keeps_put h)
    · rename_i y26 e27
      exact keeps_put h
    · rename_i y28 e29
      exact keeps_put h
    · rename_i y30 y31 y32 y33 y34 e35
      extract_lets s36
      have k37 : Keeps o s36 := keeps_put h
      clear_value s36
      exact keeps_ite (keeps_put k37) k37
    · rename_i y38 y39 y40 e41
      extract_lets s42 v43
      have k44 : Keeps o s42 := keeps_put h
      exact keeps_mk k44
    · rename_i y45 y46 y47 y48 y49 e50
      extract_lets s51
      have k52 : Keeps o s51 := keeps_put h
      clear_value s51
      exact keeps_ite (keeps_put k52) k52
    · rename_i y53 y54 e55
      exact keeps_reportGroups (keeps_put h)
    · rename_i y56 e57
      exact keeps_put h
    · rename_i y58 y59 y60 y61 y62 y63 y64 y65 y66 y67
      exact keeps_pktDrop h

theorem keeps_fillChunk {o s : State} (h : Keeps o s) {t0 : Stream} {key : Option Nat} :
    Keeps o (State.fillChunk s t0 key) := by
  unfold State.fillChunk
  extract_lets v1 v2 v3 s4 v5 s6 s7
  have k8 : Keeps o s4 := keeps_setFeed h
  have k9 : ∀ (x10 : State × List Nat) (x11 : Nat), Keeps1 o x10 → Keeps1 o (v5 x10 x11) := fun x10 x11 k12 => Keeps1.ite (Keeps1.mk (keeps_landSample k12.get)) (Keeps1.mk k12.get)
  have k13 : Keeps o s6 := keeps_ite k8 (Keeps1.get (keeps_foldl1 (Keeps1.mk k8) (fun x14 x15 k16 => k9 _ _ k16)))
  have k17 : Keeps o s7 := keeps_count k13
  clear_value v1 v2 v3 s4 v5 s6 s7
  exact keeps_closeFull (keeps_closeChunk k17)

theorem keeps_packetFrame {o s : State} (h : Keeps o s) {t : Stream} {k : Nat} {ch : Nat} {len : Nat} {acc : List (List Nat) × List Nat × Nat} {i : Nat} :
    Keeps1 o (State.packetFrame s t k ch len acc i) := by
  unfold State.packetFrame
  split
  · rename_i y1 y2 y3 y4
    extract_lets v5
    clear_value v5
    refine Keeps1.ite ?_ (Keeps1.ite (Keeps1.mk h) (Keeps1.mk h))
    split
    · rename_i y6 e7
      exact Keeps1.mk h
    · rename_i y8 y9 y10 e11
      split
      · rename_i y12 y13 y14 e15
        have k16 : Keeps o y14 := Keeps2.of_eq e15 (keeps_narrowRead h)
        extract_lets v17
        clear_value v17
        exact Keeps1.mk k16

theorem keeps_sendPacket {o s : State} (h : Keeps o s) {t : Stream} {e0 : Nat} {sink : Nat} {frames : List (List Nat)} {last : List Nat} {under : Nat} :
    Keeps o (State.sendPacket s t e0 sink frames last under) := by
  unfold State.sendPacket
  extract_lets v1 v2 v3 v4 v5 v6 v7 s8 v9 v10 v11 v12 v13 v14 s15
  have k16 : Keeps o s8 := keeps_ite h (keeps_setErr (keeps_count h))
  have k17 : Keeps o s15 := keeps_sendPaths k16
  clear_value v1 v2 v3 v4 v5 v6 v7 s8 v9 v10 v11 v12 v13 v14 s15
  exact keeps_setStream k17

theorem keeps_formPacket {o s : State} (h : Keeps o s) {t0 : Stream} :
    Keeps o (State.formPacket s t0) := by
  unfold State.formPacket
  extract_lets v1 v2 v3 v4 v5 s6
  have k7 : Keeps1 o s6 := keeps_foldl1 (Keeps1.mk h) (fun x8 x9 k10 => keeps_packetFrame k10.get)
  clear_value v1 v2 v3 v4 v5 s6
  split
  · rename_i y11 e12
    exact h
  · rename_i y13 y14 e15
    exact keeps_sendPacket k7.get

theorem keeps_pktDown {o s : State} (h : Keeps o s) {p : Nat} :
    Keeps o (State.pktDown s p) := by
  unfold State.pktDown
  exact keeps_wr h

theorem keeps_pktComesUp {o s : State} (h : Keeps o s) {p : Nat} :
    Keeps o (State.pktComesUp s p) := by
  unfold State.pktComesUp
  extract_lets s1
  have k2 : Keeps o s1 := keeps_reportGroups (keeps_reportGroups (keeps_wr h))
  clear_value s1
  exact keeps_foldl k2 (fun x3 x4 k5 => keeps_foldl k5 (fun x6 x7 k8 => keeps_resolveHop k8))

theorem keeps_execPktFrameReceive {o s : State} (h : Keeps o s) {port : Nat} {f : EthFrame} :
    KeepsNext o (execPktFrameReceive port f s) := by
  unfold execPktFrameReceive
  extract_lets s1
  have k2 : Keeps o s1 := keeps_begin_ h
  clear_value s1
  exact KeepsNext.next (keeps_ite (keeps_takeFrame k2) k2)

theorem keeps_execPacketFillTimeout {o s : State} (h : Keeps o s) {entry : Nat} {standby : Bool} :
    KeepsNext o (execPacketFillTimeout entry s standby) := by
  unfold execPacketFillTimeout
  extract_lets s1
  have k2 : Keeps o s1 := keeps_begin_ h
  clear_value s1
  refine KeepsNext.next ?_
  split
  · rename_i y3 e4
    exact k2
  · rename_i y5 y6 e7
    exact keeps_ite (keeps_ite (keeps_fillChunk k2) k2) (keeps_ite (keeps_chooseIfReady (keeps_settleWatch (keeps_fillChunk k2))) k2)

theorem keeps_execPacketForm {o s : State} (h : Keeps o s) {entry : Nat} :
    KeepsNext o (execPacketForm entry s) := by
  unfold execPacketForm
  extract_lets s1
  have k2 : Keeps o s1 := keeps_begin_ h
  clear_value s1
  refine KeepsNext.next ?_
  split
  · rename_i y3 e4
    exact k2
  · rename_i y5 y6 e7
    exact keeps_ite (keeps_formPacket k2) k2

theorem keeps_execPtpAnnounceTimeout {o s : State} (h : Keeps o s) :
    KeepsNext o (execPtpAnnounceTimeout s) := by
  unfold execPtpAnnounceTimeout
  extract_lets s1 s2 v3 s4
  have k5 : Keeps o s1 := keeps_begin_ h
  have k6 : Keeps o s2 := keeps_wr k5
  have k7 : Keeps o s4 := keeps_mk k6
  clear_value s1 s2 s4
  exact KeepsNext.ite (KeepsNext.next (keeps_setErrLog k7)) (KeepsNext.next k5)

theorem keeps_execPtpHoldoverExpire {o s : State} (h : Keeps o s) :
    KeepsNext o (execPtpHoldoverExpire s) := by
  unfold execPtpHoldoverExpire
  extract_lets s1
  have k2 : Keeps o s1 := keeps_begin_ h
  clear_value s1
  exact KeepsNext.next (keeps_ite (keeps_wr k2) k2)

theorem keeps_execPacketPortDown {o s : State} (h : Keeps o s) {port : Nat} :
    KeepsNext o (execPacketPortDown port s) := by
  unfold execPacketPortDown
  extract_lets s1
  have k2 : Keeps o s1 := keeps_begin_ h
  clear_value s1
  exact KeepsNext.next (keeps_ite (keeps_pktDown k2) k2)

theorem keeps_execPacketPortUp {o s : State} (h : Keeps o s) {port : Nat} :
    KeepsNext o (execPacketPortUp port s) := by
  unfold execPacketPortUp
  extract_lets s1
  have k2 : Keeps o s1 := keeps_begin_ h
  clear_value s1
  exact KeepsNext.next (keeps_ite (keeps_pktComesUp k2) k2)

theorem keeps_execLaneFail {o s : State} (h : Keeps o s) {port : Nat} {lane : Nat} :
    KeepsNext o (execLaneFail port lane s) := by
  unfold execLaneFail
  extract_lets s1
  have k2 : Keeps o s1 := keeps_begin_ h
  clear_value s1
  exact KeepsNext.next (keeps_ite (keeps_pktDown k2) (keeps_ite (keeps_laneFails k2) k2))

theorem keeps_readWord {o s : State} (h : Keeps o s) {a : Nat} :
    Keeps2 o (State.readWord s a) := by
  unfold State.readWord
  split
  · rename_i y1 e2
    exact Keeps2.mk h
  · rename_i y3 y4 y5 e6
    extract_lets v7 v8 v9 s10
    have k11 : Keeps o s10 := keeps_ite (keeps_wr h) (keeps_ite (keeps_wrAt h) (keeps_ite (keeps_wrAt h) (keeps_ite (keeps_wr (keeps_setAport h)) (keeps_ite (keeps_wr h) h))))
    clear_value v7 v8 v9 s10
    exact Keeps2.ite (Keeps2.mk h) (Keeps2.ite (Keeps2.mk h) (Keeps2.mk k11))

theorem keeps_servedWord {o s : State} (h : Keeps o s) {a : Nat} :
    Keeps2 o (State.servedWord s a) := by
  unfold State.servedWord
  exact Keeps2.ite (keeps_readWord h) (Keeps2.mk h)

theorem keeps_bar0Read {o s : State} (h : Keeps o s) {a : Nat} {n : Nat} :
    Keeps2 o (State.bar0Read s a n) := by
  unfold State.bar0Read
  extract_lets v1 s2
  have k3 : Keeps2 o s2 := by
    refine keeps_foldl2 (Keeps2.mk h) ?_
    intro x4 x5 k6
    extract_lets s7
    have k8 : Keeps2 o s7 := keeps_servedWord k6.get
    clear_value s7
    exact Keeps2.mk k8.get
  clear_value v1 s2
  exact Keeps2.mk k3.get

theorem keeps_bar0Serve {o s : State} (h : Keeps o s) {a : Nat} {n : Nat} :
    Keeps o (State.bar0Serve s a n) := by
  unfold State.bar0Serve
  refine keeps_ite ?_ h
  extract_lets s1
  have k2 : Keeps2 o s1 := keeps_bar0Read h
  clear_value s1
  exact keeps_put k2.get

theorem keeps_writeShadow {o s : State} (h : Keeps o s) {k : PageKind} {i : Nat} {off : Nat} {w : Nat} :
    Keeps o (State.writeShadow s k i off w) := by
  unfold State.writeShadow
  extract_lets v1 v2 v3 v4 v5
  clear_value v1 v2 v3 v4
  exact keeps_ite (keeps_badWrite h) (keeps_ite (keeps_staging (keeps_mk h)) (keeps_staging (keeps_setWord h)))

theorem keeps_stageRevert {o s : State} (h : Keeps o s) {k : PageKind} {i : Nat} :
    Keeps o (State.stageRevert s k i) := by
  unfold State.stageRevert
  exact keeps_ite (keeps_badWrite h) (keeps_staging (keeps_revertPage h))

theorem keeps_siteCtl {o s : State} (h : Keeps o s) {i : Nat} {w : Nat} :
    Keeps o (State.siteCtl s i w) := by
  unfold State.siteCtl
  refine keeps_ite (keeps_badWrite h) ?_
  extract_lets s1
  have k2 : Keeps o s1 := keeps_wr h
  clear_value s1
  exact keeps_ite (keeps_stageRevert k2) k2

theorem keeps_writePageCtl {o s : State} (h : Keeps o s) {k : PageKind} {i : Nat} {w : Nat} :
    Keeps o (State.writePageCtl s k i w) := by
  unfold State.writePageCtl
  extract_lets v1 v2 v3
  have k4 : ∀ (x5 : State), Keeps o x5 → Keeps o (v2 x5) := fun x5 k6 => keeps_ite (keeps_stageRevert k6) k6
  clear_value v1 v2 v3
  split
  · rename_i y7
    exact keeps_ite (keeps_badWrite h) (k4 _ h)
  · rename_i y8
    exact keeps_siteCtl h
  · rename_i y9
    exact k4 _ (keeps_lnkEnable (keeps_wr h))
  · rename_i y10
    exact k4 _ (keeps_aptEnable h)
  · rename_i y11
    exact k4 _ (keeps_choose (keeps_wr h))
  · rename_i y12
    exact k4 _ (keeps_choose (keeps_syncDamper (keeps_wr h)))
  · rename_i y13
    exact k4 _ (keeps_wr h)
  · rename_i y14
    exact k4 _ (keeps_wr h)
  · rename_i y15
    exact k4 _ (keeps_wr h)
  · rename_i y16 y17 y18 y19 y20 y21 y22 y23 y24 y25
    exact k4 _ h

theorem keeps_writePlain {o s : State} (h : Keeps o s) {k : PageKind} {i : Nat} {off : Nat} {w : Nat} :
    Keeps o (State.writePlain s k i off w) := by
  unfold State.writePlain
  extract_lets v1 v2 v3 v4
  clear_value v1 v2 v3 v4
  exact keeps_watchErr h (fun x5 k6 => keeps_setWord k6)

theorem keeps_writeTaken {o s : State} (h : Keeps o s) {k : PageKind} {i : Nat} {off : Nat} {w : Nat} :
    Keeps o (State.writeTaken s k i off w) := by
  unfold State.writeTaken
  refine keeps_ite (keeps_writePageCtl h) ?_
  split
  · rename_i y1
    refine keeps_ite ?_ ?_
    · split
      · rename_i y2 e3
        exact keeps_startCheck h
      · rename_i y4 e5
        exact keeps_startApply h
      · rename_i y6 y7 y8
        exact keeps_abandonCmd h
    · exact keeps_ite (keeps_softResetWrite h) (keeps_ite (keeps_benchResetWrite h) (keeps_ite (keeps_jobKillWrite h) (keeps_ite (keeps_powerWrite h) (keeps_ite (keeps_consWrite h) (keeps_writePlain h)))))
  · rename_i y9
    exact keeps_ite (keeps_ite (keeps_closeWindow h) h) (keeps_ite (keeps_secStart h) (keeps_ite (keeps_consWrite h) (keeps_writePlain h)))
  · rename_i y10
    exact keeps_ite (keeps_consWrite h) (keeps_writePlain h)
  · rename_i y11
    refine keeps_ite ?_ (keeps_writePlain h)
    extract_lets s12
    have k13 : Keeps o s12 := keeps_ite (keeps_cntAlignWrite h) h
    clear_value s12
    exact keeps_ite (keeps_cntSetWrite k13) k13
  · rename_i y14
    exact keeps_ite (keeps_ite (keeps_badWrite h) (keeps_writePlain h)) (keeps_writePlain h)
  · rename_i y15
    exact keeps_ite (keeps_pntCmdWrite h) (keeps_ite (keeps_resumeWrite h) (keeps_writePlain h))
  · rename_i y16
    refine keeps_ite ?_ (keeps_writePlain h)
    extract_lets s17
    have k18 : Keeps o s17 := keeps_writePlain h
    clear_value s17
    exact keeps_ite (keeps_mk k18) k18
  · rename_i y19
    exact keeps_ite (keeps_marginWrite h) (keeps_writePlain h)
  · rename_i y20
    refine keeps_ite ?_ (keeps_writePlain h)
    extract_lets s21
    have k22 : Keeps o s21 := keeps_ite (keeps_retrainPort h) h
    clear_value s21
    exact keeps_ite (keeps_rekeyPort k22) k22
  · rename_i y23
    exact keeps_ite (keeps_scrubHoldWrite h) (keeps_ite (keeps_ite (keeps_writePlain h) (keeps_badWrite h)) (keeps_writePlain h))
  · rename_i y24 y25 y26 y27 y28 y29 y30 y31 y32 y33 y34
    exact keeps_writePlain h

theorem keeps_writeLive {o s : State} (h : Keeps o s) {k : PageKind} {i : Nat} {off : Nat} {w : Nat} :
    Keeps o (State.writeLive s k i off w) := by
  unfold State.writeLive
  exact keeps_ite (keeps_badWrite h) (keeps_writeTaken h)

theorem keeps_writeWord {o s : State} (h : Keeps o s) {a : Nat} {w : Nat} :
    Keeps o (State.writeWord s a w) := by
  unfold State.writeWord
  split
  · rename_i y1 e2
    exact h
  · rename_i y3 y4 y5 e6
    extract_lets v7 v8
    clear_value v7 v8
    exact keeps_ite (keeps_badWrite h) (keeps_ite (keeps_ite h (keeps_badWrite h)) (keeps_ite (keeps_writeShadow h) (keeps_writeLive h)))

theorem keeps_bar0Write {o s : State} (h : Keeps o s) {a : Nat} {size : Nat} {value : Nat} :
    Keeps o (State.bar0Write s a size value) := by
  unfold State.bar0Write
  refine keeps_ite h ?_
  refine keeps_ite (keeps_writeWord h) ?_
  refine keeps_ite (keeps_writeWord (keeps_writeWord h)) ?_
  split
  · rename_i y1 e2
    exact h
  · rename_i y3 y4 y5 e6
    exact keeps_badWrite h

theorem keeps_hostLpWrite {o s : State} (h : Keeps o s) {a : Nat} {bs : List Byte} :
    Keeps o (State.hostLpWrite s a bs) := by
  unfold State.hostLpWrite
  extract_lets v1 v2 v3 s4 v5 v6
  have k7 : ∀ (x8 : State), Keeps o x8 → Keeps o (v2 x8) := fun x8 k9 => Keeps3.get (keeps_serveAccess k9)
  have k10 : Keeps o s4 := k7 _ h
  clear_value v1 v2 v3 s4 v5
  refine keeps_ite (keeps_setErr h) ?_
  refine keeps_ite (keeps_ite (keeps_setErr h) (keeps_syncStaged (keeps_staging (keeps_mk k10)))) ?_
  refine keeps_ite (keeps_setErr h) ?_
  split
  · rename_i y11 y12 e13
    exact keeps_setErr h
  · rename_i y14 e15
    exact k7 _ h

theorem keeps_bar2Lp {o s : State} (h : Keeps o s) {a : Nat} {n : Nat} {write : Option (List Byte)} :
    Keeps o (State.bar2Lp s a n write) := by
  unfold State.bar2Lp
  extract_lets v1 s2 s3
  have k4 : Keeps o s2 := keeps_ite (keeps_unmappedErr h) h
  have k5 : Keeps3 o s3 := Keeps3.ite (Keeps3.mk k4) (keeps_serveAccess k4)
  clear_value v1 s2 s3
  split
  · rename_i y6 y7
    exact keeps_ite k4 (keeps_hostLpWrite k4)
  · rename_i y8
    exact keeps_put k5.get

theorem keeps_bar2None {o s : State} (h : Keeps o s) {n : Nat} {write : Option (List Byte)} :
    Keeps o (State.bar2None s n write) := by
  unfold State.bar2None
  exact keeps_ite h (keeps_put h)

theorem keeps_debugAccess {o s : State} (h : Keeps o s) {off : Nat} {n : Nat} {write : Option (List Byte)} :
    Keeps o (State.debugAccess s off n write) := by
  unfold State.debugAccess
  extract_lets v1 s2
  have k3 : Keeps2 o s2 := keeps_narrowRead h
  clear_value v1 s2
  refine keeps_ite (keeps_bar2None (keeps_setErr h)) ?_
  refine keeps_ite (keeps_bar2None (keeps_unmappedErr h)) ?_
  refine keeps_ite (keeps_bar2None (keeps_sealedErr h)) ?_
  split
  · rename_i y4 y5
    exact keeps_ite (keeps_narrowWrite h) (keeps_badWrite h)
  · rename_i y6
    exact keeps_put k3.get

theorem keeps_bar2Access {o s : State} (h : Keeps o s) {off : Nat} {n : Nat} {write : Option (List Byte)} :
    Keeps o (State.bar2Access s off n write) := by
  unfold State.bar2Access
  refine keeps_ite h ?_
  refine keeps_ite (keeps_bar2None h) ?_
  refine keeps_ite (keeps_ite (keeps_bar2None h) (keeps_ite (keeps_bar2Lp h) (keeps_bar2None (keeps_unmappedErr h)))) ?_
  exact keeps_ite (keeps_bar2None (keeps_unmappedErr h)) (keeps_ite (keeps_ite (keeps_bar2None h) (keeps_bar2Lp h)) (keeps_debugAccess h))

theorem keeps_execRegisterWrite {o s : State} (h : Keeps o s) {addr : Nat} {size : Nat} {value : Nat} :
    KeepsNext o (execRegisterWrite addr size value s) := by
  unfold execRegisterWrite
  exact KeepsNext.next (keeps_bar0Write (keeps_begin_ h))

theorem keeps_execShadowWrite {o s : State} (h : Keeps o s) {addr : Nat} {value : Nat} :
    KeepsNext o (execShadowWrite addr value s) := by
  unfold execShadowWrite
  exact KeepsNext.next (keeps_bar0Write (keeps_begin_ h))

theorem keeps_execStageRevert {o s : State} (h : Keeps o s) {page : Nat} :
    KeepsNext o (execStageRevert page s) := by
  unfold execStageRevert
  extract_lets s1
  have k2 : Keeps o s1 := keeps_begin_ h
  clear_value s1
  refine KeepsNext.next ?_
  split
  · rename_i y3 y4 y5 e6
    exact keeps_gated k2 (fun x7 k8 => keeps_stageRevert k8)
  · rename_i y9 e10
    exact k2

theorem keeps_execCodebookWrite {o s : State} (h : Keeps o s) {word : Nat} {value : Nat} :
    KeepsNext o (execCodebookWrite word value s) := by
  unfold execCodebookWrite
  exact KeepsNext.next (keeps_gated (keeps_begin_ h) (fun x1 k2 => keeps_writeLive k2))

theorem keeps_execLnkPortEnableWrite {o s : State} (h : Keeps o s) {port : Nat} {word : Nat} :
    KeepsNext o (execLnkPortEnableWrite port word s) := by
  unfold execLnkPortEnableWrite
  exact KeepsNext.next (keeps_gated (keeps_begin_ h) (fun x1 k2 => keeps_writeLive k2))

theorem keeps_execXmcEnableWrite {o s : State} (h : Keeps o s) {site : Nat} {value : Nat} :
    KeepsNext o (execXmcEnableWrite site value s) := by
  unfold execXmcEnableWrite
  extract_lets v1 v2
  clear_value v1 v2
  exact KeepsNext.next (keeps_gated (keeps_begin_ h) (fun x3 k4 => keeps_ite (keeps_badWrite k4) (keeps_siteCtl k4)))

theorem keeps_execLogRdSeqWrite {o s : State} (h : Keeps o s) {value : Nat} :
    KeepsNext o (execLogRdSeqWrite value s) := by
  unfold execLogRdSeqWrite
  exact KeepsNext.next (keeps_gated (keeps_begin_ h) (fun x1 k2 => keeps_wr k2))

theorem keeps_execEvtClear {o s : State} (h : Keeps o s) :
    KeepsNext o (execEvtClear s) := by
  unfold execEvtClear
  exact KeepsNext.next (keeps_gated (keeps_begin_ h) (fun x1 k2 => keeps_mk k2))

theorem keeps_execCntNowRead {o s : State} (h : Keeps o s) {off : Nat} {size : Nat} :
    KeepsNext o (execCntNowRead s off size) := by
  unfold execCntNowRead
  exact KeepsNext.next (keeps_bar0Serve (keeps_begin_ h))

theorem keeps_execEvtCntLoRead {o s : State} (h : Keeps o s) {page : Nat} {off : Nat} {size : Nat} :
    KeepsNext o (execEvtCntLoRead page off s size) := by
  unfold execEvtCntLoRead
  exact KeepsNext.next (keeps_bar0Serve (keeps_begin_ h))

theorem keeps_execBar2StreamWrite {o s : State} (h : Keeps o s) {off : Nat} {data : List Byte} :
    KeepsNext o (execBar2StreamWrite off data s) := by
  unfold execBar2StreamWrite
  exact KeepsNext.next (keeps_bar2Access (keeps_begin_ h))

theorem keeps_execBar2ApertureAccess {o s : State} (h : Keeps o s) {off : Nat} {len : Nat} {write : Option (List Byte)} :
    KeepsNext o (execBar2ApertureAccess off len write s) := by
  unfold execBar2ApertureAccess
  exact KeepsNext.next (keeps_bar2Access (keeps_begin_ h))

theorem keeps_execBar2DebugAccess {o s : State} (h : Keeps o s) {off : Nat} {len : Nat} {write : Option (List Byte)} :
    KeepsNext o (execBar2DebugAccess off len write s) := by
  unfold execBar2DebugAccess
  exact KeepsNext.next (keeps_bar2Access (keeps_begin_ h))

end Sys2Proof.Machine
end

