-- ==== Sys2Proof/Laws/KeepsBoot.lean ====
section
/-! SUPPORT. The functions of Machine/Boot.lean, Machine/Dispatch.lean keep the queue, the canonical form and the fixed sets of units. -/
namespace Sys2Proof.Machine
open Sys2Proof

set_option Elab.async false

theorem keeps_toRow {o s : State} (h : Keeps o s) {n : Nat} :
    Keeps o (State.toRow s n) := by
  unfold State.toRow
  extract_lets s1 v2
  have k3 : Keeps o s1 := keeps_wr h
  exact keeps_mk k3

theorem keeps_stopBoot {o s : State} (h : Keeps o s) {fail : Nat} {detail : Nat} :
    Keeps o (State.stopBoot s fail detail) := by
  unfold State.stopBoot
  extract_lets s1 s2 v3
  have k4 : Keeps o s1 := keeps_wr h
  have k5 : Keeps o s2 := keeps_wr k4
  clear_value s1 s2
  exact keeps_mk k5

theorem keeps_loadFuses {o s : State} (h : Keeps o s) :
    Keeps o (State.loadFuses s) := by
  unfold State.loadFuses
  extract_lets s1 s2 s3
  have k4 : Keeps o s1 := keeps_wr h
  have k5 : Keeps o s2 := keeps_wr k4
  have k6 : Keeps o s3 := keeps_wr k5
  clear_value s1 s2 s3
  exact keeps_syncTally (keeps_wr k6)

theorem keeps_fuseRow {o s : State} (h : Keeps o s) :
    Keeps o (State.fuseRow s) := by
  unfold State.fuseRow
  extract_lets s1 s2 s3 s4
  have k5 : Keeps o s1 := keeps_loadFuses h
  have k6 : Keeps o s2 := keeps_extendM k5
  have k7 : Keeps o s3 := keeps_extendM k6
  have k8 : Keeps o s4 := keeps_ite (keeps_extendM k7) k7
  clear_value s1 s2 s3 s4
  exact keeps_toRow k8

theorem keeps_release {o s : State} (h : Keeps o s) :
    Keeps o (State.release s) := by
  unfold State.release
  extract_lets s1 v2
  have k3 : Keeps o s1 := keeps_wr h
  exact keeps_mk k3

theorem keeps_bootSlot {o s : State} (h : Keeps o s) {slot : Nat} :
    Keeps o (State.bootSlot s slot) := by
  unfold State.bootSlot
  extract_lets v1 s2 s3 s4
  have k5 : Keeps o s2 := keeps_mk h
  have k6 : Keeps o s3 := keeps_wr k5
  have k7 : Keeps o s4 := keeps_wr k6
  clear_value s2 s3 s4
  exact keeps_toRow (keeps_extendM k7)

theorem keeps_fwRow {o s : State} (h : Keeps o s) {codes : List Nat} :
    Keeps o (State.fwRow s codes) := by
  unfold State.fwRow
  extract_lets v1 s2 v3 s4 v5 s6
  have k7 : Keeps o s2 := keeps_wr h
  have k8 : Keeps o s4 := keeps_ite (keeps_mk k7) h
  have k9 : Keeps o s6 := keeps_setErr (keeps_mk k8)
  clear_value v1 s4 s6
  split
  · rename_i y10 y11 e12
    exact keeps_ite (keeps_bootSlot k8) (keeps_ite (keeps_bootSlot k9) (keeps_stopBoot k9))
  · rename_i y13 e14
    exact keeps_ite (keeps_bootSlot k8) (keeps_stopBoot k8)

theorem keeps_trainSite {o s : State} (h : Keeps o s) {i : Nat} {t : SiteTrain} :
    Keeps o (State.trainSite s i t) := by
  unfold State.trainSite
  extract_lets v1 s2 s3 s4 s5 s6
  have k7 : Keeps o s2 := keeps_wr h
  have k8 : Keeps o s3 := keeps_wr k7
  have k9 : Keeps o s4 := keeps_wr k8
  have k10 : Keeps o s5 := keeps_wr k9
  have k11 : Keeps o s6 := keeps_wr k10
  clear_value v1 s2 s3 s4 s5 s6
  exact keeps_setSite k11

theorem keeps_memRow {o s : State} (h : Keeps o s) {sites : List SiteTrain} :
    Keeps o (State.memRow s sites) := by
  unfold State.memRow
  extract_lets s1 v2 v3 v4 s5 s6
  have k7 : Keeps o s1 := keeps_foldl h (fun x8 x9 k10 => keeps_trainSite k10)
  have k11 : Keeps o s5 := keeps_extendM k7
  have k12 : Keeps o s6 := keeps_foldl k11 (fun x13 x14 k15 => keeps_ite (keeps_startTraining k15) k15)
  clear_value s1 v2 v3 v4 s5 s6
  exact keeps_ite (keeps_stopBoot k7) (keeps_toRow k12)

theorem keeps_linkRow {o s : State} (h : Keeps o s) {results : List TrainIn} :
    Keeps o (State.linkRow s results) := by
  unfold State.linkRow
  extract_lets s1
  have k2 : Keeps o s1 := by
    refine keeps_foldl h ?_
    intro x3 x4 k5
    split
    · rename_i y6 y7 e8
      exact keeps_ite (keeps_trained k5) k5
    · rename_i y9 e10
      exact k5
  clear_value s1
  exact keeps_toRow k2

theorem keeps_publishRow {o s : State} (h : Keeps o s) :
    Keeps o (State.publishRow s) := by
  unfold State.publishRow
  extract_lets v1 v2 s3 s4 s5 s6 s7
  have k8 : Keeps o s3 := keeps_wr h
  have k9 : Keeps o s4 := keeps_wr k8
  have k10 : Keeps o s5 := keeps_wr k9
  have k11 : Keeps o s6 := keeps_wr k10
  have k12 : Keeps o s7 := keeps_foldl k11 (fun x13 x14 k15 => keeps_wr k15)
  clear_value v1 v2 s3 s4 s5 s6 s7
  exact keeps_toRow k12

theorem keeps_readyRow {o s : State} (h : Keeps o s) :
    Keeps o (State.readyRow s) := by
  unfold State.readyRow
  extract_lets s1 s2 v3 v4 s5 s6
  have k7 : Keeps o s1 := keeps_wr h
  have k8 : Keeps o s2 := keeps_wr (keeps_wr k7)
  have k9 : Keeps o s5 := keeps_mk k8
  have k10 : Keeps o s6 := keeps_wr k9
  clear_value s1 s2 s5 s6
  exact keeps_logAdd k10

theorem keeps_resumeSigning {o s : State} (h : Keeps o s) :
    Keeps o (State.resumeSigning s) := by
  unfold State.resumeSigning
  extract_lets s1 v2 s3
  have k4 : Keeps o s1 := keeps_syncTally (keeps_signTally h)
  have k5 : Keeps o s3 := keeps_ite (keeps_secFinish (keeps_mk k4)) k4
  clear_value s1 s3
  exact keeps_foldl k5 (fun x6 x7 k8 => keeps_sendKey k8)

theorem keeps_blockWritten {o s : State} (h : Keeps o s) {ok : Bool} :
    Keeps o (State.blockWritten s ok) := by
  unfold State.blockWritten
  split
  · rename_i y1 e2
    exact h
  · rename_i y3 y4 e5
    refine keeps_ite ?_ ?_
    · extract_lets v6 v7
      clear_value v6
      exact keeps_resumeSigning (keeps_mk h)
    · extract_lets s8 s9 s10 v11
      have k12 : Keeps o s8 := keeps_setErr h
      have k13 : Keeps o s9 := keeps_ite (keeps_setErr k12) k12
      have k14 : Keeps o s10 := keeps_ite (keeps_secEnd k13) k13
      clear_value s8 s9 s10
      exact keeps_mk k14

theorem keeps_execBootFuses {o s : State} (h : Keeps o s) {ok : Bool} {detail : Nat} :
    KeepsNext o (execBootFuses ok detail s) := by
  unfold execBootFuses
  extract_lets s1 s2
  have k3 : Keeps o s1 := keeps_begin_ h
  have k4 : Keeps o s2 := keeps_release k3
  clear_value s1 s2
  exact KeepsNext.next (keeps_ite k3 (keeps_ite (keeps_fuseRow k4) (keeps_stopBoot k4)))

theorem keeps_execBootFwVerify {o s : State} (h : Keeps o s) {codes : List Nat} :
    KeepsNext o (execBootFwVerify codes s) := by
  unfold execBootFwVerify
  extract_lets s1
  have k2 : Keeps o s1 := keeps_begin_ h
  clear_value s1
  exact KeepsNext.next (keeps_ite (keeps_fwRow k2) k2)

theorem keeps_execMpStart {o s : State} (h : Keeps o s) :
    KeepsNext o (execMpStart s) := by
  unfold execMpStart
  extract_lets s1
  have k2 : Keeps o s1 := keeps_begin_ h
  clear_value s1
  exact KeepsNext.next (keeps_ite (keeps_toRow k2) k2)

theorem keeps_execBist {o s : State} (h : Keeps o s) {failed : Bool} {detail : Nat} :
    KeepsNext o (execBist failed detail s) := by
  unfold execBist
  extract_lets s1
  have k2 : Keeps o s1 := keeps_begin_ h
  clear_value s1
  exact KeepsNext.next (keeps_ite k2 (keeps_ite (keeps_stopBoot k2) (keeps_toRow k2)))

theorem keeps_execMemTrain {o s : State} (h : Keeps o s) {sites : List SiteTrain} :
    KeepsNext o (execMemTrain sites s) := by
  unfold execMemTrain
  extract_lets s1
  have k2 : Keeps o s1 := keeps_begin_ h
  clear_value s1
  exact KeepsNext.next (keeps_ite (keeps_memRow k2) k2)

theorem keeps_execLinkTrain {o s : State} (h : Keeps o s) {results : List TrainIn} :
    KeepsNext o (execLinkTrain results s) := by
  unfold execLinkTrain
  extract_lets s1
  have k2 : Keeps o s1 := keeps_begin_ h
  clear_value s1
  exact KeepsNext.next (keeps_ite (keeps_linkRow k2) k2)

theorem keeps_execPublish {o s : State} (h : Keeps o s) :
    KeepsNext o (execPublish s) := by
  unfold execPublish
  extract_lets s1
  have k2 : Keeps o s1 := keeps_begin_ h
  clear_value s1
  exact KeepsNext.next (keeps_ite (keeps_publishRow k2) k2)

theorem keeps_execDeviceReady {o s : State} (h : Keeps o s) :
    KeepsNext o (execDeviceReady s) := by
  unfold execDeviceReady
  extract_lets s1
  have k2 : Keeps o s1 := keeps_begin_ h
  clear_value s1
  exact KeepsNext.next (keeps_ite (keeps_readyRow k2) k2)

theorem keeps_execConfigRequest {o s : State} (h : Keeps o s) {busMaster : Option Bool} :
    KeepsNext o (execConfigRequest s busMaster) := by
  unfold execConfigRequest
  extract_lets s1 v2 v3 s4
  have k5 : Keeps o s1 := keeps_begin_ h
  have k6 : Keeps o s4 := keeps_ite (keeps_mk k5) k5
  clear_value s1 v2 s4
  exact KeepsNext.next (keeps_ite k5 (keeps_put k6))

theorem keeps_execSmbusReadByte {o s : State} (h : Keeps o s) {cmd : Nat} :
    KeepsNext o (execSmbusReadByte cmd s) := by
  unfold execSmbusReadByte
  extract_lets s1
  have k2 : Keeps o s1 := keeps_begin_ h
  clear_value s1
  exact KeepsNext.next (keeps_ite k2 (keeps_put k2))

theorem keeps_execJtagInstruction {o s : State} (h : Keeps o s) {ir : Nat} :
    KeepsNext o (execJtagInstruction ir s) := by
  unfold execJtagInstruction
  extract_lets s1
  have k2 : Keeps o s1 := keeps_begin_ h
  clear_value s1
  exact KeepsNext.next (keeps_ite k2 (keeps_put k2))

theorem keeps_execNextblockWriteDone {o s : State} (h : Keeps o s) {ok : Bool} :
    KeepsNext o (execNextblockWriteDone ok s) := by
  unfold execNextblockWriteDone
  exact KeepsNext.next (keeps_blockWritten (keeps_begin_ h))

theorem keeps_exec {o s : State} (h : Keeps o s) {i : Instr} :
    KeepsNext o (exec i s) := by
  unfold exec
  split
  · rename_i y1 y2 y3 y4
    exact keeps_execRegisterWrite h
  · rename_i y5 y6 y7
    exact keeps_execShadowWrite h
  · rename_i y8 y9
    exact keeps_execStageRevert h
  · rename_i y10
    exact keeps_execCheck h
  · rename_i y11
    exact keeps_execCheckComplete h
  · rename_i y12 y13
    exact keeps_execApply h
  · rename_i y14
    exact keeps_execAbandon h
  · rename_i y15
    exact keeps_execParisonApplication h
  · rename_i y16 y17 y18
    exact keeps_execBar2StreamWrite h
  · rename_i y19 y20 y21 y22
    exact keeps_execBar2ApertureAccess h
  · rename_i y23 y24 y25 y26
    exact keeps_execBar2DebugAccess h
  · rename_i y27 y28 y29
    exact keeps_execCntNowRead h
  · rename_i y30 y31 y32
    exact keeps_execCodebookWrite h
  · rename_i y33 y34
    exact keeps_execMatrix h
  · rename_i y35 y36
    exact keeps_execVector h
  · rename_i y37 y38
    exact keeps_execGate h
  · rename_i y39 y40
    exact keeps_execExpertRouting h
  · rename_i y41 y42
    exact keeps_execConversion h
  · rename_i y43 y44
    exact keeps_execRecurrence h
  · rename_i y45 y46
    exact keeps_execParallelScan h
  · rename_i y47 y48
    exact keeps_execAttention h
  · rename_i y49 y50
    exact keeps_execKvAppend h
  · rename_i y51 y52
    exact keeps_execKvStage h
  · rename_i y53 y54
    exact keeps_execKvRestore h
  · rename_i y55 y56
    exact keeps_execConvolution h
  · rename_i y57 y58
    exact keeps_execPooling h
  · rename_i y59 y60
    exact keeps_execEventDecoding h
  · rename_i y61 y62
    exact keeps_execAllReduce h
  · rename_i y63 y64
    exact keeps_execReduceScatter h
  · rename_i y65 y66
    exact keeps_execAllGather h
  · rename_i y67 y68
    exact keeps_execBroadcast h
  · rename_i y69 y70
    exact keeps_execKvRingRotation h
  · rename_i y71 y72
    exact keeps_execSecondChancePass h
  · rename_i y73 y74
    exact keeps_execAttentionMergePass h
  · rename_i y75 y76
    exact keeps_execWeightReissue h
  · rename_i y77 y78
    exact keeps_execSweepClose h
  · rename_i y79 y80
    exact keeps_execSourceTimeout h
  · rename_i y81
    exact keeps_execBarrierWatchdog h
  · rename_i y82 y83
    exact keeps_execWindowOpen h
  · rename_i y84 y85
    exact keeps_execBenchPowerGood h
  · rename_i y86 y87
    exact keeps_execGatherTransferIssue h
  · rename_i y88 y89 y90
    exact keeps_execTransferLand h
  · rename_i y91 y92
    exact keeps_execWeightReloadComplete h
  · rename_i y93 y94 y95 y96 y97 y98
    exact keeps_execScratchpadAtomic h
  · rename_i y99 y100 y101 y102
    exact keeps_execScratchpadPatrol h
  · rename_i y103 y104 y105
    exact keeps_execScrubComplete h
  · rename_i y106 y107
    exact keeps_execScrubHold h
  · rename_i y108 y109 y110 y111 y112 y113
    exact keeps_execLpddrAccess h
  · rename_i y114 y115 y116 y117 y118 y119 y120
    exact keeps_execLpddrAtomic h
  · rename_i y121 y122 y123 y124 y125
    exact keeps_execLpddrPatrol h
  · rename_i y126 y127 y128
    exact keeps_execStackTempRead h
  · rename_i y129 y130 y131
    exact keeps_execXmcEnableWrite h
  · rename_i y132 y133 y134
    exact keeps_execMarginGo h
  · rename_i y135 y136 y137 y138 y139
    exact keeps_execMarginDone h
  · rename_i y140 y141
    exact keeps_execLpddrDeferExpire h
  · rename_i y142 y143 y144 y145
    exact keeps_execFrameReceive h
  · rename_i y146 y147 y148 y149
    exact keeps_execReadRequest h
  · rename_i y150 y151 y152 y153
    exact keeps_execReadResponse h
  · rename_i y154 y155 y156 y157
    exact keeps_execWrite h
  · rename_i y158 y159 y160
    exact keeps_execWriteAcknowledgement h
  · rename_i y161 y162 y163
    exact keeps_execRemoteScratchpadAtomic h
  · rename_i y164 y165 y166 y167
    exact keeps_execRemoteMemoryAtomic h
  · rename_i y168 y169 y170
    exact keeps_execStreamSamples h
  · rename_i y171 y172 y173
    exact keeps_execCollective h
  · rename_i y174 y175 y176
    exact keeps_execSlowNotice h
  · rename_i y177 y178 y179
    exact keeps_execDoneNotice h
  · rename_i y180 y181 y182
    exact keeps_execSuspectReport h
  · rename_i y183
    exact keeps_execSlowNoticeSend h
  · rename_i y184 y185 y186 y187 y188
    exact keeps_execRoundTimeout h
  · rename_i y189 y190 y191
    exact keeps_execHello h
  · rename_i y192 y193 y194 y195
    exact keeps_execKeyEncapsulation h
  · rename_i y196 y197
    exact keeps_execKeyHandshakeTimeout h
  · rename_i y198 y199
    exact keeps_execRekeyDue h
  · rename_i y200 y201
    exact keeps_execRekey h
  · rename_i y202 y203
    exact keeps_execRetrain h
  · rename_i y204 y205 y206
    exact keeps_execLinkTrainComplete h
  · rename_i y207 y208 y209
    exact keeps_execLaneFail h
  · rename_i y210 y211
    exact keeps_execStopMarkerReceive h
  · rename_i y212 y213 y214
    exact keeps_execPktFrameReceive h
  · rename_i y215 y216 y217
    exact keeps_execPacketFillTimeout h
  · rename_i y218 y219
    exact keeps_execPacketForm h
  · rename_i y220
    exact keeps_execPtpAnnounceTimeout h
  · rename_i y221
    exact keeps_execPtpHoldoverExpire h
  · rename_i y222 y223 y224 y225 y226
    exact keeps_execInputBlockLand h
  · rename_i y227 y228 y229 y230
    exact keeps_execOutputTake h
  · rename_i y231 y232 y233 y234
    exact keeps_execIecBlockReceive h
  · rename_i y235 y236 y237 y238 y239
    exact keeps_execLockLoss h
  · rename_i y240 y241 y242
    exact keeps_execLockAcquire h
  · rename_i y243 y244
    exact keeps_execAptStart h
  · rename_i y245 y246
    exact keeps_execPrerollEnd h
  · rename_i y247 y248
    exact keeps_execAptStop h
  · rename_i y249 y250
    exact keeps_execStopEnd h
  · rename_i y251 y252 y253
    exact keeps_execSteerUpdate h
  · rename_i y254 y255
    exact keeps_execSyncPulse h
  · rename_i y256
    exact keeps_execSyncHoldover h
  · rename_i y257
    exact keeps_execCntSet h
  · rename_i y258
    exact keeps_execCntAlign h
  · rename_i y259 y260
    exact keeps_execPntFailstopCmd h
  · rename_i y261
    exact keeps_execMpWatchdogExpire h
  · rename_i y262 y263
    exact keeps_execBenchPowerLoss h
  · rename_i y264 y265
    exact keeps_execClockFault h
  · rename_i y266 y267
    exact keeps_execRailFault h
  · rename_i y268 y269
    exact keeps_execControlStateError h
  · rename_i y270
    exact keeps_execProbeTimeout h
  · rename_i y271 y272
    exact keeps_execStandbyResume h
  · rename_i y273
    exact keeps_execPowerOn h
  · rename_i y274
    exact keeps_execColdReset h
  · rename_i y275
    exact keeps_execHotReset h
  · rename_i y276 y277
    exact keeps_execSoftReset h
  · rename_i y278 y279
    exact keeps_execBenchReset h
  · rename_i y280 y281
    exact keeps_execJobKill h
  · rename_i y282 y283
    exact keeps_execDormantRequest h
  · rename_i y284
    exact keeps_execD3hotEnter h
  · rename_i y285
    exact keeps_execD0Return h
  · rename_i y286 y287 y288
    exact keeps_execConsWrite h
  · rename_i y289
    exact keeps_execLogMirror h
  · rename_i y290 y291
    exact keeps_execLogRdSeqWrite h
  · rename_i y292
    exact keeps_execEvtClear h
  · rename_i y293
    exact keeps_execPresenceOpen h
  · rename_i y294
    exact keeps_execPresenceExpire h
  · rename_i y295
    exact keeps_execPresenceClose h
  · rename_i y296
    exact keeps_execInstall h
  · rename_i y297
    exact keeps_execRotate h
  · rename_i y298
    exact keeps_execDebugUnlock h
  · rename_i y299
    exact keeps_execDebugLock h
  · rename_i y300
    exact keeps_execAttest h
  · rename_i y301
    exact keeps_execGetIdentity h
  · rename_i y302
    exact keeps_execExtendM7 h
  · rename_i y303 y304
    exact keeps_execSecCmdComplete h
  · rename_i y305 y306
    exact keeps_execSealSample h
  · rename_i y307 y308
    exact keeps_execTallyIntervalEnd h
  · rename_i y309
    exact keeps_execTallyRecordCopy h
  · rename_i y310 y311 y312
    exact keeps_execBootFuses h
  · rename_i y313 y314
    exact keeps_execBootFwVerify h
  · rename_i y315
    exact keeps_execMpStart h
  · rename_i y316 y317 y318
    exact keeps_execBist h
  · rename_i y319 y320
    exact keeps_execMemTrain h
  · rename_i y321 y322
    exact keeps_execLinkTrain h
  · rename_i y323
    exact keeps_execPublish h
  · rename_i y324
    exact keeps_execDeviceReady h
  · rename_i y325 y326
    exact keeps_execConfigRequest h
  · rename_i y327 y328
    exact keeps_execSmbusReadByte h
  · rename_i y329 y330
    exact keeps_execJtagInstruction h
  · rename_i y331
    exact keeps_execPresenceRelease h
  · rename_i y332
    exact keeps_execPowerLoss h
  · rename_i y333
    exact keeps_execDormantEntered h
  · rename_i y334
    exact keeps_execActiveReached h
  · rename_i y335 y336 y337
    exact keeps_execLnkPortEnableWrite h
  · rename_i y338 y339 y340 y341
    exact keeps_execEvtCntLoRead h
  · rename_i y342 y343
    exact keeps_execPacketPortDown h
  · rename_i y344 y345
    exact keeps_execPacketPortUp h
  · rename_i y346 y347
    exact keeps_execNextblockWriteDone h

end Sys2Proof.Machine
end

