-- ==== Sys2Proof/Laws/Links.lean ====
section
/-! SUPPORT. What a lane carries comes out at the other end, while both ends have carried the same (R304). -/
namespace Sys2Proof.Machine
open Sys2Proof

theorem scrambleBit_inverse (line : Nat) (b : Bool) :
    scrambleBit true line (scrambleBit false line b).2 = ((scrambleBit false line b).1, b) := by
  simp only [scrambleBit, if_true, Bool.false_eq_true, if_false]
  cases b <;> cases line.testBit 57 <;> cases line.testBit 38 <;> rfl

/-- A byte out of its bits, lowest first. -/
theorem byte_of_bits : ∀ b0 b1 b2 b3 b4 b5 b6 b7 : Bool,
    let n := b2n b0 + b2n b1 * 2 + b2n b2 * 4 + b2n b3 * 8 + b2n b4 * 16 + b2n b5 * 32 + b2n b6 * 64 + b2n b7 * 128
    n < 256 ∧ n.testBit 0 = b0 ∧ n.testBit 1 = b1 ∧ n.testBit 2 = b2 ∧ n.testBit 3 = b3 ∧ n.testBit 4 = b4 ∧ n.testBit 5 = b5 ∧
      n.testBit 6 = b6 ∧ n.testBit 7 = b7 := by decide +kernel

theorem bits_of_byte : ∀ x : Byte,
    BitVec.ofNat 8 (b2n (x.toNat.testBit 0) + b2n (x.toNat.testBit 1) * 2 + b2n (x.toNat.testBit 2) * 4 + b2n (x.toNat.testBit 3) * 8 +
      b2n (x.toNat.testBit 4) * 16 + b2n (x.toNat.testBit 5) * 32 + b2n (x.toNat.testBit 6) * 64 + b2n (x.toNat.testBit 7) * 128) = x := by
  decide +kernel

theorem scrambleBit_back {line l : Nat} {b y : Bool} (h : scrambleBit false line b = (l, y)) : scrambleBit true line y = (l, b) := by
  have := scrambleBit_inverse line b
  rwa [h] at this

theorem scrambleByte_inverse (line : Nat) (x : Byte) :
    scrambleByte true line (scrambleByte false line x).2 = ((scrambleByte false line x).1, x) := by
  have hr : List.range 8 = [0, 1, 2, 3, 4, 5, 6, 7] := rfl
  rcases e0 : scrambleBit false line (x.toNat.testBit 0) with ⟨l1, y0⟩
  rcases e1 : scrambleBit false l1 (x.toNat.testBit 1) with ⟨l2, y1⟩
  rcases e2 : scrambleBit false l2 (x.toNat.testBit 2) with ⟨l3, y2⟩
  rcases e3 : scrambleBit false l3 (x.toNat.testBit 3) with ⟨l4, y3⟩
  rcases e4 : scrambleBit false l4 (x.toNat.testBit 4) with ⟨l5, y4⟩
  rcases e5 : scrambleBit false l5 (x.toNat.testBit 5) with ⟨l6, y5⟩
  rcases e6 : scrambleBit false l6 (x.toNat.testBit 6) with ⟨l7, y6⟩
  rcases e7 : scrambleBit false l7 (x.toNat.testBit 7) with ⟨l8, y7⟩
  obtain ⟨hn, t0, t1, t2, t3, t4, t5, t6, t7⟩ := byte_of_bits y0 y1 y2 y3 y4 y5 y6 y7
  have sent : scrambleByte false line x = (l8, BitVec.ofNat 8 (b2n y0 + b2n y1 * 2 + b2n y2 * 4 + b2n y3 * 8 + b2n y4 * 16 + b2n y5 * 32 +
      b2n y6 * 64 + b2n y7 * 128)) := by
    simp only [scrambleByte, hr, List.foldl_cons, List.foldl_nil, e0, e1, e2, e3, e4, e5, e6, e7, Nat.zero_add, Nat.reducePow, Nat.mul_one]
  have back : ∀ z : Byte, z.toNat.testBit 0 = y0 → z.toNat.testBit 1 = y1 → z.toNat.testBit 2 = y2 → z.toNat.testBit 3 = y3 →
      z.toNat.testBit 4 = y4 → z.toNat.testBit 5 = y5 → z.toNat.testBit 6 = y6 → z.toNat.testBit 7 = y7 →
      scrambleByte true line z = (l8, x) := by
    intro z h0 h1 h2 h3 h4 h5 h6 h7
    simp only [scrambleByte, hr, List.foldl_cons, List.foldl_nil, h0, h1, h2, h3, h4, h5, h6, h7, scrambleBit_back e0, scrambleBit_back e1,
      scrambleBit_back e2, scrambleBit_back e3, scrambleBit_back e4, scrambleBit_back e5, scrambleBit_back e6, scrambleBit_back e7,
      Nat.zero_add, Nat.reducePow, Nat.mul_one, bits_of_byte]
  rw [sent]
  have hz : (BitVec.ofNat 8 (b2n y0 + b2n y1 * 2 + b2n y2 * 4 + b2n y3 * 8 + b2n y4 * 16 + b2n y5 * 32 + b2n y6 * 64 + b2n y7 * 128)).toNat =
      b2n y0 + b2n y1 * 2 + b2n y2 * 4 + b2n y3 * 8 + b2n y4 * 16 + b2n y5 * 32 + b2n y6 * 64 + b2n y7 * 128 :=
    (BitVec.toNat_ofNat ..).trans (Nat.mod_eq_of_lt hn)
  apply back <;> (rw [hz]; assumption)

theorem scramble_append (rx : Bool) (line : Nat) (bs cs : List Byte) :
    scramble rx line (bs ++ cs) =
      ((scramble rx (scramble rx line bs).1 cs).1, (scramble rx line bs).2 ++ (scramble rx (scramble rx line bs).1 cs).2) := by
  have go : ∀ (cs : List Byte) (l : Nat) (out : List Byte),
      cs.foldl (fun (a : Nat × List Byte) x => let y := scrambleByte rx a.1 x; (y.1, a.2 ++ [y.2])) (l, out) =
        ((scramble rx l cs).1, out ++ (scramble rx l cs).2) := by
    intro cs
    induction cs with
    | nil => intro l out; simp [scramble]
    | cons c cs ih =>
      intro l out
      have h : scramble rx l (c :: cs) = ((scramble rx (scrambleByte rx l c).1 cs).1, [(scrambleByte rx l c).2] ++ (scramble rx (scrambleByte rx l c).1 cs).2) :=
        ih _ _
      rw [h, List.foldl_cons]
      exact (ih _ _).trans (by rw [List.append_assoc])
  simp only [scramble, List.foldl_append]
  exact go cs _ _

/-- What is scrambled is descrambled by an end that has seen the same line. -/
theorem scramble_inverse (line : Nat) (bs : List Byte) :
    scramble true line (scramble false line bs).2 = ((scramble false line bs).1, bs) := by
  induction bs generalizing line with
  | nil => rfl
  | cons b bs ih =>
    have one (rx : Bool) (l : Nat) (x : Byte) : scramble rx l [x] = ((scrambleByte rx l x).1, [(scrambleByte rx l x).2]) := rfl
    have split : b :: bs = [b] ++ bs := rfl
    rw [split, scramble_append, scramble_append]
    simp only [one, scrambleByte_inverse, ih]

theorem scramble_length (rx : Bool) (line : Nat) (bs : List Byte) : (scramble rx line bs).2.length = bs.length := by
  induction bs generalizing line with
  | nil => rfl
  | cons b bs ih =>
    have split : b :: bs = [b] ++ bs := rfl
    rw [split, scramble_append, List.length_append, ih, List.length_append]
    rfl

/-- An end in the same state takes the codewords that the lane was given, and stays in step. -/
theorem LaneCode.take_send (x : LaneCode) (wire : List Byte) (n k : Nat) :
    x.take (x.send wire n k).1 n k =
      ((laneWords n k).flatMap fun c => (codeword wire c).map (BitVec.ofNat 8), (x.send wire n k).2) := by
  have len : ((laneWords n k).flatMap fun c => (codeword wire c).map (BitVec.ofNat 8)).length = 136 * (laneWords n k).length := by
    have one (c : Nat) : ((codeword wire c).map (BitVec.ofNat 8)).length = 136 := by simp [codeword]
    induction laneWords n k with
    | nil => rfl
    | cons c cs ih => rw [List.flatMap_cons, List.length_append, ih, one, List.length_cons, Nat.mul_succ, Nat.add_comm]
  have cut (rs ms : List Byte) (h : rs.length = 136 * (laneWords n k).length) : bytesAt (rs ++ ms) 0 (136 * (laneWords n k).length) = rs := by
    simp [bytesAt, ← h]
  simp only [take, send, cut _ _ ((scramble_length ..).trans len), scramble_inverse, decide_eq_true_eq]

theorem getD_map_range {α : Type} (f : Nat → α) (n i : Nat) (d : α) (h : i < n) : ((List.range n).map f).getD i d = f i := by
  simp [List.getD_eq_getElem?_getD, h]

/-- A frame that meets no error comes out of the decoder as its data bytes. -/
theorem fecDecode_clean (wire : List Byte) (hl : wire.length = 1088) (h : ∀ c, c < 8 → rsDecode (codeword wire c) = some (codeword wire c, 0)) :
    fecDecode wire = (wire.take 1056, 0, 0) := by
  have ds : (List.range 8).map (fun c => (codeword wire c, rsDecode (codeword wire c))) =
      (List.range 8).map fun c => (codeword wire c, some (codeword wire c, 0)) :=
    List.map_congr_left fun c hc => by rw [h c (List.mem_range.1 hc)]
  unfold fecDecode
  rw [ds]
  refine Prod.ext ?_ (by simp)
  apply List.ext_getElem (by simp [hl])
  intro i h1 _
  have hi : i < 1056 := by simpa using h1
  simp only [List.getElem_map, List.getElem_range, List.map_map, List.getElem_take]
  rw [getD_map_range _ _ _ _ (Nat.mod_lt _ (by decide))]
  simp only [Function.comp, codeword]
  rw [getD_map_range _ _ _ _ (by omega), Nat.div_add_mod]
  simp [List.getD_eq_getElem?_getD, show i < wire.length by omega]

/-- The wire bytes of eight codewords (R304). -/
def interleave (ws : List (List Nat)) : List Byte := (List.range 1088).map fun i => BitVec.ofNat 8 ((ws.getD (i % 8) []).getD (i / 8) 0)

theorem codeword_interleave (ws : List (List Nat)) (c : Nat) (hc : c < 8) (hl : (ws.getD c []).length = 136)
    (hb : ∀ x ∈ ws.getD c [], x < 256) : codeword (interleave ws) c = ws.getD c [] := by
  apply List.ext_getElem (by rw [hl]; simp [codeword])
  intro q h1 h2
  have hq : q < 136 := by simpa [codeword] using h1
  simp only [codeword, interleave, List.getElem_map, List.getElem_range]
  rw [getD_map_range _ _ _ _ (by omega), show (8 * q + c) % 8 = c by omega, show (8 * q + c) / 8 = q by omega, BitVec.toNat_ofNat]
  have hx : (ws.getD c []).getD q 0 = (ws.getD c [])[q] := by rw [List.getD_eq_getElem?_getD, List.getElem?_eq_getElem h2]; rfl
  rw [hx, Nat.mod_eq_of_lt (hb _ (List.getElem_mem h2))]

/-- Two lanes that take the codewords they were given bring the frame. -/
theorem joinLanes_words (wire : List Byte) (hl : wire.length = 1088) :
    joinLanes ((List.range 2).map fun k => (laneWords 2 k).flatMap fun c => (codeword wire c).map (BitVec.ofNat 8)) = wire := by
  have at_ (c q : Nat) (hq : q < 136) : ((codeword wire c).map (BitVec.ofNat 8)).getD q 0 = wire.getD (8 * q + c) 0 := by
    simp only [codeword, List.map_map]
    rw [getD_map_range _ _ _ _ hq]
    simp
  have len (c : Nat) : ((codeword wire c).map (BitVec.ofNat 8)).length = 136 := by simp [codeword]
  have nth (a b c d : List Byte) (ha : a.length = 136) (hb : b.length = 136) (hc : c.length = 136) (k q : Nat) (hk : k < 4) (hq : q < 136) :
      (a ++ (b ++ (c ++ (d ++ [])))).getD (136 * k + q) 0 = ([a, b, c, d].getD k []).getD q 0 := by
    have step (x y : List Byte) (hx : x.length = 136) (n : Nat) : (x ++ y).getD (136 + n) 0 = y.getD n 0 := by
      simp [List.getD_eq_getElem?_getD, List.getElem?_append_right, hx]
    have here (x y : List Byte) (hx : x.length = 136) : (x ++ y).getD q 0 = x.getD q 0 := by
      simp [List.getD_eq_getElem?_getD, List.getElem?_append_left, hx, hq]
    match k, hk with
    | 0, _ => simpa using here a _ ha
    | 1, _ => rw [show 136 * 1 + q = 136 + q by omega, step a _ ha]; simpa using here b _ hb
    | 2, _ => rw [show 136 * 2 + q = 136 + (136 + q) by omega, step a _ ha, step b _ hb]; simpa using here c _ hc
    | 3, _ => rw [show 136 * 3 + q = 136 + (136 + (136 + q)) by omega, step a _ ha, step b _ hb, step c _ hc]; simp
  have l0 : laneWords 2 0 = [0, 2, 4, 6] := by decide
  have l1 : laneWords 2 1 = [1, 3, 5, 7] := by decide
  apply List.ext_getElem (by simp [joinLanes, hl])
  intro i h1 h2
  have hi : i < 1088 := by simpa [joinLanes] using h1
  have hw : wire.getD (8 * (i / 8) + i % 8) 0 = wire[i] := by
    rw [Nat.div_add_mod, List.getD_eq_getElem?_getD, List.getElem?_eq_getElem h2]; rfl
  simp only [joinLanes, List.getElem_map, List.getElem_range]
  rw [if_neg (by simp), getD_map_range _ _ _ _ (Nat.mod_lt _ (by decide)), ← hw]
  have hk : i % 8 / 2 < 4 := by omega
  have hq : i / 8 < 136 := by omega
  rcases Nat.mod_two_eq_zero_or_one (i % 8) with e | e
  · rw [e, l0]
    simp only [List.flatMap_cons, List.flatMap_nil]
    rw [nth _ _ _ _ (len 0) (len 2) (len 4) _ _ hk hq]
    obtain h | h | h | h : i % 8 = 0 ∨ i % 8 = 2 ∨ i % 8 = 4 ∨ i % 8 = 6 := by omega
    all_goals rw [h]; exact at_ _ _ hq
  · rw [e, l1]
    simp only [List.flatMap_cons, List.flatMap_nil]
    rw [nth _ _ _ _ (len 1) (len 3) (len 5) _ _ hk hq]
    obtain h | h | h | h : i % 8 = 1 ∨ i % 8 = 3 ∨ i % 8 = 5 ∨ i % 8 = 7 := by omega
    all_goals rw [h]; exact at_ _ _ hq

end Sys2Proof.Machine
end

