-- ==== Sys2Proof/Laws/State.lean ====
section
/-! SUPPORT. What each plain update of the state leaves as it was, one law per field. -/
namespace Sys2Proof.Machine
open Sys2Proof

set_option Elab.async false

variable {s : State}

namespace State

@[simp] theorem setWord_pending {a : Nat} {w : Word} : (s.setWord a w).pending = s.pending := rfl
@[simp] theorem setWord_out {a : Nat} {w : Word} : (s.setWord a w).out = s.out := rfl
@[simp] theorem setWord_freeTick {a : Nat} {w : Word} : (s.setWord a w).freeTick = s.freeTick := rfl
@[simp] theorem setWord_evt {a : Nat} {w : Word} : (s.setWord a w).evt = s.evt := rfl
@[simp] theorem setWord_log {a : Nat} {w : Word} : (s.setWord a w).log = s.log := rfl
@[simp] theorem setWord_clk {a : Nat} {w : Word} : (s.setWord a w).clk = s.clk := rfl
@[simp] theorem setWord_par {a : Nat} {w : Word} : (s.setWord a w).par = s.par := rfl
@[simp] theorem setWord_gaf {a : Nat} {w : Word} : (s.setWord a w).gaf = s.gaf := rfl
@[simp] theorem setWord_dmp {a : Nat} {w : Word} : (s.setWord a w).dmp = s.dmp := rfl
@[simp] theorem setWord_spad {a : Nat} {w : Word} : (s.setWord a w).spad = s.spad := rfl
@[simp] theorem setWord_spadBad {a : Nat} {w : Word} : (s.setWord a w).spadBad = s.spadBad := rfl
@[simp] theorem setWord_spadSoft {a : Nat} {w : Word} : (s.setWord a w).spadSoft = s.spadSoft := rfl
@[simp] theorem setWord_regions {a : Nat} {w : Word} : (s.setWord a w).regions = s.regions := rfl
@[simp] theorem setWord_scrubs {a : Nat} {w : Word} : (s.setWord a w).scrubs = s.scrubs := rfl
@[simp] theorem setWord_lpddr {a : Nat} {w : Word} : (s.setWord a w).lpddr = s.lpddr := rfl
@[simp] theorem setWord_lpBad {a : Nat} {w : Word} : (s.setWord a w).lpBad = s.lpBad := rfl
@[simp] theorem setWord_sites {a : Nat} {w : Word} : (s.setWord a w).sites = s.sites := rfl
@[simp] theorem setWord_host {a : Nat} {w : Word} : (s.setWord a w).host = s.host := rfl
@[simp] theorem setWord_builtIns {a : Nat} {w : Word} : (s.setWord a w).builtIns = s.builtIns := rfl
@[simp] theorem setWord_flights {a : Nat} {w : Word} : (s.setWord a w).flights = s.flights := rfl
@[simp] theorem setWord_nextId {a : Nat} {w : Word} : (s.setWord a w).nextId = s.nextId := rfl
@[simp] theorem setWord_lnk {a : Nat} {w : Word} : (s.setWord a w).lnk = s.lnk := rfl
@[simp] theorem setWord_servo {a : Nat} {w : Word} : (s.setWord a w).servo = s.servo := rfl
@[simp] theorem setWord_apt {a : Nat} {w : Word} : (s.setWord a w).apt = s.apt := rfl
@[simp] theorem setWord_gens {a : Nat} {w : Word} : (s.setWord a w).gens = s.gens := rfl
@[simp] theorem setWord_fo {a : Nat} {w : Word} : (s.setWord a w).fo = s.fo := rfl
@[simp] theorem setWord_rings {a : Nat} {w : Word} : (s.setWord a w).rings = s.rings := rfl
@[simp] theorem setWord_logRing {a : Nat} {w : Word} : (s.setWord a w).logRing = s.logRing := rfl
@[simp] theorem setWord_tallyRing {a : Nat} {w : Word} : (s.setWord a w).tallyRing = s.tallyRing := rfl
@[simp] theorem setWord_sec {a : Nat} {w : Word} : (s.setWord a w).sec = s.sec := rfl
@[simp] theorem setWord_tly {a : Nat} {w : Word} : (s.setWord a w).tly = s.tly := rfl
@[simp] theorem setWord_pow {a : Nat} {w : Word} : (s.setWord a w).pow = s.pow := rfl

@[simp] theorem wrAt_pending {f : Field} {i x v : Nat} : (s.wrAt f i x v).pending = s.pending := rfl
@[simp] theorem wrAt_out {f : Field} {i x v : Nat} : (s.wrAt f i x v).out = s.out := rfl
@[simp] theorem wrAt_freeTick {f : Field} {i x v : Nat} : (s.wrAt f i x v).freeTick = s.freeTick := rfl
@[simp] theorem wrAt_evt {f : Field} {i x v : Nat} : (s.wrAt f i x v).evt = s.evt := rfl
@[simp] theorem wrAt_log {f : Field} {i x v : Nat} : (s.wrAt f i x v).log = s.log := rfl
@[simp] theorem wrAt_clk {f : Field} {i x v : Nat} : (s.wrAt f i x v).clk = s.clk := rfl
@[simp] theorem wrAt_par {f : Field} {i x v : Nat} : (s.wrAt f i x v).par = s.par := rfl
@[simp] theorem wrAt_gaf {f : Field} {i x v : Nat} : (s.wrAt f i x v).gaf = s.gaf := rfl
@[simp] theorem wrAt_dmp {f : Field} {i x v : Nat} : (s.wrAt f i x v).dmp = s.dmp := rfl
@[simp] theorem wrAt_spad {f : Field} {i x v : Nat} : (s.wrAt f i x v).spad = s.spad := rfl
@[simp] theorem wrAt_spadBad {f : Field} {i x v : Nat} : (s.wrAt f i x v).spadBad = s.spadBad := rfl
@[simp] theorem wrAt_spadSoft {f : Field} {i x v : Nat} : (s.wrAt f i x v).spadSoft = s.spadSoft := rfl
@[simp] theorem wrAt_regions {f : Field} {i x v : Nat} : (s.wrAt f i x v).regions = s.regions := rfl
@[simp] theorem wrAt_scrubs {f : Field} {i x v : Nat} : (s.wrAt f i x v).scrubs = s.scrubs := rfl
@[simp] theorem wrAt_lpddr {f : Field} {i x v : Nat} : (s.wrAt f i x v).lpddr = s.lpddr := rfl
@[simp] theorem wrAt_lpBad {f : Field} {i x v : Nat} : (s.wrAt f i x v).lpBad = s.lpBad := rfl
@[simp] theorem wrAt_sites {f : Field} {i x v : Nat} : (s.wrAt f i x v).sites = s.sites := rfl
@[simp] theorem wrAt_host {f : Field} {i x v : Nat} : (s.wrAt f i x v).host = s.host := rfl
@[simp] theorem wrAt_builtIns {f : Field} {i x v : Nat} : (s.wrAt f i x v).builtIns = s.builtIns := rfl
@[simp] theorem wrAt_flights {f : Field} {i x v : Nat} : (s.wrAt f i x v).flights = s.flights := rfl
@[simp] theorem wrAt_nextId {f : Field} {i x v : Nat} : (s.wrAt f i x v).nextId = s.nextId := rfl
@[simp] theorem wrAt_lnk {f : Field} {i x v : Nat} : (s.wrAt f i x v).lnk = s.lnk := rfl
@[simp] theorem wrAt_servo {f : Field} {i x v : Nat} : (s.wrAt f i x v).servo = s.servo := rfl
@[simp] theorem wrAt_apt {f : Field} {i x v : Nat} : (s.wrAt f i x v).apt = s.apt := rfl
@[simp] theorem wrAt_gens {f : Field} {i x v : Nat} : (s.wrAt f i x v).gens = s.gens := rfl
@[simp] theorem wrAt_fo {f : Field} {i x v : Nat} : (s.wrAt f i x v).fo = s.fo := rfl
@[simp] theorem wrAt_rings {f : Field} {i x v : Nat} : (s.wrAt f i x v).rings = s.rings := rfl
@[simp] theorem wrAt_logRing {f : Field} {i x v : Nat} : (s.wrAt f i x v).logRing = s.logRing := rfl
@[simp] theorem wrAt_tallyRing {f : Field} {i x v : Nat} : (s.wrAt f i x v).tallyRing = s.tallyRing := rfl
@[simp] theorem wrAt_sec {f : Field} {i x v : Nat} : (s.wrAt f i x v).sec = s.sec := rfl
@[simp] theorem wrAt_tly {f : Field} {i x v : Nat} : (s.wrAt f i x v).tly = s.tly := rfl
@[simp] theorem wrAt_pow {f : Field} {i x v : Nat} : (s.wrAt f i x v).pow = s.pow := rfl

@[simp] theorem wr_pending {f : Field} {v i : Nat} : (s.wr f v i).pending = s.pending := rfl
@[simp] theorem wr_out {f : Field} {v i : Nat} : (s.wr f v i).out = s.out := rfl
@[simp] theorem wr_freeTick {f : Field} {v i : Nat} : (s.wr f v i).freeTick = s.freeTick := rfl
@[simp] theorem wr_evt {f : Field} {v i : Nat} : (s.wr f v i).evt = s.evt := rfl
@[simp] theorem wr_log {f : Field} {v i : Nat} : (s.wr f v i).log = s.log := rfl
@[simp] theorem wr_clk {f : Field} {v i : Nat} : (s.wr f v i).clk = s.clk := rfl
@[simp] theorem wr_par {f : Field} {v i : Nat} : (s.wr f v i).par = s.par := rfl
@[simp] theorem wr_gaf {f : Field} {v i : Nat} : (s.wr f v i).gaf = s.gaf := rfl
@[simp] theorem wr_dmp {f : Field} {v i : Nat} : (s.wr f v i).dmp = s.dmp := rfl
@[simp] theorem wr_spad {f : Field} {v i : Nat} : (s.wr f v i).spad = s.spad := rfl
@[simp] theorem wr_spadBad {f : Field} {v i : Nat} : (s.wr f v i).spadBad = s.spadBad := rfl
@[simp] theorem wr_spadSoft {f : Field} {v i : Nat} : (s.wr f v i).spadSoft = s.spadSoft := rfl
@[simp] theorem wr_regions {f : Field} {v i : Nat} : (s.wr f v i).regions = s.regions := rfl
@[simp] theorem wr_scrubs {f : Field} {v i : Nat} : (s.wr f v i).scrubs = s.scrubs := rfl
@[simp] theorem wr_lpddr {f : Field} {v i : Nat} : (s.wr f v i).lpddr = s.lpddr := rfl
@[simp] theorem wr_lpBad {f : Field} {v i : Nat} : (s.wr f v i).lpBad = s.lpBad := rfl
@[simp] theorem wr_sites {f : Field} {v i : Nat} : (s.wr f v i).sites = s.sites := rfl
@[simp] theorem wr_host {f : Field} {v i : Nat} : (s.wr f v i).host = s.host := rfl
@[simp] theorem wr_builtIns {f : Field} {v i : Nat} : (s.wr f v i).builtIns = s.builtIns := rfl
@[simp] theorem wr_flights {f : Field} {v i : Nat} : (s.wr f v i).flights = s.flights := rfl
@[simp] theorem wr_nextId {f : Field} {v i : Nat} : (s.wr f v i).nextId = s.nextId := rfl
@[simp] theorem wr_lnk {f : Field} {v i : Nat} : (s.wr f v i).lnk = s.lnk := rfl
@[simp] theorem wr_servo {f : Field} {v i : Nat} : (s.wr f v i).servo = s.servo := rfl
@[simp] theorem wr_apt {f : Field} {v i : Nat} : (s.wr f v i).apt = s.apt := rfl
@[simp] theorem wr_gens {f : Field} {v i : Nat} : (s.wr f v i).gens = s.gens := rfl
@[simp] theorem wr_fo {f : Field} {v i : Nat} : (s.wr f v i).fo = s.fo := rfl
@[simp] theorem wr_rings {f : Field} {v i : Nat} : (s.wr f v i).rings = s.rings := rfl
@[simp] theorem wr_logRing {f : Field} {v i : Nat} : (s.wr f v i).logRing = s.logRing := rfl
@[simp] theorem wr_tallyRing {f : Field} {v i : Nat} : (s.wr f v i).tallyRing = s.tallyRing := rfl
@[simp] theorem wr_sec {f : Field} {v i : Nat} : (s.wr f v i).sec = s.sec := rfl
@[simp] theorem wr_tly {f : Field} {v i : Nat} : (s.wr f v i).tly = s.tly := rfl
@[simp] theorem wr_pow {f : Field} {v i : Nat} : (s.wr f v i).pow = s.pow := rfl

@[simp] theorem wrSh_pending {f : Field} {v i x : Nat} : (s.wrSh f v i x).pending = s.pending := setWord_pending
@[simp] theorem wrSh_out {f : Field} {v i x : Nat} : (s.wrSh f v i x).out = s.out := setWord_out
@[simp] theorem wrSh_freeTick {f : Field} {v i x : Nat} : (s.wrSh f v i x).freeTick = s.freeTick := setWord_freeTick
@[simp] theorem wrSh_evt {f : Field} {v i x : Nat} : (s.wrSh f v i x).evt = s.evt := setWord_evt
@[simp] theorem wrSh_log {f : Field} {v i x : Nat} : (s.wrSh f v i x).log = s.log := setWord_log
@[simp] theorem wrSh_clk {f : Field} {v i x : Nat} : (s.wrSh f v i x).clk = s.clk := setWord_clk
@[simp] theorem wrSh_par {f : Field} {v i x : Nat} : (s.wrSh f v i x).par = s.par := setWord_par
@[simp] theorem wrSh_gaf {f : Field} {v i x : Nat} : (s.wrSh f v i x).gaf = s.gaf := setWord_gaf
@[simp] theorem wrSh_dmp {f : Field} {v i x : Nat} : (s.wrSh f v i x).dmp = s.dmp := setWord_dmp
@[simp] theorem wrSh_spad {f : Field} {v i x : Nat} : (s.wrSh f v i x).spad = s.spad := setWord_spad
@[simp] theorem wrSh_spadBad {f : Field} {v i x : Nat} : (s.wrSh f v i x).spadBad = s.spadBad := setWord_spadBad
@[simp] theorem wrSh_spadSoft {f : Field} {v i x : Nat} : (s.wrSh f v i x).spadSoft = s.spadSoft := setWord_spadSoft
@[simp] theorem wrSh_regions {f : Field} {v i x : Nat} : (s.wrSh f v i x).regions = s.regions := setWord_regions
@[simp] theorem wrSh_scrubs {f : Field} {v i x : Nat} : (s.wrSh f v i x).scrubs = s.scrubs := setWord_scrubs
@[simp] theorem wrSh_lpddr {f : Field} {v i x : Nat} : (s.wrSh f v i x).lpddr = s.lpddr := setWord_lpddr
@[simp] theorem wrSh_lpBad {f : Field} {v i x : Nat} : (s.wrSh f v i x).lpBad = s.lpBad := setWord_lpBad
@[simp] theorem wrSh_sites {f : Field} {v i x : Nat} : (s.wrSh f v i x).sites = s.sites := setWord_sites
@[simp] theorem wrSh_host {f : Field} {v i x : Nat} : (s.wrSh f v i x).host = s.host := setWord_host
@[simp] theorem wrSh_builtIns {f : Field} {v i x : Nat} : (s.wrSh f v i x).builtIns = s.builtIns := setWord_builtIns
@[simp] theorem wrSh_flights {f : Field} {v i x : Nat} : (s.wrSh f v i x).flights = s.flights := setWord_flights
@[simp] theorem wrSh_nextId {f : Field} {v i x : Nat} : (s.wrSh f v i x).nextId = s.nextId := setWord_nextId
@[simp] theorem wrSh_lnk {f : Field} {v i x : Nat} : (s.wrSh f v i x).lnk = s.lnk := setWord_lnk
@[simp] theorem wrSh_servo {f : Field} {v i x : Nat} : (s.wrSh f v i x).servo = s.servo := setWord_servo
@[simp] theorem wrSh_apt {f : Field} {v i x : Nat} : (s.wrSh f v i x).apt = s.apt := setWord_apt
@[simp] theorem wrSh_gens {f : Field} {v i x : Nat} : (s.wrSh f v i x).gens = s.gens := setWord_gens
@[simp] theorem wrSh_fo {f : Field} {v i x : Nat} : (s.wrSh f v i x).fo = s.fo := setWord_fo
@[simp] theorem wrSh_rings {f : Field} {v i x : Nat} : (s.wrSh f v i x).rings = s.rings := setWord_rings
@[simp] theorem wrSh_logRing {f : Field} {v i x : Nat} : (s.wrSh f v i x).logRing = s.logRing := setWord_logRing
@[simp] theorem wrSh_tallyRing {f : Field} {v i x : Nat} : (s.wrSh f v i x).tallyRing = s.tallyRing := setWord_tallyRing
@[simp] theorem wrSh_sec {f : Field} {v i x : Nat} : (s.wrSh f v i x).sec = s.sec := setWord_sec
@[simp] theorem wrSh_tly {f : Field} {v i x : Nat} : (s.wrSh f v i x).tly = s.tly := setWord_tly
@[simp] theorem wrSh_pow {f : Field} {v i x : Nat} : (s.wrSh f v i x).pow = s.pow := setWord_pow

@[simp] theorem count_pending {f : Field} {i n : Nat} : (s.count f i n).pending = s.pending := wr_pending
@[simp] theorem count_out {f : Field} {i n : Nat} : (s.count f i n).out = s.out := wr_out
@[simp] theorem count_freeTick {f : Field} {i n : Nat} : (s.count f i n).freeTick = s.freeTick := wr_freeTick
@[simp] theorem count_evt {f : Field} {i n : Nat} : (s.count f i n).evt = s.evt := wr_evt
@[simp] theorem count_log {f : Field} {i n : Nat} : (s.count f i n).log = s.log := wr_log
@[simp] theorem count_clk {f : Field} {i n : Nat} : (s.count f i n).clk = s.clk := wr_clk
@[simp] theorem count_par {f : Field} {i n : Nat} : (s.count f i n).par = s.par := wr_par
@[simp] theorem count_gaf {f : Field} {i n : Nat} : (s.count f i n).gaf = s.gaf := wr_gaf
@[simp] theorem count_dmp {f : Field} {i n : Nat} : (s.count f i n).dmp = s.dmp := wr_dmp
@[simp] theorem count_spad {f : Field} {i n : Nat} : (s.count f i n).spad = s.spad := wr_spad
@[simp] theorem count_spadBad {f : Field} {i n : Nat} : (s.count f i n).spadBad = s.spadBad := wr_spadBad
@[simp] theorem count_spadSoft {f : Field} {i n : Nat} : (s.count f i n).spadSoft = s.spadSoft := wr_spadSoft
@[simp] theorem count_regions {f : Field} {i n : Nat} : (s.count f i n).regions = s.regions := wr_regions
@[simp] theorem count_scrubs {f : Field} {i n : Nat} : (s.count f i n).scrubs = s.scrubs := wr_scrubs
@[simp] theorem count_lpddr {f : Field} {i n : Nat} : (s.count f i n).lpddr = s.lpddr := wr_lpddr
@[simp] theorem count_lpBad {f : Field} {i n : Nat} : (s.count f i n).lpBad = s.lpBad := wr_lpBad
@[simp] theorem count_sites {f : Field} {i n : Nat} : (s.count f i n).sites = s.sites := wr_sites
@[simp] theorem count_host {f : Field} {i n : Nat} : (s.count f i n).host = s.host := wr_host
@[simp] theorem count_builtIns {f : Field} {i n : Nat} : (s.count f i n).builtIns = s.builtIns := wr_builtIns
@[simp] theorem count_flights {f : Field} {i n : Nat} : (s.count f i n).flights = s.flights := wr_flights
@[simp] theorem count_nextId {f : Field} {i n : Nat} : (s.count f i n).nextId = s.nextId := wr_nextId
@[simp] theorem count_lnk {f : Field} {i n : Nat} : (s.count f i n).lnk = s.lnk := wr_lnk
@[simp] theorem count_servo {f : Field} {i n : Nat} : (s.count f i n).servo = s.servo := wr_servo
@[simp] theorem count_apt {f : Field} {i n : Nat} : (s.count f i n).apt = s.apt := wr_apt
@[simp] theorem count_gens {f : Field} {i n : Nat} : (s.count f i n).gens = s.gens := wr_gens
@[simp] theorem count_fo {f : Field} {i n : Nat} : (s.count f i n).fo = s.fo := wr_fo
@[simp] theorem count_rings {f : Field} {i n : Nat} : (s.count f i n).rings = s.rings := wr_rings
@[simp] theorem count_logRing {f : Field} {i n : Nat} : (s.count f i n).logRing = s.logRing := wr_logRing
@[simp] theorem count_tallyRing {f : Field} {i n : Nat} : (s.count f i n).tallyRing = s.tallyRing := wr_tallyRing
@[simp] theorem count_sec {f : Field} {i n : Nat} : (s.count f i n).sec = s.sec := wr_sec
@[simp] theorem count_tly {f : Field} {i n : Nat} : (s.count f i n).tly = s.tly := wr_tly
@[simp] theorem count_pow {f : Field} {i n : Nat} : (s.count f i n).pow = s.pow := wr_pow

@[simp] theorem wr64_pending {f : Field} {v i : Nat} : (s.wr64 f v i).pending = s.pending := rfl
@[simp] theorem wr64_out {f : Field} {v i : Nat} : (s.wr64 f v i).out = s.out := rfl
@[simp] theorem wr64_freeTick {f : Field} {v i : Nat} : (s.wr64 f v i).freeTick = s.freeTick := rfl
@[simp] theorem wr64_evt {f : Field} {v i : Nat} : (s.wr64 f v i).evt = s.evt := rfl
@[simp] theorem wr64_log {f : Field} {v i : Nat} : (s.wr64 f v i).log = s.log := rfl
@[simp] theorem wr64_clk {f : Field} {v i : Nat} : (s.wr64 f v i).clk = s.clk := rfl
@[simp] theorem wr64_par {f : Field} {v i : Nat} : (s.wr64 f v i).par = s.par := rfl
@[simp] theorem wr64_gaf {f : Field} {v i : Nat} : (s.wr64 f v i).gaf = s.gaf := rfl
@[simp] theorem wr64_dmp {f : Field} {v i : Nat} : (s.wr64 f v i).dmp = s.dmp := rfl
@[simp] theorem wr64_spad {f : Field} {v i : Nat} : (s.wr64 f v i).spad = s.spad := rfl
@[simp] theorem wr64_spadBad {f : Field} {v i : Nat} : (s.wr64 f v i).spadBad = s.spadBad := rfl
@[simp] theorem wr64_spadSoft {f : Field} {v i : Nat} : (s.wr64 f v i).spadSoft = s.spadSoft := rfl
@[simp] theorem wr64_regions {f : Field} {v i : Nat} : (s.wr64 f v i).regions = s.regions := rfl
@[simp] theorem wr64_scrubs {f : Field} {v i : Nat} : (s.wr64 f v i).scrubs = s.scrubs := rfl
@[simp] theorem wr64_lpddr {f : Field} {v i : Nat} : (s.wr64 f v i).lpddr = s.lpddr := rfl
@[simp] theorem wr64_lpBad {f : Field} {v i : Nat} : (s.wr64 f v i).lpBad = s.lpBad := rfl
@[simp] theorem wr64_sites {f : Field} {v i : Nat} : (s.wr64 f v i).sites = s.sites := rfl
@[simp] theorem wr64_host {f : Field} {v i : Nat} : (s.wr64 f v i).host = s.host := rfl
@[simp] theorem wr64_builtIns {f : Field} {v i : Nat} : (s.wr64 f v i).builtIns = s.builtIns := rfl
@[simp] theorem wr64_flights {f : Field} {v i : Nat} : (s.wr64 f v i).flights = s.flights := rfl
@[simp] theorem wr64_nextId {f : Field} {v i : Nat} : (s.wr64 f v i).nextId = s.nextId := rfl
@[simp] theorem wr64_lnk {f : Field} {v i : Nat} : (s.wr64 f v i).lnk = s.lnk := rfl
@[simp] theorem wr64_servo {f : Field} {v i : Nat} : (s.wr64 f v i).servo = s.servo := rfl
@[simp] theorem wr64_apt {f : Field} {v i : Nat} : (s.wr64 f v i).apt = s.apt := rfl
@[simp] theorem wr64_gens {f : Field} {v i : Nat} : (s.wr64 f v i).gens = s.gens := rfl
@[simp] theorem wr64_fo {f : Field} {v i : Nat} : (s.wr64 f v i).fo = s.fo := rfl
@[simp] theorem wr64_rings {f : Field} {v i : Nat} : (s.wr64 f v i).rings = s.rings := rfl
@[simp] theorem wr64_logRing {f : Field} {v i : Nat} : (s.wr64 f v i).logRing = s.logRing := rfl
@[simp] theorem wr64_tallyRing {f : Field} {v i : Nat} : (s.wr64 f v i).tallyRing = s.tallyRing := rfl
@[simp] theorem wr64_sec {f : Field} {v i : Nat} : (s.wr64 f v i).sec = s.sec := rfl
@[simp] theorem wr64_tly {f : Field} {v i : Nat} : (s.wr64 f v i).tly = s.tly := rfl
@[simp] theorem wr64_pow {f : Field} {v i : Nat} : (s.wr64 f v i).pow = s.pow := rfl

@[simp] theorem put_pending {x : Out} : (s.put x).pending = s.pending := rfl
@[simp] theorem put_freeTick {x : Out} : (s.put x).freeTick = s.freeTick := rfl
@[simp] theorem put_regs {x : Out} : (s.put x).regs = s.regs := rfl
@[simp] theorem put_evt {x : Out} : (s.put x).evt = s.evt := rfl
@[simp] theorem put_log {x : Out} : (s.put x).log = s.log := rfl
@[simp] theorem put_clk {x : Out} : (s.put x).clk = s.clk := rfl
@[simp] theorem put_par {x : Out} : (s.put x).par = s.par := rfl
@[simp] theorem put_gaf {x : Out} : (s.put x).gaf = s.gaf := rfl
@[simp] theorem put_dmp {x : Out} : (s.put x).dmp = s.dmp := rfl
@[simp] theorem put_spad {x : Out} : (s.put x).spad = s.spad := rfl
@[simp] theorem put_spadBad {x : Out} : (s.put x).spadBad = s.spadBad := rfl
@[simp] theorem put_spadSoft {x : Out} : (s.put x).spadSoft = s.spadSoft := rfl
@[simp] theorem put_regions {x : Out} : (s.put x).regions = s.regions := rfl
@[simp] theorem put_scrubs {x : Out} : (s.put x).scrubs = s.scrubs := rfl
@[simp] theorem put_lpddr {x : Out} : (s.put x).lpddr = s.lpddr := rfl
@[simp] theorem put_lpBad {x : Out} : (s.put x).lpBad = s.lpBad := rfl
@[simp] theorem put_sites {x : Out} : (s.put x).sites = s.sites := rfl
@[simp] theorem put_host {x : Out} : (s.put x).host = s.host := rfl
@[simp] theorem put_builtIns {x : Out} : (s.put x).builtIns = s.builtIns := rfl
@[simp] theorem put_flights {x : Out} : (s.put x).flights = s.flights := rfl
@[simp] theorem put_nextId {x : Out} : (s.put x).nextId = s.nextId := rfl
@[simp] theorem put_lnk {x : Out} : (s.put x).lnk = s.lnk := rfl
@[simp] theorem put_servo {x : Out} : (s.put x).servo = s.servo := rfl
@[simp] theorem put_apt {x : Out} : (s.put x).apt = s.apt := rfl
@[simp] theorem put_gens {x : Out} : (s.put x).gens = s.gens := rfl
@[simp] theorem put_fo {x : Out} : (s.put x).fo = s.fo := rfl
@[simp] theorem put_rings {x : Out} : (s.put x).rings = s.rings := rfl
@[simp] theorem put_logRing {x : Out} : (s.put x).logRing = s.logRing := rfl
@[simp] theorem put_tallyRing {x : Out} : (s.put x).tallyRing = s.tallyRing := rfl
@[simp] theorem put_sec {x : Out} : (s.put x).sec = s.sec := rfl
@[simp] theorem put_tly {x : Out} : (s.put x).tly = s.tly := rfl
@[simp] theorem put_pow {x : Out} : (s.put x).pow = s.pow := rfl

@[simp] theorem begin_same_pending  : (s.begin_ ).pending = s.pending := rfl
@[simp] theorem begin_same_regs  : (s.begin_ ).regs = s.regs := rfl
@[simp] theorem begin_same_evt  : (s.begin_ ).evt = s.evt := rfl
@[simp] theorem begin_same_log  : (s.begin_ ).log = s.log := rfl
@[simp] theorem begin_same_clk  : (s.begin_ ).clk = s.clk := rfl
@[simp] theorem begin_same_par  : (s.begin_ ).par = s.par := rfl
@[simp] theorem begin_same_gaf  : (s.begin_ ).gaf = s.gaf := rfl
@[simp] theorem begin_same_dmp  : (s.begin_ ).dmp = s.dmp := rfl
@[simp] theorem begin_same_spad  : (s.begin_ ).spad = s.spad := rfl
@[simp] theorem begin_same_spadBad  : (s.begin_ ).spadBad = s.spadBad := rfl
@[simp] theorem begin_same_spadSoft  : (s.begin_ ).spadSoft = s.spadSoft := rfl
@[simp] theorem begin_same_regions  : (s.begin_ ).regions = s.regions := rfl
@[simp] theorem begin_same_scrubs  : (s.begin_ ).scrubs = s.scrubs := rfl
@[simp] theorem begin_same_lpddr  : (s.begin_ ).lpddr = s.lpddr := rfl
@[simp] theorem begin_same_lpBad  : (s.begin_ ).lpBad = s.lpBad := rfl
@[simp] theorem begin_same_sites  : (s.begin_ ).sites = s.sites := rfl
@[simp] theorem begin_same_host  : (s.begin_ ).host = s.host := rfl
@[simp] theorem begin_same_builtIns  : (s.begin_ ).builtIns = s.builtIns := rfl
@[simp] theorem begin_same_flights  : (s.begin_ ).flights = s.flights := rfl
@[simp] theorem begin_same_nextId  : (s.begin_ ).nextId = s.nextId := rfl
@[simp] theorem begin_same_lnk  : (s.begin_ ).lnk = s.lnk := rfl
@[simp] theorem begin_same_servo  : (s.begin_ ).servo = s.servo := rfl
@[simp] theorem begin_same_apt  : (s.begin_ ).apt = s.apt := rfl
@[simp] theorem begin_same_gens  : (s.begin_ ).gens = s.gens := rfl
@[simp] theorem begin_same_fo  : (s.begin_ ).fo = s.fo := rfl
@[simp] theorem begin_same_rings  : (s.begin_ ).rings = s.rings := rfl
@[simp] theorem begin_same_logRing  : (s.begin_ ).logRing = s.logRing := rfl
@[simp] theorem begin_same_tallyRing  : (s.begin_ ).tallyRing = s.tallyRing := rfl
@[simp] theorem begin_same_sec  : (s.begin_ ).sec = s.sec := rfl
@[simp] theorem begin_same_tly  : (s.begin_ ).tly = s.tly := rfl
@[simp] theorem begin_same_pow  : (s.begin_ ).pow = s.pow := rfl

@[simp] theorem begin_out : s.begin_.out = [] := rfl

@[simp] theorem setSite_pending {i : Nat} {f : Site → Site} : (s.setSite i f).pending = s.pending := rfl
@[simp] theorem setSite_out {i : Nat} {f : Site → Site} : (s.setSite i f).out = s.out := rfl
@[simp] theorem setSite_freeTick {i : Nat} {f : Site → Site} : (s.setSite i f).freeTick = s.freeTick := rfl
@[simp] theorem setSite_regs {i : Nat} {f : Site → Site} : (s.setSite i f).regs = s.regs := rfl
@[simp] theorem setSite_evt {i : Nat} {f : Site → Site} : (s.setSite i f).evt = s.evt := rfl
@[simp] theorem setSite_log {i : Nat} {f : Site → Site} : (s.setSite i f).log = s.log := rfl
@[simp] theorem setSite_clk {i : Nat} {f : Site → Site} : (s.setSite i f).clk = s.clk := rfl
@[simp] theorem setSite_par {i : Nat} {f : Site → Site} : (s.setSite i f).par = s.par := rfl
@[simp] theorem setSite_gaf {i : Nat} {f : Site → Site} : (s.setSite i f).gaf = s.gaf := rfl
@[simp] theorem setSite_dmp {i : Nat} {f : Site → Site} : (s.setSite i f).dmp = s.dmp := rfl
@[simp] theorem setSite_spad {i : Nat} {f : Site → Site} : (s.setSite i f).spad = s.spad := rfl
@[simp] theorem setSite_spadBad {i : Nat} {f : Site → Site} : (s.setSite i f).spadBad = s.spadBad := rfl
@[simp] theorem setSite_spadSoft {i : Nat} {f : Site → Site} : (s.setSite i f).spadSoft = s.spadSoft := rfl
@[simp] theorem setSite_regions {i : Nat} {f : Site → Site} : (s.setSite i f).regions = s.regions := rfl
@[simp] theorem setSite_scrubs {i : Nat} {f : Site → Site} : (s.setSite i f).scrubs = s.scrubs := rfl
@[simp] theorem setSite_lpddr {i : Nat} {f : Site → Site} : (s.setSite i f).lpddr = s.lpddr := rfl
@[simp] theorem setSite_lpBad {i : Nat} {f : Site → Site} : (s.setSite i f).lpBad = s.lpBad := rfl
@[simp] theorem setSite_host {i : Nat} {f : Site → Site} : (s.setSite i f).host = s.host := rfl
@[simp] theorem setSite_builtIns {i : Nat} {f : Site → Site} : (s.setSite i f).builtIns = s.builtIns := rfl
@[simp] theorem setSite_flights {i : Nat} {f : Site → Site} : (s.setSite i f).flights = s.flights := rfl
@[simp] theorem setSite_nextId {i : Nat} {f : Site → Site} : (s.setSite i f).nextId = s.nextId := rfl
@[simp] theorem setSite_lnk {i : Nat} {f : Site → Site} : (s.setSite i f).lnk = s.lnk := rfl
@[simp] theorem setSite_servo {i : Nat} {f : Site → Site} : (s.setSite i f).servo = s.servo := rfl
@[simp] theorem setSite_apt {i : Nat} {f : Site → Site} : (s.setSite i f).apt = s.apt := rfl
@[simp] theorem setSite_gens {i : Nat} {f : Site → Site} : (s.setSite i f).gens = s.gens := rfl
@[simp] theorem setSite_fo {i : Nat} {f : Site → Site} : (s.setSite i f).fo = s.fo := rfl
@[simp] theorem setSite_rings {i : Nat} {f : Site → Site} : (s.setSite i f).rings = s.rings := rfl
@[simp] theorem setSite_logRing {i : Nat} {f : Site → Site} : (s.setSite i f).logRing = s.logRing := rfl
@[simp] theorem setSite_tallyRing {i : Nat} {f : Site → Site} : (s.setSite i f).tallyRing = s.tallyRing := rfl
@[simp] theorem setSite_sec {i : Nat} {f : Site → Site} : (s.setSite i f).sec = s.sec := rfl
@[simp] theorem setSite_tly {i : Nat} {f : Site → Site} : (s.setSite i f).tly = s.tly := rfl
@[simp] theorem setSite_pow {i : Nat} {f : Site → Site} : (s.setSite i f).pow = s.pow := rfl
@[simp] theorem setGen_pending {i : Nat} {f : Gen → Gen} : (s.setGen i f).pending = s.pending := rfl
@[simp] theorem setGen_out {i : Nat} {f : Gen → Gen} : (s.setGen i f).out = s.out := rfl
@[simp] theorem setGen_freeTick {i : Nat} {f : Gen → Gen} : (s.setGen i f).freeTick = s.freeTick := rfl
@[simp] theorem setGen_regs {i : Nat} {f : Gen → Gen} : (s.setGen i f).regs = s.regs := rfl
@[simp] theorem setGen_evt {i : Nat} {f : Gen → Gen} : (s.setGen i f).evt = s.evt := rfl
@[simp] theorem setGen_log {i : Nat} {f : Gen → Gen} : (s.setGen i f).log = s.log := rfl
@[simp] theorem setGen_clk {i : Nat} {f : Gen → Gen} : (s.setGen i f).clk = s.clk := rfl
@[simp] theorem setGen_par {i : Nat} {f : Gen → Gen} : (s.setGen i f).par = s.par := rfl
@[simp] theorem setGen_gaf {i : Nat} {f : Gen → Gen} : (s.setGen i f).gaf = s.gaf := rfl
@[simp] theorem setGen_dmp {i : Nat} {f : Gen → Gen} : (s.setGen i f).dmp = s.dmp := rfl
@[simp] theorem setGen_spad {i : Nat} {f : Gen → Gen} : (s.setGen i f).spad = s.spad := rfl
@[simp] theorem setGen_spadBad {i : Nat} {f : Gen → Gen} : (s.setGen i f).spadBad = s.spadBad := rfl
@[simp] theorem setGen_spadSoft {i : Nat} {f : Gen → Gen} : (s.setGen i f).spadSoft = s.spadSoft := rfl
@[simp] theorem setGen_regions {i : Nat} {f : Gen → Gen} : (s.setGen i f).regions = s.regions := rfl
@[simp] theorem setGen_scrubs {i : Nat} {f : Gen → Gen} : (s.setGen i f).scrubs = s.scrubs := rfl
@[simp] theorem setGen_lpddr {i : Nat} {f : Gen → Gen} : (s.setGen i f).lpddr = s.lpddr := rfl
@[simp] theorem setGen_lpBad {i : Nat} {f : Gen → Gen} : (s.setGen i f).lpBad = s.lpBad := rfl
@[simp] theorem setGen_host {i : Nat} {f : Gen → Gen} : (s.setGen i f).host = s.host := rfl
@[simp] theorem setGen_builtIns {i : Nat} {f : Gen → Gen} : (s.setGen i f).builtIns = s.builtIns := rfl
@[simp] theorem setGen_flights {i : Nat} {f : Gen → Gen} : (s.setGen i f).flights = s.flights := rfl
@[simp] theorem setGen_nextId {i : Nat} {f : Gen → Gen} : (s.setGen i f).nextId = s.nextId := rfl
@[simp] theorem setGen_lnk {i : Nat} {f : Gen → Gen} : (s.setGen i f).lnk = s.lnk := rfl
@[simp] theorem setGen_servo {i : Nat} {f : Gen → Gen} : (s.setGen i f).servo = s.servo := rfl
@[simp] theorem setGen_apt {i : Nat} {f : Gen → Gen} : (s.setGen i f).apt = s.apt := rfl
@[simp] theorem setGen_sites {i : Nat} {f : Gen → Gen} : (s.setGen i f).sites = s.sites := rfl
@[simp] theorem setGen_gens {i : Nat} {f : Gen → Gen} : (s.setGen i f).gens = listMod s.gens i f := rfl
@[simp] theorem setGen_fo {i : Nat} {f : Gen → Gen} : (s.setGen i f).fo = s.fo := rfl
@[simp] theorem setGen_rings {i : Nat} {f : Gen → Gen} : (s.setGen i f).rings = s.rings := rfl
@[simp] theorem setGen_logRing {i : Nat} {f : Gen → Gen} : (s.setGen i f).logRing = s.logRing := rfl
@[simp] theorem setGen_tallyRing {i : Nat} {f : Gen → Gen} : (s.setGen i f).tallyRing = s.tallyRing := rfl
@[simp] theorem setGen_sec {i : Nat} {f : Gen → Gen} : (s.setGen i f).sec = s.sec := rfl
@[simp] theorem setGen_tly {i : Nat} {f : Gen → Gen} : (s.setGen i f).tly = s.tly := rfl
@[simp] theorem setGen_pow {i : Nat} {f : Gen → Gen} : (s.setGen i f).pow = s.pow := rfl

@[simp] theorem setPort_pending {i : Nat} {f : LinkPort → LinkPort} : (s.setPort i f).pending = s.pending := rfl
@[simp] theorem setPort_out {i : Nat} {f : LinkPort → LinkPort} : (s.setPort i f).out = s.out := rfl
@[simp] theorem setPort_freeTick {i : Nat} {f : LinkPort → LinkPort} : (s.setPort i f).freeTick = s.freeTick := rfl
@[simp] theorem setPort_regs {i : Nat} {f : LinkPort → LinkPort} : (s.setPort i f).regs = s.regs := rfl
@[simp] theorem setPort_evt {i : Nat} {f : LinkPort → LinkPort} : (s.setPort i f).evt = s.evt := rfl
@[simp] theorem setPort_log {i : Nat} {f : LinkPort → LinkPort} : (s.setPort i f).log = s.log := rfl
@[simp] theorem setPort_clk {i : Nat} {f : LinkPort → LinkPort} : (s.setPort i f).clk = s.clk := rfl
@[simp] theorem setPort_par {i : Nat} {f : LinkPort → LinkPort} : (s.setPort i f).par = s.par := rfl
@[simp] theorem setPort_gaf {i : Nat} {f : LinkPort → LinkPort} : (s.setPort i f).gaf = s.gaf := rfl
@[simp] theorem setPort_dmp {i : Nat} {f : LinkPort → LinkPort} : (s.setPort i f).dmp = s.dmp := rfl
@[simp] theorem setPort_spad {i : Nat} {f : LinkPort → LinkPort} : (s.setPort i f).spad = s.spad := rfl
@[simp] theorem setPort_spadBad {i : Nat} {f : LinkPort → LinkPort} : (s.setPort i f).spadBad = s.spadBad := rfl
@[simp] theorem setPort_spadSoft {i : Nat} {f : LinkPort → LinkPort} : (s.setPort i f).spadSoft = s.spadSoft := rfl
@[simp] theorem setPort_regions {i : Nat} {f : LinkPort → LinkPort} : (s.setPort i f).regions = s.regions := rfl
@[simp] theorem setPort_scrubs {i : Nat} {f : LinkPort → LinkPort} : (s.setPort i f).scrubs = s.scrubs := rfl
@[simp] theorem setPort_lpddr {i : Nat} {f : LinkPort → LinkPort} : (s.setPort i f).lpddr = s.lpddr := rfl
@[simp] theorem setPort_lpBad {i : Nat} {f : LinkPort → LinkPort} : (s.setPort i f).lpBad = s.lpBad := rfl
@[simp] theorem setPort_sites {i : Nat} {f : LinkPort → LinkPort} : (s.setPort i f).sites = s.sites := rfl
@[simp] theorem setPort_host {i : Nat} {f : LinkPort → LinkPort} : (s.setPort i f).host = s.host := rfl
@[simp] theorem setPort_builtIns {i : Nat} {f : LinkPort → LinkPort} : (s.setPort i f).builtIns = s.builtIns := rfl
@[simp] theorem setPort_flights {i : Nat} {f : LinkPort → LinkPort} : (s.setPort i f).flights = s.flights := rfl
@[simp] theorem setPort_nextId {i : Nat} {f : LinkPort → LinkPort} : (s.setPort i f).nextId = s.nextId := rfl
@[simp] theorem setPort_servo {i : Nat} {f : LinkPort → LinkPort} : (s.setPort i f).servo = s.servo := rfl
@[simp] theorem setPort_apt {i : Nat} {f : LinkPort → LinkPort} : (s.setPort i f).apt = s.apt := rfl
@[simp] theorem setPort_gens {i : Nat} {f : LinkPort → LinkPort} : (s.setPort i f).gens = s.gens := rfl
@[simp] theorem setPort_fo {i : Nat} {f : LinkPort → LinkPort} : (s.setPort i f).fo = s.fo := rfl
@[simp] theorem setPort_rings {i : Nat} {f : LinkPort → LinkPort} : (s.setPort i f).rings = s.rings := rfl
@[simp] theorem setPort_logRing {i : Nat} {f : LinkPort → LinkPort} : (s.setPort i f).logRing = s.logRing := rfl
@[simp] theorem setPort_tallyRing {i : Nat} {f : LinkPort → LinkPort} : (s.setPort i f).tallyRing = s.tallyRing := rfl
@[simp] theorem setPort_sec {i : Nat} {f : LinkPort → LinkPort} : (s.setPort i f).sec = s.sec := rfl
@[simp] theorem setPort_tly {i : Nat} {f : LinkPort → LinkPort} : (s.setPort i f).tly = s.tly := rfl
@[simp] theorem setPort_pow {i : Nat} {f : LinkPort → LinkPort} : (s.setPort i f).pow = s.pow := rfl

@[simp] theorem setAport_pending {i : Nat} {f : AudioPort → AudioPort} : (s.setAport i f).pending = s.pending := rfl
@[simp] theorem setAport_out {i : Nat} {f : AudioPort → AudioPort} : (s.setAport i f).out = s.out := rfl
@[simp] theorem setAport_freeTick {i : Nat} {f : AudioPort → AudioPort} : (s.setAport i f).freeTick = s.freeTick := rfl
@[simp] theorem setAport_regs {i : Nat} {f : AudioPort → AudioPort} : (s.setAport i f).regs = s.regs := rfl
@[simp] theorem setAport_evt {i : Nat} {f : AudioPort → AudioPort} : (s.setAport i f).evt = s.evt := rfl
@[simp] theorem setAport_log {i : Nat} {f : AudioPort → AudioPort} : (s.setAport i f).log = s.log := rfl
@[simp] theorem setAport_clk {i : Nat} {f : AudioPort → AudioPort} : (s.setAport i f).clk = s.clk := rfl
@[simp] theorem setAport_par {i : Nat} {f : AudioPort → AudioPort} : (s.setAport i f).par = s.par := rfl
@[simp] theorem setAport_gaf {i : Nat} {f : AudioPort → AudioPort} : (s.setAport i f).gaf = s.gaf := rfl
@[simp] theorem setAport_dmp {i : Nat} {f : AudioPort → AudioPort} : (s.setAport i f).dmp = s.dmp := rfl
@[simp] theorem setAport_spad {i : Nat} {f : AudioPort → AudioPort} : (s.setAport i f).spad = s.spad := rfl
@[simp] theorem setAport_spadBad {i : Nat} {f : AudioPort → AudioPort} : (s.setAport i f).spadBad = s.spadBad := rfl
@[simp] theorem setAport_spadSoft {i : Nat} {f : AudioPort → AudioPort} : (s.setAport i f).spadSoft = s.spadSoft := rfl
@[simp] theorem setAport_regions {i : Nat} {f : AudioPort → AudioPort} : (s.setAport i f).regions = s.regions := rfl
@[simp] theorem setAport_scrubs {i : Nat} {f : AudioPort → AudioPort} : (s.setAport i f).scrubs = s.scrubs := rfl
@[simp] theorem setAport_lpddr {i : Nat} {f : AudioPort → AudioPort} : (s.setAport i f).lpddr = s.lpddr := rfl
@[simp] theorem setAport_lpBad {i : Nat} {f : AudioPort → AudioPort} : (s.setAport i f).lpBad = s.lpBad := rfl
@[simp] theorem setAport_sites {i : Nat} {f : AudioPort → AudioPort} : (s.setAport i f).sites = s.sites := rfl
@[simp] theorem setAport_host {i : Nat} {f : AudioPort → AudioPort} : (s.setAport i f).host = s.host := rfl
@[simp] theorem setAport_builtIns {i : Nat} {f : AudioPort → AudioPort} : (s.setAport i f).builtIns = s.builtIns := rfl
@[simp] theorem setAport_flights {i : Nat} {f : AudioPort → AudioPort} : (s.setAport i f).flights = s.flights := rfl
@[simp] theorem setAport_nextId {i : Nat} {f : AudioPort → AudioPort} : (s.setAport i f).nextId = s.nextId := rfl
@[simp] theorem setAport_lnk {i : Nat} {f : AudioPort → AudioPort} : (s.setAport i f).lnk = s.lnk := rfl
@[simp] theorem setAport_servo {i : Nat} {f : AudioPort → AudioPort} : (s.setAport i f).servo = s.servo := rfl
@[simp] theorem setAport_gens {i : Nat} {f : AudioPort → AudioPort} : (s.setAport i f).gens = s.gens := rfl
@[simp] theorem setAport_fo {i : Nat} {f : AudioPort → AudioPort} : (s.setAport i f).fo = s.fo := rfl
@[simp] theorem setAport_rings {i : Nat} {f : AudioPort → AudioPort} : (s.setAport i f).rings = s.rings := rfl
@[simp] theorem setAport_logRing {i : Nat} {f : AudioPort → AudioPort} : (s.setAport i f).logRing = s.logRing := rfl
@[simp] theorem setAport_tallyRing {i : Nat} {f : AudioPort → AudioPort} : (s.setAport i f).tallyRing = s.tallyRing := rfl
@[simp] theorem setAport_sec {i : Nat} {f : AudioPort → AudioPort} : (s.setAport i f).sec = s.sec := rfl
@[simp] theorem setAport_tly {i : Nat} {f : AudioPort → AudioPort} : (s.setAport i f).tly = s.tly := rfl
@[simp] theorem setAport_pow {i : Nat} {f : AudioPort → AudioPort} : (s.setAport i f).pow = s.pow := rfl

@[simp] theorem setStream_pending {e : Nat} {f : Stream → Stream} : (s.setStream e f).pending = s.pending := rfl
@[simp] theorem setStream_out {e : Nat} {f : Stream → Stream} : (s.setStream e f).out = s.out := rfl
@[simp] theorem setStream_freeTick {e : Nat} {f : Stream → Stream} : (s.setStream e f).freeTick = s.freeTick := rfl
@[simp] theorem setStream_regs {e : Nat} {f : Stream → Stream} : (s.setStream e f).regs = s.regs := rfl
@[simp] theorem setStream_evt {e : Nat} {f : Stream → Stream} : (s.setStream e f).evt = s.evt := rfl
@[simp] theorem setStream_log {e : Nat} {f : Stream → Stream} : (s.setStream e f).log = s.log := rfl
@[simp] theorem setStream_clk {e : Nat} {f : Stream → Stream} : (s.setStream e f).clk = s.clk := rfl
@[simp] theorem setStream_par {e : Nat} {f : Stream → Stream} : (s.setStream e f).par = s.par := rfl
@[simp] theorem setStream_dmp {e : Nat} {f : Stream → Stream} : (s.setStream e f).dmp = s.dmp := rfl
@[simp] theorem setStream_spad {e : Nat} {f : Stream → Stream} : (s.setStream e f).spad = s.spad := rfl
@[simp] theorem setStream_spadBad {e : Nat} {f : Stream → Stream} : (s.setStream e f).spadBad = s.spadBad := rfl
@[simp] theorem setStream_spadSoft {e : Nat} {f : Stream → Stream} : (s.setStream e f).spadSoft = s.spadSoft := rfl
@[simp] theorem setStream_regions {e : Nat} {f : Stream → Stream} : (s.setStream e f).regions = s.regions := rfl
@[simp] theorem setStream_scrubs {e : Nat} {f : Stream → Stream} : (s.setStream e f).scrubs = s.scrubs := rfl
@[simp] theorem setStream_lpddr {e : Nat} {f : Stream → Stream} : (s.setStream e f).lpddr = s.lpddr := rfl
@[simp] theorem setStream_lpBad {e : Nat} {f : Stream → Stream} : (s.setStream e f).lpBad = s.lpBad := rfl
@[simp] theorem setStream_sites {e : Nat} {f : Stream → Stream} : (s.setStream e f).sites = s.sites := rfl
@[simp] theorem setStream_host {e : Nat} {f : Stream → Stream} : (s.setStream e f).host = s.host := rfl
@[simp] theorem setStream_builtIns {e : Nat} {f : Stream → Stream} : (s.setStream e f).builtIns = s.builtIns := rfl
@[simp] theorem setStream_flights {e : Nat} {f : Stream → Stream} : (s.setStream e f).flights = s.flights := rfl
@[simp] theorem setStream_nextId {e : Nat} {f : Stream → Stream} : (s.setStream e f).nextId = s.nextId := rfl
@[simp] theorem setStream_lnk {e : Nat} {f : Stream → Stream} : (s.setStream e f).lnk = s.lnk := rfl
@[simp] theorem setStream_servo {e : Nat} {f : Stream → Stream} : (s.setStream e f).servo = s.servo := rfl
@[simp] theorem setStream_apt {e : Nat} {f : Stream → Stream} : (s.setStream e f).apt = s.apt := rfl
@[simp] theorem setStream_gens {e : Nat} {f : Stream → Stream} : (s.setStream e f).gens = s.gens := rfl
@[simp] theorem setStream_fo {e : Nat} {f : Stream → Stream} : (s.setStream e f).fo = s.fo := rfl
@[simp] theorem setStream_rings {e : Nat} {f : Stream → Stream} : (s.setStream e f).rings = s.rings := rfl
@[simp] theorem setStream_logRing {e : Nat} {f : Stream → Stream} : (s.setStream e f).logRing = s.logRing := rfl
@[simp] theorem setStream_tallyRing {e : Nat} {f : Stream → Stream} : (s.setStream e f).tallyRing = s.tallyRing := rfl
@[simp] theorem setStream_sec {e : Nat} {f : Stream → Stream} : (s.setStream e f).sec = s.sec := rfl
@[simp] theorem setStream_tly {e : Nat} {f : Stream → Stream} : (s.setStream e f).tly = s.tly := rfl
@[simp] theorem setStream_pow {e : Nat} {f : Stream → Stream} : (s.setStream e f).pow = s.pow := rfl

@[simp] theorem delStream_pending {e : Nat} : (s.delStream e).pending = s.pending := rfl
@[simp] theorem delStream_out {e : Nat} : (s.delStream e).out = s.out := rfl
@[simp] theorem delStream_freeTick {e : Nat} : (s.delStream e).freeTick = s.freeTick := rfl
@[simp] theorem delStream_regs {e : Nat} : (s.delStream e).regs = s.regs := rfl
@[simp] theorem delStream_evt {e : Nat} : (s.delStream e).evt = s.evt := rfl
@[simp] theorem delStream_log {e : Nat} : (s.delStream e).log = s.log := rfl
@[simp] theorem delStream_clk {e : Nat} : (s.delStream e).clk = s.clk := rfl
@[simp] theorem delStream_par {e : Nat} : (s.delStream e).par = s.par := rfl
@[simp] theorem delStream_dmp {e : Nat} : (s.delStream e).dmp = s.dmp := rfl
@[simp] theorem delStream_spad {e : Nat} : (s.delStream e).spad = s.spad := rfl
@[simp] theorem delStream_spadBad {e : Nat} : (s.delStream e).spadBad = s.spadBad := rfl
@[simp] theorem delStream_spadSoft {e : Nat} : (s.delStream e).spadSoft = s.spadSoft := rfl
@[simp] theorem delStream_regions {e : Nat} : (s.delStream e).regions = s.regions := rfl
@[simp] theorem delStream_scrubs {e : Nat} : (s.delStream e).scrubs = s.scrubs := rfl
@[simp] theorem delStream_lpddr {e : Nat} : (s.delStream e).lpddr = s.lpddr := rfl
@[simp] theorem delStream_lpBad {e : Nat} : (s.delStream e).lpBad = s.lpBad := rfl
@[simp] theorem delStream_sites {e : Nat} : (s.delStream e).sites = s.sites := rfl
@[simp] theorem delStream_host {e : Nat} : (s.delStream e).host = s.host := rfl
@[simp] theorem delStream_builtIns {e : Nat} : (s.delStream e).builtIns = s.builtIns := rfl
@[simp] theorem delStream_flights {e : Nat} : (s.delStream e).flights = s.flights := rfl
@[simp] theorem delStream_nextId {e : Nat} : (s.delStream e).nextId = s.nextId := rfl
@[simp] theorem delStream_lnk {e : Nat} : (s.delStream e).lnk = s.lnk := rfl
@[simp] theorem delStream_servo {e : Nat} : (s.delStream e).servo = s.servo := rfl
@[simp] theorem delStream_apt {e : Nat} : (s.delStream e).apt = s.apt := rfl
@[simp] theorem delStream_gens {e : Nat} : (s.delStream e).gens = s.gens := rfl
@[simp] theorem delStream_fo {e : Nat} : (s.delStream e).fo = s.fo := rfl
@[simp] theorem delStream_rings {e : Nat} : (s.delStream e).rings = s.rings := rfl
@[simp] theorem delStream_logRing {e : Nat} : (s.delStream e).logRing = s.logRing := rfl
@[simp] theorem delStream_tallyRing {e : Nat} : (s.delStream e).tallyRing = s.tallyRing := rfl
@[simp] theorem delStream_sec {e : Nat} : (s.delStream e).sec = s.sec := rfl
@[simp] theorem delStream_tly {e : Nat} : (s.delStream e).tly = s.tly := rfl
@[simp] theorem delStream_pow {e : Nat} : (s.delStream e).pow = s.pow := rfl

@[simp] theorem setImage_pending {i : Nat} {f : Image → Image} : (s.setImage i f).pending = s.pending := rfl
@[simp] theorem setImage_out {i : Nat} {f : Image → Image} : (s.setImage i f).out = s.out := rfl
@[simp] theorem setImage_freeTick {i : Nat} {f : Image → Image} : (s.setImage i f).freeTick = s.freeTick := rfl
@[simp] theorem setImage_regs {i : Nat} {f : Image → Image} : (s.setImage i f).regs = s.regs := rfl
@[simp] theorem setImage_evt {i : Nat} {f : Image → Image} : (s.setImage i f).evt = s.evt := rfl
@[simp] theorem setImage_log {i : Nat} {f : Image → Image} : (s.setImage i f).log = s.log := rfl
@[simp] theorem setImage_clk {i : Nat} {f : Image → Image} : (s.setImage i f).clk = s.clk := rfl
@[simp] theorem setImage_par {i : Nat} {f : Image → Image} : (s.setImage i f).par = s.par := rfl
@[simp] theorem setImage_dmp {i : Nat} {f : Image → Image} : (s.setImage i f).dmp = s.dmp := rfl
@[simp] theorem setImage_spad {i : Nat} {f : Image → Image} : (s.setImage i f).spad = s.spad := rfl
@[simp] theorem setImage_spadBad {i : Nat} {f : Image → Image} : (s.setImage i f).spadBad = s.spadBad := rfl
@[simp] theorem setImage_spadSoft {i : Nat} {f : Image → Image} : (s.setImage i f).spadSoft = s.spadSoft := rfl
@[simp] theorem setImage_regions {i : Nat} {f : Image → Image} : (s.setImage i f).regions = s.regions := rfl
@[simp] theorem setImage_scrubs {i : Nat} {f : Image → Image} : (s.setImage i f).scrubs = s.scrubs := rfl
@[simp] theorem setImage_lpddr {i : Nat} {f : Image → Image} : (s.setImage i f).lpddr = s.lpddr := rfl
@[simp] theorem setImage_lpBad {i : Nat} {f : Image → Image} : (s.setImage i f).lpBad = s.lpBad := rfl
@[simp] theorem setImage_sites {i : Nat} {f : Image → Image} : (s.setImage i f).sites = s.sites := rfl
@[simp] theorem setImage_host {i : Nat} {f : Image → Image} : (s.setImage i f).host = s.host := rfl
@[simp] theorem setImage_builtIns {i : Nat} {f : Image → Image} : (s.setImage i f).builtIns = s.builtIns := rfl
@[simp] theorem setImage_flights {i : Nat} {f : Image → Image} : (s.setImage i f).flights = s.flights := rfl
@[simp] theorem setImage_nextId {i : Nat} {f : Image → Image} : (s.setImage i f).nextId = s.nextId := rfl
@[simp] theorem setImage_lnk {i : Nat} {f : Image → Image} : (s.setImage i f).lnk = s.lnk := rfl
@[simp] theorem setImage_servo {i : Nat} {f : Image → Image} : (s.setImage i f).servo = s.servo := rfl
@[simp] theorem setImage_apt {i : Nat} {f : Image → Image} : (s.setImage i f).apt = s.apt := rfl
@[simp] theorem setImage_gens {i : Nat} {f : Image → Image} : (s.setImage i f).gens = s.gens := rfl
@[simp] theorem setImage_fo {i : Nat} {f : Image → Image} : (s.setImage i f).fo = s.fo := rfl
@[simp] theorem setImage_rings {i : Nat} {f : Image → Image} : (s.setImage i f).rings = s.rings := rfl
@[simp] theorem setImage_logRing {i : Nat} {f : Image → Image} : (s.setImage i f).logRing = s.logRing := rfl
@[simp] theorem setImage_tallyRing {i : Nat} {f : Image → Image} : (s.setImage i f).tallyRing = s.tallyRing := rfl
@[simp] theorem setImage_sec {i : Nat} {f : Image → Image} : (s.setImage i f).sec = s.sec := rfl
@[simp] theorem setImage_tly {i : Nat} {f : Image → Image} : (s.setImage i f).tly = s.tly := rfl
@[simp] theorem setImage_pow {i : Nat} {f : Image → Image} : (s.setImage i f).pow = s.pow := rfl

@[simp] theorem spadPut_pending {a : Nat} {b : List Byte} : (s.spadPut a b).pending = s.pending := rfl
@[simp] theorem spadPut_out {a : Nat} {b : List Byte} : (s.spadPut a b).out = s.out := rfl
@[simp] theorem spadPut_freeTick {a : Nat} {b : List Byte} : (s.spadPut a b).freeTick = s.freeTick := rfl
@[simp] theorem spadPut_regs {a : Nat} {b : List Byte} : (s.spadPut a b).regs = s.regs := rfl
@[simp] theorem spadPut_evt {a : Nat} {b : List Byte} : (s.spadPut a b).evt = s.evt := rfl
@[simp] theorem spadPut_log {a : Nat} {b : List Byte} : (s.spadPut a b).log = s.log := rfl
@[simp] theorem spadPut_clk {a : Nat} {b : List Byte} : (s.spadPut a b).clk = s.clk := rfl
@[simp] theorem spadPut_par {a : Nat} {b : List Byte} : (s.spadPut a b).par = s.par := rfl
@[simp] theorem spadPut_gaf {a : Nat} {b : List Byte} : (s.spadPut a b).gaf = s.gaf := rfl
@[simp] theorem spadPut_dmp {a : Nat} {b : List Byte} : (s.spadPut a b).dmp = s.dmp := rfl
@[simp] theorem spadPut_regions {a : Nat} {b : List Byte} : (s.spadPut a b).regions = s.regions := rfl
@[simp] theorem spadPut_scrubs {a : Nat} {b : List Byte} : (s.spadPut a b).scrubs = s.scrubs := rfl
@[simp] theorem spadPut_lpddr {a : Nat} {b : List Byte} : (s.spadPut a b).lpddr = s.lpddr := rfl
@[simp] theorem spadPut_lpBad {a : Nat} {b : List Byte} : (s.spadPut a b).lpBad = s.lpBad := rfl
@[simp] theorem spadPut_sites {a : Nat} {b : List Byte} : (s.spadPut a b).sites = s.sites := rfl
@[simp] theorem spadPut_host {a : Nat} {b : List Byte} : (s.spadPut a b).host = s.host := rfl
@[simp] theorem spadPut_builtIns {a : Nat} {b : List Byte} : (s.spadPut a b).builtIns = s.builtIns := rfl
@[simp] theorem spadPut_flights {a : Nat} {b : List Byte} : (s.spadPut a b).flights = s.flights := rfl
@[simp] theorem spadPut_nextId {a : Nat} {b : List Byte} : (s.spadPut a b).nextId = s.nextId := rfl
@[simp] theorem spadPut_lnk {a : Nat} {b : List Byte} : (s.spadPut a b).lnk = s.lnk := rfl
@[simp] theorem spadPut_servo {a : Nat} {b : List Byte} : (s.spadPut a b).servo = s.servo := rfl
@[simp] theorem spadPut_apt {a : Nat} {b : List Byte} : (s.spadPut a b).apt = s.apt := rfl
@[simp] theorem spadPut_gens {a : Nat} {b : List Byte} : (s.spadPut a b).gens = s.gens := rfl
@[simp] theorem spadPut_fo {a : Nat} {b : List Byte} : (s.spadPut a b).fo = s.fo := rfl
@[simp] theorem spadPut_rings {a : Nat} {b : List Byte} : (s.spadPut a b).rings = s.rings := rfl
@[simp] theorem spadPut_logRing {a : Nat} {b : List Byte} : (s.spadPut a b).logRing = s.logRing := rfl
@[simp] theorem spadPut_tallyRing {a : Nat} {b : List Byte} : (s.spadPut a b).tallyRing = s.tallyRing := rfl
@[simp] theorem spadPut_sec {a : Nat} {b : List Byte} : (s.spadPut a b).sec = s.sec := rfl
@[simp] theorem spadPut_tly {a : Nat} {b : List Byte} : (s.spadPut a b).tly = s.tly := rfl
@[simp] theorem spadPut_pow {a : Nat} {b : List Byte} : (s.spadPut a b).pow = s.pow := rfl

@[simp] theorem lpPut_pending {a : Nat} {b : List Byte} : (s.lpPut a b).pending = s.pending := rfl
@[simp] theorem lpPut_out {a : Nat} {b : List Byte} : (s.lpPut a b).out = s.out := rfl
@[simp] theorem lpPut_freeTick {a : Nat} {b : List Byte} : (s.lpPut a b).freeTick = s.freeTick := rfl
@[simp] theorem lpPut_regs {a : Nat} {b : List Byte} : (s.lpPut a b).regs = s.regs := rfl
@[simp] theorem lpPut_evt {a : Nat} {b : List Byte} : (s.lpPut a b).evt = s.evt := rfl
@[simp] theorem lpPut_log {a : Nat} {b : List Byte} : (s.lpPut a b).log = s.log := rfl
@[simp] theorem lpPut_clk {a : Nat} {b : List Byte} : (s.lpPut a b).clk = s.clk := rfl
@[simp] theorem lpPut_par {a : Nat} {b : List Byte} : (s.lpPut a b).par = s.par := rfl
@[simp] theorem lpPut_gaf {a : Nat} {b : List Byte} : (s.lpPut a b).gaf = s.gaf := rfl
@[simp] theorem lpPut_dmp {a : Nat} {b : List Byte} : (s.lpPut a b).dmp = s.dmp := rfl
@[simp] theorem lpPut_spad {a : Nat} {b : List Byte} : (s.lpPut a b).spad = s.spad := rfl
@[simp] theorem lpPut_spadBad {a : Nat} {b : List Byte} : (s.lpPut a b).spadBad = s.spadBad := rfl
@[simp] theorem lpPut_spadSoft {a : Nat} {b : List Byte} : (s.lpPut a b).spadSoft = s.spadSoft := rfl
@[simp] theorem lpPut_regions {a : Nat} {b : List Byte} : (s.lpPut a b).regions = s.regions := rfl
@[simp] theorem lpPut_scrubs {a : Nat} {b : List Byte} : (s.lpPut a b).scrubs = s.scrubs := rfl
@[simp] theorem lpPut_sites {a : Nat} {b : List Byte} : (s.lpPut a b).sites = s.sites := rfl
@[simp] theorem lpPut_host {a : Nat} {b : List Byte} : (s.lpPut a b).host = s.host := rfl
@[simp] theorem lpPut_builtIns {a : Nat} {b : List Byte} : (s.lpPut a b).builtIns = s.builtIns := rfl
@[simp] theorem lpPut_flights {a : Nat} {b : List Byte} : (s.lpPut a b).flights = s.flights := rfl
@[simp] theorem lpPut_nextId {a : Nat} {b : List Byte} : (s.lpPut a b).nextId = s.nextId := rfl
@[simp] theorem lpPut_lnk {a : Nat} {b : List Byte} : (s.lpPut a b).lnk = s.lnk := rfl
@[simp] theorem lpPut_servo {a : Nat} {b : List Byte} : (s.lpPut a b).servo = s.servo := rfl
@[simp] theorem lpPut_apt {a : Nat} {b : List Byte} : (s.lpPut a b).apt = s.apt := rfl
@[simp] theorem lpPut_gens {a : Nat} {b : List Byte} : (s.lpPut a b).gens = s.gens := rfl
@[simp] theorem lpPut_fo {a : Nat} {b : List Byte} : (s.lpPut a b).fo = s.fo := rfl
@[simp] theorem lpPut_rings {a : Nat} {b : List Byte} : (s.lpPut a b).rings = s.rings := rfl
@[simp] theorem lpPut_logRing {a : Nat} {b : List Byte} : (s.lpPut a b).logRing = s.logRing := rfl
@[simp] theorem lpPut_tallyRing {a : Nat} {b : List Byte} : (s.lpPut a b).tallyRing = s.tallyRing := rfl
@[simp] theorem lpPut_sec {a : Nat} {b : List Byte} : (s.lpPut a b).sec = s.sec := rfl
@[simp] theorem lpPut_tly {a : Nat} {b : List Byte} : (s.lpPut a b).tly = s.tly := rfl
@[simp] theorem lpPut_pow {a : Nat} {b : List Byte} : (s.lpPut a b).pow = s.pow := rfl

@[simp] theorem hostPut_pending {a : Nat} {b : List Byte} : (s.hostPut a b).pending = s.pending := rfl
@[simp] theorem hostPut_out {a : Nat} {b : List Byte} : (s.hostPut a b).out = s.out := rfl
@[simp] theorem hostPut_freeTick {a : Nat} {b : List Byte} : (s.hostPut a b).freeTick = s.freeTick := rfl
@[simp] theorem hostPut_regs {a : Nat} {b : List Byte} : (s.hostPut a b).regs = s.regs := rfl
@[simp] theorem hostPut_evt {a : Nat} {b : List Byte} : (s.hostPut a b).evt = s.evt := rfl
@[simp] theorem hostPut_log {a : Nat} {b : List Byte} : (s.hostPut a b).log = s.log := rfl
@[simp] theorem hostPut_clk {a : Nat} {b : List Byte} : (s.hostPut a b).clk = s.clk := rfl
@[simp] theorem hostPut_par {a : Nat} {b : List Byte} : (s.hostPut a b).par = s.par := rfl
@[simp] theorem hostPut_gaf {a : Nat} {b : List Byte} : (s.hostPut a b).gaf = s.gaf := rfl
@[simp] theorem hostPut_dmp {a : Nat} {b : List Byte} : (s.hostPut a b).dmp = s.dmp := rfl
@[simp] theorem hostPut_spad {a : Nat} {b : List Byte} : (s.hostPut a b).spad = s.spad := rfl
@[simp] theorem hostPut_spadBad {a : Nat} {b : List Byte} : (s.hostPut a b).spadBad = s.spadBad := rfl
@[simp] theorem hostPut_spadSoft {a : Nat} {b : List Byte} : (s.hostPut a b).spadSoft = s.spadSoft := rfl
@[simp] theorem hostPut_regions {a : Nat} {b : List Byte} : (s.hostPut a b).regions = s.regions := rfl
@[simp] theorem hostPut_scrubs {a : Nat} {b : List Byte} : (s.hostPut a b).scrubs = s.scrubs := rfl
@[simp] theorem hostPut_lpddr {a : Nat} {b : List Byte} : (s.hostPut a b).lpddr = s.lpddr := rfl
@[simp] theorem hostPut_lpBad {a : Nat} {b : List Byte} : (s.hostPut a b).lpBad = s.lpBad := rfl
@[simp] theorem hostPut_sites {a : Nat} {b : List Byte} : (s.hostPut a b).sites = s.sites := rfl
@[simp] theorem hostPut_builtIns {a : Nat} {b : List Byte} : (s.hostPut a b).builtIns = s.builtIns := rfl
@[simp] theorem hostPut_flights {a : Nat} {b : List Byte} : (s.hostPut a b).flights = s.flights := rfl
@[simp] theorem hostPut_nextId {a : Nat} {b : List Byte} : (s.hostPut a b).nextId = s.nextId := rfl
@[simp] theorem hostPut_lnk {a : Nat} {b : List Byte} : (s.hostPut a b).lnk = s.lnk := rfl
@[simp] theorem hostPut_servo {a : Nat} {b : List Byte} : (s.hostPut a b).servo = s.servo := rfl
@[simp] theorem hostPut_apt {a : Nat} {b : List Byte} : (s.hostPut a b).apt = s.apt := rfl
@[simp] theorem hostPut_gens {a : Nat} {b : List Byte} : (s.hostPut a b).gens = s.gens := rfl
@[simp] theorem hostPut_fo {a : Nat} {b : List Byte} : (s.hostPut a b).fo = s.fo := rfl
@[simp] theorem hostPut_rings {a : Nat} {b : List Byte} : (s.hostPut a b).rings = s.rings := rfl
@[simp] theorem hostPut_logRing {a : Nat} {b : List Byte} : (s.hostPut a b).logRing = s.logRing := rfl
@[simp] theorem hostPut_tallyRing {a : Nat} {b : List Byte} : (s.hostPut a b).tallyRing = s.tallyRing := rfl
@[simp] theorem hostPut_sec {a : Nat} {b : List Byte} : (s.hostPut a b).sec = s.sec := rfl
@[simp] theorem hostPut_tly {a : Nat} {b : List Byte} : (s.hostPut a b).tly = s.tly := rfl
@[simp] theorem hostPut_pow {a : Nat} {b : List Byte} : (s.hostPut a b).pow = s.pow := rfl

@[simp] theorem zeroSpad_pending {a n : Nat} : (s.zeroSpad a n).pending = s.pending := rfl
@[simp] theorem zeroSpad_out {a n : Nat} : (s.zeroSpad a n).out = s.out := rfl
@[simp] theorem zeroSpad_freeTick {a n : Nat} : (s.zeroSpad a n).freeTick = s.freeTick := rfl
@[simp] theorem zeroSpad_regs {a n : Nat} : (s.zeroSpad a n).regs = s.regs := rfl
@[simp] theorem zeroSpad_evt {a n : Nat} : (s.zeroSpad a n).evt = s.evt := rfl
@[simp] theorem zeroSpad_log {a n : Nat} : (s.zeroSpad a n).log = s.log := rfl
@[simp] theorem zeroSpad_clk {a n : Nat} : (s.zeroSpad a n).clk = s.clk := rfl
@[simp] theorem zeroSpad_par {a n : Nat} : (s.zeroSpad a n).par = s.par := rfl
@[simp] theorem zeroSpad_gaf {a n : Nat} : (s.zeroSpad a n).gaf = s.gaf := rfl
@[simp] theorem zeroSpad_dmp {a n : Nat} : (s.zeroSpad a n).dmp = s.dmp := rfl
@[simp] theorem zeroSpad_regions {a n : Nat} : (s.zeroSpad a n).regions = s.regions := rfl
@[simp] theorem zeroSpad_scrubs {a n : Nat} : (s.zeroSpad a n).scrubs = s.scrubs := rfl
@[simp] theorem zeroSpad_lpddr {a n : Nat} : (s.zeroSpad a n).lpddr = s.lpddr := rfl
@[simp] theorem zeroSpad_lpBad {a n : Nat} : (s.zeroSpad a n).lpBad = s.lpBad := rfl
@[simp] theorem zeroSpad_sites {a n : Nat} : (s.zeroSpad a n).sites = s.sites := rfl
@[simp] theorem zeroSpad_host {a n : Nat} : (s.zeroSpad a n).host = s.host := rfl
@[simp] theorem zeroSpad_builtIns {a n : Nat} : (s.zeroSpad a n).builtIns = s.builtIns := rfl
@[simp] theorem zeroSpad_flights {a n : Nat} : (s.zeroSpad a n).flights = s.flights := rfl
@[simp] theorem zeroSpad_nextId {a n : Nat} : (s.zeroSpad a n).nextId = s.nextId := rfl
@[simp] theorem zeroSpad_lnk {a n : Nat} : (s.zeroSpad a n).lnk = s.lnk := rfl
@[simp] theorem zeroSpad_servo {a n : Nat} : (s.zeroSpad a n).servo = s.servo := rfl
@[simp] theorem zeroSpad_apt {a n : Nat} : (s.zeroSpad a n).apt = s.apt := rfl
@[simp] theorem zeroSpad_gens {a n : Nat} : (s.zeroSpad a n).gens = s.gens := rfl
@[simp] theorem zeroSpad_fo {a n : Nat} : (s.zeroSpad a n).fo = s.fo := rfl
@[simp] theorem zeroSpad_rings {a n : Nat} : (s.zeroSpad a n).rings = s.rings := rfl
@[simp] theorem zeroSpad_logRing {a n : Nat} : (s.zeroSpad a n).logRing = s.logRing := rfl
@[simp] theorem zeroSpad_tallyRing {a n : Nat} : (s.zeroSpad a n).tallyRing = s.tallyRing := rfl
@[simp] theorem zeroSpad_sec {a n : Nat} : (s.zeroSpad a n).sec = s.sec := rfl
@[simp] theorem zeroSpad_tly {a n : Nat} : (s.zeroSpad a n).tly = s.tly := rfl
@[simp] theorem zeroSpad_pow {a n : Nat} : (s.zeroSpad a n).pow = s.pow := rfl

@[simp] theorem zeroLp_pending {a n : Nat} : (s.zeroLp a n).pending = s.pending := rfl
@[simp] theorem zeroLp_out {a n : Nat} : (s.zeroLp a n).out = s.out := rfl
@[simp] theorem zeroLp_freeTick {a n : Nat} : (s.zeroLp a n).freeTick = s.freeTick := rfl
@[simp] theorem zeroLp_regs {a n : Nat} : (s.zeroLp a n).regs = s.regs := rfl
@[simp] theorem zeroLp_evt {a n : Nat} : (s.zeroLp a n).evt = s.evt := rfl
@[simp] theorem zeroLp_log {a n : Nat} : (s.zeroLp a n).log = s.log := rfl
@[simp] theorem zeroLp_clk {a n : Nat} : (s.zeroLp a n).clk = s.clk := rfl
@[simp] theorem zeroLp_par {a n : Nat} : (s.zeroLp a n).par = s.par := rfl
@[simp] theorem zeroLp_gaf {a n : Nat} : (s.zeroLp a n).gaf = s.gaf := rfl
@[simp] theorem zeroLp_dmp {a n : Nat} : (s.zeroLp a n).dmp = s.dmp := rfl
@[simp] theorem zeroLp_spad {a n : Nat} : (s.zeroLp a n).spad = s.spad := rfl
@[simp] theorem zeroLp_spadBad {a n : Nat} : (s.zeroLp a n).spadBad = s.spadBad := rfl
@[simp] theorem zeroLp_spadSoft {a n : Nat} : (s.zeroLp a n).spadSoft = s.spadSoft := rfl
@[simp] theorem zeroLp_regions {a n : Nat} : (s.zeroLp a n).regions = s.regions := rfl
@[simp] theorem zeroLp_scrubs {a n : Nat} : (s.zeroLp a n).scrubs = s.scrubs := rfl
@[simp] theorem zeroLp_sites {a n : Nat} : (s.zeroLp a n).sites = s.sites := rfl
@[simp] theorem zeroLp_host {a n : Nat} : (s.zeroLp a n).host = s.host := rfl
@[simp] theorem zeroLp_builtIns {a n : Nat} : (s.zeroLp a n).builtIns = s.builtIns := rfl
@[simp] theorem zeroLp_flights {a n : Nat} : (s.zeroLp a n).flights = s.flights := rfl
@[simp] theorem zeroLp_nextId {a n : Nat} : (s.zeroLp a n).nextId = s.nextId := rfl
@[simp] theorem zeroLp_lnk {a n : Nat} : (s.zeroLp a n).lnk = s.lnk := rfl
@[simp] theorem zeroLp_servo {a n : Nat} : (s.zeroLp a n).servo = s.servo := rfl
@[simp] theorem zeroLp_apt {a n : Nat} : (s.zeroLp a n).apt = s.apt := rfl
@[simp] theorem zeroLp_gens {a n : Nat} : (s.zeroLp a n).gens = s.gens := rfl
@[simp] theorem zeroLp_fo {a n : Nat} : (s.zeroLp a n).fo = s.fo := rfl
@[simp] theorem zeroLp_rings {a n : Nat} : (s.zeroLp a n).rings = s.rings := rfl
@[simp] theorem zeroLp_logRing {a n : Nat} : (s.zeroLp a n).logRing = s.logRing := rfl
@[simp] theorem zeroLp_tallyRing {a n : Nat} : (s.zeroLp a n).tallyRing = s.tallyRing := rfl
@[simp] theorem zeroLp_sec {a n : Nat} : (s.zeroLp a n).sec = s.sec := rfl
@[simp] theorem zeroLp_tly {a n : Nat} : (s.zeroLp a n).tly = s.tly := rfl
@[simp] theorem zeroLp_pow {a n : Nat} : (s.zeroLp a n).pow = s.pow := rfl

@[simp] theorem logAdd_pending {p k i c x y z : Nat} : (s.logAdd p k i c x y z).pending = s.pending :=
  (frame_logAdd (M := 5) rfl (frame_refl s)).pending
@[simp] theorem logAdd_evt {p k i c x y z : Nat} : (s.logAdd p k i c x y z).evt = s.evt :=
  ((frame_logAdd (M := 5) rfl (frame_refl s)).evt rfl)
@[simp] theorem logAdd_clk {p k i c x y z : Nat} : (s.logAdd p k i c x y z).clk = s.clk :=
  ((frame_logAdd (M := 5) rfl (frame_refl s)).clk rfl)
@[simp] theorem logAdd_par {p k i c x y z : Nat} : (s.logAdd p k i c x y z).par = s.par :=
  ((frame_logAdd (M := 5) rfl (frame_refl s)).par rfl)
@[simp] theorem logAdd_gaf {p k i c x y z : Nat} : (s.logAdd p k i c x y z).gaf = s.gaf :=
  ((frame_logAdd (M := 5) rfl (frame_refl s)).gaf rfl)
@[simp] theorem logAdd_dmp {p k i c x y z : Nat} : (s.logAdd p k i c x y z).dmp = s.dmp :=
  ((frame_logAdd (M := 5) rfl (frame_refl s)).dmp rfl)
@[simp] theorem logAdd_spad {p k i c x y z : Nat} : (s.logAdd p k i c x y z).spad = s.spad :=
  ((frame_logAdd (M := 5) rfl (frame_refl s)).spad rfl).1
@[simp] theorem logAdd_spadBad {p k i c x y z : Nat} : (s.logAdd p k i c x y z).spadBad = s.spadBad :=
  ((frame_logAdd (M := 5) rfl (frame_refl s)).spad rfl).2.1
@[simp] theorem logAdd_spadSoft {p k i c x y z : Nat} : (s.logAdd p k i c x y z).spadSoft = s.spadSoft :=
  ((frame_logAdd (M := 5) rfl (frame_refl s)).spad rfl).2.2
@[simp] theorem logAdd_regions {p k i c x y z : Nat} : (s.logAdd p k i c x y z).regions = s.regions :=
  ((frame_logAdd (M := 5) rfl (frame_refl s)).regions rfl).1
@[simp] theorem logAdd_scrubs {p k i c x y z : Nat} : (s.logAdd p k i c x y z).scrubs = s.scrubs :=
  ((frame_logAdd (M := 5) rfl (frame_refl s)).regions rfl).2
@[simp] theorem logAdd_lpddr {p k i c x y z : Nat} : (s.logAdd p k i c x y z).lpddr = s.lpddr :=
  ((frame_logAdd (M := 5) rfl (frame_refl s)).lpddr rfl).1
@[simp] theorem logAdd_lpBad {p k i c x y z : Nat} : (s.logAdd p k i c x y z).lpBad = s.lpBad :=
  ((frame_logAdd (M := 5) rfl (frame_refl s)).lpddr rfl).2
@[simp] theorem logAdd_sites {p k i c x y z : Nat} : (s.logAdd p k i c x y z).sites = s.sites :=
  ((frame_logAdd (M := 5) rfl (frame_refl s)).sites rfl)
@[simp] theorem logAdd_host {p k i c x y z : Nat} : (s.logAdd p k i c x y z).host = s.host :=
  ((frame_logAdd (M := 5) rfl (frame_refl s)).host rfl)
@[simp] theorem logAdd_builtIns {p k i c x y z : Nat} : (s.logAdd p k i c x y z).builtIns = s.builtIns :=
  ((frame_logAdd (M := 5) rfl (frame_refl s)).dma rfl).1
@[simp] theorem logAdd_flights {p k i c x y z : Nat} : (s.logAdd p k i c x y z).flights = s.flights :=
  ((frame_logAdd (M := 5) rfl (frame_refl s)).dma rfl).2.1
@[simp] theorem logAdd_nextId {p k i c x y z : Nat} : (s.logAdd p k i c x y z).nextId = s.nextId :=
  ((frame_logAdd (M := 5) rfl (frame_refl s)).dma rfl).2.2
@[simp] theorem logAdd_lnk {p k i c x y z : Nat} : (s.logAdd p k i c x y z).lnk = s.lnk :=
  ((frame_logAdd (M := 5) rfl (frame_refl s)).lnk rfl)
@[simp] theorem logAdd_servo {p k i c x y z : Nat} : (s.logAdd p k i c x y z).servo = s.servo :=
  ((frame_logAdd (M := 5) rfl (frame_refl s)).servo rfl)
@[simp] theorem logAdd_apt {p k i c x y z : Nat} : (s.logAdd p k i c x y z).apt = s.apt :=
  ((frame_logAdd (M := 5) rfl (frame_refl s)).apt rfl).1
@[simp] theorem logAdd_gens {p k i c x y z : Nat} : (s.logAdd p k i c x y z).gens = s.gens :=
  ((frame_logAdd (M := 5) rfl (frame_refl s)).apt rfl).2
@[simp] theorem logAdd_fo {p k i c x y z : Nat} : (s.logAdd p k i c x y z).fo = s.fo :=
  ((frame_logAdd (M := 5) rfl (frame_refl s)).fo rfl)
@[simp] theorem logAdd_rings {p k i c x y z : Nat} : (s.logAdd p k i c x y z).rings = s.rings :=
  ((frame_logAdd (M := 5) rfl (frame_refl s)).rings rfl).1
@[simp] theorem logAdd_logRing {p k i c x y z : Nat} : (s.logAdd p k i c x y z).logRing = s.logRing :=
  ((frame_logAdd (M := 5) rfl (frame_refl s)).rings rfl).2.1
@[simp] theorem logAdd_tallyRing {p k i c x y z : Nat} : (s.logAdd p k i c x y z).tallyRing = s.tallyRing :=
  ((frame_logAdd (M := 5) rfl (frame_refl s)).rings rfl).2.2
@[simp] theorem logAdd_sec {p k i c x y z : Nat} : (s.logAdd p k i c x y z).sec = s.sec :=
  ((frame_logAdd (M := 5) rfl (frame_refl s)).sec rfl)
@[simp] theorem logAdd_tly {p k i c x y z : Nat} : (s.logAdd p k i c x y z).tly = s.tly :=
  ((frame_logAdd (M := 5) rfl (frame_refl s)).tly rfl)
@[simp] theorem logAdd_pow {p k i c x y z : Nat} : (s.logAdd p k i c x y z).pow = s.pow :=
  ((frame_logAdd (M := 5) rfl (frame_refl s)).pow rfl)

@[simp] theorem setErr_pending {f : Field} {i : Nat} : (s.setErr f i).pending = s.pending :=
  (frame_setErr (M := 5) rfl (frame_refl s)).pending
@[simp] theorem setErr_evt {f : Field} {i : Nat} : (s.setErr f i).evt = s.evt :=
  ((frame_setErr (M := 5) rfl (frame_refl s)).evt rfl)
@[simp] theorem setErr_clk {f : Field} {i : Nat} : (s.setErr f i).clk = s.clk :=
  ((frame_setErr (M := 5) rfl (frame_refl s)).clk rfl)
@[simp] theorem setErr_par {f : Field} {i : Nat} : (s.setErr f i).par = s.par :=
  ((frame_setErr (M := 5) rfl (frame_refl s)).par rfl)
@[simp] theorem setErr_gaf {f : Field} {i : Nat} : (s.setErr f i).gaf = s.gaf :=
  ((frame_setErr (M := 5) rfl (frame_refl s)).gaf rfl)
@[simp] theorem setErr_dmp {f : Field} {i : Nat} : (s.setErr f i).dmp = s.dmp :=
  ((frame_setErr (M := 5) rfl (frame_refl s)).dmp rfl)
@[simp] theorem setErr_spad {f : Field} {i : Nat} : (s.setErr f i).spad = s.spad :=
  ((frame_setErr (M := 5) rfl (frame_refl s)).spad rfl).1
@[simp] theorem setErr_spadBad {f : Field} {i : Nat} : (s.setErr f i).spadBad = s.spadBad :=
  ((frame_setErr (M := 5) rfl (frame_refl s)).spad rfl).2.1
@[simp] theorem setErr_spadSoft {f : Field} {i : Nat} : (s.setErr f i).spadSoft = s.spadSoft :=
  ((frame_setErr (M := 5) rfl (frame_refl s)).spad rfl).2.2
@[simp] theorem setErr_regions {f : Field} {i : Nat} : (s.setErr f i).regions = s.regions :=
  ((frame_setErr (M := 5) rfl (frame_refl s)).regions rfl).1
@[simp] theorem setErr_scrubs {f : Field} {i : Nat} : (s.setErr f i).scrubs = s.scrubs :=
  ((frame_setErr (M := 5) rfl (frame_refl s)).regions rfl).2
@[simp] theorem setErr_lpddr {f : Field} {i : Nat} : (s.setErr f i).lpddr = s.lpddr :=
  ((frame_setErr (M := 5) rfl (frame_refl s)).lpddr rfl).1
@[simp] theorem setErr_lpBad {f : Field} {i : Nat} : (s.setErr f i).lpBad = s.lpBad :=
  ((frame_setErr (M := 5) rfl (frame_refl s)).lpddr rfl).2
@[simp] theorem setErr_sites {f : Field} {i : Nat} : (s.setErr f i).sites = s.sites :=
  ((frame_setErr (M := 5) rfl (frame_refl s)).sites rfl)
@[simp] theorem setErr_host {f : Field} {i : Nat} : (s.setErr f i).host = s.host :=
  ((frame_setErr (M := 5) rfl (frame_refl s)).host rfl)
@[simp] theorem setErr_builtIns {f : Field} {i : Nat} : (s.setErr f i).builtIns = s.builtIns :=
  ((frame_setErr (M := 5) rfl (frame_refl s)).dma rfl).1
@[simp] theorem setErr_flights {f : Field} {i : Nat} : (s.setErr f i).flights = s.flights :=
  ((frame_setErr (M := 5) rfl (frame_refl s)).dma rfl).2.1
@[simp] theorem setErr_nextId {f : Field} {i : Nat} : (s.setErr f i).nextId = s.nextId :=
  ((frame_setErr (M := 5) rfl (frame_refl s)).dma rfl).2.2
@[simp] theorem setErr_lnk {f : Field} {i : Nat} : (s.setErr f i).lnk = s.lnk :=
  ((frame_setErr (M := 5) rfl (frame_refl s)).lnk rfl)
@[simp] theorem setErr_servo {f : Field} {i : Nat} : (s.setErr f i).servo = s.servo :=
  ((frame_setErr (M := 5) rfl (frame_refl s)).servo rfl)
@[simp] theorem setErr_apt {f : Field} {i : Nat} : (s.setErr f i).apt = s.apt :=
  ((frame_setErr (M := 5) rfl (frame_refl s)).apt rfl).1
@[simp] theorem setErr_gens {f : Field} {i : Nat} : (s.setErr f i).gens = s.gens :=
  ((frame_setErr (M := 5) rfl (frame_refl s)).apt rfl).2
@[simp] theorem setErr_fo {f : Field} {i : Nat} : (s.setErr f i).fo = s.fo :=
  ((frame_setErr (M := 5) rfl (frame_refl s)).fo rfl)
@[simp] theorem setErr_rings {f : Field} {i : Nat} : (s.setErr f i).rings = s.rings :=
  ((frame_setErr (M := 5) rfl (frame_refl s)).rings rfl).1
@[simp] theorem setErr_logRing {f : Field} {i : Nat} : (s.setErr f i).logRing = s.logRing :=
  ((frame_setErr (M := 5) rfl (frame_refl s)).rings rfl).2.1
@[simp] theorem setErr_tallyRing {f : Field} {i : Nat} : (s.setErr f i).tallyRing = s.tallyRing :=
  ((frame_setErr (M := 5) rfl (frame_refl s)).rings rfl).2.2
@[simp] theorem setErr_sec {f : Field} {i : Nat} : (s.setErr f i).sec = s.sec :=
  ((frame_setErr (M := 5) rfl (frame_refl s)).sec rfl)
@[simp] theorem setErr_tly {f : Field} {i : Nat} : (s.setErr f i).tly = s.tly :=
  ((frame_setErr (M := 5) rfl (frame_refl s)).tly rfl)
@[simp] theorem setErr_pow {f : Field} {i : Nat} : (s.setErr f i).pow = s.pow :=
  ((frame_setErr (M := 5) rfl (frame_refl s)).pow rfl)

@[simp] theorem setErrLog_pending {f : Field} {i x y : Nat} : (s.setErrLog f i x y).pending = s.pending :=
  (frame_setErrLog (M := 5) rfl (frame_refl s)).pending
@[simp] theorem setErrLog_evt {f : Field} {i x y : Nat} : (s.setErrLog f i x y).evt = s.evt :=
  ((frame_setErrLog (M := 5) rfl (frame_refl s)).evt rfl)
@[simp] theorem setErrLog_clk {f : Field} {i x y : Nat} : (s.setErrLog f i x y).clk = s.clk :=
  ((frame_setErrLog (M := 5) rfl (frame_refl s)).clk rfl)
@[simp] theorem setErrLog_par {f : Field} {i x y : Nat} : (s.setErrLog f i x y).par = s.par :=
  ((frame_setErrLog (M := 5) rfl (frame_refl s)).par rfl)
@[simp] theorem setErrLog_gaf {f : Field} {i x y : Nat} : (s.setErrLog f i x y).gaf = s.gaf :=
  ((frame_setErrLog (M := 5) rfl (frame_refl s)).gaf rfl)
@[simp] theorem setErrLog_dmp {f : Field} {i x y : Nat} : (s.setErrLog f i x y).dmp = s.dmp :=
  ((frame_setErrLog (M := 5) rfl (frame_refl s)).dmp rfl)
@[simp] theorem setErrLog_spad {f : Field} {i x y : Nat} : (s.setErrLog f i x y).spad = s.spad :=
  ((frame_setErrLog (M := 5) rfl (frame_refl s)).spad rfl).1
@[simp] theorem setErrLog_spadBad {f : Field} {i x y : Nat} : (s.setErrLog f i x y).spadBad = s.spadBad :=
  ((frame_setErrLog (M := 5) rfl (frame_refl s)).spad rfl).2.1
@[simp] theorem setErrLog_spadSoft {f : Field} {i x y : Nat} : (s.setErrLog f i x y).spadSoft = s.spadSoft :=
  ((frame_setErrLog (M := 5) rfl (frame_refl s)).spad rfl).2.2
@[simp] theorem setErrLog_regions {f : Field} {i x y : Nat} : (s.setErrLog f i x y).regions = s.regions :=
  ((frame_setErrLog (M := 5) rfl (frame_refl s)).regions rfl).1
@[simp] theorem setErrLog_scrubs {f : Field} {i x y : Nat} : (s.setErrLog f i x y).scrubs = s.scrubs :=
  ((frame_setErrLog (M := 5) rfl (frame_refl s)).regions rfl).2
@[simp] theorem setErrLog_lpddr {f : Field} {i x y : Nat} : (s.setErrLog f i x y).lpddr = s.lpddr :=
  ((frame_setErrLog (M := 5) rfl (frame_refl s)).lpddr rfl).1
@[simp] theorem setErrLog_lpBad {f : Field} {i x y : Nat} : (s.setErrLog f i x y).lpBad = s.lpBad :=
  ((frame_setErrLog (M := 5) rfl (frame_refl s)).lpddr rfl).2
@[simp] theorem setErrLog_sites {f : Field} {i x y : Nat} : (s.setErrLog f i x y).sites = s.sites :=
  ((frame_setErrLog (M := 5) rfl (frame_refl s)).sites rfl)
@[simp] theorem setErrLog_host {f : Field} {i x y : Nat} : (s.setErrLog f i x y).host = s.host :=
  ((frame_setErrLog (M := 5) rfl (frame_refl s)).host rfl)
@[simp] theorem setErrLog_builtIns {f : Field} {i x y : Nat} : (s.setErrLog f i x y).builtIns = s.builtIns :=
  ((frame_setErrLog (M := 5) rfl (frame_refl s)).dma rfl).1
@[simp] theorem setErrLog_flights {f : Field} {i x y : Nat} : (s.setErrLog f i x y).flights = s.flights :=
  ((frame_setErrLog (M := 5) rfl (frame_refl s)).dma rfl).2.1
@[simp] theorem setErrLog_nextId {f : Field} {i x y : Nat} : (s.setErrLog f i x y).nextId = s.nextId :=
  ((frame_setErrLog (M := 5) rfl (frame_refl s)).dma rfl).2.2
@[simp] theorem setErrLog_lnk {f : Field} {i x y : Nat} : (s.setErrLog f i x y).lnk = s.lnk :=
  ((frame_setErrLog (M := 5) rfl (frame_refl s)).lnk rfl)
@[simp] theorem setErrLog_servo {f : Field} {i x y : Nat} : (s.setErrLog f i x y).servo = s.servo :=
  ((frame_setErrLog (M := 5) rfl (frame_refl s)).servo rfl)
@[simp] theorem setErrLog_apt {f : Field} {i x y : Nat} : (s.setErrLog f i x y).apt = s.apt :=
  ((frame_setErrLog (M := 5) rfl (frame_refl s)).apt rfl).1
@[simp] theorem setErrLog_gens {f : Field} {i x y : Nat} : (s.setErrLog f i x y).gens = s.gens :=
  ((frame_setErrLog (M := 5) rfl (frame_refl s)).apt rfl).2
@[simp] theorem setErrLog_fo {f : Field} {i x y : Nat} : (s.setErrLog f i x y).fo = s.fo :=
  ((frame_setErrLog (M := 5) rfl (frame_refl s)).fo rfl)
@[simp] theorem setErrLog_rings {f : Field} {i x y : Nat} : (s.setErrLog f i x y).rings = s.rings :=
  ((frame_setErrLog (M := 5) rfl (frame_refl s)).rings rfl).1
@[simp] theorem setErrLog_logRing {f : Field} {i x y : Nat} : (s.setErrLog f i x y).logRing = s.logRing :=
  ((frame_setErrLog (M := 5) rfl (frame_refl s)).rings rfl).2.1
@[simp] theorem setErrLog_tallyRing {f : Field} {i x y : Nat} : (s.setErrLog f i x y).tallyRing = s.tallyRing :=
  ((frame_setErrLog (M := 5) rfl (frame_refl s)).rings rfl).2.2
@[simp] theorem setErrLog_sec {f : Field} {i x y : Nat} : (s.setErrLog f i x y).sec = s.sec :=
  ((frame_setErrLog (M := 5) rfl (frame_refl s)).sec rfl)
@[simp] theorem setErrLog_tly {f : Field} {i x y : Nat} : (s.setErrLog f i x y).tly = s.tly :=
  ((frame_setErrLog (M := 5) rfl (frame_refl s)).tly rfl)
@[simp] theorem setErrLog_pow {f : Field} {i x y : Nat} : (s.setErrLog f i x y).pow = s.pow :=
  ((frame_setErrLog (M := 5) rfl (frame_refl s)).pow rfl)

@[simp] theorem badWrite_pending {k : PageKind} {i : Nat} : (s.badWrite k i).pending = s.pending :=
  (frame_badWrite (M := 5) rfl (frame_refl s)).pending
@[simp] theorem badWrite_evt {k : PageKind} {i : Nat} : (s.badWrite k i).evt = s.evt :=
  ((frame_badWrite (M := 5) rfl (frame_refl s)).evt rfl)
@[simp] theorem badWrite_clk {k : PageKind} {i : Nat} : (s.badWrite k i).clk = s.clk :=
  ((frame_badWrite (M := 5) rfl (frame_refl s)).clk rfl)
@[simp] theorem badWrite_par {k : PageKind} {i : Nat} : (s.badWrite k i).par = s.par :=
  ((frame_badWrite (M := 5) rfl (frame_refl s)).par rfl)
@[simp] theorem badWrite_gaf {k : PageKind} {i : Nat} : (s.badWrite k i).gaf = s.gaf :=
  ((frame_badWrite (M := 5) rfl (frame_refl s)).gaf rfl)
@[simp] theorem badWrite_dmp {k : PageKind} {i : Nat} : (s.badWrite k i).dmp = s.dmp :=
  ((frame_badWrite (M := 5) rfl (frame_refl s)).dmp rfl)
@[simp] theorem badWrite_spad {k : PageKind} {i : Nat} : (s.badWrite k i).spad = s.spad :=
  ((frame_badWrite (M := 5) rfl (frame_refl s)).spad rfl).1
@[simp] theorem badWrite_spadBad {k : PageKind} {i : Nat} : (s.badWrite k i).spadBad = s.spadBad :=
  ((frame_badWrite (M := 5) rfl (frame_refl s)).spad rfl).2.1
@[simp] theorem badWrite_spadSoft {k : PageKind} {i : Nat} : (s.badWrite k i).spadSoft = s.spadSoft :=
  ((frame_badWrite (M := 5) rfl (frame_refl s)).spad rfl).2.2
@[simp] theorem badWrite_regions {k : PageKind} {i : Nat} : (s.badWrite k i).regions = s.regions :=
  ((frame_badWrite (M := 5) rfl (frame_refl s)).regions rfl).1
@[simp] theorem badWrite_scrubs {k : PageKind} {i : Nat} : (s.badWrite k i).scrubs = s.scrubs :=
  ((frame_badWrite (M := 5) rfl (frame_refl s)).regions rfl).2
@[simp] theorem badWrite_lpddr {k : PageKind} {i : Nat} : (s.badWrite k i).lpddr = s.lpddr :=
  ((frame_badWrite (M := 5) rfl (frame_refl s)).lpddr rfl).1
@[simp] theorem badWrite_lpBad {k : PageKind} {i : Nat} : (s.badWrite k i).lpBad = s.lpBad :=
  ((frame_badWrite (M := 5) rfl (frame_refl s)).lpddr rfl).2
@[simp] theorem badWrite_sites {k : PageKind} {i : Nat} : (s.badWrite k i).sites = s.sites :=
  ((frame_badWrite (M := 5) rfl (frame_refl s)).sites rfl)
@[simp] theorem badWrite_host {k : PageKind} {i : Nat} : (s.badWrite k i).host = s.host :=
  ((frame_badWrite (M := 5) rfl (frame_refl s)).host rfl)
@[simp] theorem badWrite_builtIns {k : PageKind} {i : Nat} : (s.badWrite k i).builtIns = s.builtIns :=
  ((frame_badWrite (M := 5) rfl (frame_refl s)).dma rfl).1
@[simp] theorem badWrite_flights {k : PageKind} {i : Nat} : (s.badWrite k i).flights = s.flights :=
  ((frame_badWrite (M := 5) rfl (frame_refl s)).dma rfl).2.1
@[simp] theorem badWrite_nextId {k : PageKind} {i : Nat} : (s.badWrite k i).nextId = s.nextId :=
  ((frame_badWrite (M := 5) rfl (frame_refl s)).dma rfl).2.2
@[simp] theorem badWrite_lnk {k : PageKind} {i : Nat} : (s.badWrite k i).lnk = s.lnk :=
  ((frame_badWrite (M := 5) rfl (frame_refl s)).lnk rfl)
@[simp] theorem badWrite_servo {k : PageKind} {i : Nat} : (s.badWrite k i).servo = s.servo :=
  ((frame_badWrite (M := 5) rfl (frame_refl s)).servo rfl)
@[simp] theorem badWrite_apt {k : PageKind} {i : Nat} : (s.badWrite k i).apt = s.apt :=
  ((frame_badWrite (M := 5) rfl (frame_refl s)).apt rfl).1
@[simp] theorem badWrite_gens {k : PageKind} {i : Nat} : (s.badWrite k i).gens = s.gens :=
  ((frame_badWrite (M := 5) rfl (frame_refl s)).apt rfl).2
@[simp] theorem badWrite_fo {k : PageKind} {i : Nat} : (s.badWrite k i).fo = s.fo :=
  ((frame_badWrite (M := 5) rfl (frame_refl s)).fo rfl)
@[simp] theorem badWrite_rings {k : PageKind} {i : Nat} : (s.badWrite k i).rings = s.rings :=
  ((frame_badWrite (M := 5) rfl (frame_refl s)).rings rfl).1
@[simp] theorem badWrite_logRing {k : PageKind} {i : Nat} : (s.badWrite k i).logRing = s.logRing :=
  ((frame_badWrite (M := 5) rfl (frame_refl s)).rings rfl).2.1
@[simp] theorem badWrite_tallyRing {k : PageKind} {i : Nat} : (s.badWrite k i).tallyRing = s.tallyRing :=
  ((frame_badWrite (M := 5) rfl (frame_refl s)).rings rfl).2.2
@[simp] theorem badWrite_sec {k : PageKind} {i : Nat} : (s.badWrite k i).sec = s.sec :=
  ((frame_badWrite (M := 5) rfl (frame_refl s)).sec rfl)
@[simp] theorem badWrite_tly {k : PageKind} {i : Nat} : (s.badWrite k i).tly = s.tly :=
  ((frame_badWrite (M := 5) rfl (frame_refl s)).tly rfl)
@[simp] theorem badWrite_pow {k : PageKind} {i : Nat} : (s.badWrite k i).pow = s.pow :=
  ((frame_badWrite (M := 5) rfl (frame_refl s)).pow rfl)

@[simp] theorem evtDev_pending {c n : Nat} : (s.evtDev c n).pending = s.pending :=
  (frame_evtDev (M := 3) rfl (frame_refl s)).pending
@[simp] theorem evtDev_log {c n : Nat} : (s.evtDev c n).log = s.log :=
  ((frame_evtDev (M := 3) rfl (frame_refl s)).log rfl)
@[simp] theorem evtDev_clk {c n : Nat} : (s.evtDev c n).clk = s.clk :=
  ((frame_evtDev (M := 3) rfl (frame_refl s)).clk rfl)
@[simp] theorem evtDev_par {c n : Nat} : (s.evtDev c n).par = s.par :=
  ((frame_evtDev (M := 3) rfl (frame_refl s)).par rfl)
@[simp] theorem evtDev_gaf {c n : Nat} : (s.evtDev c n).gaf = s.gaf :=
  ((frame_evtDev (M := 3) rfl (frame_refl s)).gaf rfl)
@[simp] theorem evtDev_dmp {c n : Nat} : (s.evtDev c n).dmp = s.dmp :=
  ((frame_evtDev (M := 3) rfl (frame_refl s)).dmp rfl)
@[simp] theorem evtDev_spad {c n : Nat} : (s.evtDev c n).spad = s.spad :=
  ((frame_evtDev (M := 3) rfl (frame_refl s)).spad rfl).1
@[simp] theorem evtDev_spadBad {c n : Nat} : (s.evtDev c n).spadBad = s.spadBad :=
  ((frame_evtDev (M := 3) rfl (frame_refl s)).spad rfl).2.1
@[simp] theorem evtDev_spadSoft {c n : Nat} : (s.evtDev c n).spadSoft = s.spadSoft :=
  ((frame_evtDev (M := 3) rfl (frame_refl s)).spad rfl).2.2
@[simp] theorem evtDev_regions {c n : Nat} : (s.evtDev c n).regions = s.regions :=
  ((frame_evtDev (M := 3) rfl (frame_refl s)).regions rfl).1
@[simp] theorem evtDev_scrubs {c n : Nat} : (s.evtDev c n).scrubs = s.scrubs :=
  ((frame_evtDev (M := 3) rfl (frame_refl s)).regions rfl).2
@[simp] theorem evtDev_lpddr {c n : Nat} : (s.evtDev c n).lpddr = s.lpddr :=
  ((frame_evtDev (M := 3) rfl (frame_refl s)).lpddr rfl).1
@[simp] theorem evtDev_lpBad {c n : Nat} : (s.evtDev c n).lpBad = s.lpBad :=
  ((frame_evtDev (M := 3) rfl (frame_refl s)).lpddr rfl).2
@[simp] theorem evtDev_sites {c n : Nat} : (s.evtDev c n).sites = s.sites :=
  ((frame_evtDev (M := 3) rfl (frame_refl s)).sites rfl)
@[simp] theorem evtDev_host {c n : Nat} : (s.evtDev c n).host = s.host :=
  ((frame_evtDev (M := 3) rfl (frame_refl s)).host rfl)
@[simp] theorem evtDev_builtIns {c n : Nat} : (s.evtDev c n).builtIns = s.builtIns :=
  ((frame_evtDev (M := 3) rfl (frame_refl s)).dma rfl).1
@[simp] theorem evtDev_flights {c n : Nat} : (s.evtDev c n).flights = s.flights :=
  ((frame_evtDev (M := 3) rfl (frame_refl s)).dma rfl).2.1
@[simp] theorem evtDev_nextId {c n : Nat} : (s.evtDev c n).nextId = s.nextId :=
  ((frame_evtDev (M := 3) rfl (frame_refl s)).dma rfl).2.2
@[simp] theorem evtDev_lnk {c n : Nat} : (s.evtDev c n).lnk = s.lnk :=
  ((frame_evtDev (M := 3) rfl (frame_refl s)).lnk rfl)
@[simp] theorem evtDev_servo {c n : Nat} : (s.evtDev c n).servo = s.servo :=
  ((frame_evtDev (M := 3) rfl (frame_refl s)).servo rfl)
@[simp] theorem evtDev_apt {c n : Nat} : (s.evtDev c n).apt = s.apt :=
  ((frame_evtDev (M := 3) rfl (frame_refl s)).apt rfl).1
@[simp] theorem evtDev_gens {c n : Nat} : (s.evtDev c n).gens = s.gens :=
  ((frame_evtDev (M := 3) rfl (frame_refl s)).apt rfl).2
@[simp] theorem evtDev_fo {c n : Nat} : (s.evtDev c n).fo = s.fo :=
  ((frame_evtDev (M := 3) rfl (frame_refl s)).fo rfl)
@[simp] theorem evtDev_rings {c n : Nat} : (s.evtDev c n).rings = s.rings :=
  ((frame_evtDev (M := 3) rfl (frame_refl s)).rings rfl).1
@[simp] theorem evtDev_logRing {c n : Nat} : (s.evtDev c n).logRing = s.logRing :=
  ((frame_evtDev (M := 3) rfl (frame_refl s)).rings rfl).2.1
@[simp] theorem evtDev_tallyRing {c n : Nat} : (s.evtDev c n).tallyRing = s.tallyRing :=
  ((frame_evtDev (M := 3) rfl (frame_refl s)).rings rfl).2.2
@[simp] theorem evtDev_sec {c n : Nat} : (s.evtDev c n).sec = s.sec :=
  ((frame_evtDev (M := 3) rfl (frame_refl s)).sec rfl)
@[simp] theorem evtDev_tly {c n : Nat} : (s.evtDev c n).tly = s.tly :=
  ((frame_evtDev (M := 3) rfl (frame_refl s)).tly rfl)
@[simp] theorem evtDev_pow {c n : Nat} : (s.evtDev c n).pow = s.pow :=
  ((frame_evtDev (M := 3) rfl (frame_refl s)).pow rfl)

@[simp] theorem evtCount_pending {p c n : Nat} : (s.evtCount p c n).pending = s.pending :=
  (frame_evtCount (M := 3) rfl (frame_refl s)).pending
@[simp] theorem evtCount_log {p c n : Nat} : (s.evtCount p c n).log = s.log :=
  ((frame_evtCount (M := 3) rfl (frame_refl s)).log rfl)
@[simp] theorem evtCount_clk {p c n : Nat} : (s.evtCount p c n).clk = s.clk :=
  ((frame_evtCount (M := 3) rfl (frame_refl s)).clk rfl)
@[simp] theorem evtCount_par {p c n : Nat} : (s.evtCount p c n).par = s.par :=
  ((frame_evtCount (M := 3) rfl (frame_refl s)).par rfl)
@[simp] theorem evtCount_gaf {p c n : Nat} : (s.evtCount p c n).gaf = s.gaf :=
  ((frame_evtCount (M := 3) rfl (frame_refl s)).gaf rfl)
@[simp] theorem evtCount_dmp {p c n : Nat} : (s.evtCount p c n).dmp = s.dmp :=
  ((frame_evtCount (M := 3) rfl (frame_refl s)).dmp rfl)
@[simp] theorem evtCount_spad {p c n : Nat} : (s.evtCount p c n).spad = s.spad :=
  ((frame_evtCount (M := 3) rfl (frame_refl s)).spad rfl).1
@[simp] theorem evtCount_spadBad {p c n : Nat} : (s.evtCount p c n).spadBad = s.spadBad :=
  ((frame_evtCount (M := 3) rfl (frame_refl s)).spad rfl).2.1
@[simp] theorem evtCount_spadSoft {p c n : Nat} : (s.evtCount p c n).spadSoft = s.spadSoft :=
  ((frame_evtCount (M := 3) rfl (frame_refl s)).spad rfl).2.2
@[simp] theorem evtCount_regions {p c n : Nat} : (s.evtCount p c n).regions = s.regions :=
  ((frame_evtCount (M := 3) rfl (frame_refl s)).regions rfl).1
@[simp] theorem evtCount_scrubs {p c n : Nat} : (s.evtCount p c n).scrubs = s.scrubs :=
  ((frame_evtCount (M := 3) rfl (frame_refl s)).regions rfl).2
@[simp] theorem evtCount_lpddr {p c n : Nat} : (s.evtCount p c n).lpddr = s.lpddr :=
  ((frame_evtCount (M := 3) rfl (frame_refl s)).lpddr rfl).1
@[simp] theorem evtCount_lpBad {p c n : Nat} : (s.evtCount p c n).lpBad = s.lpBad :=
  ((frame_evtCount (M := 3) rfl (frame_refl s)).lpddr rfl).2
@[simp] theorem evtCount_sites {p c n : Nat} : (s.evtCount p c n).sites = s.sites :=
  ((frame_evtCount (M := 3) rfl (frame_refl s)).sites rfl)
@[simp] theorem evtCount_host {p c n : Nat} : (s.evtCount p c n).host = s.host :=
  ((frame_evtCount (M := 3) rfl (frame_refl s)).host rfl)
@[simp] theorem evtCount_builtIns {p c n : Nat} : (s.evtCount p c n).builtIns = s.builtIns :=
  ((frame_evtCount (M := 3) rfl (frame_refl s)).dma rfl).1
@[simp] theorem evtCount_flights {p c n : Nat} : (s.evtCount p c n).flights = s.flights :=
  ((frame_evtCount (M := 3) rfl (frame_refl s)).dma rfl).2.1
@[simp] theorem evtCount_nextId {p c n : Nat} : (s.evtCount p c n).nextId = s.nextId :=
  ((frame_evtCount (M := 3) rfl (frame_refl s)).dma rfl).2.2
@[simp] theorem evtCount_lnk {p c n : Nat} : (s.evtCount p c n).lnk = s.lnk :=
  ((frame_evtCount (M := 3) rfl (frame_refl s)).lnk rfl)
@[simp] theorem evtCount_servo {p c n : Nat} : (s.evtCount p c n).servo = s.servo :=
  ((frame_evtCount (M := 3) rfl (frame_refl s)).servo rfl)
@[simp] theorem evtCount_apt {p c n : Nat} : (s.evtCount p c n).apt = s.apt :=
  ((frame_evtCount (M := 3) rfl (frame_refl s)).apt rfl).1
@[simp] theorem evtCount_gens {p c n : Nat} : (s.evtCount p c n).gens = s.gens :=
  ((frame_evtCount (M := 3) rfl (frame_refl s)).apt rfl).2
@[simp] theorem evtCount_fo {p c n : Nat} : (s.evtCount p c n).fo = s.fo :=
  ((frame_evtCount (M := 3) rfl (frame_refl s)).fo rfl)
@[simp] theorem evtCount_rings {p c n : Nat} : (s.evtCount p c n).rings = s.rings :=
  ((frame_evtCount (M := 3) rfl (frame_refl s)).rings rfl).1
@[simp] theorem evtCount_logRing {p c n : Nat} : (s.evtCount p c n).logRing = s.logRing :=
  ((frame_evtCount (M := 3) rfl (frame_refl s)).rings rfl).2.1
@[simp] theorem evtCount_tallyRing {p c n : Nat} : (s.evtCount p c n).tallyRing = s.tallyRing :=
  ((frame_evtCount (M := 3) rfl (frame_refl s)).rings rfl).2.2
@[simp] theorem evtCount_sec {p c n : Nat} : (s.evtCount p c n).sec = s.sec :=
  ((frame_evtCount (M := 3) rfl (frame_refl s)).sec rfl)
@[simp] theorem evtCount_tly {p c n : Nat} : (s.evtCount p c n).tly = s.tly :=
  ((frame_evtCount (M := 3) rfl (frame_refl s)).tly rfl)
@[simp] theorem evtCount_pow {p c n : Nat} : (s.evtCount p c n).pow = s.pow :=
  ((frame_evtCount (M := 3) rfl (frame_refl s)).pow rfl)

end State

end Sys2Proof.Machine
end

