-- ==== Sys2Proof/Laws/Ops.lean ====
section
/-! SUPPORT. What the named operations over registers, errors and the log can do: a write of a field gives that field its value and
leaves every other field as it was. -/
namespace Sys2Proof.Machine
open Sys2Proof

set_option Elab.async false

/-! Bit fields. -/

theorem slice_lt (v l w : Nat) : slice v l w < 2 ^ w := Nat.mod_lt _ (Nat.two_pow_pos w)

theorem testBit_slice (v l w i : Nat) : (slice v l w).testBit i = (decide (i < w) && v.testBit (l + i)) := by
  simp only [slice, Nat.testBit_mod_two_pow, Nat.testBit_shiftRight]

/-- A number split at a field. -/
theorem split_slice (v l w : Nat) : v = v % 2 ^ l + 2 ^ l * (slice v l w + 2 ^ w * (v / 2 ^ l / 2 ^ w)) := by
  simp only [slice, Nat.shiftRight_eq_div_pow]
  rw [Nat.mod_add_div, Nat.mod_add_div]

theorem setSlice_eq (v l w x : Nat) : setSlice v l w x = v % 2 ^ l + 2 ^ l * (x % 2 ^ w + 2 ^ w * (v / 2 ^ l / 2 ^ w)) := by
  have h := split_slice v l w
  simp only [Nat.mul_add] at h ⊢
  unfold setSlice
  rw [Nat.mul_comm (slice v l w), Nat.mul_comm (x % 2 ^ w)]
  omega

theorem testBit_setSlice (v l w x i : Nat) :
    (setSlice v l w x).testBit i = if l ≤ i ∧ i < l + w then x.testBit (i - l) else v.testBit i := by
  rw [setSlice_eq, Nat.add_comm, Nat.testBit_two_pow_mul_add _ (Nat.mod_lt _ (Nat.two_pow_pos l))]
  by_cases hl : i < l
  · rw [if_pos hl, if_neg (by omega), Nat.testBit_mod_two_pow, decide_eq_true hl, Bool.true_and]
  · rw [if_neg hl, Nat.add_comm, Nat.testBit_two_pow_mul_add _ (Nat.mod_lt _ (Nat.two_pow_pos w))]
    by_cases hw : i - l < w
    · rw [if_pos hw, if_pos (by omega), Nat.testBit_mod_two_pow, decide_eq_true hw, Bool.true_and]
    · rw [if_neg hw, if_neg (by omega), Nat.testBit_div_two_pow, Nat.testBit_div_two_pow]
      congr 1
      omega

theorem slice_setSlice (v l w x : Nat) : slice (setSlice v l w x) l w = x % 2 ^ w := by
  refine Nat.eq_of_testBit_eq fun i => ?_
  rw [testBit_slice, testBit_setSlice, Nat.testBit_mod_two_pow]
  by_cases h : i < w
  · rw [decide_eq_true h, Bool.true_and, Bool.true_and, if_pos (by omega)]
    congr 1
    omega
  · rw [decide_eq_false h, Bool.false_and, Bool.false_and]

theorem slice_setSlice_ne {v l w x l' w' : Nat} (h : l + w ≤ l' ∨ l' + w' ≤ l) : slice (setSlice v l w x) l' w' = slice v l' w' := by
  refine Nat.eq_of_testBit_eq fun i => ?_
  rw [testBit_slice, testBit_slice, testBit_setSlice]
  by_cases hi : i < w'
  · rw [if_neg (by omega)]
  · rw [decide_eq_false hi, Bool.false_and, Bool.false_and]

theorem slice_mod {v n l w : Nat} (h : l + w ≤ n) : slice (v % 2 ^ n) l w = slice v l w := by
  refine Nat.eq_of_testBit_eq fun i => ?_
  rw [testBit_slice, testBit_slice, Nat.testBit_mod_two_pow]
  by_cases hi : i < w
  · rw [decide_eq_true (show l + i < n by omega), Bool.true_and]
  · rw [decide_eq_false hi, Bool.false_and, Bool.false_and]

theorem ofSigned_lt {w : Nat} {x : Int} : ofSigned w x < 2 ^ w := by
  unfold ofSigned
  have hp : (0 : Int) < ((2 ^ w : Nat) : Int) := Int.natCast_pos.2 (Nat.two_pow_pos w)
  have h1 := Int.emod_nonneg x (Int.ne_of_gt hp)
  have h2 := Int.emod_lt_of_pos x hp
  omega

/-! Bytes and lists. -/

@[simp] theorem leBytes_length {n v : Nat} : (leBytes n v).length = n := by
  induction n generalizing v with
  | zero => rfl
  | succ n ih => rw [leBytes, List.length_cons, ih]

@[simp] theorem bytesAt_length {bs : List Byte} {o n : Nat} : (bytesAt bs o n).length = n := by
  unfold bytesAt
  simp only [List.length_append, List.length_take, List.length_drop, List.length_replicate]
  omega

theorem bytesAt_whole {bs : List Byte} : bytesAt bs 0 bs.length = bs := by
  unfold bytesAt
  simp

theorem listMod_getD {α : Type} {xs : List α} {k j : Nat} {f : α → α} {d : α} :
    (listMod xs k f).getD j d = if j = k ∧ j < xs.length then f (xs.getD j d) else xs.getD j d := by
  induction xs generalizing k j with
  | nil => simp [listMod]
  | cons y ys ih =>
    cases k with
    | zero => cases j <;> simp [listMod]
    | succ k =>
      cases j with
      | zero => simp [listMod]
      | succ j =>
        simp only [listMod, List.getD_cons_succ, ih]
        simp

theorem shake256_length {m : List Byte} : (shake256 m).length = 32 := by
  unfold shake256 shakeLanes
  simp only [List.length_flatMap, leBytes_length]
  rfl

namespace State

variable {s : State}

/-- Extending one measurement register (R444). -/
theorem measure_extendM {k j : Nat} {x : List Byte} :
    (s.extendM k x).measure j = if j = k ∧ j < s.sec.measures.length then shake256 (s.measure k ++ x) else s.measure j := by
  unfold State.extendM
  unfold State.measure
  dsimp only
  rw [listMod_getD]
  split
  · rename_i h
    exact (congrArg _ shake256_length.symm).trans bytesAt_whole
  · rfl

/-! Words. -/

@[simp] theorem word_setWord_same {a : Nat} {w : Word} : (s.setWord a w).word a = w := sparseGet_set_same
theorem word_setWord {a b : Nat} {w : Word} : (s.setWord a w).word b = if b = a then w else s.word b := sparseGet_set
theorem word_setWord_ne {a b : Nat} {w : Word} (h : b ≠ a) : (s.setWord a w).word b = s.word b := sparseGet_set_ne h
theorem word_wrAt_ne {f : Field} {i x v b : Nat} (h : b ≠ f.addr i x) : (s.wrAt f i x v).word b = s.word b := word_setWord_ne h
theorem word_wr_ne {f : Field} {i v b : Nat} (h : b ≠ f.addr i 0) : (s.wr f v i).word b = s.word b := word_setWord_ne h
theorem word_count_ne {f : Field} {i n b : Nat} (h : b ≠ f.addr i 0) : (s.count f i n).word b = s.word b := word_setWord_ne h

@[simp] theorem word_begin {a : Nat} : s.begin_.word a = s.word a := rfl
@[simp] theorem word_put {a : Nat} {x : Out} : (s.put x).word a = s.word a := rfl
@[simp] theorem rd_begin {f : Field} {i : Nat} : s.begin_.rd f i = s.rd f i := rfl
@[simp] theorem rdAt_begin {f : Field} {i x : Nat} : s.begin_.rdAt f i x = s.rdAt f i x := rfl
@[simp] theorem rd_put {f : Field} {i : Nat} {x : Out} : (s.put x).rd f i = s.rd f i := rfl

/-! Fields. -/

theorem rdAt_wrAt_same {f : Field} {i x v : Nat} (h : f.lsb + f.width ≤ 32) : (s.wrAt f i x v).rdAt f i x = v % 2 ^ f.width := by
  unfold rdAt wrAt
  rw [word_setWord_same, BitVec.toNat_ofNat, slice_mod h, slice_setSlice]

/-- Another word, or other bits of the same word. -/
theorem rdAt_wrAt_ne {f g : Field} {i x j y v : Nat}
    (h : g.addr j y ≠ f.addr i x ∨ (f.lsb + f.width ≤ g.lsb ∨ g.lsb + g.width ≤ f.lsb) ∧ g.lsb + g.width ≤ 32) :
    (s.wrAt f i x v).rdAt g j y = s.rdAt g j y := by
  unfold rdAt wrAt
  rw [word_setWord]
  split
  · rename_i e
    rcases h with h | h
    · exact absurd e h
    · rw [BitVec.toNat_ofNat, slice_mod h.2, slice_setSlice_ne h.1, e]
  · rfl

theorem rd_wr_same {f : Field} {i v : Nat} (h : f.lsb + f.width ≤ 32) : (s.wr f v i).rd f i = v % 2 ^ f.width := rdAt_wrAt_same h

theorem rd_wr_ne {f g : Field} {i j v : Nat}
    (h : g.addr j 0 ≠ f.addr i 0 ∨ (f.lsb + f.width ≤ g.lsb ∨ g.lsb + g.width ≤ f.lsb) ∧ g.lsb + g.width ≤ 32) :
    (s.wr f v i).rd g j = s.rd g j := rdAt_wrAt_ne h

theorem rd_count_same {f : Field} {i n : Nat} (h : f.lsb + f.width ≤ 32) : (s.count f i n).rd f i = (s.rd f i + n) % 2 ^ f.width :=
  rd_wr_same h

theorem rd_count_ne {f g : Field} {i j n : Nat}
    (h : g.addr j 0 ≠ f.addr i 0 ∨ (f.lsb + f.width ≤ g.lsb ∨ g.lsb + g.width ≤ f.lsb) ∧ g.lsb + g.width ≤ 32) :
    (s.count f i n).rd g j = s.rd g j := rdAt_wrAt_ne h

/-- What a field holds fits it. -/
theorem rdAt_lt {f : Field} {i x : Nat} : s.rdAt f i x < 2 ^ f.width := slice_lt _ _ _
theorem rd_lt {f : Field} {i : Nat} : s.rd f i < 2 ^ f.width := slice_lt _ _ _

/-- The log's only register is LOG_LOST. -/
theorem word_logAdd {p k i c x y z a : Nat} (h : a ≠ Fd.LOG_LOST.addr 0 0) : (s.logAdd p k i c x y z).word a = s.word a := by
  unfold logAdd
  extract_lets e kept t mirror
  have ht : t.word a = s.word a := by
    unfold t
    split
    · rfl
    · exact word_count_ne h
  clear_value t
  split
  · exact ht
  · split
    · rfl
    · exact ht

theorem rdAt_congr {t : State} {f : Field} {i x : Nat} (h : t.word (f.addr i x) = s.word (f.addr i x)) : t.rdAt f i x = s.rdAt f i x := by
  unfold rdAt
  rw [h]

theorem rd_logAdd {p k i c x y z : Nat} {f : Field} {j : Nat} (h : f.addr j 0 ≠ Fd.LOG_LOST.addr 0 0) :
    (s.logAdd p k i c x y z).rd f j = s.rd f j := rdAt_congr (word_logAdd h)

theorem logAdd_out {p k i c x y z : Nat} : (s.logAdd p k i c x y z).out = s.out := by
  unfold logAdd
  extract_lets e kept t mirror
  have ht : t.out = s.out := by
    unfold t
    split <;> rfl
  clear_value t
  split
  · exact ht
  · split
    · rfl
    · exact ht

/-- An error bit is a write of its word; beside it only the log can change. -/
theorem word_setErr {f : Field} {i a : Nat} (h : a ≠ Fd.LOG_LOST.addr 0 0) : (s.setErr f i).word a = (s.wr f 1 i).word a := by
  unfold setErr watchErr
  extract_lets t
  split
  · exact word_logAdd h
  · rfl

theorem rd_setErr {f g : Field} {i j : Nat} (h : g.addr j 0 ≠ Fd.LOG_LOST.addr 0 0) : (s.setErr f i).rd g j = (s.wr f 1 i).rd g j :=
  rdAt_congr (word_setErr h)

theorem setErr_out {f : Field} {i : Nat} : (s.setErr f i).out = s.out := by
  unfold setErr watchErr
  extract_lets t
  split
  · exact logAdd_out
  · rfl

theorem word_setErrLog {f : Field} {i x y a : Nat} (h : a ≠ Fd.LOG_LOST.addr 0 0) :
    (s.setErrLog f i x y).word a = (s.wr f 1 i).word a := by
  unfold setErrLog
  extract_lets t
  rw [word_logAdd h]
  exact word_setErr h

theorem rd_setErrLog {f g : Field} {i j x y : Nat} (h : g.addr j 0 ≠ Fd.LOG_LOST.addr 0 0) :
    (s.setErrLog f i x y).rd g j = (s.wr f 1 i).rd g j := rdAt_congr (word_setErrLog h)

theorem setErrLog_out {f : Field} {i x y : Nat} : (s.setErrLog f i x y).out = s.out := by
  unfold setErrLog
  extract_lets t
  rw [logAdd_out]
  exact setErr_out

/-- A dropped write sets BadWrite in its page (R35). -/
theorem rd_badWrite {k : PageKind} {i : Nat} {g : Field} {j : Nat} (h : g.addr j 0 ≠ Fd.LOG_LOST.addr 0 0) :
    (s.badWrite k i).rd g j = (s.wr (Fd.PAGE_ERR_BadWrite k) 1 i).rd g j := rd_setErr h

theorem badWrite_out {k : PageKind} {i : Nat} : (s.badWrite k i).out = s.out := setErr_out

/-! Event counters (R435) change no register but EVT_OVF. -/

theorem foldl_word {α : Type} {f : State → α → State} {xs : List α} {a : Nat} (h : ∀ t x, (f t x).word a = t.word a) :
    (xs.foldl f s).word a = s.word a := by
  induction xs generalizing s with
  | nil => rfl
  | cons x xs ih => rw [List.foldl_cons, ih, h]

theorem foldl_out {α : Type} {f : State → α → State} {xs : List α} (h : ∀ t x, (f t x).out = t.out) : (xs.foldl f s).out = s.out := by
  induction xs generalizing s with
  | nil => rfl
  | cons x xs ih => rw [List.foldl_cons, ih, h]

theorem word_ite {c : Prop} [Decidable c] {t u : State} {a : Nat} {w : Word} (h : t.word a = w) (k : u.word a = w) :
    (if c then t else u).word a = w := by split <;> assumption

theorem out_ite {c : Prop} [Decidable c] {t u : State} {x : List Out} (h : t.out = x) (k : u.out = x) :
    (if c then t else u).out = x := by split <;> assumption

theorem evtBump_word {p c n a : Nat} (h : a ≠ if p = 16 then Fd.EVT_OVF_dev.addr 0 0 else Fd.EVT_OVF_ben.addr p 0) :
    (s.evtBump p c n).word a = s.word a := by
  unfold evtBump
  extract_lets old new t
  have e : t.word a = s.word a := rfl
  clear_value t
  split
  · exact e
  · split
    · rename_i hp
      rw [if_pos hp] at h
      rw [word_wr_ne h, e]
    · rename_i hp
      rw [if_neg hp] at h
      rw [word_wr_ne h, e]

theorem evtCount_word {p c n a : Nat} (h : a ≠ if p = 16 then Fd.EVT_OVF_dev.addr 0 0 else Fd.EVT_OVF_ben.addr p 0) :
    (s.evtCount p c n).word a = s.word a := by
  unfold evtCount
  split
  · rfl
  · refine foldl_word fun t x => ?_
    exact word_ite (evtBump_word h) rfl

theorem evtDev_word {c n a : Nat} (h : a ≠ Fd.EVT_OVF_dev.addr 0 0) : (s.evtDev c n).word a = s.word a := evtCount_word h

theorem evtBump_out {p c n : Nat} : (s.evtBump p c n).out = s.out := by
  unfold evtBump
  extract_lets old new t
  have e : t.out = s.out := rfl
  clear_value t
  split
  · exact e
  · split <;> exact e

theorem evtCount_out {p c n : Nat} : (s.evtCount p c n).out = s.out := by
  unfold evtCount
  split
  · rfl
  · refine foldl_out fun t x => ?_
    exact out_ite evtBump_out rfl

theorem evtDev_out {c n : Nat} : (s.evtDev c n).out = s.out := evtCount_out

/-! The common gate of register writes (R399, R466). -/

theorem gated_open {k : PageKind} {i : Nat} {f : State → State} (h : s.hostUp = true) (w : s.writesShut = false) : s.gated k i f = f s := by
  simp [gated, h, w]

theorem gated_down {k : PageKind} {i : Nat} {f : State → State} (h : s.hostUp = false) : s.gated k i f = s := by simp [gated, h]

theorem gated_shut {k : PageKind} {i : Nat} {f : State → State} (h : s.hostUp = true) (w : s.writesShut = true) :
    s.gated k i f = s.badWrite k i := by simp [gated, h, w]

/-! Memories (R19, R20): a write gives the bytes written and leaves every other byte. -/

theorem putBytesAt_get {m : List Host.Cell} {a b : Nat} {bs : List Byte} :
    sparseGet zeroByte (putBytesAt m a bs) b = if a ≤ b ∧ b < a + bs.length then bs.getD (b - a) 0 else sparseGet zeroByte m b := by
  induction bs generalizing m a with
  | nil =>
    rw [if_neg (by simp only [List.length_nil]; omega)]
    rfl
  | cons x xs ih =>
    rw [putBytesAt, ih, sparseGet_set, List.length_cons]
    by_cases h : b = a
    · subst h
      rw [if_neg (by omega), if_pos rfl, if_pos (by omega)]
      simp
    · by_cases h2 : a + 1 ≤ b ∧ b < a + 1 + xs.length
      · rw [if_pos h2, if_pos (by omega), show b - a = (b - (a + 1)) + 1 by omega]
        rfl
      · rw [if_neg h2, if_neg h, if_neg (by omega)]

theorem putBytesAt_wf {m : List Host.Cell} {a : Nat} {bs : List Byte} (h : Memory.wf m = true) : Memory.wf (putBytesAt m a bs) = true := by
  induction bs generalizing m a with
  | nil => exact h
  | cons x xs ih => exact ih (sparseSet_wf h)

/-- Every operation over a memory keeps its canonical form. -/
theorem spadPut_wf {a : Nat} {bs : List Byte} (h : Memory.wf s.spad = true) : Memory.wf (s.spadPut a bs).spad = true := putBytesAt_wf h
theorem lpPut_wf {a : Nat} {bs : List Byte} (h : Memory.wf s.lpddr = true) : Memory.wf (s.lpPut a bs).lpddr = true := putBytesAt_wf h
theorem hostPut_wf {a : Nat} {bs : List Byte} (h : Memory.wf s.host = true) : Memory.wf (s.hostPut a bs).host = true := putBytesAt_wf h
theorem zeroSpad_wf {a n : Nat} (h : Memory.wf s.spad = true) : Memory.wf (s.zeroSpad a n).spad = true := sparseClear_wf h
theorem zeroLp_wf {a n : Nat} (h : Memory.wf s.lpddr = true) : Memory.wf (s.zeroLp a n).lpddr = true := by
  unfold State.zeroLp
  dsimp only
  split
  · exact sparseWf_filter _ h
  · exact sparseClear_wf h

end State

end Sys2Proof.Machine
end

