-- ==== Sys2Proof/Laws/RegMap.lean ====
section
/-! SUPPORT. The register map: where a page lies, and that the table of reset words restates the Reset column (02 R32, R33, R51). -/
namespace Sys2Proof.Machine
open Sys2Proof

set_option Elab.async false

theorem findSome_unique {α β : Type} {f : α → Option β} {l : List α} {x : α} {v : β} (hx : x ∈ l) (hv : f x = some v)
    (h : ∀ y ∈ l, y ≠ x → f y = none) : l.findSome? f = some v := by
  induction l with
  | nil => exact nomatch hx
  | cons y ys ih =>
    by_cases e : y = x
    · rw [List.findSome?_cons, e, hv]
    · rw [List.findSome?_cons, h y List.mem_cons_self e]
      exact ih ((List.mem_cons.1 hx).resolve_left fun k => e k.symm) fun z hz => h z (List.mem_cons_of_mem _ hz)

theorem pages_apart (k k' : PageKind) (h : k' ≠ k) :
    k.base + 0x1000 * k.count ≤ k'.base ∨ k'.base + 0x1000 * k'.count ≤ k.base := by
  revert h
  cases k <;> cases k' <;> decide

theorem pageOf_at {k : PageKind} {i o : Nat} (hi : i < k.count) (ho : o < 0x1000) : pageOf (k.base + 0x1000 * i + o) = some (k, i) := by
  refine findSome_unique (x := k) (by cases k <;> decide) ?_ fun k' _ hk => if_neg ?_
  · rw [if_pos (by omega)]
    congr 2
    omega
  · have := pages_apart k k' hk
    omega

/-- The word at a page offset of an existing page. -/
theorem resetWord_at {k : PageKind} {i o : Nat} (hi : i < k.count) (ho : o < 0x800) :
    resetWord (k.base + 0x1000 * i + o) = BitVec.ofNat 32 (resetLive k i o) := by
  unfold resetWord
  rw [pageOf_at hi (by omega)]
  have hb : k.base % 0x1000 = 0 := by cases k <;> rfl
  have h : (k.base + 0x1000 * i + o) % 0x1000 = o := by omega
  simp only [h, if_pos ho]

/-- The check of one copy of one field, in the first page (`n` 0) or another (`n` 1). -/
def resetOk (k : PageKind) (f : Field) (x n : Nat) : Bool :=
  f.page == k && decide (f.off + f.stride * x < 0x800) &&
    (f.off == 0 || (k.onlyFirst f.off && n != 0) ||
      (k.onlyFirst f.off == k.onlyFirst (f.off + f.stride * x) &&
        slice (BitVec.ofNat 32 (resetLive k n (f.off + f.stride * x))).toNat f.lsb f.width == f.reset))

def resetAllOk (k : PageKind) : Bool :=
  k.fields.all fun f => (List.range (Nat.max 1 f.count)).all fun x => resetOk k f x 0 && (k.count == 1 || resetOk k f x 1)

theorem resetAllOk_all : ∀ k ∈ PageKind.all, resetAllOk k = true := by decide +kernel
theorem resetLive_inst {k : PageKind} {i o : Nat} (ho : o ≠ 0) : resetLive k i o = resetLive k (if i = 0 then 0 else 1) o := by
  unfold resetLive
  by_cases hi : i = 0
  · rw [hi, if_pos rfl]
  · have e : (i != 0) = true := bne_iff_ne.2 hi
    rw [if_neg hi, if_neg ho, if_neg ho, e]
    rfl

/-- The reset word of every field holds its Reset column. -/
theorem resetWord_fields {k : PageKind} {f : Field} {i x : Nat} (hf : f ∈ k.fields) (hi : i < k.count) (hx : x < Nat.max 1 f.count)
    (h1 : k.onlyFirst f.off = true → i = 0) (h0 : f.off ≠ 0) : slice (resetWord (f.addr i x)).toNat f.lsb f.width = f.reset := by
  have h := resetAllOk_all k (by cases k <;> decide)
  unfold resetAllOk at h
  rw [List.all_eq_true] at h
  have h := h f hf
  rw [List.all_eq_true] at h
  have h := h x (List.mem_range.2 hx)
  have hn : ∀ n, resetOk k f x n = true → (k.onlyFirst f.off = true → n = 0) →
      f.page = k ∧ f.off + f.stride * x < 0x800 ∧
        slice (BitVec.ofNat 32 (resetLive k n (f.off + f.stride * x))).toNat f.lsb f.width = f.reset := by
    intro n hk hfirst
    unfold resetOk at hk
    simp only [Bool.and_eq_true, Bool.or_eq_true, beq_iff_eq, bne_iff_ne, decide_eq_true_eq] at hk
    refine ⟨hk.1.1, hk.1.2, ?_⟩
    rcases hk.2 with (e | e) | e
    · exact absurd e h0
    · exact absurd (hfirst e.1) e.2
    · exact e.2
  rw [Bool.and_eq_true] at h
  have key : f.page = k ∧ f.off + f.stride * x < 0x800 ∧
      slice (BitVec.ofNat 32 (resetLive k (if i = 0 then 0 else 1) (f.off + f.stride * x))).toNat f.lsb f.width = f.reset := by
    by_cases e : i = 0
    · rw [if_pos e]
      exact hn 0 h.1 fun _ => rfl
    · rw [if_neg e]
      refine hn 1 ?_ fun k1 => absurd (h1 k1) e
      rcases Bool.or_eq_true .. ▸ h.2 with c | c
      · have := of_decide_eq_true (p := k.count = 1) c
        omega
      · exact c
  obtain ⟨hp, ho, hv⟩ := key
  unfold Field.addr
  rw [hp, Nat.add_assoc, resetWord_at hi ho, resetLive_inst (by omega)]
  exact hv

end Sys2Proof.Machine
end

