-- ==== Sys2Proof/Tests/Slice0.lean ====
section
/-! SUPPORT. Tests: what the check of operands refuses; for every statement with hypotheses, a state and operands that meet them, clause
by clause; one step each on small states, with the result read from the spec. -/
namespace Sys2Proof.Tests
open Sys2Proof Sys2Proof.Machine

set_option Elab.async false
set_option maxRecDepth 20000

/-! States. -/

/-- Past start-up, nothing else done. -/
def on : State := { pow := { perst := false, row := 9 } }

/-- The host has set Bus Master Enable. -/
def mastered : State := { on with pow := { on.pow with busMaster := true } }

/-- Start-up row `n` in progress. -/
def row (n : Nat) : State := { pow := { perst := false, row := n } }

/-- In fail-stop. -/
def dead : State := on.wr Fd.CTL_POWER_STATUS_FailStopped 1

/-- The parison in a state. -/
def parisonAt (n : Nat) : State := on.wr Fd.CTL_COMMIT_STATUS_State n

/-- A follower of the sync pulse. -/
def follower : State := on.wr Fd.CNT_CTL_Role 2

/-- An operation descriptor of a kind. -/
def desc (kind : Nat) : Desc :=
  { kind, format := 0, lag := 0, lagUnit := 0, flags := 0, cycFixed := 0, granule := 1, workPerStream := 0, energyFixed := 0,
    energyPerStream := 0, regions := List.replicate 8 0xFF, rings := List.replicate 4 0xFF, body := List.replicate 48 0 }

/-- Image 1, with one operation. -/
def image1 (kind : Nat) : Image :=
  { id := 1, addr := 0, len := 0, header := [], layout := [], descs := [desc kind], programs := [], progRing := [], walks := [], rings := [],
    streamSlots := 1, maxBatch := 1, target := 0, cls := 0, maxLag := 0 }

/-- A RUNNING stream of image 1 in entry 5. -/
def stream5 : Stream := { entry := 5, raw := List.replicate 256 0, state := 2, image := 1, slot := 0 }

/-- Image 1 loaded. -/
def loaded : State := { on with gaf := { images := [image1 2] } }

/-- Image 1 loaded, entry 5 RUNNING. -/
def streaming : State := { on with gaf := { images := [image1 2], streams := [(5, stream5)] } }

/-- An operation of a kind runs. -/
def running (kind pass : Nat) : State :=
  { on with gaf := { images := [image1 kind], running := some { image := 1, desc := 0, pass, parts := [], work := 0, issued := 0, mask := 0 } } }

/-- 1 GiB of LPDDR. -/
def memory : State := on.wr Fd.CTL_CAP_MEM_LpddrGiB 1

/-- Every presence-gated command may run. -/
def present : State := on.wr Fd.SEC_PRESENCE_Open 1

/-- A security command runs. -/
def busy (op : Nat) : State := { on.wr Fd.SEC_CMD_STATUS_Busy 1 with sec := { cmd := op } }

/-- Port 31 of a chip with a valid number, in a state, with a handshake stage. -/
def link (state stage : Nat) : State :=
  let s := ((on.wr Fd.LNK_STATUS_State state 31).wr Fd.LNK_CHIP_IdValid 1).wr Fd.LNK_CHIP_ChipId 5
  s.setPort 31 fun l => { l with stage, keys := some {} }

/-- An audio port 15 in a mode and a state, with its input on. -/
def audio (mode state : Nat) : State :=
  ((on.wr Fd.APT_MODE_Mode mode 15).wr Fd.APT_STATUS_State state 15).wr Fd.APT_MODE_InEn 1 15

/-- A message for chip 5. -/
def msg (op : Nat) : Msg :=
  { op, vc := 0, poison := false, skip := false, hops := 1, code := 0, dest := 5, src := 2, tag := 0, addr := 0, returnOld := false, data := [] }

/-- Where a command leads. -/
def after (c : Instr) (s : State) : State :=
  match exec c s with
  | .next t => t
  | _ => s

/-- An open collective round. -/
def round1 : Round := { image := 1, desc := 0, collId := 3, entry := 5, chunk := 0, limit := 0, got := [] }

/-- A transfer in flight. -/
def flight1 : Flight := { id := 9, bench := 0, owner := .builtIn 0, x := { src := 0, dst := 0 }, issued := 0 }

/-- A region of the scratchpad of image 1. -/
def region1 (cls : Nat) : Region :=
  { image := 1, entry := 0, level := 0, cls, circular := false, versioned := false, perStream := false, units := 256, slotBytes := 256,
    sparse := 0, srcOff := 0, srcLen := 0, row := 0, rows := 1, len := 256, desc := 0 }

/-! Operands that no command carries. -/

theorem test_wf_registerWrite : (Instr.registerWrite 0x100 4 1).wf = true ∧ (Instr.registerWrite 0xFFFFFE 4 1).wf = false ∧
    (Instr.registerWrite 0x100 9 1).wf = false ∧ (Instr.registerWrite 0x100 2 0x10000).wf = false := by decide +kernel

theorem test_wf_shadowWrite : (Instr.shadowWrite 0x900 1).wf = true ∧ (Instr.shadowWrite 0xFFFFFE 1).wf = false ∧
    (Instr.shadowWrite 0x902 1).wf = false ∧ (Instr.shadowWrite 0x100 1).wf = false ∧ (Instr.shadowWrite 0x900 (2 ^ 32)).wf = false := by
  decide +kernel

theorem test_wf_parison : (Instr.stageRevert 0x1000).wf = false ∧ (Instr.apply 2).wf = false ∧ (Instr.stageRevert 0xFFF).wf = true := by
  decide +kernel

theorem test_wf_bar2 : (Instr.bar2StreamWrite 0x1FFFFF [0, 0]).wf = false ∧ (Instr.bar2StreamWrite 0 []).wf = false ∧
    (Instr.bar2ApertureAccess 0xFFFFFF 1 none).wf = false ∧ (Instr.bar2ApertureAccess 0x1000000 2 (some [0])).wf = false ∧
    (Instr.bar2DebugAccess 0xFFFFFFF 2 none).wf = false ∧ (Instr.bar2DebugAccess 0xF000000 2 (some [0])).wf = false ∧
    (Instr.bar2DebugAccess 0xF000000 2 (some [0, 0])).wf = true := by decide +kernel

theorem test_wf_codebookWrite : (Instr.codebookWrite 128 0).wf = false ∧ (Instr.codebookWrite 127 (2 ^ 32)).wf = false := by decide +kernel

theorem test_wf_barriers : (Instr.matrix ⟨[2 ^ 33], [], []⟩).wf = false ∧ (Instr.gate ⟨[], [2 ^ 33], []⟩).wf = false ∧
    (Instr.kvRingRotation ⟨[], [], [2 ^ 33]⟩).wf = false ∧ (Instr.weightReissue ⟨[0], [0], [0]⟩).wf = true := by decide +kernel

theorem test_wf_numbers : (Instr.sweepClose 256).wf = false ∧ (Instr.sourceTimeout 4096).wf = false ∧ (Instr.benchPowerGood 16).wf = false ∧
    (Instr.outputTake 4096 0 0).wf = false ∧ (Instr.scrubHold (2 ^ 32)).wf = false ∧ (Instr.roundTimeout 256 0 0 0).wf = false ∧
    (Instr.roundTimeout 0 0 4096 0).wf = false := by decide +kernel

theorem test_wf_windowOpen : (Instr.windowOpen ⟨[], List.replicate 4 [none, none], List.replicate 4 none, 0⟩).wf = false ∧
    (Instr.windowOpen ⟨List.replicate 16 [none], List.replicate 4 [none, none], List.replicate 4 none, 0⟩).wf = false := by decide +kernel

theorem test_wf_scratchpad : (Instr.scratchpadAtomic 16 0 0 (List.replicate 32 0) false).wf = false ∧
    (Instr.scratchpadAtomic 0 (2 ^ 33) 0 (List.replicate 32 0) false).wf = false ∧
    (Instr.scratchpadAtomic 0 0 16 (List.replicate 32 0) false).wf = false ∧
    (Instr.scratchpadAtomic 0 0 0 (List.replicate 12 0) false).wf = false ∧ (Instr.scratchpadAtomic 0 0 0 [] false).wf = false ∧
    (Instr.scratchpadPatrol 512 [] []).wf = false ∧ (Instr.scratchpadPatrol 0 [2 ^ 33] []).wf = false ∧
    (Instr.scratchpadPatrol 0 [] [2 ^ 33]).wf = false := by decide +kernel

theorem test_wf_memory : (Instr.lpddrAccess (.gather 16) 0 32 none goodMem).wf = false ∧
    (Instr.lpddrAccess (.gaffer (some 4096)) 0 32 none goodMem).wf = false ∧
    (Instr.lpddrAccess (.link 32) 0 32 none goodMem).wf = false ∧ (Instr.lpddrAccess .mp 0 0 none goodMem).wf = false ∧
    (Instr.lpddrAccess .mp 0 2 (some [0]) goodMem).wf = false ∧
    (Instr.lpddrAccess .mp 0 2 none { goodMem with retries := 256 }).wf = false ∧
    (Instr.lpddrAtomic .mp 1 0 (List.replicate 32 0) false goodMem).wf = false ∧
    (Instr.lpddrAtomic .mp 0 16 (List.replicate 32 0) false goodMem).wf = false ∧
    (Instr.lpddrAtomic .mp 0 0 [] false goodMem).wf = false ∧ (Instr.lpddrPatrol 16 [] [] []).wf = false ∧
    (Instr.xmcEnableWrite 16 0).wf = false ∧ (Instr.xmcEnableWrite 0 (2 ^ 32)).wf = false ∧ (Instr.marginDone 16 0 0 false).wf = false ∧
    (Instr.marginDone 0 256 0 false).wf = false ∧ (Instr.marginDone 0 0 256 false).wf = false := by decide +kernel

theorem test_wf_messages : (msg 0).wf = true ∧ ({ msg 0 with op := 16 } : Msg).wf = false ∧ ({ msg 0 with vc := 4 } : Msg).wf = false ∧
    ({ msg 0 with hops := 32 } : Msg).wf = false ∧ ({ msg 0 with code := 16 } : Msg).wf = false ∧
    ({ msg 0 with dest := 1024 } : Msg).wf = false ∧ ({ msg 0 with src := 1024 } : Msg).wf = false ∧
    ({ msg 0 with tag := 2 ^ 16 } : Msg).wf = false ∧ ({ msg 0 with addr := 2 ^ 48 } : Msg).wf = false ∧
    (msg 1).wf = false ∧ (Instr.readResponse 32 { msg 1 with skip := true }).wf = false ∧
    (Instr.readRequest 32 (msg 0) goodMem).wf = false := by decide +kernel

theorem test_wf_links : (Instr.frameReceive 32 [List.replicate 544 0] []).wf = false ∧ (Instr.frameReceive 0 [] []).wf = false ∧
    (Instr.hello 32 ⟨List.replicate 32 0, 0, true, [], []⟩).wf = false ∧ (Instr.hello 0 ⟨List.replicate 32 0, 1024, true, [], []⟩).wf = false ∧
    (Instr.hello 0 ⟨[], 0, true, [], []⟩).wf = false ∧ (Instr.retrain 32).wf = false ∧ (Instr.linkTrainComplete 32 ⟨true, 0, 0⟩).wf = false ∧
    (Instr.linkTrainComplete 0 ⟨true, 4, 0⟩).wf = false ∧ (Instr.linkTrainComplete 0 ⟨true, 0, 8⟩).wf = false ∧
    (Instr.laneFail 32 0).wf = false ∧ (Instr.laneFail 0 2).wf = false ∧ (Instr.lnkPortEnableWrite 32 0).wf = false ∧
    (Instr.lnkPortEnableWrite 0 (2 ^ 32)).wf = false := by
  decide +kernel

theorem test_wf_packets : (Instr.pktFrameReceive 8 ⟨0, none, true, 64, .other, true⟩).wf = false ∧
    (Instr.pktFrameReceive 0 ⟨2 ^ 48, none, true, 64, .other, true⟩).wf = false ∧
    (Instr.pktFrameReceive 0 ⟨0, some (2 ^ 16), true, 64, .other, true⟩).wf = false ∧ (Instr.packetPortUp 8).wf = false := by decide +kernel

theorem test_wf_audio : (Instr.inputBlockLand 16 [] 0 0).wf = false ∧ (Instr.lockLoss 0 [List.replicate 65 0] 0 0).wf = false ∧
    (Instr.iecBlockReceive 16 (List.replicate 384 false) (List.replicate 384 false)).wf = false ∧
    (Instr.iecBlockReceive 0 [] (List.replicate 384 false)).wf = false ∧ (Instr.iecBlockReceive 0 (List.replicate 384 false) []).wf = false ∧
    (Instr.aptStart 16).wf = false ∧ (Instr.steerUpdate 4 []).wf = false ∧ (Instr.steerUpdate 0 [(16, 0, 0)]).wf = false := by decide +kernel

theorem test_wf_host : (Instr.jobKill (2 ^ 32)).wf = false ∧ (Instr.clockFault (some 16)).wf = false ∧ (Instr.consWrite 18 0).wf = false ∧
    (Instr.consWrite 0 (2 ^ 32)).wf = false ∧ (Instr.logRdSeqWrite (2 ^ 32)).wf = false ∧ (Instr.evtCntLoRead 17 0x200 4).wf = false ∧
    (Instr.evtCntLoRead 15 0x200 9).wf = false ∧ (Instr.cntNowRead 0xFFC 8).wf = false ∧ (Instr.cntNowRead 0x100 0).wf = false ∧
    (Instr.scrubComplete 256 0).wf = false ∧ (Instr.smbusReadByte 256).wf = false := by decide +kernel

theorem test_wf_boot : (Instr.bootFuses true (2 ^ 16)).wf = false ∧ (Instr.bootFwVerify [0]).wf = false ∧ (Instr.bootFwVerify [0, 16]).wf = false ∧
    (Instr.memTrain []).wf = false ∧ (Instr.memTrain (List.replicate 16 ⟨3, 0, 0, []⟩)).wf = false ∧
    (Instr.memTrain (List.replicate 16 ⟨0, 2 ^ 16, 0, []⟩)).wf = false ∧ (Instr.memTrain (List.replicate 16 ⟨0, 0, 256, []⟩)).wf = false ∧
    (Instr.linkTrain []).wf = false ∧ (Instr.linkTrain (List.replicate 32 ⟨true, 4, 0⟩)).wf = false ∧
    (Instr.linkTrain (List.replicate 32 ⟨true, 0, 8⟩)).wf = false := by decide +kernel

/-! Witnesses: each theorem shows states and operands that meet the hypotheses of a statement, one conjunct for each clause. -/

theorem witness_EmptyQueueTicks : (State.reset.pending = [] ∧ State.reset.started = false) ∧
    (on.pending = [] ∧ on.started = true ∧ on.rd Fd.CNT_CTL_Role ≠ 2 ∧ on.pow.readyIn = 0 ∧ on.lnk.owedDown = []) ∧
    (let s (n : Nat) : State := { on with pow := { on.pow with readyIn := n } }
     (s 1).started = true ∧ (s 1).pow.readyIn = 1 ∧ (s 1).lnk.owedDown = [] ∧ (s 2).started = true ∧ 1 < (s 2).pow.readyIn) := by decide +kernel

theorem witness_ResetRegisters : (Fd.CTL_RING_ConsHi ∈ PageKind.ctl.fields ∧ 0 < PageKind.ctl.count ∧ 15 < Nat.max 1 Fd.CTL_RING_ConsHi.count ∧
    PageKind.ctl.onlyFirst Fd.CTL_RING_ConsHi.off = false ∧ Fd.CTL_RING_ConsHi.off ≠ 0) ∧
    (Fd.LNK_STATUS_State ∈ PageKind.lnk.fields ∧ 31 < PageKind.lnk.count ∧ 0 < Nat.max 1 Fd.LNK_STATUS_State.count ∧
      PageKind.lnk.onlyFirst Fd.LNK_STATUS_State.off = false ∧ Fd.LNK_STATUS_State.off ≠ 0) := by decide +kernel

theorem witness_StepKeepsInvariant : ({ on with pending := [.evtClear] } : State).canonical = true ∧
    ({ on with pending := [.evtClear] } : State).unitsWhole = true ∧ Outcome.runs (step { on with pending := [.evtClear] }) = true := by decide +kernel

theorem witness_QueueIsFifo : Outcome.runs (step { on with pending := [.evtClear, .check] }) = true := by decide +kernel

theorem witness_CommandsAnswer : Instr.railFault .coreLow ≠ .railFault .coreExcursion := by decide +kernel

theorem witness_CommandFrames : Outcome.runs (exec .mpStart (row 3)) = true ∧ Component.tally ∉ mayChange .mpStart := by decide +kernel

theorem witness_CounterStepReturnsParison :
    ((parisonAt 3).hostWrites = true ∧ (parisonAt 3).counterIdle = true ∧ (parisonAt 3).rd Fd.CNT_CTL_Role ≠ 2 ∧
      (parisonAt 3).rd Fd.CTL_COMMIT_STATUS_State = 3 ∧ (parisonAt 3).par.whenBit = 0) ∧
    ((parisonAt 2).hostWrites = true ∧ (parisonAt 2).counterIdle = true ∧ (parisonAt 2).rd Fd.CNT_CTL_Role ≠ 2 ∧
      (parisonAt 2).rd Fd.CTL_COMMIT_STATUS_State ≠ 3) := by decide +kernel

theorem witness_CounterAlignArms : (follower.hostWrites = true ∧ follower.counterIdle = true ∧ follower.rd Fd.CNT_CTL_Role = 2) ∧
    (on.hostWrites = true ∧ on.rd Fd.CNT_CTL_Role ≠ 2) ∧
    (on.wr Fd.GAF_PAGE_CTL_Enable 1).hostWrites = true ∧ (on.wr Fd.GAF_PAGE_CTL_Enable 1).counterIdle = false := by decide +kernel

theorem witness_SyncPulseLocks : (follower.started = true ∧ follower.rd Fd.CNT_CTL_Role = 2 ∧ follower.rd Fd.CNT_STATUS_AlignArmed = 0) ∧
    (follower.wr Fd.CNT_STATUS_SyncState 1).rd Fd.CNT_STATUS_SyncState = 1 ∧
    (follower.wr Fd.CNT_STATUS_SyncState 2).rd Fd.CNT_STATUS_SyncState = 2 ∧
    (follower.wr Fd.CNT_STATUS_SyncState 2).started = true ∧ (follower.wr Fd.CNT_STATUS_SyncState 2).rd Fd.CNT_CTL_Role = 2 ∧
    (follower.wr Fd.CNT_STATUS_SyncState 2).rd Fd.CNT_STATUS_AlignArmed = 0 := by decide +kernel

theorem witness_SyncLossEntersHoldover : (follower.wr Fd.CNT_STATUS_SyncState 2).rd Fd.CNT_CTL_Role = 2 ∧
    (follower.wr Fd.CNT_STATUS_SyncState 2).rd Fd.CNT_STATUS_SyncState = 2 := by decide +kernel

theorem witness_CounterReadLatches : on.hostUp = true ∧ (0 < 1 ∧ 3 + 1 ≤ 4) ∧ (0 < 4 ∧ 0 + 4 ≤ 4) := by decide +kernel

theorem witness_PresenceWindow : (on.pow.powered = true ∧ on.sec.armed = true ∧ on.rd Fd.SEC_PRESENCE_Open = 0) ∧
    (present.rd Fd.SEC_PRESENCE_Open = 1 ∧ present.hostWrites = true) := by decide +kernel

theorem witness_SecurityCommandsStart :
    (on.hostWrites = true ∧ on.rd Fd.SEC_CMD_STATUS_Busy = 0 ∧ on.rd Fd.SEC_PRESENCE_Open = 0) ∧
    (present.hostWrites = true ∧ present.rd Fd.SEC_CMD_STATUS_Busy = 0 ∧ present.rd Fd.SEC_PRESENCE_Open = 1) ∧
    ((busy 1).hostWrites = true ∧ (busy 1).rd Fd.SEC_CMD_STATUS_Busy = 1) ∧
    ((Instr.debugUnlock, 3) ∈ [(Instr.install, 1), (.rotate, 2), (.debugUnlock, 3), (.debugLock, 4), (.attest, 5), (.getIdentity, 6), (.extendM7, 7)]) := by
  decide +kernel

theorem witness_SecurityCommandsEnd :
    ((busy 3).rd Fd.SEC_CMD_STATUS_Busy = 1 ∧ (busy 3).sec.cmdWaits = false ∧ (busy 3).sec.cmd = 3 ∧ (busy 4).sec.cmd = 4) ∧
    (let s := { memory.wr Fd.SEC_CMD_STATUS_Busy 1 with sec := { cmd := 7 } }.wr Fd.SEC_CMD_ADDR_HI (State.lpBase / 2 ^ 32)
     s.rd Fd.SEC_CMD_STATUS_Busy = 1 ∧ s.sec.cmdWaits = false ∧ s.sec.cmd = 7 ∧ s.secRange 32 = true ∧ s.sec.measures.length = 8) := by
  decide +kernel

theorem witness_SealLoopOpens :
    (on.pow.powered = true ∧ (false == bitAt on.tly.lfsr 0) = false ∧ (true == bitAt on.tly.lfsr 0) = true ∧ on.tly.closed = false) ∧
    ({ on with tly := { missRun := 1, closed := true } } : State).tly.missRun = 1 ∧
    ({ on with tly := { matchRun := 7 } } : State).tly.matchRun = 7 := by decide +kernel

theorem witness_MeasurementExtends : on.sec.measures.length = 8 ∧ 7 < 8 := by decide +kernel

theorem witness_TallyIntervalCloses : on.pow.powered = true ∧ on.tly.carry = [] ∧ on.tly.events = [] := by decide +kernel

/-- An event before End, at the tick 5. -/
theorem witness_TallyIntervalCloses_earlier :
    let s : State := { on with tly := { on.tly with mark := 5, events := [.arm 3] } }
    s.pow.powered = true ∧ s.tly.carry = [] ∧ s.tly.mark < s.begin_.tallyEnd := by decide +kernel

theorem witness_TallyRecordCopied :
    let s : State := { mastered.wr Fd.SEC_TRING_CFG_Enable 1 with tly := { queue := [List.replicate 8 1] } }
    s.tly.queue = List.replicate 8 1 :: [] ∧ s.rd Fd.SEC_TRING_CFG_Enable = 1 ∧ s.pow.busMaster = true ∧ s.failStopped = false ∧ s.hostUp = true ∧
      s.tallyRing.padFor (2 ^ s.rd Fd.SEC_TRING_CFG_SizeLog2) 8 + 8 ≤ s.tallyRing.room (2 ^ s.rd Fd.SEC_TRING_CFG_SizeLog2) := by decide +kernel

theorem witness_StartUpRowsAdvance :
    (State.reset.pow.powered = true ∧ State.reset.pow.perst = true ∧ State.reset.pow.row = 1) ∧
    ((row 2).atRow 2 = true ∧ (row 2).sec.fallBack = false ∧ (row 2).sec.pending = none ∧ (row 2).fwCode (row 2).sec.active ([0, 0].getD 0 2) = 0) ∧
    (row 3).atRow 3 = true ∧ (row 4).atRow 4 = true ∧
    ((row 5).atRow 5 = true ∧
      128 - ((List.range 16).foldl (fun s i => s.trainSite i ((List.replicate 16 ⟨1, 9600, 0, []⟩).getD i ⟨0, 0, 255, []⟩)) (row 5).begin_).inService ≤ 32) ∧
    (row 6).atRow 6 = true ∧ (row 7).atRow 7 = true := by decide +kernel

theorem witness_StartUpStops : (State.reset.pow.powered = true ∧ State.reset.pow.perst = true ∧ State.reset.pow.row = 1) ∧
    (row 4).atRow 4 = true := by decide +kernel

theorem witness_DeviceReadyIsSet : (row 8).atRow 8 = true := by decide +kernel

theorem witness_SidebandAnswers : on.started = true ∧ 7 ≤ 0xFF ∧
    (on.wr (Fd.PAGE_STATUS_Ready .ctl) 1).rd (Fd.PAGE_STATUS_Ready .ctl) = 1 ∧ (on.wr (Fd.PAGE_STATUS_Ready .ctl) 1).started = true := by decide +kernel

theorem witness_FlashWriteEnds : ({ on with sec := { blockWait := some 1, cmdWaits := true } } : State).sec.blockWait = some 1 ∧
    ({ on with sec := { blockWait := some 1, cmdWaits := true } } : State).sec.cmdWaits = true := by decide +kernel

theorem witness_PowerStatesFollow :
    (on.hostWrites = true ∧ on.rd Fd.CTL_POWER_STATUS_State = 0 ∧ on.mayDormant = true ∧ 1 % 2 ^ 32 = 1) ∧
    (streaming.hostWrites = true ∧ streaming.rd Fd.CTL_POWER_STATUS_State = 0 ∧ streaming.mayDormant = false) ∧
    ((on.wr Fd.CTL_POWER_STATUS_State 2).hostWrites = true ∧ (on.wr Fd.CTL_POWER_STATUS_State 2).rd Fd.CTL_POWER_STATUS_State = 2) ∧
    ((on.wr Fd.CTL_POWER_STATUS_State 1).rd Fd.CTL_POWER_STATUS_State = 1) ∧ ((on.wr Fd.CTL_POWER_STATUS_State 3).rd Fd.CTL_POWER_STATUS_State = 3) ∧
    ((on.wr Fd.CTL_POWER_STATUS_State 2).hostUp = true ∧ (on.wr Fd.CTL_POWER_STATUS_State 2).failStopped = false) ∧
    ((on.wr Fd.CTL_POWER_STATUS_State 4).rd Fd.CTL_POWER_STATUS_State = 4) ∧ 1 < 2 % 2 ^ 32 := by decide +kernel

theorem witness_PowerClearsEverything : on.started = true ∧ Instr.powerOn = .powerOn := by decide +kernel

theorem witness_ColdResetClears : on.pow.powered = true := by decide +kernel

theorem witness_SoftAndHotReset :
    (0xC3D20001 % 2 ^ 32 = 0xC3D20001 ∧ on.hostWrites = true ∧ on.gaf.running = none ∧ on.pow.d3Wait = false) ∧
    (on.started = true ∧ on.failStopped = false) ∧
    ((running 2 0).gaf.running ≠ none ∧ (running 2 0).hostWrites = true ∧ (running 2 0).started = true ∧ (running 2 0).failStopped = false) := by
  decide +kernel

theorem witness_ResetsTurnedAway : (on.hostWrites = true ∧ slice 1 16 16 ≠ 0xC3D2) ∧
    ((running 2 0).hostWrites = true ∧ (running 2 0).gaf.running ≠ none) ∧ dead.failStopped = true := by decide +kernel

theorem witness_BenchResetKeepsSlices :
    (on.hostWrites = true ∧ slice 0xC3D20001 16 16 = 0xC3D2 ∧ on.rd Fd.GAF_PAGE_CTL_Enable = 0 ∧ on.gaf.running = none) ∧
    (pageOf (PageKind.ben.base + 0x1000 + 0x10) = some (.ben, 1) ∧ PageKind.ben.bench 1 = some 1 ∧ bitAt 0xC3D20001 1 = false ∧
      PageKind.ben.base + 0x1000 + 0x10 ≠ lostWord ∧ PageKind.ben.base + 0x1000 + 0x10 ≠ Fd.CTL_RESET_CAUSE_Last.addr 0 0) ∧
    (∃ f ∈ PageKind.gth.fields, f.cls = .b ∧ f.off ≠ 0 ∧ f.off ≠ 8 ∧ 0 < PageKind.gth.count ∧ PageKind.gth.bench 0 = some 0 ∧
      bitAt 0xC3D20001 0 = true) := by decide +kernel

theorem witness_JobKillStarts :
    (loaded.hostWrites = true ∧ slice 0x80000001 8 23 = 0 ∧ bitAt 0x80000001 31 = true ∧ loaded.image (slice 0x80000001 0 8) ≠ none) ∧
    (slice 0x80000002 8 23 = 0 ∧ loaded.image (slice 0x80000002 0 8) = none) ∧ slice 0x100 8 23 ≠ 0 ∧
    (streaming.stream 5 = some stream5 ∧ stream5.image = slice 0x80000001 0 8 ∧ streaming.hostWrites = true ∧
      streaming.image (slice 0x80000001 0 8) ≠ none) ∧
    (let s : State := { loaded.wr Fd.CTL_COMMIT_STATUS_State 2 with par := { staged := [4095] }, lpddr := [(0x1FFF08, 1)] }.wr Fd.CTL_CAP_MEM_LpddrGiB 1
     let s := (s.wr Fd.GAF_STREAM_BASE_HI_BaseHi (State.lpBase / 2 ^ 32)).wr Fd.XMC_PAGE_CTL_Enable 1 ((s.siteOf 0x1FFF08))
     s.hostWrites = true ∧ 2 ≤ s.rd Fd.CTL_COMMIT_STATUS_State ∧ s.begin_.stagedNaming 1 = some 4095 ∧ s.image 1 ≠ none) := by decide +kernel

theorem witness_ScrubEnds : (on.working = true ∧ on.rd Fd.SPD_SCRUB_Hold ≠ 1) ∧
    ((on.wr Fd.SPD_SCRUB_Hold 1).working = true ∧ (on.wr Fd.SPD_SCRUB_Hold 1).rd Fd.SPD_SCRUB_Hold = 1) ∧
    (let r (e : Nat) : Region := { region1 1 with entry := e, shut := true }
     let s : State := { on with regions := [r 0, r 1] }
     s.working = true ∧ s.rd Fd.SPD_SCRUB_Hold ≠ 1 ∧ (s.regions.find? fun x => x.image == 1 && x.entry == 1 && x.shut) = some (r 1) ∧
       r 0 ∈ (after (.scrubComplete 1 1) s).regions ∧ (r 0).image = 1 ∧ (r 0).shut = true ∧
       (s.regions.find? fun x => x.image == 1 && x.entry == 2 && x.shut) = none) ∧
    (let s : State := { memory with scrubs := [(1, [(State.lpBase, 4096)])] }
     s.working = true ∧ s.rd Fd.SPD_SCRUB_Hold ≠ 1 ∧ (∀ r ∈ (after (.scrubComplete 1 0) s).regions, r.image = 1 → r.shut = false) ∧
       s.rd Fd.CTL_JOBKILL_STATUS_Image ≠ 1 ∧ (s.wr Fd.CTL_JOBKILL_STATUS_Image 1).rd Fd.CTL_JOBKILL_STATUS_Image = 1 ∧ (1, [(State.lpBase, 4096)]) ∈ s.scrubs ∧ s.inLpddr State.lpBase 4096 = true ∧ s.anyDark = false) := by decide +kernel

theorem witness_RegisterWriteTaken :
    (on.hostWrites = true ∧ bar0Page 0x0011C = some (.ctl, 0) ∧ 0x11C % 4 = 0 ∧ plainWord .ctl 0x11C = true ∧
      PageKind.ctl.wordFields 0 0x11C ≠ [] ∧ badValue (PageKind.ctl.wordFields 0 0x11C) 0 0 = false ∧
      (∀ f ∈ PageKind.ctl.wordFields 0 0x11C, f.acc ≠ .sr)) ∧
    (bar0Page 0x10 = some (.ctl, 0) ∧ plainWord .ctl 0x10 = true ∧ PageKind.ctl.wordFields 0 0x10 ≠ [] ∧
      badValue (PageKind.ctl.wordFields 0 0x10) 0 1 = false ∧ (∀ f ∈ PageKind.ctl.wordFields 0 0x10, f.acc ≠ .sr)) := by decide +kernel

theorem witness_RegisterWriteDropped :
    (State.reset.hostUp = false ∧ on.hostUp = true ∧ bar0Page 0xFFFFFC = none ∧ 0x11C % 8 ≠ 0 ∧ 0x118 % 8 = 0) ∧
    (bar0Page 0x102 = some (.ctl, 0) ∧ ¬(4 = 4 ∧ 0x102 % 4 = 0) ∧ ¬(4 = 8 ∧ 0x102 % 8 = 0)) ∧
    (dead.hostUp = true ∧ dead.writesShut = true ∧ 0x11C % 0x1000 ≠ 0x10) ∧
    (on.writesShut = false ∧ bar0Page 0x7FC = some (.ctl, 0) ∧ PageKind.ctl.wordFields 0 0x7FC = []) ∧
    (badValue (PageKind.ctl.wordFields 0 0x10) 0 0xFFFFFFFF = true) := by decide +kernel

theorem witness_EnableOnlyWhereDefined : PageKind.cor ∈ [PageKind.ctl, .sec, .log, .cnt, .tly, .evtDev, .evtB, .cor, .spd] ∧
    511 < PageKind.cor.count ∧ on.hostWrites = true ∧ 1 % 2 = 1 := by decide +kernel

theorem witness_ShadowWrites :
    (on.hostWrites = true ∧ bar0Page 0x9E8 = some (.ctl, 0) ∧ 0x9E8 % 4 = 0 ∧ 0x800 ≤ 0x9E8 ∧ ¬(PageKind.ctl = .lnk ∧ 0x9E8 = 0x90C) ∧
      stFields 0x2E8 ≠ [] ∧ on.stageShut = false ∧ badValue (stFields 0x2E8) 0 0x10 = false) ∧
    ((parisonAt 2).hostWrites = true ∧ (parisonAt 2).stageShut = false ∧ (parisonAt 2).parState = 2) ∧
    ((parisonAt 3).hostWrites = true ∧ (parisonAt 3).stageShut = true) ∧ (bar0Page 0xEFC = some (.ctl, 0) ∧ stFields 0x7FC = []) := by decide +kernel

theorem witness_StageReverts : (on.hostWrites = true ∧ bar0Page (0 * 0x1000) = some (.ctl, 0) ∧ on.stageShut = false) ∧
    ((parisonAt 3).hostWrites = true ∧ (parisonAt 3).stageShut = true) ∧
    ((parisonAt 2).parState = 2 ∧ (parisonAt 2).stageShut = false ∧ Fd.CTL_RING_Enable ∈ stFields (0 + 0x3E8)) := by decide +kernel

theorem witness_HostCountersAndCursors : (on.hostWrites = true ∧ on.codebookShut (0x400 + 4 * 127) = false ∧ ∀ j < 4, slice 0x7F7F7F7F (8 * j) 8 ≠ 0x80) ∧
    (∃ j < 4, slice 0x80000000 (8 * j) 8 = 0x80) ∧
    ((on.wrAt Fd.GAF_CB_REF_RefB 0 3 1).hostWrites = true ∧ (on.wrAt Fd.GAF_CB_REF_RefB 0 3 1).codebookShut (0x400 + 4 * 31) = true) := by decide +kernel

theorem witness_LogRepeats :
    let l : LogEntry := ⟨0, 0, 1, 2, 0, 3, 0, 0, 0, 0⟩
    let s : State := { on with log := { entries := [l], nextSeq := 1 } }
    s.log.entries.getLast? = some l ∧ s.now ≤ l.time + 1000000 ∧ s.log.mirror ≤ l.seq := by decide +kernel

theorem witness_LogMirrorWrites : on.rd Fd.LOG_RING_CFG_Enable = 0 ∧
    (let e : LogEntry := ⟨0, 0, 1, 2, 0, 3, 0, 0, 0, 0⟩
     let s : State := { mastered.wr Fd.LOG_RING_CFG_Enable 1 with log := { entries := [e], nextSeq := 1 } }
     s.rd Fd.LOG_RING_CFG_Enable ≠ 0 ∧ s.pow.busMaster = true ∧ s.failStopped = false ∧ s.hostUp = true ∧ s.log.entries = [] ++ [e] ∧
       s.log.mirror ≤ e.seq ∧ 32 ≤ s.logRing.room (2 ^ s.rd Fd.LOG_RING_CFG_SizeLog2) ∧
       (let s := s.wr Fd.LOG_RING_WB_LO 0x10000
        s.base Fd.LOG_RING_BASE_LO Fd.LOG_RING_BASE_HI + s.logRing.prod % 2 ^ s.rd Fd.LOG_RING_CFG_SizeLog2 + 32 ≤
          s.base Fd.LOG_RING_WB_LO Fd.LOG_RING_WB_HI)) := by decide +kernel

/-- A stream table is in force at the base of LPDDR. -/
def tabled : State :=
  { memory.wr Fd.GAF_STREAM_BASE_HI_BaseHi (State.lpBase / 2 ^ 32) with gaf := { table := true } }

theorem witness_Bar2Accesses : (on.hostWrites = true ∧ State.bar2Fits 0x1FFFFF 1 = true ∧ on.gaf.table = false) ∧
    State.bar2Fits 0xFFFFFF 1 = true ∧
    (tabled.hostWrites = true ∧ tabled.gaf.table = true ∧ State.lpBase ≤ tabled.tableBase ∧
      tabled.tableBase + 0x200000 ≤ State.lpBase + tabled.lpSize ∧ tabled.anyDark = false ∧ tabled.stageShut = false) ∧
    ((tabled.wr Fd.CTL_COMMIT_STATUS_State 3).hostWrites = true ∧ (tabled.wr Fd.CTL_COMMIT_STATUS_State 3).stageShut = true) ∧
    (State.bar2Fits 0xEFFFFFF 1 = true ∧ (memory.wr Fd.CTL_BAR2_APER_Base 64).hostWrites = true ∧
      (memory.wr Fd.CTL_BAR2_APER_Base 64).lpSize ≤ (memory.wr Fd.CTL_BAR2_APER_Base 64).rd Fd.CTL_BAR2_APER_Base * 2 ^ 24 + (0x1000000 - 0x1000000)) ∧
    (memory.hostWrites = true ∧ State.bar2Fits 0x1000000 4 = true ∧
      memory.rd Fd.CTL_BAR2_APER_Base * 2 ^ 24 + (0x1000000 - 0x1000000) + 4 ≤ memory.lpSize ∧ memory.siteOff 0 = false ∧
      memory.gaf.table = false ∧ memory.imageHolds State.lpBase 4 = false ∧ memory.sessionHolds State.lpBase 4 = none ∧
      memory.lpBadIn 0 4 = [] ∧ State.touches (State.lpBase + 0x200000) 4 tabled.tableBase 0x200000 = false ∧
      ({ memory with gaf := { images := [{ image1 2 with addr := State.lpBase, len := 256 }] } } : State).imageHolds State.lpBase 4 = true) ∧
    (State.bar2Fits 0xF000000 4 = true ∧ on.windowOpen = false) ∧
    (let s := present.wr Fd.SPD_MODE_Partitioned 0
     s.hostWrites = true ∧ s.windowOpen = true ∧ s.inSealed 0 4 = false ∧ s.rd Fd.SPD_MODE_Partitioned = 0 ∧ s.spadBadIn 0 4 = [] ∧
       s.rd Fd.SPD_DBG_BASE_LO + 2 ^ 32 * s.rd Fd.SPD_DBG_BASE_HI + (0xF000000 - 0xF000000) = 0) := by
  decide +kernel

theorem witness_CommitCommands : ((on.wr Fd.CTL_COMMIT_STATUS_Busy 1).hostWrites = true ∧ (on.wr Fd.CTL_COMMIT_STATUS_Busy 1).rd Fd.CTL_COMMIT_STATUS_Busy = 1) ∧
    (on.hostWrites = true ∧ on.rd Fd.CTL_COMMIT_STATUS_Busy ≠ 1 ∧ on.parState = 0) ∧
    ((parisonAt 3).hostWrites = true ∧ (parisonAt 3).parState = 3 ∧ (parisonAt 1).parState = 1) ∧
    ((parisonAt 2).hostWrites = true ∧ (parisonAt 2).parState = 2 ∧ (parisonAt 2).rd Fd.CTL_COMMIT_STATUS_Busy ≠ 1 ∧
      (parisonAt 2).commitTime < (parisonAt 2).now + 2000 ∧ (parisonAt 2).applyDue = false) ∧
    ((parisonAt 2).now + 60000000000 < ((parisonAt 2).wr Fd.CTL_COMMIT_TIME_HI 1000).commitTime) ∧
    ((parisonAt 2).now + 2000 ≤ ((parisonAt 2).wr Fd.CTL_COMMIT_TIME_LO 2000).commitTime ∧
      ((parisonAt 2).wr Fd.CTL_COMMIT_TIME_LO 2000).commitTime ≤ (parisonAt 2).now + 60000000000) := by decide +kernel

theorem witness_CheckEnds : on.rd Fd.CTL_COMMIT_STATUS_Busy = 0 ∧
    (let s := (parisonAt 1).wr Fd.CTL_COMMIT_STATUS_Busy 1
     s.rd Fd.CTL_COMMIT_STATUS_Busy ≠ 0 ∧
       ((match (s.begin_.wr Fd.CTL_COMMIT_STATUS_Busy 0).checkReads.checkAll with | .ok _ => true | .error _ => false) = true)) ∧
    (let s := ((parisonAt 1).wr Fd.CTL_COMMIT_STATUS_Busy 1).wrSh Fd.CTL_RING_SizeLog2 31
     s.rd Fd.CTL_COMMIT_STATUS_Busy ≠ 0 ∧
       ((match (s.begin_.wr Fd.CTL_COMMIT_STATUS_Busy 0).checkReads.checkAll with | .ok _ => true | .error _ => false) = false)) := by decide +kernel

theorem witness_ParisonApplies : on.applyDue = false ∧ ((parisonAt 3).applyDue = true ∧ (parisonAt 3).begin_.applyFails = none) ∧
    (let s := (parisonAt 3).wrSh Fd.TLY_PARAM_IntervalSec 7
     s.applyDue = true ∧ s.begin_.applyFails.isSome = true) ∧
    (let s := ((parisonAt 3).wr Fd.GAF_PAGE_CTL_Enable 0).wrSh Fd.CTL_RING_SizeLog2 0x14 0 15
     s.applyDue = true ∧ s.begin_.applyFails = none ∧ s.par.staged = [] ∧ s.par.loads = [] ∧ s.lnk.staged = [] ∧ s.gaf.streams = [] ∧
       s.gaf.images = [] ∧ s.rd Fd.GAF_PAGE_CTL_Enable = 0 ∧ s.stagedWords = [Fd.CTL_RING_SizeLog2.addr 0 15]) := by decide +kernel

theorem witness_FailStops : (on.started = true ∧ on.failStopped = false ∧ on.hostWrites = true ∧ 4 ≤ on.pow.row) ∧
    ((on.wr Fd.BEN_PAGE_CTL_Enable 1 15).usesBench 15 = true ∧ (running 2 0).usesBench 15 = false) ∧ (running 2 0).gaf.running ≠ none := by decide +kernel

theorem witness_CoreExcursionStops : on.started = true ∧ State.reset.started = false := by decide +kernel

theorem witness_OperationBarriers : ((barrierOf (.vector ⟨[], [], []⟩)).isSome = true ∧ on.gaf.running = none ∧ dead.failStopped = true) ∧
    (let s := running 2 0
     ∃ r ∈ s.gaf.running, ∃ m ∈ s.image r.image, ∃ d ∈ m.descs[r.desc]?, s.failStopped = false ∧ d.kind = 2 ∧ r.pass = 0 ∧
       ((barrierOf (.vector ⟨[], [], []⟩)).any fun x => x.1 r d) = true ∧ ((barrierOf (.matrix ⟨[], [], []⟩)).any fun x => x.1 r d) = false ∧
       (s.begin_.countBusy r).badRows m r.desc d ((s.begin_.countBusy r).partWorks d r.parts) [] = []) ∧
    (let s := running 2 3
     ∃ r ∈ s.gaf.running, ∃ m ∈ s.image r.image, ∃ d ∈ m.descs[r.desc]?,
       ((barrierOf (.weightReissue ⟨[], [], []⟩)).any fun x => x.1 r d) = true ∧ r.pass ≠ 1 ∧ r.pass ≠ 2) ∧
    (let s := running 2 1
     ∃ r ∈ s.gaf.running, ∃ m ∈ s.image r.image, ∃ d ∈ m.descs[r.desc]?,
       ((barrierOf (.secondChancePass ⟨[], [], []⟩)).any fun x => x.1 r d) = true ∧ r.pass = 1) := by decide +kernel

theorem witness_GafferEvents :
    (let m := { image1 2 with sweep := some { batch := [], next := 1 } }
     let s : State := { on with gaf := { images := [m] } }
     s.image 1 = some m ∧ s.failStopped = false ∧ s.begin_.closable m = true) ∧
    (loaded.image 1 = some (image1 2) ∧ loaded.begin_.closable (image1 2) = false) ∧
    (streaming.stream 5 = some stream5 ∧ stream5.state = 2 ∧ streaming.working = true) ∧ loaded.reloading 1 = false ∧
    (on.wr (Fd.PAGE_STATUS_Ready .ctl) 1).started = true ∧ 15 ∈ ({ on with dmp := { ungating := [15] } } : State).dmp.ungating := by decide +kernel

/-- Engine 15 enabled, one built-in transfer of a state write to issue. -/
def moving : State :=
  { on.wr Fd.GTH_PAGE_CTL_Enable 1 15 with
    builtIns := [{ id := 9, kind := .punty 0, image := 1, entry := none, bench := 15, todo := [{ src := 0x1E000, dst := 0x1E000, comp := some [] }] }] }

theorem witness_TransfersMove :
    ((on.wr Fd.GTH_PAGE_CTL_Enable 1 15).rd Fd.GTH_PAGE_CTL_Enable 15 ≠ 0 ∧ on.failStopped = false ∧ on.pow.powered = true ∧
      (on.wr Fd.GTH_PAGE_CTL_Enable 1 15).begin_.pumpPrograms.items 15 = []) ∧
    (moving.rd Fd.GTH_PAGE_CTL_Enable 15 ≠ 0 ∧ (sortBy WorkItem.before (moving.begin_.pumpPrograms.items 15)) ≠ [] ∧
      moving.begin_.pumpPrograms.outstanding 15 < moving.begin_.pumpPrograms.rd Fd.GTH_LIMIT_MaxOut 15) ∧
    ((moving.wr Fd.GTH_LIMIT_MaxOut 0 15).begin_.pumpPrograms.rd Fd.GTH_LIMIT_MaxOut 15 ≤
      (moving.wr Fd.GTH_LIMIT_MaxOut 0 15).begin_.pumpPrograms.outstanding 15) ∧
    ((on.flights.find? fun f => f.id == 9) = none) ∧
    (let s : State := { on with flights := [flight1] }
     (s.flights.find? fun f => f.id == 9) = some flight1 ∧ flight1.remote = false ∧ s.working = true ∧ flight1.deferred = none) ∧
    (let f := { flight1 with deferred := some 5 }
     let s : State := { on with flights := [f], gaf := { rounds := [round1] } }
     (s.flights.find? fun f => f.id == 9) = some f ∧ f.deferred.isSome = true ∧ s.roundOpen = true ∧ s.working = true) := by decide +kernel

theorem witness_ScratchpadCommands : (on.working = true ∧ on.regionAt 0 32 = none) ∧
    (let s : State := { on with regions := [region1 1] }
     s.working = true ∧ s.regionAt 256 32 = some (region1 1) ∧ (region1 1).shut = false ∧ (region1 1).cls ≠ 3) ∧
    (let s : State := { on.wr Fd.SPD_MODE_Partitioned 0 with regions := [region1 3] }
     s.working = true ∧ s.regionAt 8160 32 = some (region1 3) ∧ (region1 3).shut = false ∧ (region1 3).cls = 3 ∧ 8160 % 8 = 0 ∧
       s.rd Fd.SPD_MODE_Partitioned = 0 ∧ s.spadBadIn 8160 32 = []) ∧
    (on.wr Fd.SPD_PATROL_PatrolOff 1).rd Fd.SPD_PATROL_PatrolOff = 1 ∧
    (let s : State := { on with regions := [region1 1] }
     s.rd Fd.SPD_PATROL_PatrolOff = 0 ∧ sliceOf 256 = 1 ∧ s.regionAt 256 1 = some (region1 1) ∧ (region1 1).shut = false) ∧
    (on.hostWrites = true ∧ on.rd Fd.SEC_PRESENCE_Open = 0 ∧ 1 % 2 = 1) ∧ (present.hostWrites = true ∧ present.rd Fd.SEC_PRESENCE_Open ≠ 0) := by
  decide +kernel

theorem witness_MemoryServes : memory.working = true ∧
    (2 ^ 30 - 32 + 32 ≤ memory.lpSize ∧ memory.anyOff (2 ^ 30 - 32) 32 = false ∧ memory.lpBadIn (2 ^ 30 - 32) 32 = [] ∧
      (2 ^ 30 - 32) % 32 = 0 ∧ memory.siteOff (2 ^ 30 - 32) = false) ∧ memory.lpSize < 2 ^ 30 - 31 + 32 ∧
    ((memory.wr Fd.XMC_PATROL_PatrolHours 0 15).rd Fd.XMC_PATROL_PatrolHours 15 = 0 ∧ memory.rd Fd.XMC_PATROL_PatrolHours 15 ≠ 0 ∧
      memory.rd Fd.XMC_TEMP_SensorFault 15 = 0 ∧ memory.sites.length = 16) := by decide +kernel

theorem witness_SitesMeasureMargins : (on.hostWrites = true ∧ on.rd Fd.GAF_PAGE_CTL_Enable = 0 ∧ on.allIdle = true) ∧
    (streaming.hostWrites = true ∧ streaming.allIdle = false) ∧
    (0x10000 < 2 ^ 17 ∧ slice 0x10000 11 5 = 0 ∧ slice 0x10000 8 3 < 6 ∧ bitAt 0x10000 16 = true ∧ on.rd Fd.XMC_PAGE_CTL_Enable 15 = 1 ∧
      (on.wr Fd.XMC_PAGE_CTL_Enable 0 15).rd Fd.XMC_PAGE_CTL_Enable 15 = 0 ∧ (on.wr Fd.XMC_PAGE_CTL_Enable 0 15).hostWrites = true) ∧
    ((on.wr Fd.XMC_MARGIN_CTL_Go 1 15).working = true ∧ (on.wr Fd.XMC_MARGIN_CTL_Go 1 15).rd Fd.XMC_MARGIN_CTL_Go 15 = 1) := by decide +kernel

theorem witness_PortsTrainAndAgreeKeys :
    (on.lnk.ports.length = 32 ∧ on.hostWrites = true ∧ on.rd Fd.LNK_CTL_PacketMode 31 = 0 ∧ (on.wr Fd.LNK_PAGE_CTL_Enable 0 31).rd Fd.LNK_PAGE_CTL_Enable 31 = 0 ∧
      (on.wr Fd.LNK_PAGE_CTL_Enable 0 31).hostWrites = true) ∧
    ((link 2 0).lnk.ports.length = 32 ∧ (link 2 0).hostWrites = true ∧ (link 2 0).rd Fd.LNK_PAGE_CTL_Enable 31 = 1 ∧ (link 2 0).lnkLive 31 = true ∧
      (link 2 0).rd Fd.LNK_STATUS_State 31 ≠ 0 ∧ ((link 2 0).port 31).stage ≤ 1 ∧ ((link 2 0).port 31).keys ≠ none ∧
      0 ∈ ((link 2 0).port 31).lanes ∧ (link 2 0).pktUp 31 = false ∧ 2 ≤ (link 2 0).rd Fd.LNK_STATUS_State 31) ∧
    (let h : HelloIn := ⟨[], 0, true, [], []⟩
     let s := (link 2 2).setPort 31 fun l => { l with mine := some h, peer := some h }
     s.lnkLive 31 = true ∧ (s.port 31).stage = 2 ∧ (s.port 31).mine = some h ∧ (s.port 31).peer = some h ∧ (s.port 31).keys ≠ none) ∧
    ((link 2 0).rekeyDue 31 = false ∧
      (let s := (link 2 0).setPort 31 fun l => { l with rxFrames := 2 ^ 63 }
       s.lnkLive 31 = true ∧ s.rekeyDue 31 = true ∧ (s.port 31).keys ≠ none ∧ (s.port 31).stage = 0 ∧ s.rd Fd.LNK_STATUS_State 31 ≠ 1)) ∧
    (let s := ((link 1 0).wr Fd.LNK_STATUS_Rate 2 31).setPort 31 fun l => { l with keepRate := true }
     s.lnkLive 31 = true ∧ (s.port 31).keepRate = true ∧ s.rd Fd.LNK_STATUS_Rate 31 ≠ 0 ∧
       s.rd Fd.LNK_STATUS_Rate 31 ≤ Nat.min 3 (Nat.min 3 (s.rd Fd.LNK_CTL_MaxRate 31))) ∧
    (((link 2 0).port 31).lanes.filter (· != 0) ≠ [] ∧ ((link 2 0).port 31).queue = [] ∧ (link 2 0).rd Fd.LNK_STATUS_PeerValid 31 = 0) ∧
    ((link 1 0).lnkLive 31 = true ∧ (link 1 0).rd Fd.LNK_STATUS_State 31 = 1 ∧ ((link 1 0).port 31).rekeyAfter = false ∧ ((link 1 0).port 31).keepRate = false ∧
      ((link 1 0).rd Fd.LNK_CTL_Encrypt 31 = 0 ∨ 1 % 2 = 1)) := by decide +kernel

/-- A Data frame with one message for chip 5, and the codewords of its wire form. -/
def frame1 : List Byte := leBytes 8 1 ++ leBytes 8 1 ++ leBytes 16 (5 * 2 ^ 16) ++ List.replicate 1008 0 ++ leBytes 16 2033756182
def words1 : List (List Nat) :=
  [[1, 1] ++ List.replicate 128 0 ++ [22, 0, 83, 237, 251, 83], List.replicate 130 0 ++ [168, 0, 20, 120, 224, 36],
   [0, 0, 5] ++ List.replicate 127 0 ++ [56, 0, 122, 166, 234, 11], List.replicate 130 0 ++ [121, 0, 59, 154, 76, 148]] ++
  List.replicate 4 (List.replicate 136 0)

/-- What its two lanes carry, from their first bit on. -/
def lines1 : List (List Byte) := (List.range 2).map fun k => (LaneCode.send {} (interleave words1) 2 k).1

theorem test_words1_encode : (interleave words1).take 1056 = frame1 ∧ ∀ w ∈ words1, w.length = 136 ∧ (∀ x ∈ w, x < 256) ∧ rsDecode w = some (w, 0) := by
  decide +kernel

theorem test_lines1_bring_frame1 : fecDecode ((link 2 0).takeLanes 31 lines1).1 = (frame1, 0, 0) := by
  have word (c : Nat) (hc : c < 8) : codeword (interleave words1) c = words1.getD c [] ∧ words1.getD c [] ∈ words1 := by
    have hw : words1.getD c [] ∈ words1 := by
      rw [List.getD_eq_getElem?_getD, List.getElem?_eq_getElem hc]
      exact List.getElem_mem hc
    exact ⟨codeword_interleave _ _ hc (test_words1_encode.2 _ hw).1 (test_words1_encode.2 _ hw).2.1, hw⟩
  have len : (interleave words1).length = 1088 := by simp [interleave]
  have got : ((link 2 0).takeLanes 31 lines1).1 = joinLanes ((List.range 2).map fun k =>
      (LaneCode.take {} (LaneCode.send {} (interleave words1) 2 k).1 2 k).1) := rfl
  rw [got]
  simp only [LaneCode.take_send, joinLanes_words _ len]
  rw [fecDecode_clean _ len fun c hc => by rw [(word c hc).1]; exact (test_words1_encode.2 _ (word c hc).2).2.2, test_words1_encode.1]

theorem witness_LinksCarryMessages_frame :
    (let s := link 2 0
     31 < 32 ∧ s.lnk.ports.length = 32 ∧ s.portUp 31 = true ∧ s.idValid = true ∧ s.encrypting 31 = false ∧ (s.port 31).laneErrs = [] ∧
       (s.port 31).partials = [] ∧ fecDecode (s.takeLanes 31 lines1).1 = (frame1, 0, 0)) ∧
    (leAt frame1 0 1 = 1 ∧ leAt frame1 1 1 = 0 ∧ leAt frame1 2 3 = ((link 2 0).port 31).rxSeq ∧ leAt frame1 8 1 = 1 ∧
      bytesAt frame1 0x410 16 = leBytes 4 (crc32c (bytesAt frame1 0 16 ++ bytesAt frame1 16 1024)) ++ leBytes 12 0) ∧
    (let heads := ((List.range 16).map fun i => bytesAt frame1 (16 + 16 * i) 16).filter fun h => ofLe h != 0
     heads.map parseMsg = [{ msg 0 with hops := 0, src := 0 }] ∧
       ∀ h ∈ heads, msgHasData (parseMsg h).op (parseMsg h).skip = false ∧ (parseMsg h).dest = (link 2 0).chipId) :=
  ⟨⟨by decide, by decide +kernel, by decide +kernel, by decide +kernel, by decide +kernel, by decide +kernel, by decide +kernel,
    test_lines1_bring_frame1⟩, by decide +kernel, by decide +kernel⟩

theorem witness_LinksCarryMessages : on.portUp 31 = false ∧
    (∀ code ∈ [1, 2, 3], (link 2 0).msgDue 31 { msg 8 with code } = true ∧ (msg 8).op = 8) ∧
    (let m : Msg := { msg 8 with code := 3, addr := 7 + 1 * 2 ^ 10 }
     let s := link 2 0
     s.msgDue 31 m = true ∧ s.reportEpoch ≤ slice m.addr 12 32 ∧
       (s.seenReports.any fun k => k.1 == slice m.addr 0 10 && k.2.1 == slice m.addr 12 32 && k.2.2.1 == m.src && k.2.2.2.1 == slice m.addr 10 2) = false ∧
       slice m.addr 12 32 < (s.wr Fd.LNK_EPOCH 5).reportEpoch) ∧
    (let s : State := { (link 2 0).wr Fd.XMC_TEMP_RefreshStep 2 15 with gaf := { rounds := [round1] } }
     s.failStopped = false ∧ s.siteHot = true ∧ s.roundOpen = true ∧ s.idValid = true ∧ ∀ c ∈ s.slowChips, (s.routeOf c).isSome = true) ∧
    (let s : State := { on with gaf := { rounds := [round1] } }
     (s.gaf.rounds.find? fun r => State.roundIs 1 3 5 0 r && !r.complete) = some round1 ∧ s.failStopped = false ∧ s.missingChips round1 = []) ∧
    (on.msgHere (msg 1) = false ∧ (msg 1).op ≠ 2) ∧
    (let s := (link 2 0).setPort 31 fun l => { l with inbox := [{ msg 0 with tag := 1 }] }
     s.msgHere (msg 0) = true ∧ s.msgFirst 31 (msg 0) = false) := by decide +kernel

theorem witness_WindowServesMessages :
    let w := (((link 2 0).wr Fd.CTL_CAP_MEM_LpddrGiB 1).wrAt Fd.LNK_APER_Enable 0 0 1).wrAt Fd.LNK_APER_AnySrc 0 0 1
    let w := (w.wrAt Fd.LNK_APER_WriteOk 0 0 1).wrAt Fd.LNK_APER_AtomicOk 0 0 1
    (w.msgDue 31 (msg 0) = true ∧ (msg 0).vc ≠ 2 ∧
      (w.begin_.takeInbox 31 { msg 0 with addr := 2 ^ 35 }).throughWindow { msg 0 with addr := 2 ^ 35 } false false = .refused) ∧
    (w.msgDue 31 { msg 2 with addr := 2 ^ 33 } = true ∧
      (w.begin_.takeInbox 31 { msg 2 with addr := 2 ^ 33 }).throughWindow { msg 2 with addr := 2 ^ 33 } true false = .lpddr 0) ∧
    (let s : State := { w with regions := [region1 3] }
     s.msgDue 31 (msg 4) = true ∧ (s.begin_.takeInbox 31 (msg 4)).throughWindow (msg 4) true true = .spad 0 ∧
       ((s.begin_.takeInbox 31 (msg 4)).regionAt 0 256).isSome = true) ∧
    ((w.begin_.takeInbox 31 { msg 5 with addr := 2 ^ 33 }).throughWindow { msg 5 with addr := 2 ^ 33 } false true = .lpddr 0) ∧
    (let f := { flight1 with id := 0, remote := true, x := { src := 2 ^ 60, dst := 0 } }
     let s : State := { w with flights := [f] }
     s.msgDue 31 (msg 1) = true ∧ s.fo.probes = [] ∧ (s.begin_.takeInbox 31 (msg 1)).answered (msg 1) = some f ∧
       (s.begin_.takeInbox 31 (msg 1)).readsFar f.x = true ∧ (msg 1).code = 0 ∧ f.x.xform ≠ 4 ∧
       (s.begin_.takeInbox 31 { msg 3 with code := 1 }).answered { msg 3 with code := 1 } = some f ∧ s.msgDue 31 { msg 3 with code := 1 } = true) ∧
    w.channelStream 31 0 = none ∧
    (let x := { stream5 with raw := leBytes 64 (ofLe (List.replicate 64 0)) ++ List.replicate 192 0 }
     x.state = 2 ∧ ({ w with gaf := { streams := [(5, x)] } } : State).unitWaits x = false) ∧
    ({ w with gaf := { rounds := [{ round1 with collId := 0, entry := 0 }] } } : State).roundFor (msg 7) = some { round1 with collId := 0, entry := 0 } := by
  decide +kernel

/-- A RUNNING stream whose source and sink are sessions of port 7, and whose egress has begun at the tick 100. -/
def packet5 : Stream :=
  { stream5 with raw := List.replicate 0x14 0 ++ leBytes 4 0x72 ++ leBytes 4 0x72 ++ List.replicate 228 0, nextJ := 1
                 e0 := some (0x72, 100), sess := [(0x72, [1, 0, 0, 2] ++ List.replicate 124 0)] }

/-- Its port is up; the session takes what comes for port 0 of address 0. -/
def fed : State :=
  { ((on.wr Fd.LNK_CTL_PacketMode 1 7).wr Fd.PKT_STATUS_State 2 7).wr Fd.PKT_PAGE_CTL_Enable 1 7 with
    gaf := { images := [image1 2], streams := [(5, packet5)] } }

theorem witness_PacketPortsRun : (on.working = true ∧ (on.wr Fd.LNK_CTL_PacketMode 1 7).rd Fd.LNK_CTL_PacketMode 7 = 1) ∧
    ((on.wr Fd.LNK_CTL_PacketMode 1 7).wr Fd.PKT_STATUS_State 2 7).pktUp 7 = true ∧ on.pktUp 7 = false ∧
    (on.wr Fd.PKT_PTP_STATE_State 2).rd Fd.PKT_PTP_STATE_State = 2 ∧ (on.wr Fd.PKT_PTP_STATE_State 2).working = true ∧
    (on.wr Fd.PKT_PTP_STATE_State 3).rd Fd.PKT_PTP_STATE_State = 3 ∧
    (let s := (on.wr Fd.LNK_CTL_PacketMode 1 7).wr Fd.PKT_STATUS_State 2 7
     let udp (dp : Nat) (ok : Bool) : EthFrame := ⟨2 ^ 48 - 1, none, true, 64, .udp false [] [] dp 0 ok true false [], true⟩
     s.pktUp 7 = true ∧ s.acceptsMac 7 (2 ^ 48 - 1) = true ∧ s.acceptsMac 7 1 = false ∧ (udp 5 true).body ≠ .pause ∧
       s.begin_.ingress = [] ∧ (udp 5 false).fcsOk = true ∧ (udp 5 true).bytes ≤ 9018) ∧
    (let s := fed
     s.pktUp 7 = true ∧ (s.begin_.ingress.find? fun i =>
        Session.admits (s.begin_.session i.2 i.2.source) (epPort i.2.source) ⟨7, none, false, List.replicate 16 0, [], 0, 0⟩) =
        some (none, packet5) ∧ s.rd Fd.PKT_PAGE_CTL_Enable 7 = 1) ∧
    (streaming.stream 5 = some stream5 ∧ stream5.entry = 5 ∧ stream5.state = 2 ∧ streaming.failStopped = false) ∧
    (fed.stream 5 = some packet5 ∧ epKind packet5.source = 2 ∧ 0 < packet5.nextJ ∧ packet5.cls = 0 ∧ epKind (State.packetSink packet5) = 2 ∧
      fed.begin_.egressStart packet5 (State.packetSink packet5) = some 100 ∧
      fed.begin_.egressStart { packet5 with e0 := none } (State.packetSink packet5) = none) := by decide +kernel

theorem witness_AudioPortsRun : (on.apt.length = 16 ∧ on.hostWrites = true ∧ (audio 1 0).hostWrites = true ∧ (audio 1 0).aptState 15 = 0 ∧
      (audio 1 0).aptMode 15 ≠ 0) ∧
    ((audio 1 2).hostWrites = true ∧ (audio 1 2).aptState 15 = 2 ∧ ((audio 1 2).aport 15).ahead = []) ∧
    ((audio 1 1).aptState 15 = 1 ∧ (audio 1 1).aptMode 15 ≠ 4) ∧ ((audio 1 3).aptState 15 = 3 ∧ (audio 1 3).rd Fd.APT_PAGE_CTL_Enable 15 = 0) ∧
    (on.captures 15 = false ∧ (audio 1 2).captures 15 = true) ∧
    ((List.replicate (2 ^ (audio 1 2).rd Fd.APT_BLOCK_BlockLog2 15 * (audio 1 2).aptDiv 15) ([] : List Nat)).length =
        2 ^ (audio 1 2).rd Fd.APT_BLOCK_BlockLog2 15 * (audio 1 2).aptDiv 15 ∧ ((audio 1 2).aport 15).sampleNo = 0 ∧
      ((audio 1 2).aport 15).blkWas.2 ≤ 0) ∧
    (on.stream 5 = none ∧ streaming.takeInTime 0 = false) ∧
    (let x := { stream5 with raw := List.replicate 0x18 0 ++ leBytes 4 0xF1 ++ List.replicate 228 0, f0 := some 16 }
     let s : State := { audio 1 2 with gaf := { images := [image1 2], streams := [(5, x)] } }
     s.stream 5 = some x ∧ x.entry = 5 ∧ s.failStopped = false ∧ ((x.outputs.find? fun o => o.1 == x.taken).map (·.2)).getD x.sink = 0xF1 ∧
       epKind 0xF1 = 1 ∧ epPort 0xF1 = 15 ∧ s.aptState 15 ≠ 0 ∧ x.state = 2 ∧ s.takeInTime 2000 = true ∧ s.takeInTime 20000 = true ∧
       x.f0.isSome = true ∧ s.fixesF0 { x with f0 := none, arrive := some 0 } 15 0 = true) ∧
    ((audio 4 2).needsLock 15 = true ∧ (audio 4 2).aptState 15 ≠ 0 ∧ (audio 4 2).rd Fd.APT_STATUS_Locked 15 = 0 ∧ ((audio 4 2).aport 15).lost = false) ∧
    (((audio 4 1).wr Fd.APT_STATUS_Locked 1 15).needsLock 15 = true ∧ ((audio 4 1).wr Fd.APT_STATUS_Locked 1 15).rd Fd.APT_STATUS_Locked 15 = 1 ∧
      ((audio 4 1).wr Fd.APT_STATUS_Locked 1 15).captures 15 = false) ∧
    (((audio 4 2).wr Fd.APT_STATUS_Locked 1 15).aptMode 15 = 4 ∧ ((audio 4 2).wr Fd.APT_STATUS_Locked 1 15).captures 15 = true ∧
      (List.replicate 384 true).length = 384) ∧ on.refValid 3 = false ∧
    ((on.wrAt Fd.APT_GEN_REF_RefKind 0 3 2).wr Fd.PKT_PTP_STATE_State 2).refValid 3 = true := by decide +kernel

/-- Standby entry 0, of chip 3's entry 4, resumes entry 7 with image 1 from a mirror at 8 MiB. -/
def standby0 : List Byte :=
  leBytes 2 1 ++ leBytes 2 3 ++ leBytes 2 4 ++ leBytes 2 7 ++ leBytes 8 (State.lpBase + 0x800000) ++ List.replicate 0x38 0 ++ leBytes 1 1 ++
    leBytes 1 4 ++ leBytes 2 16 ++ leBytes 2 16 ++ leBytes 2 0 ++ leBytes 4 100000 ++ leBytes 4 3 ++ leBytes 4 0x13 ++ leBytes 4 128 ++
    leBytes 8 0 ++ leBytes 8 State.lpBase ++ List.replicate 32 0 ++ leBytes 2 0xFFFF

/-- Its mirror holds a complete copy of chunk 9. -/
def mirrored : State :=
  let s := (memory.wr Fd.GAF_STREAM_BASE_HI_BaseHi (State.lpBase / 2 ^ 32)).wr Fd.PNT_STANDBY_BASE_HI (State.lpBase / 2 ^ 32)
  let lay := leBytes 16 2 ++ (List.replicate 2 (leBytes 2 0x400 ++ List.replicate 30 0)).flatten
  let cells (o : Nat) (bs : List Byte) : List Host.Cell := (bs.zipIdx.filter (·.1 != 0)).map fun x => (o + x.2, x.1)
  { s.wr Fd.PNT_STANDBY_BASE_LO 0x2000 with
    gaf := { images := [{ image1 2 with layout := lay }] }
    lpddr := cells 0x400000 standby0 ++ cells 0x800000 (leBytes 6 0x4C504E54 ++ leBytes 2 3 ++ leBytes 8 4 ++ leBytes 8 9 ++ leBytes 16 160 ++
      leBytes 8 (2 ^ 64 - 1)) }

-- Whether meetsR54 holds of an image that is loaded rests on the free section table (notes/assumptions/13.md).
theorem witness_StandbysResume_activate : Standby.valid (on.standbyRaw 4095) = false ∧ Standby.valid (mirrored.standbyRaw 0) = true ∧
    (after (.standbyResume 0x80000000) { mirrored with gaf := {} }).rd Fd.PNT_LAST_RESUME_Code = 3 ∧
    (mirrored.image 1).any mirrored.roomFor = true := by decide +kernel

theorem witness_StandbysResume : on.fo.probes = [] ∧
    (let s : State := { on with fo := { probes := [(1, 2, 3)] } }
     s.fo.probes = (1, 2, 3) :: [] ∧ s.failStopped = false ∧ s.rd Fd.PNT_PAGE_CTL_Enable ≠ 0 ∧ (s.wr Fd.PNT_PAGE_CTL_Enable 0).rd Fd.PNT_PAGE_CTL_Enable = 0) ∧
    (on.hostWrites = true ∧ slice 0x1000 12 19 ≠ 0 ∧ slice 0x80000FFF 12 19 = 0 ∧ bitAt 0x80000FFF 31 = true ∧ bitAt 5 31 = false ∧
      on.rd Fd.PNT_PAGE_CTL_Enable = 1) := by decide +kernel

theorem witness_InvalidScalesMakeNan : 0xFFFF < 2 ^ 16 ∧ scaleOk 0x3FF = true ∧ scaleOk 0x7BFF = true ∧ scaleOk 0x7C00 = false ∧
    scaleOk 0x8000 = false := by decide +kernel

/-! Operations on one stream alone. -/

/-- Region `e` of image 1: 4 KiB for each stream, in a stripe row of its own. -/
def place (e cls : Nat) : Region := { region1 cls with level := 1, entry := e, row := e, perStream := true, units := 16, len := 16, srcLen := 64 }

/-- An operation of a kind works on chunk 0 of the stream of entry 5 alone: bytes of its Body by their places, the format byte of the data
block behind reference 0. Region 2 holds four weight blocks without codes. -/
def alone (kind pass format : Nat) (body : List (Nat × Nat)) (head : Nat := 0) : State :=
  let d := { desc kind with format, body := leBytes 48 ((body.map fun x => x.2 * 2 ^ (8 * (x.1 - 0x50))).sum), regions := (List.range 8).map (2 ^ 31 + ·) }
  let t := { stream5 with live := [{ c := { j := 0, first := 0, len := 16, k := 0, tr := 0 }, dl := 0 }] }
  let r : Running := { image := 1, desc := 0, pass, parts := [⟨5, 0, false, 0, 0⟩], work := 0, issued := 0, mask := 0 }
  { on.wr Fd.SPD_MODE_Partitioned 0 with
    gaf := { images := [{ image1 kind with descs := [d] }], streams := [(5, t)], running := some r }
    regions := (List.range 8).map fun e => place e (if e = 6 then 2 else 1)
    spad := (if head = 0 then [] else [(1, BitVec.ofNat 8 head)]) ++ ((List.range 4).flatMap fun i => [(0x40000 + 16 * i, 3), (0x40008 + 16 * i, 16)]) }

/-- Its image, its stream, what runs. -/
def onImage (s : State) (f : Image → Image) : State := { s with gaf := { s.gaf with images := s.gaf.images.map f } }
def onStream (s : State) (f : Stream → Stream) : State := { s with gaf := { s.gaf with streams := s.gaf.streams.map fun x => (x.1, f x.2) } }
def onRun (s : State) (f : Running → Running) : State := { s with gaf := { s.gaf with running := s.gaf.running.map f } }

/-- What runs works on one chunk alone, and `p` holds of the state whose operands it reads. -/
def worksAlone (s : State) (p : State → Running → Image → Desc → Work → Bool) : Bool :=
  s.gaf.running.any fun r => (s.image r.image).any fun m => m.descs[r.desc]?.any fun d =>
    match s.partWorks d r.parts with
    | [w] => !w.left && !d.commit && !d.exitPoint && !s.failStopped && s.spadBad.isEmpty && s.spadSoft.isEmpty &&
        (s.atEnd r).rd Fd.SPD_MODE_Partitioned == 0 && p (s.atEnd r) r m d w
    | _ => false

theorem touched_versionAt (v : State) (m : Image) (w : Work) (secs : List Nat) (marked : Bool) (t : Stream) (i : Nat) :
    (v.touched m w secs marked).versionAt m t i = v.versionAt m t i := by
  have h : Frame 165 v (v.touched m w secs marked) := frame_foldl (frame_refl v) fun _ _ k => frame_touchSec rfl k
  unfold State.versionAt State.stateRegion State.classRegions
  rw [(h.regions rfl).1]

theorem witness_OperationBarriers_items : (worksAlone (alone 5 0 0 []) fun v _ m d w => (v.refRegion m d 1).any fun rg =>
    let b := itemAt m rg w.slot w.j
    let at_ (i : Nat) : Nat := rg.arrAddr (itemCore rg w.slot) (b.1 + stepOff b.2 w.step 64 + i)
    (List.range 64).all fun k => (List.range k).all fun i => at_ i != at_ k) = true := by decide +kernel

/-- A Conversion of one element into a format, with carried scales in A8. -/
def into (f : Nat) : State :=
  onStream (alone 5 0 0 [(0x50, 9), (0x54, 1), (0x78, f), (0x79, 4), (0x7C, 1)]) fun x => { x with raw := leBytes 256 (2 ^ (8 * 6)) }

theorem witness_OperationBarriers_outputs :
    (∀ f ∈ [9, 3, 4, 5, 6, 7], (worksAlone (into f) fun v _ _ d w => d.conv.outFmt == f && d.capOut == none && v.spadBad.isEmpty && d.conv.carried &&
      carriedOn d w == (f == 6 || f == 7)) = true) ∧
    (∀ y ∈ [([0], false), ([0x7F000000], true)], (worksAlone (into 6) fun v r m d w =>
      (((rowGroups d.conv.glog d.outWidth y.1).zip (readSet v m r.desc d w).val).map fun g =>
        carriedGroup g.1 d.conv.e (d.conv.outFmt == 6) d.conv.rnd g.2.1 g.2.2).any (·.exceeds) == y.2) = true) := by decide +kernel

theorem witness_OperationBarriers_matrix :
    (worksAlone (alone 1 0 0x83 [(0x50, 1), (0x54, 64), (0x58, 64)]) fun v r m d w => r.pass == 0 && d.kind == 1 && !(matrixActs v m d w).mism &&
      d.experts == 0 && (WMat.load v m d 0 d.kp).whole (d.b 0x58 4) && decide (0 < w.n * d.b 0x50 2)) = true ∧
    (worksAlone (onRun (onImage (alone 1 3 0x83 [(0x50, 1), (0x53, 1), (0x54, 64), (0x58, 64)]) fun m =>
        { m with descs := { desc 4 with body := leBytes 48 0x100 } :: m.descs }) fun r => { r with desc := 1 }) fun v r m d w =>
      r.pass == 3 && ((m.routing r.desc).map fun y => y.2.b 0x51 1) == some 1 && !(matrixActs v m d w).mism && d.experts == 1 &&
        (WMat.load v m d 0 d.kp).whole (d.b 0x58 4) && slice (leAt (refBytes v m d w 4 0 8).val 0 4) 0 6 == 0) = true := by decide +kernel

theorem witness_OperationBarriers_vector :
    (∀ op ∈ [1, 2, 3, 5, 0x0E], (worksAlone (alone 2 0 0x09 [(0x50, op), (0x54, 2)]) fun v _ m d w =>
      !(readVals v m d w d.wFmt 4 (w.n * d.b 0x54 4) (d.b 0x54 4)).mism) = true) ∧
    (∀ op ∈ [0x0F, 0x13], (worksAlone (alone 2 0 0x09 [(0x50, op), (0x54, 4), (0x58, 2)]) fun v _ m d w =>
      let a := readVals v m d w d.wFmt 4 (w.n * d.b 0x54 4) (d.b 0x58 4)
      d.vecRow && !a.mism && a.val.length == w.n * d.b 0x54 4 && w.n * d.b 0x54 4 == 4) = true) := by decide +kernel

theorem witness_OperationBarriers_gate : (worksAlone (alone 3 0 0 []) fun _ _ _ d _ => d.kind == 3 && d.b 0x51 1 == 0) = true ∧
    (worksAlone (alone 3 0 0 [(0x51, 1)]) fun v _ m d w => d.b 0x51 1 == 1 && ((v.touched m w [0] true).versionAt m w.st (w.j + 1)).isSome) = true := by
  simp only [touched_versionAt]
  decide +kernel

theorem witness_OperationBarriers_routing :
    (worksAlone (alone 4 0 0 [(0x50, 4), (0x51, 1), (0x58, 1)]) fun _ _ _ d _ => d.kind == 4 && d.b 0x54 4 == 0) = true := by decide +kernel

theorem witness_OperationBarriers_conversion :
    (worksAlone (alone 5 0 0 [(0x50, 5), (0x54, 2)] 5) fun v _ m d w => !(readBlock v m d w 0 3 5 0 2 2 w.step 0).mism && w.n * d.b 0x54 4 == 2) = true := by
  decide +kernel

theorem witness_OperationBarriers_cells :
    (∀ cell ∈ [0, 1], (worksAlone (alone 6 0 0x33 [(0x50, cell), (0x52, 1), (0x54, 1), (0x56, 1), (0x5D, 1)] 3) fun v r m d w =>
      let v1 := v.touched m w (if cell = 0 then [0, 1] else [0]) false
      (v1.versionAt m w.st (w.j + 1)).any fun a => !(gateInput r.desc v1 m d w a.1).mism) = true) ∧
    (worksAlone (alone 6 0 0x90 [(0x50, 2), (0x52, 2), (0x56, 1)]) fun v _ m d w =>
      let v1 := v.touched m w [0] false
      (v1.versionAt m w.st (w.j + 1)).isSome && !(readSteps v1 m d w (2 * cellInput 2) 1).mism) = true := by
  simp only [touched_versionAt]
  decide +kernel

theorem witness_OperationBarriers_scan : (worksAlone (alone 7 0 0x90 [(0x50, 0), (0x52, 2), (0x54, 2)]) fun v _ m d w =>
    let v1 := v.touched m w [0] w.live.mark.isSome
    (v1.versionAt m w.st (w.j + 1)).isSome && !(readSteps v1 m d w 2 2).mism) = true := by
  simp only [touched_versionAt]
  decide +kernel

theorem witness_OperationBarriers_attention :
    (worksAlone (alone 8 0 0 [(0x51, 1), (0x52, 4), (0x55, 1), (0x56, 1), (0x78, 9)]) fun v r m d w =>
      !(readBlock v m d w 0 3 d.aFmt (d.b 0x6A 1) (w.n * d.qRows * d.qHeads * 4) 4 w.step 0).mism && w.n == 1 && d.qRows == 1 && d.groupQ == 1 &&
        d.kvCount == 1 && !d.mergeIn && !d.partialOut && d.conv.outFmt == 9 && splitsOf v m r.desc d w 0 == [] && r.shares == []) = true := by decide +kernel

/-- Key-value layout: pages of 16 tokens of one head of 4 elements, hot frames, cullet mode, ring; and one page of one token. -/
def kvOf (hot mode ring : Nat) : List Byte :=
  leBytes 1 4 ++ leBytes 1 6 ++ leBytes 1 1 ++ leBytes 1 1 ++ leBytes 2 4 ++ leBytes 1 hot ++ leBytes 1 mode ++ leBytes 8 0 ++ leBytes 4 4 ++
    leBytes 4 320 ++ leBytes 4 2 ++ leBytes 1 ring ++ leBytes 1 5 ++ List.replicate 34 0
def page1 (q : Nat) : KvPage := { q, base := 0, toks := [(0, 0)], pool := some 0, scales := [(0, 0)] }

/-- The stream's layer 0 holds some pages, and its table at the base of LPDDR lists one pool page. -/
def paged (s : State) (kv : List Byte) (pages : List KvPage) : State :=
  let s := onImage (onStream s fun x => { x with kvw := [{ pages, nextSeq := 3 }], raw := leBytes 256 (State.lpBase * 2 ^ (8 * 0x30)) }) fun m =>
    { m with kv := some kv }
  { s.wr Fd.CTL_CAP_MEM_LpddrGiB 1 with lpddr := [(0x10, 1)] }

theorem witness_OperationBarriers_append :
    (∀ hot ∈ [0, 2], (worksAlone (paged (alone 9 0 0x09 [(0x52, 1), (0x54, 1)]) (kvOf hot 0 0) [page1 2]) fun v _ m d w =>
      let ks := readTokens v m d w 0 1
      let vs := readTokens v m d w 3 1
      !ks.mism && !vs.mism && w.n * d.b 0x52 2 == 1 && Kv.hot m.kvRec == hot && ((v.stream w.entry).any fun x => (x.layer 0).pages.getLast?.any fun p =>
        decide (p.toks.length < Kv.perPage m.kvRec ∧ w.live.c.first - p.base < 2 ^ 32) && !p.cullet && p.own) &&
        (v.kvAppendAll m.id w.entry 0 w.j [(w.live.c.first, ks.val.getD 0 [], vs.val.getD 0 [])]).isSome) = true) ∧
    (worksAlone (paged (alone 9 0 0x09 [(0x52, 1), (0x54, 1)]) (kvOf 2 0 0) []) fun v _ m d w => Kv.ring m.kvRec == 0 &&
      (v.kvAppend m.id w.entry 0 w.live.c.first w.j ((readTokens v m d w 0 1).val.getD 0 []) ((readTokens v m d w 3 1).val.getD 0 [])).isSome) = true := by
  decide +kernel

theorem witness_OperationBarriers_stage :
    (worksAlone (paged (alone 9 0 0x09 [(0x50, 1)]) (kvOf 1 0 0) [page1 0, { page1 1 with cullet := true }, page1 2]) fun v _ m d w =>
      ((v.stream w.entry).any fun x => (State.kvStaged m.kvRec (x.layer 0)).map (·.cullet) == [false, true, false]) &&
        decide (0 < Kv.pageBytes m.kvRec) && (v.refRegion m d 4).isSome) = true := by decide +kernel

theorem witness_OperationBarriers_restore :
    (worksAlone (onImage (paged (alone 9 0 0x09 [(0x50, 2), (0x52, 1)]) (kvOf 1 1 0) [{ page1 1 with cullet := true, pool := none }, page1 2]) fun m =>
        { m with stage := [{ copies := [⟨5, 0, 1, 0, 0, true⟩] }, {}] }) fun v _ m d w =>
      !(readTokens v m d w 0 1).mism && !(readTokens v m d w 3 1).mism && w.n * d.b 0x52 2 == 1 && (v.stream w.entry).any fun x =>
        ((m.stage.getD m.stageNow {}).copies.find? fun f => f.entry == w.entry && f.layer == 0 && f.cullet &&
          decide (f.tokens < (((x.layer 0).pages.find? fun p => p.q == f.q).map fun p => p.toks.length).getD 0)).any fun f =>
          ((x.layer 0).pages.find? fun p => p.q == f.q).isSome) = true := by decide +kernel

theorem witness_OperationBarriers_maps :
    (∀ kind ∈ [0x0A, 0x0B], (worksAlone (alone kind 0 (if kind = 0x0A then 0x33 else 0x09)
      ((0x5C, 1) :: [0x54, 0x56, 0x58, 0x5A, 0x5E, 0x5F, 0x60, 0x61, 0x62, 0x63].map (·, 1)) 3) fun v _ m d w =>
      !(readMaps v m d w).mism && !d.history && !d.sflag 4 && (outPositions d w.n).length == 1 && (List.range d.groups).all fun g => (WMat.load v m d (g * d.b 0x6C 4)
        (roundUp (d.kt * d.kf * (d.cin / d.groups)) (Nat.max 128 (pairMacs d.wFmt d.aFmt / 64)))).whole (d.cout / d.groups)) = true) ∧
    (worksAlone (alone 0x0C 0 0 [(0x50, 2), (0x52, 1)]) fun _ _ _ d _ => d.kind == 0x0C) = true := by decide +kernel

theorem witness_LinksCarryMessages_collectives :
    (∀ op ∈ [0, 1, 2, 3], (worksAlone (alone 0x0D 0 0 [(0x50, op), (0x54, 2)]) fun v _ m d w => d.collOp == op && v.gaf.held.isEmpty &&
      !(v.gaf.rounds.any (State.roundIs m.id d.collId w.entry w.j)) && expectedRanks d (m.groupOf d.group) == [] &&
        (v.resultAddr m d w.slot w.j 0).isSome) = true) ∧
    (∀ ps ∈ [[], [page1 1]], (worksAlone (paged (alone 0x0D 0 0 [(0x50, 4)]) (kvOf 1 0 2) ps) fun v r m d w =>
      let owner := (v.kvRingIndex w.st + 2 - m.rotationNo r.desc % 2) % 2
      d.collOp == 4 && Kv.ring m.kvRec == 2 && !(v.gaf.rounds.any (State.roundIs m.id d.collId w.entry w.j)) && decide (0 < Kv.pageBytes m.kvRec) &&
        ((w.st.layer 0).pages.filter fun p => p.q % 2 == owner && p.toks.any fun z => decide ((w.st.layer 0).floor ≤ z.1)) == ps) = true) := by decide +kernel

theorem witness_GafferEvents_passes :
    (worksAlone (alone 2 1 0x09 [(0x50, 5), (0x54, 2)]) fun _ r _ d _ => r.pass == 1 && d.capOut == none) = true ∧
    (worksAlone (onRun (alone 8 2 0 [(0x51, 1), (0x52, 4), (0x55, 1), (0x56, 1), (0x78, 9)]) fun r => { r with info := [5, 0, 1, 1, 0, 0, 2, 0, 0] })
      fun v r m d w => r.pass == 2 && ((unpackSplits d r.info.length r.info).find? (fun x => x.1 == w.entry)).any fun y => y.2.2.1 == 1 &&
        splitKeys d 1 y.2.2.2.1 == [(0, 0, 0), (0, 0, 1)] && y.2.2.2.2.isEmpty && (v.refRegion m d 4).isSome && d.qRows == 1 && d.qHeads == 1 &&
        !d.mergeIn && !d.partialOut && !d.lseOut && d.conv.outFmt == 9 && decide (0 < d.headDim)) = true := by decide +kernel

/-! Registers, commands, transfers. -/

/-- 1 GiB of LPDDR, a bus master, one open region of a class in stripe row 0, banks shared, one transfer in flight. -/
def flying (cls : Nat) (x : Xfer) : State :=
  { (mastered.wr Fd.CTL_CAP_MEM_LpddrGiB 1).wr Fd.SPD_MODE_Partitioned 0 with
    regions := [{ region1 cls with level := 1 }], flights := [{ flight1 with x }], spad := [(5, 7)], lpddr := [(5, 8)], host := [(5, 9)] }

theorem witness_TransfersMove_lands : ∀ x ∈ [({ src := 0, dst := State.lpBase + 2 ^ 30 - 256 } : Xfer), { src := State.lpBase, dst := 256 },
      { src := State.hostBase, dst := 0, bytes := 64 }, { src := 0, dst := State.hostBase + 16, comp := some [1] }],
    let s := flying 1 x
    let f := { flight1 with x }
    s.working = true ∧ (s.flights.find? fun g => g.id == f.id) = some f ∧ f.bench < 16 ∧ f.remote = false ∧ f.deferred = none ∧ x.bad = false ∧
      x.xform = 0 ∧ x.srcOwn = false ∧ x.dstOwn = false ∧ s.flightKind f ≠ some .initialLoad ∧ s.darkX x false = false ∧
      (s.target x.src x.bytes = .spad 0 ∨ s.target x.src x.bytes = .lpddr 0 ∨ s.target x.src x.bytes = .host 0) ∧ s.spadBad = [] ∧ s.lpBad = [] ∧
      (s.target x.dst x.bytes = .lpddr (2 ^ 30 - 256) ∨ s.target x.dst x.bytes = .spad 256 ∨ s.target x.dst x.bytes = .spad 0 ∨
        s.target x.dst 1 = .host 16) ∧ (s.regionAt 0 256).isSome = true ∧ (s.regionAt 256 256).isSome = true ∧ s.pow.busMaster = true := by
  decide +kernel

theorem witness_TransfersMove_issues : ∀ y ∈ [(({ src := 0, dst := State.lpBase } : Xfer), 0, false), ({ src := State.remoteBase + 3 * 2 ^ 36, dst := 0 }, 0, true),
      ({ src := 0, dst := 2 ^ 35 }, 1, false)],
    let s := flying 3 y.1
    let it : WorkItem := ⟨.first, 0, 0, 1, 0, .builtIn 9, y.1⟩
    s.issueCause it = y.2.1 ∧ State.isPull (s.issueOf it).1 = false ∧
      (match s.target (s.ownXfer (s.issueOf it).1 (s.issueOf it).2.2).src 256 with | .remote _ _ => true | _ => false) = y.2.2 := by decide +kernel

theorem witness_RegisterReads :
    (bar0Page (bar0Of PageKind.spd.base) = some (.spd, 0) ∧ 0 < PageKind.spd.count) ∧
    (bar0Page (bar0Of (PageKind.pkt.base + 0x7000)) = some (.pkt, 7) ∧ 7 < PageKind.pkt.count) ∧
    (0 < 8 ∧ 0xFF8 + 8 ≤ 0x1000 ∧ on.hostUp = true ∧ bar0Page 0xFFFFFC = none) ∧
    (bar0Page 0x7FC = some (.ctl, 0) ∧ PageKind.ctl.wordFields 0 0x7FC = []) ∧
    (bar0Page 0x908 = some (.ctl, 0) ∧ Fd.CTL_PAGE_ERR_CommitBusy ∈ PageKind.ctl.wordFields 0 0x10) := by decide +kernel

/-- A security command runs over `len` bytes of LPDDR at 40H; keys 0 to 2 have signatures left in a block, at its end, and no block. -/
def secured (op len gen : Nat) : State :=
  let s := memory.wr Fd.SEC_CMD_STATUS_Busy 1
  let s := ((s.wr Fd.SEC_CMD_ADDR_LO 0x40).wr Fd.SEC_CMD_ADDR_HI (State.lpBase / 2 ^ 32)).wr Fd.SEC_CMD_LEN len
  { s with sec := { s.sec with cmd := op, idGen := gen, nextIndex := [7, 512, 256, 2 ^ 40 - 256], nextBlock := [1, 3, 1, 0] } }

/-- A firmware image of SVN 3 whose body and signature are zeros lies there. -/
def signed3 : State :=
  let head := leBytes 4 0x46575249 ++ leBytes 1 3 ++ leBytes 1 1 ++ leBytes 2 0 ++ leBytes 4 4 ++ leBytes 4 9
  { secured 1 (64 + 4 + 2820) 0 with lpddr := (head.zipIdx.filter (·.1 != 0)).map fun x => (0x40 + x.2, x.1) }

theorem witness_SecurityCommandsEnd_install :
    (signed3.rd Fd.SEC_CMD_STATUS_Busy = 1 ∧ signed3.sec.cmdWaits = false ∧ signed3.sec.cmd = 1 ∧
      signed3.secRange (signed3.rd Fd.SEC_CMD_LEN) = true ∧ State.fwLayoutOk (signed3.devBytes signed3.secAddr (signed3.rd Fd.SEC_CMD_LEN)) = true ∧
      signed3.rd Fd.SEC_FW_MinSvn ≤ leAt (signed3.devBytes signed3.secAddr 64) 4 1 ∧
      leAt (signed3.devBytes signed3.secAddr 64) 4 1 < (signed3.wr Fd.SEC_FW_MinSvn 4).rd Fd.SEC_FW_MinSvn) ∧
    (State.fwLayoutOk ((secured 1 64 0).devBytes (secured 1 64 0).secAddr 64) = false) := by decide +kernel

theorem witness_SecurityCommandsEnd_keys :
    (∀ g ∈ [0, 1], (secured 2 0 g).rd Fd.SEC_CMD_STATUS_Busy = 1 ∧ (secured 2 0 g).sec.cmdWaits = false ∧ (secured 2 0 g).sec.idGen < 7 ∧
      (secured 2 0 g).keyIndex g < 2 ^ 40 - 256 ∧
      ((secured 2 0 g).keyIndex g % 256 ≠ 0 ∨ (secured 2 0 g).sec.nextBlock.getD g 0 = (secured 2 0 g).keyIndex g / 256 + 1)) ∧
    ((secured 2 0 2).keyIndex 2 % 256 = 0 ∧ (secured 2 0 2).sec.nextBlock.getD 2 0 ≠ (secured 2 0 2).keyIndex 2 / 256 + 1) ∧
    2 ^ 40 - 256 ≤ (secured 2 0 3).keyIndex 3 ∧ 7 ≤ (secured 2 0 7).sec.idGen ∧
    (∀ g ∈ [0, 2], (secured 5 0 g).sec.cmd = 5 ∧ (secured 5 0 g).secRange 10245 = true ∧ (secured 5 0 g).anyDark = false) ∧
    ((secured 5 0 0).wr Fd.SEC_CMD_ADDR_LO 0x41).secRange 10245 = false ∧
    ((secured 6 0 0).sec.cmd = 6 ∧ (secured 6 0 0).anyDark = false ∧ ((secured 6 0 0).wr Fd.SEC_CMD_ADDR_LO 0x41).secRange 68 = false) := by decide +kernel

theorem witness_StartUpRowsAdvance_firmware :
    (let s : State := { row 2 with sec := { pending := some 1 } }
     s.atRow 2 = true ∧ s.sec.fallBack = false ∧ 1 < 2 ∧ s.sec.pending = some 1 ∧ s.sec.measures.length = 8 ∧
       ∀ codes ∈ [[0, 0], [0, 3]], (s.fwCode 1 (codes.getD 1 2) = 0 ↔ codes = [0, 0]) ∧ s.fwCode s.sec.active (codes.getD s.sec.active 2) = 0) ∧
    (let s : State := { row 2 with sec := { fallBack := true } }
     s.atRow 2 = true ∧ s.sec.fallBack = true ∧ s.sec.pending = none ∧ s.fwCode (1 - s.sec.active) ([0, 0].getD (1 - s.sec.active) 2) = 0) := by
  decide +kernel

theorem witness_StartUpStops_results :
    ((row 2).atRow 2 = true ∧ (row 2).sec.fallBack = false ∧ (row 2).sec.pending = none ∧ (row 2).fwCode (row 2).sec.active ([1, 0].getD (row 2).sec.active 2) ≠ 0) ∧
    ((row 5).atRow 5 = true ∧ 32 < 128 - ((List.range 16).foldl (fun s i => s.trainSite i (([] : List SiteTrain).getD i ⟨0, 0, 255, []⟩)) (row 5).begin_).inService) := by
  decide +kernel

theorem witness_PowerStatesFollow_domains : ∀ n ∈ [1, 2, 3, 4],
    let s := (on.wr Fd.CTL_POWER_STATUS_State n).wr Fd.BEN_PAGE_CTL_Enable 0 7
    let s : State := { s with dmp := { gated := [3] }, pow := { s.pow with domains := [0, 1, 2, 3, 8, 64, 72, 79] } }
    s.rd Fd.CTL_POWER_STATUS_State = n ∧ (n = 2 → s.hostUp = true) ∧ s.failStopped = false ∧ 3 ∈ s.dmp.gated ∧ s.rd Fd.BEN_PAGE_CTL_Enable 7 = 0 := by
  decide +kernel

/-- Streams, images and regions are there, audio ports run, and the parison is armed with entry 5 staged. -/
def inUse : State :=
  let s := ((streaming.wr Fd.APT_STATUS_State 2 3).wr Fd.APT_STATUS_State 1 4).wr Fd.APT_STATUS_State 3 5
  { s.wr Fd.CTL_COMMIT_STATUS_State 3 with
    regions := [region1 1, { region1 3 with shut := true, entry := 1 }], par := { staged := [5], loads := [1] } }

theorem witness_SoftAndHotReset_inUse : inUse.hostWrites = true ∧ inUse.started = true ∧ inUse.failStopped = false ∧ inUse.gaf.running = none ∧
    inUse.pow.d3Wait = false ∧ inUse.parState ≠ 0 ∧ inUse.rd Fd.APT_STATUS_State 3 ≠ 0 ∧ inUse.rd Fd.APT_STATUS_State 2 = 0 ∧
    inUse.gaf.streams ≠ [] ∧ inUse.gaf.images ≠ [] ∧ inUse.regions ≠ [] := by decide +kernel

theorem witness_BenchResetKeepsSlices_gated :
    on.rd Fd.BEN_STATUS_Gated 15 = b2n (!on.pow.domains.contains (4 * 15)) ∨
      (on.wr Fd.BEN_STATUS_Gated 1 15).rd Fd.BEN_STATUS_Gated 15 = b2n (!on.pow.domains.contains (4 * 15)) := by decide +kernel

theorem witness_ScrubEnds_killed : ∀ killed ∈ [true, false],
    let s : State := { (memory.wr Fd.CTL_JOBKILL_STATUS_Busy 1).wr Fd.CTL_JOBKILL_STATUS_Image 1 with
                       regions := [{ region1 1 with shut := true }], gaf := { images := [{ image1 2 with killed }] }, scrubs := [(1, [(State.lpBase + 4, 8)])] }
    s.working = true ∧ s.rd Fd.SPD_SCRUB_Hold ≠ 1 ∧ s.rd Fd.CTL_JOBKILL_STATUS_Image = 1 ∧
      (∀ r ∈ (after (.scrubComplete 1 0) s).regions, r.image = 1 → r.shut = false) ∧
      (∃ m ∈ s.gaf.images, m.id = 1 ∧ m.killed = killed) ∧ s.inLpddr (State.lpBase + 4) 8 = true := by decide +kernel

theorem witness_StageReverts_tally : bar0Page (bar0Of PageKind.tly.base / 0x1000 * 0x1000) = some (.tly, 0) ∧ PageKind.tly.count = 1 := by decide +kernel

theorem witness_LogRepeats_bounds :
    let l : LogEntry := ⟨1000000, 0, 1, 2, 0, 3, 0, 0, 0, 0⟩
    ∀ t ∈ [0, 2000000],
      let s : State := { on with clk := { now := t }, log := { entries := [l], nextSeq := 1 } }
      s.log.entries.getLast? = some l ∧ s.now ≤ l.time + 1000000 ∧ l.time ≤ s.now + 1000000 ∧ s.log.mirror ≤ l.seq := by decide +kernel

theorem witness_CheckEnds_rings : ∀ y ∈ [(0, 16, 17), (15, 30, 16), (15, 15, 16), (0, 31, 16)],
    let s := ((parisonAt 1).wr Fd.CTL_COMMIT_STATUS_Busy 1).wrAt Fd.CTL_RING_SizeLog2 0 y.1 y.2.2
    let s := s.wrSh Fd.CTL_RING_SizeLog2 y.2.1 0 y.1
    s.rd Fd.CTL_COMMIT_STATUS_Busy ≠ 0 ∧ s.stagedWords = [Fd.CTL_RING_SizeLog2.addr 0 y.1] ∧ s.par.staged = [] ∧ s.lnk.staged = [] ∧
      s.gaf.streams = [] ∧ s.rdSh Fd.CTL_RING_SizeLog2 0 y.1 = y.2.1 ∧ y.2.1 ≠ s.rdAt Fd.CTL_RING_SizeLog2 0 y.1 := by decide +kernel

theorem witness_ParisonApplies_words :
    let s := ((((parisonAt 3).wr Fd.GAF_PAGE_CTL_Enable 0).wrSh Fd.CTL_RING_SizeLog2 0x14 0 15).wrSh Fd.CTL_RING_Enable 1 0 15).wrSh Fd.PNT_STANDBY_BASE_LO 1
    s.applyDue = true ∧ s.begin_.applyFails = none ∧ s.par.staged = [] ∧ s.par.loads = [] ∧ s.lnk.staged = [] ∧ s.gaf.streams = [] ∧
      s.gaf.images = [] ∧ s.rd Fd.GAF_PAGE_CTL_Enable = 0 ∧ s.stagedWords = [Fd.CTL_RING_SizeLog2.addr 0 15, Fd.PNT_STANDBY_BASE_LO.addr 0 0] ∧
      (∀ a ∈ s.stagedWords, ((pageOf a).any fun x => x.1 == .ctl || x.1 == .pnt) = true) := by decide +kernel

theorem witness_ParisonApplies_entry : ∀ e ∈ [0, 4095],
    let s := (((memory.wr Fd.GAF_STREAM_BASE_HI_BaseHi (State.lpBase / 2 ^ 32)).wr Fd.CTL_COMMIT_STATUS_State 3).wrSh Fd.GAF_STREAM_BASE_HI_BaseHi (State.lpBase / 2 ^ 32))
    let s : State := { s with gaf := { table := true }, par := { staged := [e] }, lpddr := [(0x100008 + 256 * e, 7)] }
    s.applyDue = true ∧ s.begin_.applyFails = none ∧ s.par.staged = [e] ∧ s.stagedWords = [] ∧ s.par.loads = [] ∧ s.lnk.staged = [] ∧
      State.lpBase ≤ s.tableBase ∧ s.tableBase + 0x200000 ≤ State.lpBase + s.lpSize ∧ s.anyDark = false ∧
      leAt (s.shadowRaw e) 5 1 = s.entryState e ∧ s.entryState e ≠ 1 ∧ s.lpBadIn (s.tableBase + 0x100000 + 256 * e - State.lpBase) 256 = [] := by
  decide +kernel

theorem witness_FailStops_rows : (row 3).started = true ∧ (row 3).failStopped = false ∧ 3 ≤ (row 3).pow.row ∧ (row 1).started = true := by decide +kernel

theorem witness_Bar2Accesses_ranges : (State.bar2Fits 0x1FFFFF 2 = false ∧ State.bar2Fits 0x1000001 64 = false) ∧
    0x200000 ≤ 0x200000 ∧ 0xFFFFFF < 0x1000000 ∧
    (let s : State := { memory with gaf := { images := [{ image1 2 with addr := State.lpBase, len := 256 }] } }
     s.imageHolds (State.lpBase + 255) 1 = true ∧ s.imageHolds (State.lpBase + 256) 1 = false ∧ s.gaf.table = false ∧ s.siteOff 255 = false) := by
  decide +kernel

/-- The readings of a window in which every sensor of a bench reads `t`. -/
def readings (t : Int) : WindowIn := ⟨List.replicate 16 (List.replicate 8 (some t)), List.replicate 4 [some 20, some 20], List.replicate 4 (some 20), 100⟩

theorem witness_GafferEvents_windows :
    (on.started = true ∧ (on.begin_.readSensors (State.sensorsOf (readings 60))).2 = none ∧
      maxInt ((((on.begin_.readSensors (State.sensorsOf (readings 60))).1.validReadings (readings 60)).filter fun x => x.1 < 136).map (·.2)) = some 60) ∧
    (let s : State := { on with dmp := { hot := [0] } }
     s.started = true ∧ s.failStopped = false ∧ (s.begin_.readSensors (State.sensorsOf (readings 120))).2 = some 0) ∧
    (let s (div since : Nat) : State := { on with dmp := { divs := List.replicate 16 div, steps := List.replicate 16 since } }
     (15 < 16 ∧ (s 0 0).dmp.divs.length = 16 ∧ (s 0 0).dmp.steps.length = 16 ∧ (on.rd Fd.DMP_THERM_A_DivC : Int) < on.rd Fd.DMP_THERM_A_GateC) ∧
       ((s 2 100).divCode 15 < 3 ∧ 100 ≤ (s 2 100).dmp.steps.getD 15 0 ∧ ((s 2 100).inMask 15 && (s 2 100).instrumentRuns) = false) ∧
       ((s 3 0).divCode 15 = 3 ∧ (s 1 1000).divCode 15 = 1 ∧ 1000 ≤ (s 1 1000).dmp.steps.getD 15 0 ∧ (s 1 999).dmp.steps.getD 15 0 < 1000) ∧
       (∀ div ∈ [0, 3],
         let t : State := { s div 100 with gaf := { streams := [(5, stream5)] } }
         let t := (t.wr Fd.DMP_FLOOR_SFloor 2000).wr Fd.BEN_PAGE_CTL_Enable 1 15
         t.instrumentRuns = true ∧ t.inMask 15 = true ∧ t.speedSum < t.rd Fd.DMP_FLOOR_SFloor + (speedOf div - speedOf (div + 1)))) := by decide +kernel

theorem witness_GafferEvents_sweeps :
    (let m := { image1 2 with sweep := some { batch := [], next := 1 } }
     let s : State := { (parisonAt 3) with gaf := { images := [m] }, par := { whenBit := 1 } }
     s.image 1 = some m ∧ s.failStopped = false ∧ s.begin_.closable m = true ∧ s.parState = 3 ∧ s.par.whenBit = 1 ∧ s.applyDue = false) ∧
    (streaming.stream 5 = some stream5 ∧ stream5.entry = 5 ∧ stream5.state = 2 ∧ stream5.raw.length = 256) := by decide +kernel

theorem witness_LinksCarryMessages_timeouts : ∀ t ∈ [4, 5],
    let r := { round1 with limit := 5 }
    let s : State := { on with clk := { now := t }, gaf := { rounds := [r] } }
    (s.gaf.rounds.find? fun r => State.roundIs 1 3 5 0 r && !r.complete) = some r ∧ s.failStopped = false ∧ s.missingChips r = [] ∧
      (s.now < r.limit ↔ t = 4) := by decide +kernel

/-! Messages, ports, pins. -/

/-- A chip whose windows admit every chip, with a shared region and 1 GiB of LPDDR. -/
def served : State :=
  let s := (((link 2 0).wr Fd.CTL_CAP_MEM_LpddrGiB 1).wrAt Fd.LNK_APER_Enable 0 0 1).wrAt Fd.LNK_APER_AnySrc 0 0 1
  { ((s.wrAt Fd.LNK_APER_WriteOk 0 0 1).wrAt Fd.LNK_APER_AtomicOk 0 0 1).wr Fd.SPD_MODE_Partitioned 0 with
    regions := [{ region1 3 with level := 1 }], spad := [(5, 7)], lpddr := [(5, 8)] }

theorem witness_WindowServesMessages_reads :
    (let m := { msg 0 with addr := 2 ^ 33 + 2 ^ 30 - 256 }
     served.msgDue 31 m = true ∧ m.vc ≠ 2 ∧ (served.begin_.takeInbox 31 m).throughWindow m false false = .lpddr (2 ^ 30 - 256) ∧
       served.lpBadIn (2 ^ 30 - 256) 256 = []) ∧
    (served.msgDue 31 (msg 0) = true ∧ (served.begin_.takeInbox 31 (msg 0)).throughWindow (msg 0) false false = .spad 0 ∧
      served.regionAt 0 256 = some { region1 3 with level := 1 } ∧ served.rd Fd.SPD_MODE_Partitioned = 0 ∧ served.spadBadIn 0 256 = []) := by decide +kernel

theorem witness_WindowServesMessages_atomics :
    (∀ code ∈ [0, 4], served.msgDue 31 { msg 4 with code } = true ∧
      (served.begin_.takeInbox 31 { msg 4 with code }).throughWindow { msg 4 with code } true true = .spad 0 ∧
      (served.regionAt 0 256).map (·.cls) = some 3 ∧ served.spadBadIn 0 256 = []) ∧
    (∀ code ∈ [0, 3], let m := { msg 5 with code, addr := 2 ^ 33 + 32 }
      served.msgDue 31 m = true ∧ (served.begin_.takeInbox 31 m).throughWindow m false true = .lpddr 32 ∧ served.lpBadIn 32 256 = []) := by decide +kernel

theorem witness_WindowServesMessages_writes : ∀ n ∈ [0, 64], let m := { msg 2 with addr := 2 ^ 33, short := n }
    served.msgDue 31 m = true ∧ m.poison = false ∧
      (served.begin_.takeInbox 31 m).throughWindow m true false (if n % 256 = 0 then 256 else n % 256) = .lpddr 0 := by decide +kernel

theorem witness_WindowServesMessages_answers : ∀ op ∈ [1, 3],
    let x : Xfer := if op = 1 then { src := State.remoteBase + 2 * 2 ^ 36, dst := State.lpBase } else { src := 0, dst := State.remoteBase + 2 * 2 ^ 36 }
    let f := { flight1 with id := 0, remote := true, x }
    let s : State := { served with flights := [f] }
    s.msgDue 31 (msg op) = true ∧ (msg op).code = 0 ∧ (s.begin_.takeInbox 31 (msg op)).answered (msg op) = some f ∧ s.fo.probes = [] ∧
      (s.begin_.takeInbox 31 (msg op)).readsFar f.x = (op == 1) ∧ s.darkX f.x (s.flightKind f == some .initialLoad) = false ∧ f.x.xform = 0 ∧
      f.x.dstOwn = false ∧ f.x.src < 2 ^ 60 ∧ (op = 1 → s.target f.x.dst 256 = .lpddr 0) := by decide +kernel

theorem witness_WindowServesMessages_samples : ∀ i ∈ [0, 2],
    let x := { stream5 with raw := leBytes 256 (192 * 2 ^ (8 * 0x0A) + 0x1F3 * 2 ^ (8 * 0x14)), landed := [1] }
    let r := { region1 4 with level := 1 }
    let s : State := { served with gaf := { images := [image1 2], streams := [(5, x)] }, regions := [r] }
    let m := { msg 6 with addr := i * 2 ^ 12 }
    s.msgDue 31 m = true ∧ slice m.addr 12 24 = i ∧ s.channelStream 31 (slice m.addr 0 12) = some x ∧ s.stream x.entry = some x ∧ x.state = 2 ∧
      x.discard = false ∧ s.unitWaits x = false ∧ m.poison = false ∧ x.mirroring = false ∧ x.replayLen = 0 ∧ s.inBuf x.image = some r ∧
      256 * i < x.samplesAt x.curK * x.channels * 4 ∧ 256 * 2 < x.samplesAt x.curK * x.channels * 4 ∧ s.rd Fd.SPD_MODE_Partitioned = 0 ∧
      s.spadBadIn 0 (2 ^ 17) = [] := by decide +kernel

theorem witness_WindowServesMessages_contributions :
    let d := { desc 0x0D with body := leBytes 48 (2 * 2 ^ 32 + 3 * 2 ^ 64), regions := (List.range 8).map (2 ^ 31 + ·) }
    let g := leBytes 1 2 ++ leBytes 1 0 ++ leBytes 6 0 ++ leBytes 2 5 ++ leBytes 2 2 ++ List.replicate 52 0
    let m := { image1 0x0D with descs := [d], groups := [(0, g)] }
    let s : State := { served with gaf := { images := [m], streams := [(5, stream5)], rounds := [round1] }, regions := [{ region1 3 with level := 1, entry := 1, perStream := true }] }
    let c := { msg 7 with addr := 3 + 5 * 2 ^ 16 }
    s.msgDue 31 c = true ∧ s.roundFor c = some round1 ∧ s.image 1 = some m ∧ s.stream 5 = some stream5 ∧ m.descs[0]? = some d ∧ c.poison = false ∧
      m.groupOf d.group = g ∧ (groupMembers g).idxOf c.src = 1 ∧ expectedRanks d g = [1] ∧ s.resultAddr m d 0 0 0 = some 0 ∧
      s.rd Fd.SPD_MODE_Partitioned = 0 ∧ s.spadBadIn 0 256 = [] ∧ d.collOp = 0 ∧ d.redOp < 5 ∧ (s.regionAt 0 256).map (·.cls) = some 3 := by decide +kernel

theorem witness_PacketPortsRun_refused :
    (let s := (on.wr Fd.LNK_CTL_PacketMode 1 7).wr Fd.PKT_STATUS_State 2 7
     let f : EthFrame := ⟨2 ^ 48 - 1, none, true, 9018, .control, false⟩
     s.pktUp 7 = true ∧ f.body ≠ .pause ∧ f.fcsOk = true ∧ f.bytes ≤ 9018 ∧ s.acceptsMac 7 f.dstMac = true ∧ f.sumsOk = false ∧
       s.begin_.standbyWaits ⟨7, none, false, [], [], 5, 0⟩ = false) ∧
    (let x := { packet5 with state := 5 }
     let s : State := { fed with gaf := { images := [image1 2], streams := [(5, x)] } }
     s.stream 5 = some x ∧ x.entry = 5 ∧ x.cls = 0 ∧ s.failStopped = false ∧ s.begin_.egressStart x (State.packetSink x) = some 100) := by decide +kernel

theorem witness_AudioPortsRun_pins :
    (∀ n ∈ [0, 9], (((audio 1 1).setAport 15 fun a => { a with pre := n }).aptState 15 = 1 ∧
      ((audio 1 1).setAport 15 fun a => { a with pre := n }).aptMode 15 ≠ 4 ∧ ((audio 1 1).setAport 15 fun a => { a with pre := n }).prerolled 15 = (n == 0))) ∧
    (let s (stopEnd : Nat) := (audio 1 3).setAport 15 fun a => { a with stopEnd }
     (s 0).aptState 15 = 3 ∧ ((s 0).aport 15).stopEnd ≤ (s 0).now ∧ (s 0).rd Fd.APT_PAGE_CTL_Enable 15 = 0 ∧ (s 9).now < ((s 9).aport 15).stopEnd) ∧
    (let s (last : Option Nat) : State := { on with gens := [{ last }, {}, {}, {}] }
     ((s none).begin_.seePins []).updateDue 0 = true ∧ ((s (some 0)).begin_.seePins []).updateDue 0 = false) := by decide +kernel

/-! One step each. -/

theorem test_registerWrite_clears : let s := on.wr Fd.CTL_PAGE_ERR_CommitBusy 1
    (after (.registerWrite 0x10 4 (s.word 0x10).toNat) s).rd Fd.CTL_PAGE_ERR_CommitBusy = 0 := by decide +kernel
-- 02 R35: a 16-bit write sets BadWrite and changes nothing else.
theorem test_registerWrite_narrow : (after (.registerWrite 0x11C 2 1) on).rd (Fd.PAGE_ERR_BadWrite .ctl) = 1 ∧
    (after (.registerWrite 0x11C 2 1) on).word 0x11C = on.word 0x11C := by decide +kernel
-- 02 R38, R41: a shadow write leaves the live copy and opens the parison.
theorem test_shadowWrite : let t := after (.shadowWrite 0x908 0x14) on
    t.rdSh Fd.CTL_RING_SizeLog2 0 0 = 0x14 ∧ t.rdAt Fd.CTL_RING_SizeLog2 0 0 = 0x10 ∧ t.parState = 1 := by decide +kernel
theorem test_stageRevert : let t := after (.stageRevert 0) (after (.shadowWrite 0x908 0x14) on)
    t.rdSh Fd.CTL_RING_SizeLog2 0 0 = 0x10 ∧ t.parState = 1 := by decide +kernel
-- 02 R42: CHECK in IDLE gives OK, in ARMED NOT_CHECKED.
theorem test_check : (after .check on).parState = 0 ∧ (after .check (parisonAt 3)).rd Fd.CTL_COMMIT_STATUS_Code = 1 ∧
    (after .check (parisonAt 1)).rd Fd.CTL_COMMIT_STATUS_Busy = 1 := by decide +kernel
theorem test_checkComplete : (after .checkComplete (after .check (parisonAt 1))).parState = 2 ∧
    (after .checkComplete (after .check (parisonAt 1))).rd Fd.CTL_COMMIT_STATUS_Busy = 0 := by decide +kernel
-- 02 R45: a time less than 2 µs ahead is past.
theorem test_apply : (after (.apply 0) (parisonAt 2)).rd Fd.CTL_COMMIT_STATUS_Code = 2 ∧
    (after (.apply 0) ((parisonAt 2).wr Fd.CTL_COMMIT_TIME_LO 2000)).parState = 3 := by decide +kernel
theorem test_abandon : (after .abandon (parisonAt 2)).parState = 0 ∧ (after .abandon (parisonAt 2)).rd Fd.CTL_COMMIT_STATUS_Code = 0x10 := by decide +kernel
theorem test_parisonApplication : let t := after .parisonApplication ((parisonAt 3).wrSh Fd.CTL_RING_SizeLog2 0x14 0 0)
    t.rdAt Fd.CTL_RING_SizeLog2 0 0 = 0x14 ∧ t.parState = 0 ∧ t.rd Fd.CTL_COMMIT_SEQ = 1 := by decide +kernel
-- 03 R83: with no table in force a stream-table access is unmapped.
theorem test_bar2StreamWrite : (after (.bar2StreamWrite 0 [1]) on).rd (Fd.PAGE_ERR_Unmapped .ctl) = 1 := by decide +kernel
theorem test_bar2ApertureAccess : (after (.bar2ApertureAccess 0x1000000 4 (some [1, 2, 3, 4])) memory).devBytes State.lpBase 5 = [1, 2, 3, 4, 0] ∧
    (after (.bar2ApertureAccess 0x1000000 2 none) memory).out = [.bar2 [0, 0] false] := by decide +kernel
theorem test_bar2DebugAccess : (after (.bar2DebugAccess 0xF000000 4 none) on).out = [.bar2 [0, 0, 0, 0] false] ∧
    (after (.bar2DebugAccess 0xF000000 4 none) on).rd Fd.SPD_PAGE_ERR_DebugClosed = 1 := by decide +kernel
theorem test_cntNowRead : let t := after (.cntNowRead 0x100 4) { on with clk := { now := 0x123456789A } }
    t.out = [.bar0 0x3456789A] ∧ t.rd Fd.CNT_NOW_HI = 0x12 := by decide +kernel
-- 04 R120: an entry of -128 is refused.
theorem test_codebookWrite : (after (.codebookWrite 5 0x7F81007F) on).word (Fd.GAF_CB_TABLE_Entry0.addr 0 0 + 20) = 0x7F81007F ∧
    (after (.codebookWrite 5 0x00800000) on).word (Fd.GAF_CB_TABLE_Entry0.addr 0 0 + 20) = 0 := by decide +kernel
theorem test_vector_completes : (after (.vector ⟨[], [], []⟩) (running 2 0)).gaf.running = none ∧
    (after (.matrix ⟨[], [], []⟩) (running 2 0)).gaf.running = (running 2 0).gaf.running := by decide +kernel
-- 03 R58: a source that stops faults its stream with code 4.
theorem test_sourceTimeout : let t := after (.sourceTimeout 5) streaming
    t.rd Fd.GAF_PAGE_ERR_StreamFault = 1 ∧ (t.stream 5).map (·.state) = some 5 := by decide +kernel
theorem test_sweepClose : let m := { image1 2 with sweep := some { batch := [], next := 1 } }
    ((after (.sweepClose 1) { on with gaf := { images := [m] } }).image 1).map (·.sweep) = some none := by decide +kernel
theorem test_barrierWatchdog : (after .barrierWatchdog on).failStopped = false := by decide +kernel
theorem test_benchPowerGood : (after (.benchPowerGood 3) { on with dmp := { ungating := [3] } }).inMask 3 = true := by decide +kernel
-- 10 R253: ADD_I32 wraps and MIN_I32 is signed.
theorem test_scratchpadAtomic : let s : State := { on.wr Fd.SPD_MODE_Partitioned 0 with regions := [region1 3], spad := [(0, 1)] }
    (after (.scratchpadAtomic 0 0 0 (leBytes 4 0xFFFFFFFF ++ leBytes 4 5) true) s).spadBytes 0 8 = [0, 0, 0, 0, 5, 0, 0, 0] ∧
    (after (.scratchpadAtomic 0 0 3 (leBytes 4 0xFFFFFFFF ++ leBytes 4 5) true) s).spadBytes 0 8 = [0xFF, 0xFF, 0xFF, 0xFF, 0, 0, 0, 0] := by decide +kernel
theorem test_scratchpadAtomic_misuse : (after (.scratchpadAtomic 0 256 0 (leBytes 8 1) false) { on with regions := [region1 1] }).rd Fd.SPD_PAGE_ERR_AtomicMisuse = 1 := by decide +kernel
theorem test_scratchpadPatrol : (after (.scratchpadPatrol 1 [256] []) { on with regions := [region1 1] }).rd Fd.COR_CORR_CNT 1 = 1 := by decide +kernel
theorem test_scrubComplete : (after (.scrubComplete 1 0) { memory with scrubs := [(1, [(State.lpBase, 4096)])], lpddr := [(7, 1)] }).lpddr = [] := by decide +kernel
theorem test_scrubHold : (after (.scrubHold 1) present).rd Fd.SPD_SCRUB_Hold = 1 ∧ (after (.scrubHold 1) on).rd Fd.SPD_SCRUB_Hold = 0 := by decide +kernel
theorem test_lpddrAccess : (after (.lpddrAccess .mp 64 2 (some [7, 8]) goodMem) memory).lpBytes 63 4 = [0, 7, 8, 0] ∧
    (after (.lpddrAccess (.gather 3) (2 ^ 30 - 1) 2 none goodMem) memory).rd (Fd.PAGE_ERR_Unmapped .gth) 3 = 1 := by decide +kernel
-- 12 R287: code 1 adds 64-bit elements.
theorem test_lpddrAtomic : (after (.lpddrAtomic .mp 0 1 (leBytes 8 (2 ^ 64 - 1) ++ leBytes 24 0) false goodMem)
    { memory with lpddr := [(1, 1)] }).lpBytes 0 8 = [0xFF, 0, 0, 0, 0, 0, 0, 0] := by decide +kernel
-- 12 R294: above 85 °C refresh goes to step 1, above 95 °C to step 2; it falls after two readings at most 82 °C.
theorem test_stackTempRead : (after (.stackTempRead 0 (some 86)) on).rd Fd.XMC_TEMP_RefreshStep = 1 ∧
    (after (.stackTempRead 0 (some 96)) on).rd Fd.XMC_PAGE_ERR_HotStep = 1 ∧
    (after (.stackTempRead 0 (some 82)) (after (.stackTempRead 0 (some 86)) on)).rd Fd.XMC_TEMP_RefreshStep = 1 ∧
    (after (.stackTempRead 0 (some 82)) (after (.stackTempRead 0 (some 82)) (on.wr Fd.XMC_TEMP_RefreshStep 1))).rd Fd.XMC_TEMP_RefreshStep = 0 := by decide +kernel
theorem test_xmcEnableWrite : (after (.xmcEnableWrite 2 0) on).rd Fd.XMC_PAGE_CTL_Enable 2 = 0 ∧
    (after (.xmcEnableWrite 2 0) streaming).rd Fd.XMC_PAGE_CTL_Enable 2 = 1 := by decide +kernel
theorem test_marginGo : (after (.marginGo 2 0x10000) on).rd Fd.XMC_PAGE_ERR_MarginRefused 2 = 1 ∧
    (after (.marginGo 2 0x10013) (on.wr Fd.XMC_PAGE_CTL_Enable 0 2)).rd Fd.XMC_MARGIN_CTL_Lane 2 = 1 := by decide +kernel
theorem test_frameReceive_bad : (after (.frameReceive 31 [List.replicate 544 1, List.replicate 544 1] []) on).lnk = on.lnk := by decide +kernel
-- 13 R316: a request outside the window is answered with zeros and a refusal.
theorem test_readRequest : ((after (.readRequest 31 { msg 0 with addr := 2 ^ 35 } goodMem) (link 2 0)).rd Fd.LNK_STATUS_State 31) = 2 := by decide +kernel
theorem test_roundTimeout : let s : State := { on with gaf := { rounds := [round1] } }
    (after (.roundTimeout 1 3 5 0) s).rd Fd.LNK_TIMEOUT_CNT = 1 ∧ (after (.roundTimeout 1 3 5 1) s).rd Fd.LNK_TIMEOUT_CNT = 0 := by decide +kernel
theorem test_retrain : (after (.retrain 31) (link 2 0)).rd Fd.LNK_STATUS_State 31 = 1 := by decide +kernel
theorem test_lnkPortEnableWrite : (after (.lnkPortEnableWrite 31 0) (link 2 0)).rd Fd.LNK_STATUS_State 31 = 0 ∧
    (after (.lnkPortEnableWrite 31 0) (link 2 0)).out = [.stopMarker 31] := by decide +kernel
theorem test_keyHandshakeTimeout : (after (.keyHandshakeTimeout 31) (link 2 2)).rd Fd.LNK_KEY_STATUS_Fail 31 = 4 := by decide +kernel
theorem test_packetPortUp : (after (.packetPortUp 7) (on.wr Fd.LNK_CTL_PacketMode 1 7)).rd Fd.PKT_STATUS_State 7 = 2 := by decide +kernel
theorem test_ptpAnnounceTimeout : (after .ptpAnnounceTimeout (on.wr Fd.PKT_PTP_STATE_State 2)).rd Fd.PKT_PTP_STATE_State = 3 := by decide +kernel
theorem test_aptStart : (after (.aptStart 15) (audio 1 0)).rd Fd.APT_STATUS_State 15 = 1 := by decide +kernel
theorem test_aptStop : (after (.aptStop 15) (audio 1 2)).rd Fd.APT_STATUS_State 15 = 3 := by decide +kernel
theorem test_iecBlockReceive : (after (.iecBlockReceive 15 (List.replicate 384 false) (List.replicate 384 true))
    ((audio 4 2).wr Fd.APT_STATUS_Locked 1 15)).rdAt Fd.APT_IEC_URX 15 11 = 0xFFFFFFFF := by decide +kernel
theorem test_syncHoldover : (after .syncHoldover (follower.wr Fd.CNT_STATUS_SyncState 2)).rd Fd.CNT_PAGE_ERR_SyncLost = 1 := by decide +kernel
theorem test_cntSet : (after .cntSet (on.wr Fd.CNT_SET_HI 1)).clk.now = 2 ^ 32 := by decide +kernel
theorem test_cntAlign : (after .cntAlign follower).rd Fd.CNT_STATUS_AlignArmed = 1 ∧ (after .cntAlign on).rd (Fd.PAGE_ERR_BadWrite .cnt) = 1 := by decide +kernel
theorem test_pntFailstopCmd : (after (.pntFailstopCmd 0xF5A00001) on).failStopped = false := by decide +kernel
theorem test_railFault : exec (.railFault .coreExcursion) on = .fault .railUnspecified := rfl
theorem test_softReset : (after (.softReset 0xC3D20001) on).rd Fd.CTL_RESET_CAUSE_Last = 3 ∧
    (after (.softReset 1) on).rd (Fd.PAGE_ERR_BadWrite .ctl) = 1 := by decide +kernel
theorem test_coldReset : (after .coldReset streaming).gaf.streams = [] ∧ (after .coldReset streaming).pow.perst = true := by decide +kernel
theorem test_jobKill : ((after (.jobKill 0x80000001) streaming).stream 5) = none ∧
    (after (.jobKill 0x80000001) streaming).rd Fd.CTL_JOBKILL_STATUS_Image = 1 := by decide +kernel
theorem test_dormant : (after (.dormantRequest 1) on).rd Fd.CTL_POWER_STATUS_State = 1 ∧
    (after .dormantEntered (after (.dormantRequest 1) on)).rd Fd.CTL_POWER_STATUS_State = 2 := by decide +kernel
theorem test_consWrite : let t := after (.consWrite 3 0x12345) (on.wrAt Fd.CTL_RING_ConsLo 0 3 7)
    (t.rings.getD 3 {}).cons = 7 + 2 ^ 32 * 0x12345 := by decide +kernel
theorem test_evtClear : (after .evtClear { on with evt := [(3, 9)] }).evt = [] := by decide +kernel
theorem test_evtCntLoRead : (after (.evtCntLoRead 0 0x218 4) { on with evt := [(3, 2 ^ 32 + 9)] }).out = [.bar0 9] := by decide +kernel
theorem test_presence : (after .presenceOpen on).rd Fd.SEC_PRESENCE_Open = 1 ∧ (after .presenceOpen (after .presenceOpen on)).rd Fd.SEC_PRESENCE_CNT = 1 ∧
    (after .presenceExpire (after .presenceOpen on)).rd Fd.SEC_PRESENCE_Open = 0 := by decide +kernel
theorem test_install_denied : (after .install on).rd Fd.SEC_PAGE_ERR_PresenceDenied = 1 ∧ (after .install on).rd Fd.SEC_CMD_STATUS_Result = 1 := by decide +kernel
theorem test_debugUnlock : (after (.secCmdComplete true) { (busy 3).wr Fd.SEC_PRESENCE_Open 1 with sec := { cmd := 3 } }).rd Fd.SEC_DEBUG_Unlocked = 1 := by decide +kernel
-- 19 R439: a second successive mismatch opens a closed loop.
theorem test_sealSample : let s : State := { on with tly := { closed := true, judged := true, missRun := 1 } }
    (after (.sealSample false) s).tly.opens = 1 ∧ (after (.sealSample true) s).tly.opens = 0 := by decide +kernel
theorem test_bootFuses : (after (.bootFuses true 0) State.reset).pow.row = 2 ∧ (after (.bootFuses false 3) State.reset).rd Fd.CTL_BOOT_Fail = 1 := by decide +kernel
theorem test_deviceReady : (after .deviceReady (row 8)).rd (Fd.PAGE_STATUS_Ready .ctl) = 1 ∧ (after .deviceReady (row 8)).rd Fd.SEC_BOOT_CNT = 1 := by decide +kernel
theorem test_configRequest : (after (.configRequest none) (row 3)).out = [.config false] ∧ (after (.configRequest none) (row 4)).out = [.config true] := by decide +kernel
theorem test_jtag : (after (.jtagInstruction 1) on).out = [.jtag 32 0x000963A7] := by decide +kernel
theorem test_tick : (match step on with | .next t => t.clk.now | _ => 7) = 1 := by decide +kernel

/-! Numbers. -/

-- 04 R85: binary16 and BF16 values; 1.5 rounded to nearest even as BF16.
theorem test_fp16 : fp32.encode (fp16.decode 0x3C00) = 0x3F800000 ∧ fp16.encode (fp32.decode 0x477FF000) = 0x7C00 ∧
    bf16.encode (fp32.decode 0x3FC00000) = 0x3FC0 ∧ bf16.encode (fp32.decode 0x3F808000) = 0x3F80 ∧ bf16.encode (fp32.decode 0x3F818000) = 0x3F82 := by decide +kernel
theorem test_fadd : fadd 0x3F800000 0x40000000 = 0x40400000 ∧ fmul 0x3F000000 0x40800000 = 0x40000000 := by decide +kernel

end Sys2Proof.Tests
end

section
/-! PROOFS. The words of the register pages as the host meets them (02 R33 to R35): where a page answers, and that a bit which no field
covers reads 0 and refuses the write that sets it. From these, PAGE_CTL.Enable on the pages that do not define it (R472). -/
namespace Sys2Proof.Machine
open Sys2Proof

/-! The page at a BAR0 offset. -/

theorem base_mod (k : PageKind) : k.base % 0x1000 = 0 := by cases k <;> rfl

theorem bar0Of_mod (k : PageKind) {i o : Nat} (ho : o < 0x1000) : bar0Of (k.base + 0x1000 * i + o) % 0x1000 = o := by
  have hb := base_mod k
  unfold bar0Of
  split <;> omega

/-- Every page but those of LNK, of which PKT pages hide some (notes/assumptions/39.md), answers where the register file holds it. -/
theorem bar0Page_bar0Of {k : PageKind} {i o : Nat} (hk : k ≠ .lnk) (hi : i < k.count) (ho : o < 0x1000) :
    bar0Page (bar0Of (k.base + 0x1000 * i + o)) = some (k, i) := by
  have hp := pageOf_at hi ho
  by_cases hpkt : k = .pkt
  · subst hpkt
    simp only [PageKind.base, PageKind.count] at hi ⊢
    rw [bar0Of, if_pos (by omega), bar0Page, if_pos (by omega)]
    congr 2
    omega
  · have hr : k.base + 0x1000 * k.count ≤ 0x320000 ∨ 0x328000 ≤ k.base ∧ k.base + 0x1000 * k.count ≤ 0x1000000 := by
      revert hk hpkt
      cases k <;> decide
    rw [bar0Of, if_neg (by omega), bar0Page, if_neg (by omega), if_pos (by omega), hp]

/-! Bits of a word and the fields that cover them. -/

theorem testBit_fieldMask (f : Field) (j : Nat) :
    ((2 ^ f.width - 1) * 2 ^ f.lsb).testBit j = decide (f.lsb ≤ j ∧ j < f.lsb + f.width) := by
  rw [Nat.testBit_mul_two_pow, Nat.testBit_two_pow_sub_one, Bool.eq_iff_iff]
  simp only [Bool.and_eq_true, decide_eq_true_eq]
  omega

/-- `coverOf` holds the bits of the fields of the list and no others. -/
theorem testBit_coverOf {fs : List Field} {j : Nat} :
    (coverOf fs).testBit j = true ↔ ∃ f ∈ fs, f.lsb ≤ j ∧ j < f.lsb + f.width := by
  have go : ∀ m : Nat, (fs.foldl (fun m (f : Field) => m ||| ((2 ^ f.width - 1) * 2 ^ f.lsb)) m).testBit j = true ↔
      m.testBit j = true ∨ ∃ f ∈ fs, f.lsb ≤ j ∧ j < f.lsb + f.width := by
    induction fs with
    | nil => simp
    | cons f fs ih =>
      intro m
      rw [List.foldl_cons, ih, Nat.testBit_or, testBit_fieldMask]
      simp [or_assoc]
  simpa [coverOf] using go 0

theorem coverOf_filter_testBit {fs : List Field} {p : Field → Bool} {j : Nat} (h : (coverOf fs).testBit j = false) :
    (coverOf (fs.filter p)).testBit j = false := by
  rw [← Bool.not_eq_true, testBit_coverOf] at h ⊢
  rintro ⟨f, hf, hj⟩
  exact h ⟨f, (List.mem_filter.1 hf).1, hj⟩

/-- A value that sets a bit which no field covers is refused (R35). -/
theorem badValue_of_uncovered {fs : List Field} {i w j : Nat} (h : (coverOf fs).testBit j = false) (hw : w.testBit j = true) :
    badValue fs i w = true := by
  have hne : w &&& coverOf fs ≠ w := fun e => by
    rw [← e, Nat.testBit_and, h, Bool.and_false] at hw
    exact nomatch hw
  simp [badValue, hne]

namespace State

variable {s : State} {k : PageKind} {i a j : Nat}

/-- A bit that no field covers reads 0, in every word but the two that are computed whole. -/
theorem liveWord_testBit_of_uncovered {off : Nat} (h8 : off ≠ 8) (h18 : off ≠ 0x18)
    (h : (coverOf (k.wordFields i off)).testBit j = false) : (s.liveWord k i off).testBit j = false := by
  simp only [liveWord, if_neg h8, if_neg h18]
  split
  · exact Nat.zero_testBit j
  · rw [Nat.testBit_and, coverOf_filter_testBit h, Bool.and_false]

/-- A read of a live word returns it. -/
theorem readWord_live (hp : bar0Page a = some (k, i)) (ha : a % 0x1000 < 0x800) :
    (s.readWord a).1 = s.liveWord k i (a % 0x1000) % 2 ^ 32 := by
  unfold readWord
  rw [hp]
  dsimp only
  rw [if_neg (by omega), if_neg (by omega)]

theorem exec_registerWrite {n w : Nat} : exec (.registerWrite a n w) s = .next (s.begin_.bar0Write a n w) := rfl

theorem hostWrites_iff : s.hostWrites = true ↔ s.hostUp = true ∧ s.writesShut = false := by
  simp [hostWrites]

/-- While writes are taken, an aligned word written to the live half of a page goes to its register. -/
theorem bar0Write_live {w : Nat} (hs : s.hostWrites = true) (hp : bar0Page a = some (k, i)) (h4 : a % 4 = 0)
    (ha : a % 0x1000 < 0x800) : s.bar0Write a 4 w = s.writeLive k i (a % 0x1000) (w % 2 ^ 32) := by
  obtain ⟨hup, hopen⟩ := hostWrites_iff.1 hs
  unfold bar0Write writeWord
  rw [hp]
  simp [hup, hopen, h4, show ¬ 0xF00 ≤ a % 0x1000 by omega, show ¬ 0x800 ≤ a % 0x1000 by omega]

/-- A write that sets a bit which no field covers is dropped with BadWrite (R35). -/
theorem writeLive_of_uncovered {off w : Nat} (h : (coverOf (k.wordFields i off)).testBit j = false) (hw : w.testBit j = true) :
    s.writeLive k i off w = s.badWrite k i := by
  have hr : refuses k i off w = true := by simp [refuses, badValue_of_uncovered h hw]
  rw [writeLive, if_pos hr]

end State

/-! PAGE_CTL (R472). -/

/-- The page kinds whose owning chapter defines PAGE_CTL.Enable. -/
def enableKinds : List PageKind := [.gaf, .ben, .gth, .xmc, .lnk, .pkt, .apt, .pnt, .dmp]

theorem ne_lnk_of_not_enableKinds {k : PageKind} (h : k ∉ enableKinds) : k ≠ .lnk := by
  rintro rfl
  exact h (by decide)

/-- The page kind has a PAGE_CTL field at bit 0. -/
def PageKind.hasEnable (k : PageKind) : Bool := k.fields.any fun f => f.off == 0xC && f.lsb == 0

theorem hasEnable_eq (k : PageKind) : k.hasEnable = decide (k ∈ enableKinds) := by
  cases k <;> decide

theorem hasEnable_iff (k : PageKind) : k.hasEnable = true ↔ ∃ f, f ∈ k.fields ∧ f.off = 0xC ∧ f.lsb = 0 := by
  simp [PageKind.hasEnable]

/-- No repeated field starts before PAGE_CTL and reaches it. -/
theorem off_of_atOff_pageCtl {k : PageKind} {f : Field} (hf : f ∈ k.fields) (h : (f.atOff 0xC).isSome = true) : f.off = 0xC := by
  have hall : k.fields.all (fun f => !(f.atOff 0xC).isSome || f.off == 0xC) = true := by cases k <;> decide
  simpa [h] using List.all_eq_true.1 hall f hf

theorem mem_wordFields {k : PageKind} {i off : Nat} {f : Field} (h : f ∈ k.wordFields i off) :
    f ∈ k.fields ∧ (f.atOff off).isSome = true := by
  unfold PageKind.wordFields at h
  split at h
  · exact nomatch h
  · obtain ⟨hf, hp⟩ := List.mem_filter.1 h
    exact ⟨hf, (Bool.and_eq_true_iff.1 hp).1⟩

/-- Where no Enable is defined, no field covers bit 0 of PAGE_CTL. -/
theorem pageCtl_bit0_uncovered {k : PageKind} {i : Nat} (h : k ∉ enableKinds) :
    (coverOf (k.wordFields i 0xC)).testBit 0 = false := by
  rw [← Bool.not_eq_true, testBit_coverOf]
  rintro ⟨f, hf, hlsb, -⟩
  obtain ⟨hmem, hat⟩ := mem_wordFields hf
  have hen : k.hasEnable = true := (hasEnable_iff k).2 ⟨f, hmem, off_of_atOff_pageCtl hmem hat, Nat.le_zero.1 hlsb⟩
  exact h (of_decide_eq_true (hasEnable_eq k ▸ hen))

theorem pageCtl_bit0_reads_zero {k : PageKind} {i : Nat} (s : State) (h : k ∉ enableKinds) (hi : i < k.count) :
    (s.readWord (bar0Of (k.base + 0x1000 * i + 0xC))).1 % 2 = 0 := by
  have hp := bar0Page_bar0Of (o := 0xC) (ne_lnk_of_not_enableKinds h) hi (by decide)
  have hm := bar0Of_mod k (i := i) (o := 0xC) (by decide)
  have hbit := State.liveWord_testBit_of_uncovered (s := s) (by decide) (by decide) (pageCtl_bit0_uncovered (i := i) h)
  rw [State.readWord_live hp (by omega), hm]
  rw [Nat.testBit_zero, decide_eq_false_iff_not] at hbit
  omega

theorem pageCtl_bit0_write_dropped {k : PageKind} {i w : Nat} {s : State} (h : k ∉ enableKinds) (hi : i < k.count)
    (hs : s.hostWrites = true) (hw : w % 2 = 1) :
    exec (.registerWrite (bar0Of (k.base + 0x1000 * i + 0xC)) 4 w) s = .next (s.begin_.badWrite k i) := by
  have hp := bar0Page_bar0Of (o := 0xC) (ne_lnk_of_not_enableKinds h) hi (by decide)
  have hm := bar0Of_mod k (i := i) (o := 0xC) (by decide)
  have hbit : (w % 2 ^ 32).testBit 0 = true := by simpa [Nat.testBit_mod_two_pow] using hw
  have hbegin : s.begin_.hostWrites = true := hs
  rw [State.exec_registerWrite, State.bar0Write_live hbegin hp (by omega) (by omega), hm,
    State.writeLive_of_uncovered (pageCtl_bit0_uncovered h) hbit]

/-- Settles O36: the field tables have an Enable on exactly the nine kinds, and on any other page bit 0 of PAGE_CTL is one that no
field covers. -/
theorem enableOnlyWhereDefined : Obligations.EnableOnlyWhereDefined := by
  intro k
  refine ⟨?_, fun hk s i hi => ?_⟩
  · rw [← hasEnable_iff, hasEnable_eq, decide_eq_true_iff, enableKinds]
  · have hno : k ∉ enableKinds := by
      revert hk
      cases k <;> decide
    exact ⟨pageCtl_bit0_reads_zero s hno hi, fun hs _ hw => pageCtl_bit0_write_dropped hno hi hs hw⟩

end Sys2Proof.Machine
end

section
/-! PROOFS. Group scales (04 R90): what makes one valid, and that NaN goes from a scale through the product to every output format (R102). -/
namespace Sys2Proof.Machine
open Sys2Proof

/-! Validity of a scale. -/

/-- The sign bit of a binary16 word is its topmost digit. -/
theorem testBit_fifteen_eq_false_iff {c : Nat} (hc : c < 2 ^ 16) : c.testBit 15 = false ↔ c / 2 ^ 15 = 0 := by
  rw [Nat.testBit_eq_decide_div_mod_eq, decide_eq_false_iff_not]
  omega

theorem scaleOk_iff {c : Nat} (hc : c < 2 ^ 16) : scaleOk c = true ↔ c / 2 ^ 15 = 0 ∧ c / 2 ^ 10 % 32 ≠ 31 := by
  rw [scaleOk, Bool.and_eq_true, Bool.not_eq_true', testBit_fifteen_eq_false_iff hc, bne_iff_ne, slice, Nat.shiftRight_eq_div_pow,
    show 2 ^ 5 = 32 from rfl]

/-- Zero and the subnormals: both the sign and the exponent field are 0. -/
theorem scaleOk_of_exponent_zero {c : Nat} (h : c < 2 ^ 10) : scaleOk c = true :=
  (scaleOk_iff (by omega)).2 (by omega)

theorem scaleVal_of_scaleOk {c : Nat} (h : scaleOk c = true) : scaleVal c = fp16.decode c := if_pos h

theorem scaleVal_of_not_scaleOk {c : Nat} (h : scaleOk c = false) : scaleVal c = .nan := by
  rw [scaleVal, h, if_neg Bool.false_ne_true]

/-! NaN in a product and in its conversion. -/

@[simp] theorem fvProd_nan_left (x : FVal) : fvProd .nan x = .nan := rfl

@[simp] theorem fvProd_nan_right (x : FVal) : fvProd x .nan = .nan := by cases x <;> rfl

/-- The canonical FP32 NaN is read back as NaN. -/
@[simp] theorem fp32_decode_encode_nan : fp32.decode (fp32.encode .nan) = .nan := by decide

theorem convertA8_of_nan {x : Nat} (h : fp32.decode x = .nan) (sym : Bool) (r : Rnd) (v z : Nat) :
    convertA8 sym r x v z = if sym then 0 else z := by
  simp [convertA8, h]

theorem convertFp_of_nan {x : Nat} (h : fp32.decode x = .nan) (fmt : Nat) (r : Rnd) (nanZero : Bool) :
    convertFp fmt r nanZero x = if nanZero then 0 else (if fmt = 3 then e4m3 else if fmt = 4 then e5m2 else bf16).nanBits := by
  simp [convertFp, h]

/-- Settles O60: an invalid scale is NaN as a datum, a product with NaN is NaN on either side, and the conversions take the NaN row of
R102. -/
theorem invalidScalesMakeNan : Obligations.InvalidScalesMakeNan := by
  intro c hc
  refine ⟨scaleOk_iff hc, scaleOk_of_exponent_zero, scaleVal_of_scaleOk, fun hbad x => ?_⟩
  have hprod : fvProd x (scaleVal c) = .nan := by rw [scaleVal_of_not_scaleOk hbad, fvProd_nan_right]
  have hread : fp32.decode (fp32.encode (fvProd x (scaleVal c))) = .nan := by rw [hprod, fp32_decode_encode_nan]
  refine ⟨by rw [scaleVal_of_not_scaleOk hbad, fvProd_nan_left], hprod, fun r v z => ?_⟩
  exact ⟨convertA8_of_nan hread true r v z, convertA8_of_nan hread false r v z,
    fun fmt _ => ⟨convertFp_of_nan hread fmt r true, convertFp_of_nan hread fmt r false⟩⟩

end Sys2Proof.Machine
end

section
/-! PROOFS. The log's repeat rule (18 R433): an event with the newest entry's key, near it in time and before it is mirrored. -/
namespace Sys2Proof.Machine
open Sys2Proof

/-- The entry after one more event of its key: Repeat saturates at 255 (R433). -/
def LogEntry.again (l : LogEntry) : LogEntry := { l with rep := Nat.min 255 (l.rep + 1) }

/-- An event repeats an entry: the five fields of the key agree, the times are within 1 ms and the entry is not yet mirrored (R433). -/
structure LogEntry.RepeatedBy (l : LogEntry) (s : State) (pageType kind inst code d1 : Nat) : Prop where
  pageType_eq : l.pageType = pageType
  inst_eq : l.inst = inst
  kind_eq : l.kind = kind
  code_eq : l.code = code
  d1_eq : l.d1 = d1
  now_le : s.now ≤ l.time + 1000000
  time_le : l.time ≤ s.now + 1000000
  unmirrored : s.log.mirror ≤ l.seq

namespace State

/-- The repeat branch of `logAdd`: only the newest entry changes. -/
theorem logAdd_of_repeatedBy {s : State} {l : LogEntry} {pageType kind inst code d1 : Nat}
    (hnewest : s.log.entries.getLast? = some l) (hrep : l.RepeatedBy s pageType kind inst code d1) (d0 d2 : Nat) :
    s.logAdd pageType kind inst code d0 d1 d2 =
      { s with log := { s.log with entries := s.log.entries.dropLast ++ [l.again] } } := by
  obtain ⟨hpage, hinst, hkind, hcode, hd1, hnow, htime, hmirror⟩ := hrep
  simp only [logAdd, hnewest]
  exact if_pos ⟨hpage, hinst, hkind, hcode, hd1, hnow, htime, hmirror⟩

end State

/-- Settles O40: an event that carries the newest entry's own key takes the repeat branch of `logAdd`. -/
theorem logRepeats : Obligations.LogRepeats := by
  intro s l d0 d2 hnewest hnow htime hmirror
  exact State.logAdd_of_repeatedBy hnewest ⟨rfl, rfl, rfl, rfl, rfl, hnow, htime, hmirror⟩ d0 d2

end Sys2Proof.Machine
end
